-- ==== Sys2Proof/Word.lean ====
section
/-! DEFINITION. The machine words of the Izxaca: bytes, 32-bit register words, 64-bit words, and their plainest arithmetic (R4). -/

namespace Sys2Proof

/-- One byte, the smallest addressable unit of every memory of the Izxaca. -/
abbrev Byte := BitVec 8

/-- A 32-bit register word. -/
abbrev Word := BitVec 32

/-- A 64-bit word. -/
abbrev DWord := BitVec 64

end Sys2Proof
end

