-- ==== Sys2Proof/Syntax.lean ====
section
/-! DEFINITION. The commands of the block: one constructor of Instr for each row of spec/opcode_table.json, in the table's order, with the operands the environment chooses (who sends it, where it acts, what arrived with it). -/

namespace Sys2Proof

/-- One of the six host ports (R3). -/
abbrev Port := Fin 6

/-- A requester of the register pages, the control complex and the doorbells (R402 REQ, R410). A core is named by its logical number. -/
inductive Requester where
  | port (p : Port)
  | core (l : Fin 16)
  | trust
  | debug
deriving DecidableEq, Repr, Inhabited

/-- The CXL Meta0-State MetaValue a request carries (R117): invalid, shared or any. -/
inductive MetaValue where
  | I | S | A
deriving DecidableEq, Repr, Inhabited

/-- The answers a holder may send to a back-invalidate snoop (R230). -/
inductive BIRspKind where
  | invalid | shared | exclusive | block
deriving DecidableEq, Repr, Inhabited

/-- The bit errors the DRAM or SRAM cell array holds in one codeword at the moment it is read: which of a line's four codewords, and the mask of wrong bits of its 144 (128 data bits low, then 16 check bits) (R333); or, where the codeword read is that of the tile's or the cask's map entry, the mask alone (R50). -/
inductive Upset where
  | none
  | hit (codeword : Fin 4) (flips : BitVec 144)
  | tileMap (flips : BitVec 144)
  | caskMap (flips : BitVec 144)
deriving DecidableEq, Repr, Inhabited

/-- What comes to a line from outside the block within an indivisible step, by its unified address: the bytes that a partner's memory answered, with the EP mark (R243), for a line of the host tier; or, where upset is not none, the wrong bits that the cells of the line hold, in the vat or in the sector of that number of its cask, or those of the map entry that is read for it (R333). -/
structure HostLine where
  addr : Nat
  data : List Byte
  ep : Bool
  upset : Upset := .none
deriving DecidableEq, Repr, Inhabited

/-- What a configuration request, or another request over CXL.io that no row of its own describes, names: a writable field (R232, R233, R235, R236, R238, R252, R255, R369); a read of a word of configuration space; an access to BAR4 with its width in bytes (R235); an MMIO write to a BAR that arrives with EP set (R243); a request the function does not support (R245); the message that takes the link to L2/L3 Ready (R226); a DOE object of a size (R256). -/
inductive CfgField where
  | interruptDisable
  | ptmEnable
  | initiateFlr
  | enableRelaxedOrdering
  | enableNoSnoop
  | idoRequestEnable
  | idoCompletionEnable
  | maxPayloadSize
  | maxReadRequestSize
  | memoryEnable
  | biEnable
  | biId
  | range1Base
  | bar (n : Fin 3)
  | readWord (off : Nat)
  | bar4Read (off width : Nat)
  | bar4Write (off width : Nat)
  | poisonedWrite (bar : Fin 3)
  | unsupportedRequest
  | l23Ready
  | doeObject (bytes : Nat)
deriving DecidableEq, Repr, Inhabited

/-- What an MSI-X control write changes (R251): one vector's mask bit, message address or message data, MSI-X Enable or Function Mask. -/
inductive MsixWrite where
  | vectorMask (v : Nat) (masked : Bool)
  | vectorAddr (v addr : Nat)
  | vectorData (v data : Nat)
  | enable (on : Bool)
  | functionMask (on : Bool)
deriving DecidableEq, Repr, Inhabited

/-- Why a link did not form (R227), or that it formed: the width and the RATE code reached. -/
inductive TrainResult where
  | up (rate : Nat) (x16 : Bool)
  | noFlitMode
  | narrow
  | equalisation
deriving DecidableEq, Repr, Inhabited

/-- The fatal errors of R245 causes 1 and 2. -/
inductive LinkFatal where
  | link
  | malformed
deriving DecidableEq, Repr, Inhabited

/-- Which IDE failure occurred (R254). -/
inductive IdeFailure where
  | integrity
  | sequence
  | outsideStream
deriving DecidableEq, Repr, Inhabited

/-- The two IDE key-programming protocols carried by VENDOR_DEFINED_REQUEST (R253): a key set programmed, or the switch to it. -/
inductive IdeKm where
  | ideKeyProg (keyset : Nat)
  | ideKeyGo (keyset : Nat)
  | ideStop
  | cxlKeyProg (keyset : Nat)
  | cxlKeyGo (keyset : Nat)
  | cxlStop
deriving DecidableEq, Repr, Inhabited

/-- The RV64A operations of the banks (R308). -/
inductive AmoOp where
  | add | swap | and | or | xor | min | max | minu | maxu
deriving DecidableEq, Repr, Inhabited

/-- What met a core's store in the same bank cycle (R310): nothing, or a write over the bank's other port, of this requester of the bank and with the value it writes: of the owner where the store goes to another core's local memory, of the trust core where it goes to shared memory. -/
inductive BankMeet where
  | alone
  | against (other : Nat) (value : DWord)
deriving DecidableEq, Repr, Inhabited

/-- Work of the block that an uncorrectable mesh flit hits, beside a partner's request (R316): a queue's entry, a job, or the next access of a control core over the mesh. -/
inductive MeshWork where
  | none
  | entry (queue seq : Nat)
  | job (id : Nat)
  | core (core : Nat)
deriving DecidableEq, Repr, Inhabited

/-- The unit of a repair trigger or action (R345, R352). -/
inductive RepairUnit where
  | vatRow (stack channel rank bank row : Nat)
  | vatBank (stack channel rank bank : Nat)
  | vatLane (stack channel lane : Nat)
  | cellarRow (package channel rank bank row : Nat)
  | cellarPackage (package : Nat)
  | columnGroup (row cluster group : Nat)
  | cluster (row cluster : Nat)
  | controlCore (core : Nat)
  | pressLane (press lane : Nat)
  | vatChannelOut (stack channel : Nat)
deriving DecidableEq, Repr, Inhabited

/-- The tier a patrol-scrub read visits (R339), with the place of the codeword's line or word. -/
inductive ScrubPlace where
  | vat (slot line : Nat)
  | cellar (package sector : Nat)
  | store (store inst bank word : Nat)
deriving DecidableEq, Repr, Inhabited

/-- The rails of R357, in the order they rise. -/
inductive Rail where
  | vstby | vbus | vclr1 | vclr2 | vclrq | vvat | vsram | vlogic | vphy
deriving DecidableEq, Repr, Inhabited

/-- The trips of R366. -/
inductive TripCause where
  | therm (stack : Fin 16)
  | uv
  | ov
  | rail
deriving DecidableEq, Repr, Inhabited

/-- What the trust core found at a boot stage (R372): the ROM's digest at STAGE 1, the wipe at STAGE 2. -/
inductive StageFinding where
  | pass
  | romFail
deriving DecidableEq, Repr, Inhabited

/-- A Shombe image or a signed request, as it lies where the trust core reads it (R373, R378): its bytes, those after the last one given reading as zero; whether every read of it came, none timed out or poisoned (R377); whether flash took it into the staging area; and, of a fetch that fails, how many reads come before the failing one, and whether that one comes poisoned and not too late; and, of an object in shared memory, the 8-byte word of it that has an uncorrectable error. -/
structure TrustObject where
  fetchOk : Bool
  bytes : List Byte
  flashOk : Bool
  got : Nat := 0
  poisoned : Bool := false
  badWord : Option Nat := none
deriving DecidableEq, Repr, Inhabited

/-- The instructions of the debug port (R388). -/
inductive DebugOp where
  | bypass
  | idcode
  | samplePreload
  | extest
  | coreHalt (core : Nat)
  | coreStep (core : Nat)
  | coreRegRead (core reg : Nat)
  | coreRegWrite (core reg : Nat) (value : DWord)
  | pageRead (page off : Nat)
  | pageWrite (page off : Nat) (value : Word)
  | storeRead (store inst byte : Nat) (ue : Bool := false)
  | storeWrite (store inst byte : Nat) (value : DWord)
deriving DecidableEq, Repr, Inhabited

/-- A DRAM channel of the vat or the cellar: stack and channel, or package and channel (R317, R319). -/
inductive Chan where
  | vat (stack channel : Nat)
  | cellar (package channel : Nat)
deriving DecidableEq, Repr, Inhabited

/-- What comes to the lines that a command reads within its step: what partners' memories answered for those of the host tier, of which one missing here timed out (R278), and the wrong bits of cells. -/
abbrev HostLines := List HostLine

/-- The commands of the block, one per row of spec/opcode_table.json. -/
inductive Instr where
  | registerWrite (req : Requester) (page off : Nat) (wide : Bool) (value : DWord)
  | bar0BadAccess (req : Requester) (page off width : Nat) (write : Bool)
  | lowHalfRead (req : Requester) (page off : Nat) (wide : Bool := false)
  | halfWrite (req : Requester) (page off : Nat) (high : Bool) (value : Word)
  | errStatusClear (req : Requester) (page : Nat) (mask rising : Word)
  | errMaskWrite (req : Requester) (page : Nat) (mask : Word)
  | commit (req : Requester) (page gen : Nat)
  | commitTakesEffect (page : Nat)
  | cntClear (req : Requester) (page : Nat)
  | stageDiscard (req : Requester) (page : Nat)
  | bar2BadAccess (p : Port) (offset width : Nat) (write : Bool)
  | configurationWrite (p : Port) (field : CfgField) (value : Nat)
  | memRd (p : Port) (tag haddr : Nat) (mv : MetaValue) (upset : Upset)
  | memWr (p : Port) (tag haddr : Nat) (mv : MetaValue) (data : List Byte) (be : BitVec 64) (poison : Bool) (upset : Upset := .none)
  | memInv (p : Port) (tag haddr : Nat) (mv : MetaValue)
  | memClnEvct (p : Port) (tag haddr : Nat)
  | memSpecRd (p : Port) (haddr : Nat)
  | unsupportedM2sRequest (p : Port) (tag : Nat) (readLike : Bool)
  | birsp (p : Port) (biId biTag : Nat) (kind : BIRspKind)
  | biTimeout (p : Port) (biTag : Nat)
  | lostOwnerWalk (p : Port)
  | lostPop (req : Requester)
  | writeEntry (req : Requester) (index : Fin 4096)
  | readEntry (req : Requester) (index : Fin 4096)
  | invalidate (req : Requester) (index : Fin 4096)
  | renewLease (req : Requester) (index : Fin 4096)
  | regionOpComplete
  | leaseExpiry (index : Fin 4096)
  | regionFreeingEnd (index : Fin 4096)
  | leasePop (req : Requester)
  | moveDequeue
  | moveDestHeld (tile : Nat)
  | moveCopyEnd (tile : Nat) (host : HostLines) (writeFails : Bool)
  | moveDeadline (tile : Nat)
  | heatWalk (tile : Nat) (upset : Upset := .none)
  | heatEpoch (host : HostLines := [])
  | exhPop (req : Requester)
  | resume (req : Requester) (p : Port)
  | discard (req : Requester) (p : Port)
  | reencode (cask : Nat)
  | reencodeEnd (cask : Nat) (host : HostLines := [])
  | caskReadReturn (cask : Nat) (badSector : Bool) (host : HostLines := [])
  | sealTimeout (cask : Nat)
  | sealAgeLimit (cask : Nat)
  | flush (req : Requester) (press : Fin 48)
  | sealEnd (cask : Nat) (host : HostLines := [])
  | trainReq (req : Requester) (region : Fin 4096)
  | trainPassEnd (region : Fin 4096)
  | load (req : Requester)
  | tblRelease (req : Requester) (andLoad : Bool)
  | qlogPop (req : Requester) (press : Fin 48)
  | importTimeout (queue : Nat)
  | importCommit (queue : Nat)
  | doorbellWrite (req : Requester) (queue : Nat) (tail head : Option Nat)
  | enable (req : Requester)
  | disable (req : Requester)
  | restart (req : Requester)
  | disableDone (queue : Nat)
  | ownerWrite (req : Requester) (kind id : Nat)
  | sqFetch (queue : Nat) (host : HostLines)
  | entryStart (queue : Nat)
  | nop (queue seq : Nat)
  | hostRead (queue seq : Nat)
  | hostWrite (queue seq : Nat) (host : HostLines)
  | denChain (queue seq : Nat) (host : HostLines)
  | jobSubmit (queue seq : Nat) (host : HostLines)
  | jobAbort (queue seq : Nat)
  | caskExport (queue seq : Nat) (host : HostLines)
  | caskImport (queue seq : Nat) (segment : Option (List Byte)) (ep : List Nat := [])
  | caskImportData (queue seq : Nat) (segment : Option (List Byte)) (ep : List Nat := [])
  | publish (queue seq : Nat)
  | draftDiscard (queue seq : Nat)
  | editionQuery (queue seq : Nat)
  | editionWait (queue seq : Nat)
  | editionWaitTimeout (queue seq : Nat)
  | svcCall (queue seq : Nat) (host : HostLines)
  | entryComplete (queue seq : Nat)
  | aggTimeout (queue : Nat)
  | dmaCompletion (p : Port) (tag offset : Nat) (data : List Byte) (ep : Bool)
  | dmaReadTimeout (p : Port) (tag : Nat)
  | tagQuarantineEnd (p : Port) (tag : Nat)
  | jobWindowGranted (job : Nat) (host : HostLines)
  | jobRunning (job : Nat) (host : HostLines)
  | fillBegin (job recNo : Nat) (host : HostLines := [])
  | weightsInPlace (job recNo : Nat) (host : HostLines)
  | lockGroupStart (job : Nat) (host : HostLines := [])
  | chunkBoundary (job : Nat) (row : Fin 16) (host : HostLines)
  | splitPassStart (job : Nat) (host : HostLines)
  | layerEnd (job : Nat)
  | layerDeadline (job : Nat)
  | lateWaitExpiry (job : Nat)
  | overrun (job : Nat)
  | rowFault (row : Fin 16) (phys cause : Nat) (collision : Bool := false)
  | jobAbortDone (job : Nat)
  | descriptorStart (chain : Nat) (host : HostLines) (ue : Option Nat)
  | fill (chain desc unit : Nat) (host : HostLines := [])
  | copy (chain desc unit : Nat) (host : HostLines) (ue : Option Nat)
  | compare (chain desc unit : Nat) (host : HostLines) (ue : Option Nat)
  | reduce (chain desc unit : Nat) (host : HostLines) (ue : Option Nat)
  | caskCopy (chain desc unit : Nat) (host : HostLines) (ue : Option Nat)
  | descriptorEnd (chain desc : Nat)
  | kvOpen (queue seq region layers heads headSize fmt capacity : Nat) (host : HostLines)
  | kvAppend (queue seq region layer count keyAddr valueAddr : Nat) (host : HostLines) (ue : Option Nat)
  | kvAttend (queue seq region layer groups scale queryAddr outAddr : Nat) (host : HostLines) (ue : Option Nat)
  | kvTruncate (queue seq region layer count : Nat) (host : HostLines)
  | kvClose (queue seq region : Nat) (host : HostLines)
  | gather (queue seq table rows width fmt indices offsets bags mode out : Nat) (host : HostLines) (ue : Option Nat)
  | groupOpen (queue seq group mask fmt count region offset mode timeoutUs : Nat)
  | contribute (queue seq group edition addr : Nat) (host : HostLines) (ue : Option Nat)
  | groupClose (queue seq group : Nat)
  | roundTimeout (group : Nat)
  | modelLoad (queue seq handle header : Nat)
  | call (queue seq handle input output : Nat) (host : HostLines)
  | modelUnload (queue seq handle : Nat)
  | receiverDetect (p : Port) (result : TrainResult)
  | linkDown (p : Port)
  | hotReset (p : Port)
  | perstAssert (p : Port)
  | perstDeassert (p : Port)
  | portStateReset (p : Port)
  | portReady (p : Port) (cxl : Bool)
  | retrain (req : Requester) (p : Port) (rate : Nat)
  | linkFatalError (p : Port) (kind : LinkFatal)
  | portInternalUe (p : Port)
  | ideCheckFailure (p : Port) (kind : IdeFailure) (cxl : Bool)
  | contain (req : Requester) (p : Port)
  | containRelease (req : Requester) (p : Port) (alsoContain : Bool)
  | busMasterEnableWrite (p : Port) (on : Bool)
  | powerStateWrite (p : Port) (d3 : Bool)
  | msixControlWrite (p : Port) (what : MsixWrite)
  | intxPendClear (req : Requester) (p : Port) (index : Fin 64) (mask : Word)
  | decoderCommit (p : Port) (n : Fin 4) (base size skip : Nat) (hdmH : Bool) (iw : Nat) (lock : Bool) (ig : Nat := 0)
  | decoderUncommit (p : Port) (n : Fin 4)
  | c0HeldRelease (p : Port)
  | identify (p : Port)
  | getEventRecords (p : Port)
  | clearEventRecords (p : Port)
  | getTimestamp (p : Port)
  | setTimestamp (p : Port) (value : Nat)
  | getSupportedLogs (p : Port)
  | getLog (p : Port)
  | identifyMemoryDevice (p : Port)
  | getHealthInfo (p : Port)
  | mailboxUnsupported (p : Port) (opcode : Nat)
  | doeDiscovery (p : Port) (index : Nat)
  | cxlTableAccess (p : Port)
  | doeAbort (p : Port)
  | getVersion (p : Port)
  | getCapabilities (p : Port)
  | negotiateAlgorithms (p : Port)
  | getDigests (p : Port)
  | getCertificate (p : Port) (slot : Nat)
  | challenge (p : Port) (nonce : Nat)
  | getMeasurements (p : Port) (index : Nat) (signed : Bool)
  | keyExchange (p : Port)
  | finish (p : Port) (verifyOk : Bool)
  | keyUpdate (p : Port)
  | heartbeat (p : Port)
  | endSession (p : Port)
  | vendorDefinedRequest (p : Port) (km : IdeKm)
  | ptmDialog (p : Port)
  | ptmResponseD (p : Port) (t4 masterTime delay : Nat)
  | ptmTimeout (p : Port)
  | coreRelease
  | coreLoad (core : Fin 18) (addr width : Nat) (signed : Bool) (rd : Fin 32) (short : Bool) (ue : Bool) (host : HostLines) (upset : Upset := .none) (fp : Bool := false)
  | coreStore (core : Fin 18) (addr width : Nat) (value : DWord) (short : Bool) (ue : Bool) (meet : BankMeet) (host : HostLines) (upset : Upset := .none)
  | amo (core : Fin 18) (op : AmoOp) (addr width : Nat) (value : DWord) (rd : Fin 32) (ue : Bool := false) (upset : Upset := .none)
  | lr (core : Fin 18) (addr width : Nat) (rd : Fin 32) (ue : Bool := false) (upset : Upset := .none)
  | sc (core : Fin 18) (addr width : Nat) (value : DWord) (rd : Fin 32) (ue : Bool := false) (upset : Upset := .none)
  | instructionFetch (core : Fin 18) (addr : Nat) (ue : Bool) (upset : Upset := .none) (ueTail : Bool := false)
  | fenceI (core : Fin 18)
  | wfi (core : Fin 18)
  | coreHalt (core : Fin 18)
  | coreDormant (core : Fin 18)
  | coreWake (core : Fin 18)
  | msg (req : Requester) (target : Fin 16) (source : Fin 32)
  | raise (req : Requester) (source : Fin 4096)
  | claim (req : Requester) (bank : Fin 16)
  | eoi (req : Requester) (bank : Fin 16) (id : Nat)
  | srcCfgWrite (req : Requester) (value : Word)
  | srcClear (req : Requester)
  | globalDisWrite (req : Requester) (on : Bool)
  | timecmpWrite (req : Requester) (bank : Fin 16) (value : DWord)
  | timer (core : Fin 16)
  | redirPop (req : Requester)
  | startSpare (req : Requester) (phys : Nat) (logical : Fin 16)
  | stopRetire (req : Requester) (phys : Nat)
  | retireNoticeExpiry (core : Fin 18)
  | wipe (req : Requester)
  | wipeEnd (readsZero : Bool)
  | meshFlitError (stop : Fin 38) (header : Bool) (victim : Option (Port × Nat)) (corrected : Bool := false) (work : MeshWork := .none)
  | dramRequestIssue (ch : Chan)
  | classInterval (ch : Chan)
  | refreshDue (ch : Chan) (rank bank : Nat)
  | mr4Read (package : Fin 48) (rank rate : Nat)
  | stackTemperature (stack : Fin 16) (temp : Nat)
  | powerDownEntry (ch : Chan) (rank : Nat)
  | selfRefreshEntry (ch : Chan)
  | dqsOscillatorRead (package : Fin 48) (channel : Fin 4)
  | channelRetrainEnd (stack : Fin 16) (channel : Fin 64) (rdMargin wrMargin : Nat)
  | scrubRead (place : ScrubPlace) (upset : Upset) (laterWrite : Bool) (collides : Bool := false)
  | bucketLeak (kind : Fin 5) (index : Nat)
  | bktPop (req : Requester)
  | marchStart (req : Requester)
  | marchStop (req : Requester)
  | marchEnd (fails : List (Nat × Nat)) (disturbed : Bool)
  | cooperTrigger (unit : RepairUnit) (counted : Bool := false)
  | cooperAction (acknowledged : Bool) (host : HostLines := [])
  | retireReq (req : Requester) (row : Fin 16) (cluster : Fin 34)
  | remapCopyStep (upset : Upset)
  | inputSample (voltDv ampDa watts : Nat)
  | heatEvaluation (temps : List Nat)
  | trip (cause : TripCause)
  | railTimeout (rail : Rail)
  | refLost
  | refRestored
  | dormantEnter (engine : Bool) (index : Fin 16)
  | dormantWake (engine : Bool) (index : Fin 16)
  | coldStart (ppr : List (Nat × Bool)) (fails : List (Nat × Nat × Nat)) (untrained : List Chan) (absent : Nat := 1000000000)
  | inputRemoved
  | bootStage (found : StageFinding) (object : TrustObject)
  | vatReady
  | packageInitDone (package : Fin 48)
  | fwReady (req : Requester)
  | warm (req : Requester)
  | warmStartQuiesced
  | run (req : Requester) (object : TrustObject)
  | program (req : Requester) (object : TrustObject)
  | vintage (req : Requester) (object : TrustObject)
  | lifeCycle (req : Requester) (object : TrustObject)
  | debugUnlock (req : Requester) (object : TrustObject)
  | rcvCommandEnd (flashOk : Bool)
  | tamper (sensor : Fin 4)
  | debugInstruction (op : DebugOp)
  | entdaa (dynamicAddr : Nat)
  | setdasa (dynamicAddr : Nat) (addr : Option Nat := none)
  | rstdaa
  | getpid (addr : Option Nat := none)
  | getbcr (addr : Option Nat := none)
  | getdcr (addr : Option Nat := none)
  | getstatus (addr : Option Nat := none)
  | enec (addr : Option Nat := none)
  | disec (addr : Option Nat := none)
  | privateWrite (bytes : List Byte) (addr : Option Nat := none)
  | privateRead (count : Nat) (addr : Option Nat := none)
  | warmReset
  | armPowerCycle
  | powerCycle
  | locate
  | managementReservedCommand (code : Nat)
  | leak (sensed : Bool)
  | publicationFold (region : Fin 4096)
deriving DecidableEq, Repr, Inhabited

end Sys2Proof
end

