-- ==== Sys2Proof/WellFormed.lean ====
section
/-! DEFINITION. Well-formed commands: operands within the widths and units the spec gives them. A command that breaks a check is no command of the block; exec answers one as it stands, so nothing rests on the checks but what a statement asks for. -/

namespace Sys2Proof

/-- A page number of BAR0: 4,096 pages of 4 KiB (R402). -/
def okPage (n : Nat) : Bool := decide (n < 4096)

/-- An I3C address has 7 bits (R417). -/
def okI3c (addr : Option Nat) : Bool := addr.all (fun a => decide (a < 128))

/-- A byte offset within a page (R402). -/
def okOffset (n : Nat) : Bool := decide (n < 4096)

/-- A 64-bit address. -/
def okAddr (n : Nat) : Bool := decide (n < 2 ^ 64)

/-- A 16-bit value: a request tag, a generation (R242, R405). -/
def okHalfWord (n : Nat) : Bool := decide (n < 2 ^ 16)

/-- One of the 65,536 queues (R260). -/
def okQueue (n : Nat) : Bool := decide (n < 2 ^ 16)

/-- A tile of the unified range of at most 16 TiB (R26, R47). -/
def okTile (n : Nat) : Bool := decide (n < 2 ^ 30)

/-- A cask of the unified range (R26, R82). -/
def okCask (n : Nat) : Bool := decide (n < 2 ^ 32)

/-- A line of 64 bytes (R26). -/
def okLine (l : List Byte) : Bool := decide (l.length = 64)

/-- Lines that partners' memories answered: each at a line of the unified range, of 64 bytes (R278). -/
def okHost (h : HostLines) : Bool := h.all (fun x => decide (x.addr % 64 = 0) && decide (x.addr < 2 ^ 44) && okLine x.data)

/-- A width of a core's access (R286). -/
def okWidth (n : Nat) : Bool := [1, 2, 4, 8].contains n

/-- A width of an atomic (R308). -/
def okAtomic (n : Nat) : Bool := [4, 8].contains n

/-- A channel of the vat or the cellar (R317, R319). -/
def okChan : Chan → Bool
  | .vat st c => decide (st < 16) && decide (c < 64)
  | .cellar p c => decide (p < 48) && decide (c < 4)

/-- A codeword that patrol scrub visits (R339). -/
def okPlace : ScrubPlace → Bool
  | .vat _ line => decide (line < 256)
  | .cellar p _ => decide (p < 48)
  | .store st _ _ _ => decide (st < 4)

/-- A repair unit's numbers (R345, R352). -/
def okUnit : RepairUnit → Bool
  | .vatRow st c rank bank row => decide (st < 16) && decide (c < 64) && decide (rank < 8) && decide (bank < 16) && decide (row < 4096)
  | .vatBank st c rank bank => decide (st < 16) && decide (c < 64) && decide (rank < 8) && decide (bank < 16)
  | .vatLane st c _ => decide (st < 16) && decide (c < 64)
  | .cellarRow p c rank bank row => decide (p < 48) && decide (c < 4) && decide (rank < 2) && decide (bank < 16) && decide (row < 2 ^ 18)
  | .cellarPackage p => decide (p < 48)
  | .columnGroup r c _ => decide (r < 16) && decide (c < 34)
  | .cluster r c => decide (r < 16) && decide (c < 34)
  | .controlCore c => decide (c < 18)
  | .pressLane p l => decide (p < 48) && decide (l < 6)
  | .vatChannelOut st c => decide (st < 16) && decide (c < 64)

/-- The command's operands are within what the spec gives them. -/
def wellFormed : Instr → Bool
  | .registerWrite _ page off _ _ => okPage page && okOffset off
  | .bar0BadAccess _ page off _ _ => okPage page && okOffset off
  | .lowHalfRead _ page off wide => okPage page && okOffset off && (!wide || decide (off / 4 % 2 = 0))
  | .halfWrite _ page off _ _ => okPage page && okOffset off
  | .errStatusClear _ page _ _ => okPage page
  | .errMaskWrite _ page _ => okPage page
  | .commit _ page gen => okPage page && okHalfWord gen
  | .commitTakesEffect page => okPage page
  | .cntClear _ page => okPage page
  | .stageDiscard _ page => okPage page
  | .memRd _ tag haddr _ _ => okHalfWord tag && okAddr haddr
  | .memWr _ tag haddr _ data _ _ _ => okHalfWord tag && okAddr haddr && okLine data
  | .memInv _ tag haddr _ => okHalfWord tag && okAddr haddr
  | .memClnEvct _ tag haddr => okHalfWord tag && okAddr haddr
  | .memSpecRd _ haddr => okAddr haddr
  | .unsupportedM2sRequest _ tag _ => okHalfWord tag
  | .birsp _ _ _ _ => true
  | .biTimeout _ _ => true
  | .lostOwnerWalk _ => true
  | .lostPop _ => true
  | .writeEntry _ _ => true
  | .readEntry _ _ => true
  | .invalidate _ _ => true
  | .renewLease _ _ => true
  | .regionOpComplete => true
  | .leaseExpiry _ => true
  | .regionFreeingEnd _ => true
  | .leasePop _ => true
  | .moveDequeue => true
  | .moveDestHeld tile => okTile tile
  | .moveCopyEnd tile host _ => okTile tile && okHost host
  | .moveDeadline tile => okTile tile
  | .heatWalk tile _ => okTile tile
  | .heatEpoch host => okHost host
  | .exhPop _ => true
  | .resume _ _ => true
  | .discard _ _ => true
  | .reencode cask => okCask cask
  | .reencodeEnd cask host => okCask cask && okHost host
  | .caskReadReturn cask _ host => okHost host && okCask cask
  | .sealTimeout cask => okCask cask
  | .sealAgeLimit cask => okCask cask
  | .flush _ _ => true
  | .sealEnd cask host => okCask cask && okHost host
  | .trainReq _ _ => true
  | .trainPassEnd _ => true
  | .load _ => true
  | .tblRelease _ _ => true
  | .qlogPop _ _ => true
  | .importTimeout queue => okQueue queue
  | .importCommit queue => okQueue queue
  | .doorbellWrite _ queue _ _ => okQueue queue
  | .enable _ => true
  | .disable _ => true
  | .restart _ => true
  | .disableDone queue => okQueue queue
  | .ownerWrite _ _ _ => true
  | .sqFetch queue host => okQueue queue && okHost host
  | .entryStart queue => okQueue queue
  | .nop queue _ => okQueue queue
  | .hostRead queue _ => okQueue queue
  | .hostWrite queue _ host => okQueue queue && okHost host
  | .denChain queue _ host => okQueue queue && okHost host
  | .jobSubmit queue _ host => okQueue queue && okHost host
  | .jobAbort queue _ => okQueue queue
  | .caskExport queue _ host => okQueue queue && okHost host
  | .caskImport queue _ _ _ => okQueue queue
  | .caskImportData queue _ _ _ => okQueue queue
  | .publish queue _ => okQueue queue
  | .draftDiscard queue _ => okQueue queue
  | .editionQuery queue _ => okQueue queue
  | .editionWait queue _ => okQueue queue
  | .editionWaitTimeout queue _ => okQueue queue
  | .svcCall queue _ host => okQueue queue && okHost host
  | .entryComplete queue _ => okQueue queue
  | .aggTimeout queue => okQueue queue
  | .dmaCompletion _ _ _ _ _ => true
  | .dmaReadTimeout _ _ => true
  | .tagQuarantineEnd _ _ => true
  | .jobWindowGranted _ host => okHost host
  | .jobRunning _ host => okHost host
  | .fillBegin _ _ host => okHost host
  | .weightsInPlace _ _ host => okHost host
  | .lockGroupStart _ host => okHost host
  | .chunkBoundary _ _ host => okHost host
  | .splitPassStart _ host => okHost host
  | .layerEnd _ => true
  | .layerDeadline _ => true
  | .lateWaitExpiry _ => true
  | .overrun _ => true
  | .rowFault _ _ _ _ => true
  | .jobAbortDone _ => true
  | .descriptorStart _ host _ => okHost host
  | .fill _ _ _ host => okHost host
  | .copy _ _ _ host _ => okHost host
  | .compare _ _ _ host _ => okHost host
  | .reduce _ _ _ host _ => okHost host
  | .caskCopy _ _ _ host _ => okHost host
  | .descriptorEnd _ _ => true
  | .kvOpen queue _ _ _ _ _ _ _ host => okQueue queue && okHost host
  | .kvAppend queue _ _ _ _ keyAddr valueAddr host _ => okQueue queue && okAddr keyAddr && okAddr valueAddr && okHost host
  | .kvAttend queue _ _ _ _ _ queryAddr outAddr host _ => okQueue queue && okAddr queryAddr && okAddr outAddr && okHost host
  | .kvTruncate queue _ _ _ _ host => okQueue queue && okHost host
  | .kvClose queue _ _ host => okQueue queue && okHost host
  | .gather queue _ _ _ _ _ _ _ _ _ _ host _ => okQueue queue && okHost host
  | .groupOpen queue _ _ _ _ _ _ _ _ _ => okQueue queue
  | .contribute queue _ _ _ addr host _ => okQueue queue && okAddr addr && okHost host
  | .groupClose queue _ _ => okQueue queue
  | .roundTimeout _ => true
  | .modelLoad queue _ _ _ => okQueue queue
  | .call queue _ _ _ _ host => okQueue queue && okHost host
  | .modelUnload queue _ _ => okQueue queue
  | .receiverDetect _ _ => true
  | .linkDown _ => true
  | .hotReset _ => true
  | .perstAssert _ => true
  | .perstDeassert _ => true
  | .portStateReset _ => true
  | .portReady _ _ => true
  | .retrain _ _ _ => true
  | .linkFatalError _ _ => true
  | .portInternalUe _ => true
  | .ideCheckFailure _ _ _ => true
  | .contain _ _ => true
  | .containRelease _ _ _ => true
  | .busMasterEnableWrite _ _ => true
  | .powerStateWrite _ _ => true
  | .msixControlWrite _ _ => true
  | .intxPendClear _ _ _ _ => true
  | .decoderCommit _ _ base _ _ _ iw _ ig => okAddr base && decide (ig < 16) && decide (iw < 16)
  | .decoderUncommit _ _ => true
  | .c0HeldRelease _ => true
  | .identify _ => true
  | .getEventRecords _ => true
  | .clearEventRecords _ => true
  | .getTimestamp _ => true
  | .setTimestamp _ _ => true
  | .getSupportedLogs _ => true
  | .getLog _ => true
  | .identifyMemoryDevice _ => true
  | .getHealthInfo _ => true
  | .mailboxUnsupported _ _ => true
  | .doeDiscovery _ _ => true
  | .cxlTableAccess _ => true
  | .doeAbort _ => true
  | .getVersion _ => true
  | .getCapabilities _ => true
  | .negotiateAlgorithms _ => true
  | .getDigests _ => true
  | .getCertificate _ _ => true
  | .challenge _ _ => true
  | .getMeasurements _ _ _ => true
  | .keyExchange _ => true
  | .finish _ _ => true
  | .keyUpdate _ => true
  | .heartbeat _ => true
  | .endSession _ => true
  | .vendorDefinedRequest _ _ => true
  | .ptmDialog _ => true
  | .ptmResponseD _ _ _ _ => true
  | .ptmTimeout _ => true
  | .coreRelease => true
  | .coreLoad _ addr width _ _ _ _ host _ fp => okAddr addr && okWidth width && okHost host && (!fp || decide (4 ≤ width))
  | .coreStore _ addr width _ _ _ _ host _ => okAddr addr && okWidth width && okHost host
  | .amo _ _ addr width _ _ _ _ => okAddr addr && okAtomic width
  | .lr _ addr width _ _ _ => okAddr addr && okAtomic width
  | .sc _ addr width _ _ _ _ => okAddr addr && okAtomic width
  | .fenceI _ => true
  | .wfi _ => true
  | .coreHalt _ => true
  | .coreDormant _ => true
  | .coreWake _ => true
  | .msg _ _ _ => true
  | .raise _ _ => true
  | .claim _ _ => true
  | .eoi _ _ _ => true
  | .srcCfgWrite _ _ => true
  | .srcClear _ => true
  | .globalDisWrite _ _ => true
  | .timecmpWrite _ _ _ => true
  | .timer _ => true
  | .redirPop _ => true
  | .startSpare _ _ _ => true
  | .stopRetire _ _ => true
  | .retireNoticeExpiry _ => true
  | .wipe _ => true
  | .wipeEnd _ => true
  | .meshFlitError _ _ _ _ _ => true
  | .dramRequestIssue ch => okChan ch
  | .classInterval ch => okChan ch
  | .refreshDue ch _ _ => okChan ch
  | .mr4Read _ _ _ => true
  | .stackTemperature _ _ => true
  | .powerDownEntry ch _ => okChan ch
  | .selfRefreshEntry ch => okChan ch
  | .dqsOscillatorRead _ _ => true
  | .channelRetrainEnd _ _ _ _ => true
  | .scrubRead place _ _ _ => okPlace place
  | .bucketLeak _ _ => true
  | .bktPop _ => true
  | .marchStart _ => true
  | .marchStop _ => true
  | .marchEnd _ _ => true
  | .cooperTrigger unit _ => okUnit unit
  | .cooperAction _ host => okHost host
  | .retireReq _ _ _ => true
  | .remapCopyStep _ => true
  | .inputSample _ _ _ => true
  | .heatEvaluation _ => true
  | .trip _ => true
  | .railTimeout _ => true
  | .refLost => true
  | .refRestored => true
  | .dormantEnter _ _ => true
  | .dormantWake _ _ => true
  | .coldStart _ _ _ _ => true
  | .inputRemoved => true
  | .bootStage _ _ => true
  | .vatReady => true
  | .packageInitDone _ => true
  | .fwReady _ => true
  | .warm _ => true
  | .warmStartQuiesced => true
  | .run _ _ => true
  | .program _ _ => true
  | .vintage _ _ => true
  | .lifeCycle _ _ => true
  | .debugUnlock _ _ => true
  | .rcvCommandEnd _ => true
  | .tamper _ => true
  | .debugInstruction _ => true
  | .entdaa _ => true
  | .setdasa _ addr => okI3c addr
  | .rstdaa => true
  | .getpid addr => okI3c addr
  | .getbcr addr => okI3c addr
  | .getdcr addr => okI3c addr
  | .getstatus addr => okI3c addr
  | .enec addr => okI3c addr
  | .disec addr => okI3c addr
  | .privateWrite _ addr => okI3c addr
  | .privateRead _ addr => okI3c addr
  | .warmReset => true
  | .armPowerCycle => true
  | .powerCycle => true
  | .locate => true
  | .managementReservedCommand _ => true
  | .leak _ => true
  | .publicationFold _ => true
  | .instructionFetch _ addr _ _ _ => okAddr addr
  | .bar2BadAccess _ _ _ _ => true
  | .configurationWrite _ _ _ => true

end Sys2Proof
end

