-- ==== Sys2Proof/Machine/State.lean ====
section
/-! DEFINITION. State holds everything the spec gives the Izxaca, as plain data, and State.reset is the machine at the Reset column of its register tables with every memory empty. The register words that the register tables describe live in regs; everything else has a field of its own. -/

namespace Sys2Proof.Machine

/-- A map from numbers to values that lists only what differs from its default, by rising key. -/
abbrev Sparse (β : Type) := List (Nat × β)

/-- A memory of bytes: address and byte pairs, addresses strictly rising, no zero byte listed. -/
abbrev Memory := List Host.Cell

/-- The two ordering codes (R1), the ORDER field of OTP (R379). -/
inductive Order where
  | l3072 | l1536
deriving DecidableEq, Repr, Inhabited

/-- Reasons a step stops with a fault. Raised by no command of this model: the spec gives every row an effect. -/
inductive Fault where
  /-- Raised by nobody; it keeps the type inhabited. Safe: no step answers it. -/
  | never
deriving DecidableEq, Repr, Inhabited

/-- Reasons a command has no meaning. -/
inductive Refusal where
  /-- Raised by an arm of exec that has no meaning yet. Safe: the step stops. -/
  | notModelled (mnemonic : String)
deriving DecidableEq, Repr, Inhabited

/-- What a vat slot is held for (R54): nothing, a tile of the pool, a pinned tile, an emergency slot, a weight window, a draft tile. -/
inductive SlotUse where
  | free | tile | pin | emergency | window | draft
deriving DecidableEq, Repr, Inhabited

/-- A message the block sends on one of its links, newest last in State.out. -/
inductive Out where
  /-- S2M MemData of a read (R230, R243). -/
  | memData (port tag : Nat) (data : List Byte) (poison : Bool)
  /-- S2M completion without data: Cmp, Cmp-S or Cmp-E by the MetaValue granted (R230). -/
  | cmp (port tag : Nat) (granted : MetaValue)
  /-- A back-invalidate snoop: kind 0 BISnpCur, 1 BISnpData, 2 BISnpInv (R117). -/
  | biSnp (port kind haddr biId biTag : Nat)
  /-- A DMA read request (R278). -/
  | dmaRead (port tag haddr bytes : Nat)
  /-- A DMA write of bytes, with EP where the line is poisoned (R243), in a traffic class (R20). -/
  | dmaWrite (port haddr : Nat) (data : List Byte) (ep : Bool) (cls : Nat)
  /-- An MSI-X message (R251). -/
  | msix (port vector : Nat)
  /-- Assert_INTA or Deassert_INTA (R252). -/
  | intx (port : Nat) (assert : Bool)
  /-- Configuration Request Retry Status (R250). -/
  | cfgRetry (port : Nat)
  /-- The data of a register, doorbell, configuration or BAR4 read. -/
  | readData (req : Requester) (value : DWord)
  /-- A mailbox completion: command opcode, return code (0 success, 3 Unsupported), values (R237). -/
  | mailbox (port opcode code : Nat) (values : List Nat)
  /-- A DOE data object or SPDM response: kind, then values (R256, R384). -/
  | doe (port kind : Nat) (values : List Nat)
  /-- An SPDM ERROR with its ErrorCode: 3 Busy, 5 Unspecified (R382, R384). -/
  | spdmError (port code : Nat)
  /-- A PTM Request (R369). -/
  | ptmRequest (port : Nat)
  /-- A DRAM command issued: 0 read, 1 write, 2 refresh, 3 power-down entry, 4 self-refresh entry, 5 exit (R321, R325, R327, R328). -/
  | dram (isCellar : Bool) (unit channel command bank row : Nat)
  /-- Machine external interrupt asserted at a physical core (R297, R300). -/
  | meip (core : Nat)
  /-- I3C read data or response bytes (R417, R418). -/
  | i3c (bytes : List Byte)
  /-- I3C in-band interrupt (R417). -/
  | ibi
  /-- Debug-port scan result (R388). -/
  | jtag (value : Nat)
deriving DecidableEq, Repr, Inhabited

/-- One region table entry (R33); the fields not listed there are reserved and read zero. -/
structure Region where
  /-- VALID, 1 bit (R33); reset 0. -/
  valid : Bool := false
  /-- KIND, 3 bits (R34); reset 0. -/
  kind : Nat := 0
  /-- CLASS, 2 bits (R33); reset 0. -/
  cls : Nat := 0
  /-- READ_MASK, 6 bits (R33); reset 0. -/
  readMask : BitVec 6 := 0
  /-- WRITE_MASK, 6 bits (R33); reset 0. -/
  writeMask : BitVec 6 := 0
  /-- TIER_POLICY, 4 bits (R34); reset 0. -/
  policy : Nat := 0
  /-- COMP_HINT, 4 bits (R34); reset 0. -/
  hint : Nat := 0
  /-- GEN, 16 bits (R36); reset 0. -/
  gen : Nat := 0
  /-- BASE, 64 bits (R33); reset 0. -/
  base : Nat := 0
  /-- SIZE, 64 bits (R33); reset 0. -/
  size : Nat := 0
  /-- LEASE_END, 64 bits (R41); reset 0. -/
  leaseEnd : Nat := 0
  /-- EDITION, 32 bits (R134); reset 0. -/
  edition : Nat := 0
  /-- EDITION_PORT, 3 bits (R36); reset 0. -/
  editionPort : Nat := 0
  /-- CUR_TABLE, 12 bits (R98); reset 0. -/
  curTable : Nat := 0
  /-- TAG, 32 bits (R33); reset 0. -/
  tag : Nat := 0
deriving DecidableEq, Repr, Inhabited

/-- A region whose backing is being freed (R39). -/
structure Freeing where
  index : Nat
  base : Nat
  size : Nat
deriving DecidableEq, Repr, Inhabited

/-- The region unit (R33 to R42). -/
structure RgnState where
  /-- The 4,096 region table entries of 64 bytes (R33, R40); reset all invalid. -/
  entries : Sparse Region := []
  /-- Regions invalidated whose backing is still being freed (R39); reset none. -/
  freeing : List Freeing := []
  /-- The 64-entry lease log, oldest first, 12 bits each (R41); reset empty. -/
  leaseLog : List Nat := []
  /-- OVF of the lease log, 8 bits (R41, RGN_LEASE_LOG); reset 0. -/
  leaseOvf : Nat := 0
  /-- The region write in progress that waits for back-invalidates, by index (R37); reset none. -/
  pending : Option Nat := none
  /-- That write takes the region into the vat-pinned policy or out of it: its slots change part when it completes (R38); reset false. -/
  repin : Bool := false
deriving DecidableEq, Repr, Inhabited

/-- The memories of the vat and cellar with their maps and allocators (R43 to R61). -/
structure MemState where
  /-- Vat bytes: slot s byte o at 16,384 s + o, 512 GiB (R47, R54); reset zero (R397). -/
  vat : Memory := []
  /-- Poison mark of each vat line, key 256 slot + line (R336); reset none. -/
  vatPoison : Sparse Bool := []
  /-- Cellar bytes: package p sector x byte b at (2^30 p + x) 64 + b (R58); reset zero (R397). -/
  cellar : Memory := []
  /-- Cellar sectors left with an uncorrectable error by scrub, key 2^30 p + x (R338); reset none. -/
  cellarBad : Sparse Bool := []
  /-- The allocation state of every vat slot (R50, R58 bitmap); reset free (R397). -/
  slotUse : Sparse SlotUse := []
  /-- The allocation bit of every cask sector, key 2^30 p + x (R58); reset clear (R397). -/
  sectorUse : Sparse Bool := []
  /-- Sectors withheld from allocation (R12, R338, R348), key 2^30 p + x; reset none. -/
  withheld : Sparse Bool := []
  /-- LOC of the host-tier tiles whose map entries were lost: their window space stays taken until the next cold start (R50); reset none. -/
  lostHost : List Nat := []
  /-- The tier map: one 64-bit entry a tile (R51); reset HOME 0. -/
  tierMap : Sparse DWord := []
  /-- The cask map: one 64-bit entry a cask (R52, R53); reset 0. -/
  caskMap : Sparse DWord := []
  /-- The racking engine's cache of tier-map entries, by tile: 1 clean, 2 changed and not yet written back (R49); reset empty. -/
  tmapCache : Sparse Nat := []
  /-- Its cache of cask-map entries, by cask, coded the same (R49); reset empty. -/
  cmapCache : Sparse Nat := []
  /-- The package to whose allocation area the vat bitmap was copied last; none while the lowest-numbered package in service holds it (R58); reset none. -/
  bitmapAt : Option Nat := none
  /-- Packages fitted, trained and out of start-up, by bit (R392); reset none. -/
  packageIn : BitVec 48 := 0
  /-- Packages being evacuated, by bit (R349); reset none. -/
  evacuating : BitVec 48 := 0
  /-- Packages retired, by bit (R349); reset none. -/
  retired : BitVec 48 := 0
  /-- Stacks that take no new tile or window slot, by bit (R350); reset none. -/
  stackOut : BitVec 16 := 0
  /-- Vat channels out of service, key 64 stack + channel (R350); reset none. -/
  channelOut : Sparse Bool := []
deriving DecidableEq, Repr, Inhabited

/-- The four moves of R67. -/
inductive MoveKind where
  | promotion | demotion | spill | recall
deriving DecidableEq, Repr, Inhabited

/-- The states of a move that is in flight (R67). -/
inductive MovePhase where
  | queued | alloc | copy | recopy
deriving DecidableEq, Repr, Inhabited

/-- What a move holds as its destination (R67). -/
inductive MoveDest where
  | none
  | slot (s : Nat)
  | casks (places : List (Nat × Nat))
  | window (port off : Nat)
deriving DecidableEq, Repr, Inhabited

/-- A racking move in flight (R67 to R71). -/
structure Move where
  tile : Nat
  kind : MoveKind
  phase : MovePhase
  /-- The 256-bit written-line mask (R67). -/
  mask : BitVec 256 := 0
  /-- The lines that the RECOPY round in progress copies (R67). -/
  todo : BitVec 256 := 0
  /-- RECOPY rounds begun (R67). -/
  rounds : Nat := 0
  /-- TIER_POLICY and COMP_HINT of the tile's region when the move was accepted (R72). -/
  policy : Nat := 0
  hint : Nat := 0
  /-- Bytes of a host-tier source for which reads have been issued (R73, R278). -/
  asked : Nat := 0
  /-- Time base at which ALLOC was entered (R69). -/
  allocAt : Nat := 0
  dest : MoveDest := .none
  /-- What has been copied so far, offsets 0 to 16,383. -/
  buf : Memory := []
  bufPoison : BitVec 256 := 0
  /-- Source casks found damaged while copying (R71). -/
  damaged : BitVec 4 := 0
deriving DecidableEq, Repr, Inhabited

/-- The racking engine (R62 to R81). -/
structure RckState where
  /-- Moves in flight, in order of acceptance (R67); reset none. -/
  moves : List Move := []
  /-- The 16-entry exhaustion log: tile, whose base address RCK_EXH_ADDR shows, and SEAL bit (R78); reset empty. -/
  exhLog : List (Nat × Bool) := []
  /-- OVF of the exhaustion log, 8 bits (RCK_EXH_INFO); reset 0. -/
  exhOvf : Nat := 0
  /-- Tiles of a region changed to vat-pinned whose promotion was abandoned and is tried again (R64); reset none. -/
  pinRetry : List Nat := []
  /-- Tiles whose promotion waits for a demotion or spill (R72); reset none. -/
  promoteWait : List Nat := []
  /-- The pool has fallen below LOW_GIB and has not reached HIGH_GIB since (R65); reset false. -/
  demoting : Bool := false
  /-- Heat epoch last begun (R62); reset 0. -/
  epoch : Nat := 0
  /-- Casks being re-encoded (R81); reset none. -/
  reencodes : List Nat := []
  /-- Millisecond in which re-encodes are being counted, and how many were sent in it (R81); reset 0, 0. -/
  reencodeMs : Nat × Nat := (0, 0)
deriving DecidableEq, Repr, Inhabited

/-- A CXL.mem or internal memory request that is held (R16, R116, R257). -/
structure MemReq where
  /-- 0 to 5 a port; 7 internal. -/
  port : Nat
  tag : Nat
  haddr : Nat
  /-- Unified address, decoded when the request arrives (R240). -/
  addr : Nat
  /-- It came through a committed decoder (R240, R241), and through an HDM-H one (R29). -/
  decoded : Bool := true
  hdmH : Bool := false
  /-- 0 read, 1 invalidate, 2 write, 3 clean eviction notice; 4 is no memory request: work that waits, 5 such work that will write its line (R118, R242). -/
  op : Nat
  mv : MetaValue
  data : List Byte := []
  be : BitVec 64 := 0
  poison : Bool := false
  /-- Its heat has been counted, or it counts none (R62). -/
  heated : Bool := false
  /-- A write that carries a holder's data: it came ahead of the port's answer to a snoop of the line (R117). -/
  back : Bool := false
deriving DecidableEq, Repr, Inhabited

/-- Why a request waits. -/
inductive WaitWhy where
  /-- A snoop for the line is in flight (R116). -/
  | snoop (line : Nat)
  /-- The snoops to the holders of a victim are in flight (R120). -/
  | way (victim : Nat)
  /-- The press has no assembly buffer free (R106). -/
  | buffer (press : Nat)
  /-- A seal of the cask runs (R108). -/
  | sealing (cask : Nat)
  /-- No DMA read tag is free, or the lending port may not read (R44, R234, R278). -/
  | tag (port : Nat)
  /-- The port's class-0 bucket is short (R257). -/
  | bucket (port : Nat)
  /-- An earlier request of the port has not taken effect (R242). -/
  | behind (port : Nat)
  /-- A request of the port over CXL.io, behind one that has not taken effect (R242). -/
  | io (c : Instr)
  /-- Such a request whose turn has come: the command is being carried out (R242). -/
  | turn (c : Instr)
  /-- Queue work that met a line whose holders are snooped, with the command to carry it out (R116, R118). -/
  | work (line : Nat) (c : Instr)
  /-- A completion entry of a queue, for the line in which it is written (R116, R118, R273). -/
  | cpl (line queue : Nat)
deriving DecidableEq, Repr, Inhabited

/-- An assembly buffer (R105). -/
structure AsmBuf where
  cask : Nat
  mask : BitVec 64 := 0
  poison : BitVec 64 := 0
  /-- Bytes 0 to 4,095 of the lines held. -/
  data : Memory := []
  openedAt : Nat := 0
  lastWrite : Nat := 0
  /-- From when the seal timeout runs: the last write, or the abandonment of a move (R106, R108). -/
  idleFrom : Nat := 0
  /-- A seal of this buffer runs (R106). -/
  sealing : Bool := false
  /-- The seal was forced by a full set of buffers (R106). -/
  forced : Bool := false
  /-- The buffer was open at a FLUSH that has not completed (R106). -/
  flush : Bool := false
deriving DecidableEq, Repr, Inhabited

/-- A decoded cask in a press's cask cache (R104). -/
structure CachedCask where
  cask : Nat
  data : Memory
  poison : BitVec 64
deriving DecidableEq, Repr, Inhabited

/-- A quarantine-log entry (R103). -/
structure QEntry where
  press : Nat
  cask : Nat
  reason : Nat
  detached : Bool := false
  /-- Package, first sector, length and table held while detached. -/
  package : Nat := 0
  sector : Nat := 0
  length : Nat := 0
  table : Nat := 0
deriving DecidableEq, Repr, Inhabited

/-- A slot of the table store (R91, R93). -/
structure Table where
  /-- 256 code lengths (R89). -/
  lens : List Nat := []
  shape : Nat := 0
  /-- Reference count, 40 bits (R93). -/
  refs : Nat := 0
  held : Bool := false
  region : Nat := 0
  retiring : Bool := false
deriving DecidableEq, Repr, Inhabited

/-- A cask read in flight to a press, with the requests that wait for it (R100). -/
structure CaskRead where
  cask : Nat
  reqs : List MemReq
deriving DecidableEq, Repr, Inhabited

/-- A cask checked and staged by an import (R111). -/
structure Staged where
  package : Nat
  sector : Nat
  bytes : List Byte
deriving DecidableEq, Repr, Inhabited

/-- An import session (R111, R272). -/
structure Session where
  queue : Nat
  seq : Nat
  /-- First destination cask number. -/
  dest : Nat
  count : Nat
  /-- Bytes of an image not yet complete. -/
  tail : List Byte := []
  staged : List Staged := []
  lastAt : Nat := 0
  final : Bool := false
  /-- Casks that the commit has committed, and whether one of their writes was dropped (R113). -/
  committed : Nat := 0
  dropped : Bool := false
deriving DecidableEq, Repr, Inhabited

/-- The presses (R82 to R114). -/
structure PrsState where
  /-- Open assembly buffers of all presses, at most 64 a press (R105); reset none. -/
  bufs : List AsmBuf := []
  /-- Cask caches of all presses, most recently used first, at most 128 a press (R104); reset empty. -/
  cache : List CachedCask := []
  /-- Quarantine logs of all presses, oldest first, at most 16 a press (R103); reset empty. -/
  qlog : List QEntry := []
  /-- The reason each quarantined cask was found damaged for, plus one (R103); reset none. -/
  qReason : Sparse Nat := []
  /-- OVF of each press's quarantine log, 8 bits (PRS_QLOG_INFO); reset 0. -/
  qlogOvf : Sparse Nat := []
  /-- Presses whose FLUSH has not completed, by bit (R106); reset none. -/
  flushing : BitVec 48 := 0
  /-- The 4,080 table-store slots, ids 16 to 4,095 (R91); reset all free. -/
  tables : Sparse Table := []
  /-- The casks of each region sealed with method 0, 3, 4 or 5 since it was created, as far as TRAIN_CASKS can count (R96); reset none. -/
  trainCasks : Sparse (List Nat) := []
  /-- Regions whose training pass runs (R96); reset none. -/
  training : List Nat := []
  /-- Regions waiting for a free slot (R99); reset none. -/
  trainPending : List Nat := []
  /-- Import sessions open, at most 16 (R111); reset none. -/
  sessions : List Session := []
  /-- The 64-entry import map: SRC_ID, LOCAL_ID, VALID (R114); reset invalid. -/
  imap : Sparse Word := []
  /-- Cask reads in flight (R100); reset none. -/
  reads : List CaskRead := []
  /-- Decode and encode lanes retired, key 6 press + lane (R352); reset none. -/
  laneOut : Sparse Bool := []
deriving DecidableEq, Repr, Inhabited

/-- A directory entry (R116): sharers, or an owner in state A; neither means no entry. -/
structure DirEntry where
  sharers : BitVec 6 := 0
  owner : Option Nat := none
  /-- Order of allocation, for R120. -/
  stamp : Nat := 0
deriving DecidableEq, Repr, Inhabited

/-- A back-invalidate snoop in flight (R116, R117). -/
structure Snoop where
  port : Nat
  line : Nat
  /-- 0 BISnpCur, 1 BISnpData, 2 BISnpInv. -/
  kind : Nat
  biId : Nat
  biTag : Nat
  issuedAt : Nat
  /-- Its answer has arrived and stands behind a write of the same port to the line that has not taken effect (R15, R117). -/
  answer : Option BIRspKind := none
deriving DecidableEq, Repr, Inhabited

/-- A lost-line log entry (R127). -/
structure Lost where
  addr : Nat
  port : Nat
  cause : Nat
deriving DecidableEq, Repr, Inhabited

/-- An access of waiting queue work that passed its rights check: the place it took, whose it is, its line and whether it writes, and whether the region ended since (R37, R39). -/
structure Passed where
  why : WaitWhy
  actor : Nat
  line : Nat
  write : Bool
  ended : Bool
deriving DecidableEq, Repr, Inhabited

/-- The directory (R115 to R127, R426). -/
structure DirState where
  /-- Entries by line number, 8,388,608 in 524,288 sets of 16 ways (R115); reset empty. -/
  entries : Sparse DirEntry := []
  /-- Snoops in flight (R116); reset none. -/
  snoops : List Snoop := []
  /-- Next BITag and next allocation stamp, the model's own counters; reset 0. -/
  next : Nat := 0
  /-- Requests held, in arrival order (R116, R106, R242, R257); reset none. -/
  waiting : List (WaitWhy × MemReq) := []
  /-- Accesses of waiting queue work that passed their rights check under an entry that has since changed or ended (R37, R39); reset none. -/
  passed : List Passed := []
  /-- Ports whose lost-owner walk runs, WALK_MASK, 6 bits (R126); reset 0. -/
  walks : BitVec 6 := 0
  /-- CAUSE the running walk of a port logs (R127). -/
  walkCause : Sparse Nat := []
  /-- The 4,096-entry lost-line log, oldest first (R127); reset empty. -/
  lostLog : List Lost := []
  /-- OVF of DIR_LOST_INFO, 16 bits (R127); reset 0. -/
  lostOvf : Nat := 0
  /-- Requests of ports not yet made whose mesh flit has an uncorrectable error: port, tag, and whether it is a header (R316); reset none. -/
  meshHits : List (Nat × Nat × Bool) := []
  /-- Actors whose work reads its next line from a flit whose data has an uncorrectable error (R316); reset none. -/
  meshData : List Nat := []
deriving DecidableEq, Repr, Inhabited

/-- A draft tile: a vat slot with a written-line mask (R128); its poison lies with the slot's lines. -/
structure DraftTile where
  tile : Nat
  slot : Nat
  mask : BitVec 256 := 0
deriving DecidableEq, Repr, Inhabited

/-- A writer's draft of a region (R128, R131). -/
structure Draft where
  region : Nat
  /-- 0 to 5, or 7 for the internal writer. -/
  writer : Nat
  tiles : List DraftTile := []
  broken : Bool := false
deriving DecidableEq, Repr, Inhabited

/-- An accepted publication not yet folded (R135, R137). -/
structure Publication where
  region : Nat
  edition : Nat
  writer : Nat
  tiles : List DraftTile
deriving DecidableEq, Repr, Inhabited

/-- The edition engine (R128 to R139). -/
structure EdnState where
  /-- Drafts open (R128); reset none. -/
  drafts : List Draft := []
  /-- Accepted publications not yet folded, in order (R137); reset none. -/
  pubs : List Publication := []
deriving DecidableEq, Repr, Inhabited

/-- An HDM decoder (R238). -/
structure Decoder where
  base : Nat := 0
  size : Nat := 0
  skip : Nat := 0
  /-- Range offset D taken at commit (R239). -/
  offset : Nat := 0
  hdmH : Bool := false
  /-- Interleave granularity and ways as last committed (R238). -/
  ig : Nat := 0
  iw : Nat := 0
  committed : Bool := false
  lock : Bool := false
  /-- Error Not Committed (R238). -/
  error : Bool := false
deriving DecidableEq, Repr, Inhabited

/-- Who receives the data of a DMA read (R278). -/
inductive Consumer where
  | demand (req : MemReq)
  | move (tile off : Nat)
  | entry (queue seq off : Nat)
  | ring (queue slot : Nat)
  /-- A read whose command ended before its data came: nobody (R278). -/
  | gone
deriving DecidableEq, Repr, Inhabited

/-- An outstanding or quarantined DMA read tag (R278, R279). -/
structure Tag where
  tag : Nat
  haddr : Nat
  bytes : Nat
  consumer : Consumer
  /-- The traffic class it was issued in (R20, R73). -/
  cls : Nat := 2
  issuedAt : Nat
  timeoutUs : Nat
  /-- Bytes received, by offset, as a mask and their values. -/
  got : Sparse Bool := []
  data : Memory := []
  /-- Lines of the read, counted from its start, that arrived with EP set (R243). -/
  ep : Sparse Bool := []
  quarantined : Bool := false
deriving DecidableEq, Repr, Inhabited

/-- The state of one port's function (R226 to R259). Where the spec gives a field of configuration space no reset value, it is that of PCI Express and CXL (PRESUMED, log entry 171). -/
structure PortState where
  /-- PERST# asserted at the socket (R415); reset true: the pull-down holds it. -/
  perst : Bool := true
  /-- The port takes requests: trained, reset done and READY not yet required (R250). -/
  resetAt : Option Nat := none
  /-- Why the running port reset began: 1 hot reset, 2 link down, 3 PERST# (PRT_RESET_INFO). -/
  resetCause : Nat := 0
  /-- Moment T from which training is timed (R250). -/
  trainFrom : Nat := 0
  /-- Function in D3hot (R234); reset D0. -/
  d3hot : Bool := false
  /-- DMA writes to the host-tier window that wait for D0, in order: host address, bytes, class (R234); reset none. -/
  heldWrites : List (Nat × List Byte × Nat) := []
  /-- Bus Master Enable (R244); reset 0. -/
  bme : Bool := false
  /-- Memory Space Enable; reset 0. -/
  memEnable : Bool := false
  /-- MSI-X Enable and Function Mask (R251); reset 0. -/
  msixEnable : Bool := false
  funcMask : Bool := false
  /-- Interrupt Disable (R252); reset 0. -/
  intxDisable : Bool := false
  /-- Assert_INTA was sent last (R252); reset false. -/
  intxAsserted : Bool := false
  /-- PTM Enable (R255); reset 0. -/
  ptmEnable : Bool := false
  /-- The bases of the three BARs (R235); reset 0. -/
  bars : Vector Nat 3 := Vector.replicate 3 0
  /-- Message address and message data of each MSI-X vector (R251); reset 0. -/
  msgAddr : Sparse Nat := []
  msgData : Sparse Nat := []
  /-- The link is in L2/L3 Ready (R226); reset false. -/
  l23 : Bool := false
  /-- Max Payload Size in bytes (R232); reset 128, the PCIe default. -/
  mps : Nat := 128
  /-- Max Read Request Size in bytes (R232); reset 512, the PCIe default. -/
  mrrs : Nat := 512
  /-- BI Enable and BI-ID of the BI Decoder Capability (R241); reset 0. -/
  biEnable : Bool := false
  biId : Nat := 0
  /-- The four HDM decoders (R238); reset uncommitted. -/
  decoders : Vector Decoder 4 := Vector.replicate 4 {}
  /-- Mask bit of each of the 2,048 MSI-X vectors; unlisted is masked (R249); reset masked. -/
  unmasked : Sparse Bool := []
  /-- Pending-bit array, 2,048 bits (R251); reset 0. -/
  pba : Sparse Bool := []
  /-- Class-0 read and write buckets in bytes, and when they were last filled (R257); reset full depth. -/
  rdBucket : Nat := 16384
  wrBucket : Nat := 16384
  bucketAt : Nat := 0
  /-- DMA read tags outstanding or quarantined (R278, R279); reset none. -/
  tags : List Tag := []
  /-- Tags freed, least recently freed first, and the lowest never used (R279); reset none, 0. -/
  freed : List Nat := []
  nextTag : Nat := 0
  /-- AER events recorded: the advisory ones 1 Poisoned TLP, 2 Completion Timeout, 3 Unexpected Completion, 5 Unsupported Request, and the fatal ones 4 of the link, 6 malformed TLP or CXL.mem protocol, 7 IDE, 0 of the port itself (R243, R245, R278, R279); sticky. -/
  aer : BitVec 8 := 0
  /-- CXL.io and CXL.mem IDE streams in the secure state (R253, R254); reset false. -/
  ideIo : Bool := false
  ideMem : Bool := false
  /-- Key sets of the streams, k 0 CXL.io, 1 CXL.mem: bits 4k and 4k + 1 say that sets 0 and 1 are programmed, bit 4k + 2 is the set in use (R253); reset 0. -/
  ideKeys : Nat := 0
  /-- The key set that the next TLP or flit of a stream switches to, by k (R253); reset none. -/
  ideGo : Sparse (Option Nat) := []
  /-- SPDM connection: 0 none, 1 version, 2 capabilities, 3 algorithms (R384); reset 0. -/
  spdmPhase : Nat := 0
  /-- SPDM session: 0 none, 1 key exchange done, 2 established (R384); reset 0. -/
  spdmSession : Nat := 0
  /-- SPDM session key epoch (KEY_UPDATE); reset 0. -/
  spdmKey : Nat := 0
  /-- The DOE mailbox's error bit, set by an object larger than 64 KiB (R256); reset false. -/
  doeError : Bool := false
  /-- PTM: t1 of the dialog in flight, t4 and OFFSET of the last good dialog, and the moment from which good ones are missed, the last good dialog's or, with none since the port's reset, the first dialog's (R369); reset none. -/
  ptmT1 : Option Nat := none
  ptmT4 : Nat := 0
  ptmOffset : Int := 0
  ptmSince : Option Nat := none
  ptmLastAt : Nat := 0
deriving DecidableEq, Repr, Inhabited

/-- An entry the queue manager holds, from fetch to completion (R268, R271). -/
structure Entry where
  queue : Nat
  seq : Nat
  opcode : Nat := 0
  fence : Bool := false
  noInt : Bool := false
  host0 : Bool := false
  host1 : Bool := false
  final : Bool := false
  /-- A reserved bit or blank field of the entry was not zero (R269). -/
  bad : Bool := false
  cid : Nat := 0
  dw1 : Nat := 0
  a0 : Nat := 0
  a1 : Nat := 0
  a2 : Nat := 0
  /-- 0 fetched, 1 started, 2 running (its row has begun), 3 ended. -/
  stage : Nat := 0
  status : Nat := 0
  v0 : Nat := 0
  v1 : Nat := 0
  v2 : Nat := 0
  /-- Some access of the entry was refused (R274). -/
  refused : Bool := false
  /-- Bytes a HOST_READ has asked for, and bytes that have come (R270). -/
  issued : Nat := 0
  came : Nat := 0
  /-- Time base when it started, and when it ended. -/
  startedAt : Nat := 0
  endedAt : Nat := 0
  /-- The CASK_IMPORT entry whose session a CASK_IMPORT_DATA met, by sequence number (R272). -/
  session : Option Nat := none
deriving DecidableEq, Repr, Inhabited

/-- A completion entry before it is written: queue entry fields of R273. -/
structure Cpl where
  cid : Nat
  src : Nat
  status : Nat
  watch : Bool
  v0 : Nat
  v1 : Nat
  v2 : Nat
  time : Nat
  noInt : Bool := false
deriving DecidableEq, Repr, Inhabited

/-- One hardware queue (R260 to R276). -/
structure Queue where
  /-- KIND, 2 bits, and ID, 8 bits, of QMG_OWN (R260); reset 0, 0. -/
  ownKind : Nat := 0
  ownId : Nat := 0
  /-- QMG_Q_CFG, 32 bits: DEPTH_LOG2 4, CLASS 2 at reset. -/
  cfg : Word := 0x44#32
  /-- QMG_Q_AGG, 32 bits: MAX_INFLIGHT 32 at reset. -/
  agg : Word := 0x0080_0000#32
  /-- QMG_Q_SQ_BASE and QMG_Q_CQ_BASE, 64 bits (R262); reset 0. -/
  sqBase : Nat := 0
  cqBase : Nat := 0
  /-- STATE: 0 disabled, 1 running, 2 halted, 3 disabling (QMG_Q_STATUS); reset 0. -/
  state : Nat := 0
  /-- HALT_STATUS, 8 bits (R275); reset 0. -/
  haltStatus : Nat := 0
  /-- PHASE (R265); reset 1. -/
  phase : Bool := true
  /-- SQ_HEAD, submission tail, CQ_TAIL, completion head, 16 bits each (R263); reset 0. -/
  sqHead : Nat := 0
  sqTail : Nat := 0
  cqTail : Nat := 0
  cqHead : Nat := 0
  /-- The doorbell word as last written, 64 bits (R266); reset 0. -/
  doorbell : DWord := 0
  /-- Unsignalled completions and the time of the first of them (R280); reset 0, none. -/
  unsignalled : Nat := 0
  firstUnsig : Option Nat := none
  /-- Completions held under R276 or refused under R277, oldest first; reset none. -/
  held : List Cpl := []
  /-- The oldest of them was refused, and is written again at RESTART (R277); reset false. -/
  refusedCpl : Bool := false
  /-- Watch completions waiting for this queue (R281); reset none. -/
  watch : List Cpl := []
  /-- Halt status that containment will set once running entries end (R246); reset none. -/
  pendHalt : Option Nat := none
  /-- Sequence number of the next entry fetched, the model's own counter; reset 0. -/
  nextSeq : Nat := 0
deriving DecidableEq, Repr, Inhabited

/-- The queue manager (R260 to R282). -/
structure QmgState where
  /-- The 65,536 queues (R260); reset disabled with no owner. -/
  queues : Sparse Queue := []
  /-- Entries fetched and not yet completed, in fetch order (R271); reset none. -/
  entries : List Entry := []
  /-- Queue served last by the round-robin fetch (R271); reset 65,535. -/
  lastFetch : Nat := 65535
deriving DecidableEq, Repr, Inhabited

/-- A fill of a layer's weight sets in a window (R185). -/
structure Fill where
  recNo : Nat
  inPlace : Bool := false
  /-- Its first pass's reads have been issued: the copied bytes are what they read (R179, R185). -/
  issued : Bool := false
  /-- The plan of the layer: slabs a pass, tiles of its buffer, whether that holds the whole set, tiles of its activation spill (R192, R194). -/
  q : Nat := 1
  buffer : Nat := 0
  whole : Bool := true
  spill : Nat := 0
  /-- Where it lies in the streaming part: first tile and tiles of each run, its buffer and then its spill (R181). -/
  place : List (Nat × Nat) := []
  /-- The copied bytes by unified address, and the poisoned lines by line number. -/
  data : Memory := []
  poison : Sparse Bool := []
deriving DecidableEq, Repr, Inhabited

/-- The phases of a job's current layer (R183, R188). -/
inductive LayerPhase where
  | none | waitWeights | late | waitRows | running | waitPass | chain
deriving DecidableEq, Repr, Inhabited

/-- A job (R171 to R203). -/
structure Job where
  id : Nat
  queue : Nat
  /-- Sequence number of the JOB_SUBMIT entry; the queue number 65,536 stands for Shombe's own queue (R225). -/
  seq : Nat := 0
  cid : Nat
  /-- Rights and class it acts with: 0 to 5 a port, 7 internal (R179). -/
  actor : Nat
  cls : Nat
  /-- Owner kind and id of the submitting queue (R200). -/
  ownKind : Nat := 0
  ownId : Nat := 0
  hdrAddr : Nat
  /-- 0 QUEUED, 1 ADMITTING, 2 RUNNING, 3 ABORTING (R176). -/
  state : Nat := 0
  /-- The streamer's copy of the chain, byte 0 the header (R178). -/
  chain : Memory := []
  /-- Vat slots of its window (R180). -/
  slots : List Nat := []
  /-- Slot of the 256 of LST_JOB_SEL it occupies. -/
  place : Nat := 0
  /-- Pinned sets' content by unified address, and its poisoned lines (R181). -/
  pinned : Memory := []
  pinPoison : Sparse Bool := []
  fills : List Fill := []
  /-- The running layer's activation lines that its rows have loaded, keep or spilled, by unified address beyond each row's base, and the poisoned ones by line number (R194). -/
  acts : Memory := []
  actPoison : Sparse Bool := []
  /-- How the running record's rows have its activations, decided at its start: 0 from their homes, chunk by chunk; 1 kept in the rows across passes; 2 from a spill in the streaming part (R184, R194, R203). -/
  keep : Nat := 0
  /-- Tiles of the streaming part that this spill holds beyond the record's fill (R194). -/
  spillHeld : Nat := 0
  /-- Where they lie in the streaming part: first tile and tiles of each run (R181). -/
  spillAt : List (Nat × Nat) := []
  /-- Chunks of the running layer whose result lines are written, in this pass (R156, R167). -/
  written : Nat := 0
  /-- Record running or waiting, and the layer record it stands for when a fallback runs (R188, R189). -/
  recNo : Nat := 0
  layer : Nat := 0
  phase : LayerPhase := .none
  /-- The layer's results are held and its data-engine chain has yet to start (R196). -/
  chainDue : Bool := false
  /-- The queue of the layer streamer and the CID under which that chain has been submitted (R260). -/
  chainEntry : Option (Nat × Nat) := none
  /-- Outcome and cause of a job that has ended but for its report, whose lines some port holds (R118, R197). -/
  ending : Option (Nat × Nat) := none
  /-- LAST_RECORD: the record running or last run; 0 if none ran (R197). -/
  lastRecord : Nat := 0
  /-- Fallback records still to run after recNo (R189). -/
  fbLeft : Nat := 0
  /-- Pass in progress and slabs a pass (R192, R193). -/
  pass : Nat := 0
  /-- Rows running the current layer, and rows held (R182). -/
  running : BitVec 16 := 0
  rows : BitVec 16 := 0
  /-- Chunks each row has finished in this pass (R167). -/
  chunks : Sparse Nat := []
  /-- start_us of R187, time the layer asked for rows, time it became late, time its predecessor ended. -/
  startUs : Nat := 0
  layerAt : Nat := 0
  askedAt : Nat := 0
  lateAt : Nat := 0
  endedAt : Nat := 0
  passEndAt : Nat := 0
  /-- Report fields of R197. -/
  outcome : Nat := 0
  cause : Nat := 0
  refused : Bool := false
  poisoned : Bool := false
  degraded : Nat := 0
  firstDeg : Nat := 0
  lastDeg : Nat := 0
  waited : Nat := 0
  splitLayers : Nat := 0
  extraPasses : Nat := 0
  faultPhys : Nat := 0
  faultCause : Nat := 0
  faultRow : Nat := 0
  startTime : Nat := 0
  endTime : Nat := 0
  waitNs : Nat := 0
  splitNs : Nat := 0
  spillBytes : Nat := 0
  macs : Nat := 0
deriving DecidableEq, Repr, Inhabited

/-- The layer streamer (R171 to R203). -/
structure LstState where
  /-- Jobs not DONE, in order of acceptance: at most 1,024 QUEUED and 256 admitted (R176, R177); reset none. -/
  jobs : List Job := []
  /-- Identity of the next job, the model's own counter; reset 0. -/
  nextJob : Nat := 0
deriving DecidableEq, Repr, Inhabited

/-- A data-engine descriptor as read at chain start (R206, R208). -/
structure Desc where
  op : Nat := 0
  typ : Nat := 0
  redOp : Nat := 0
  scale : Bool := false
  overlap : Bool := false
  srcLess1 : Nat := 0
  list : Bool := false
  tag : Nat := 0
  length : Nat := 0
  dst : Nat := 0
  src : Nat := 0
  stride : Nat := 0
  imm : Nat := 0
  result : Nat := 0
  /-- Its source addresses, once it has started (R206, R210). -/
  srcs : List Nat := []
  /-- The line or a reserved field was bad: the descriptor ends BAD_DESCRIPTOR in its turn (R207, R208). -/
  bad : Bool := false
  /-- 0 not started, 1 running, 2 ended. -/
  stage : Nat := 0
  /-- Status of R274 it ended with. -/
  status : Nat := 0
  /-- Units done, by index. -/
  done : Sparse Bool := []
  refused : Bool := false
  /-- COMPARE accumulators: first difference (none yet), differing lines, poison seen (R209). -/
  firstDiff : Option Nat := none
  diffLines : List Nat := []
  cmpPoison : Bool := false
  /-- Address of a line that an engine's read found uncorrectable: the descriptor ends UNCORRECTABLE (R208, R214). -/
  ueAt : Option Nat := none
deriving DecidableEq, Repr, Inhabited

/-- A chain of descriptors (R208). -/
structure Chain where
  id : Nat
  /-- The queue entry that started it, or the job. -/
  entry : Option (Nat × Nat) := none
  job : Option Nat := none
  /-- Rights: 0 to 5 a port, 7 internal; and class. -/
  actor : Nat
  cls : Nat
  descs : List Desc
  /-- 0 running, else ended. -/
  ended : Bool := false
deriving DecidableEq, Repr, Inhabited

/-- A unit of a descriptor placed on an engine (R205). -/
structure UnitRef where
  chain : Nat
  desc : Nat
  unit : Nat
  /-- The engine, or none while no engine admits. -/
  engine : Option Nat
deriving DecidableEq, Repr, Inhabited

/-- The data engines (R204 to R214). -/
structure DenState where
  /-- Chains running (R208); reset none. -/
  chains : List Chain := []
  /-- Units waiting, in order (R205); reset none. -/
  units : List UnitRef := []
  /-- Identity of the next chain, the model's own counter; reset 0. -/
  nextChain : Nat := 0
deriving DecidableEq, Repr, Inhabited

/-- A service call Shombe has received (R215). -/
structure SvcCall where
  queue : Nat
  seq : Nat
  service : Nat
  func : Nat
  block : Nat
  /-- Rights and class of the calling queue: 0 to 5 a port, 7 internal (R30, R215). -/
  actor : Nat := 7
  cls : Nat := 0
deriving DecidableEq, Repr, Inhabited

/-- The parameters of a key-value cache session (R218). -/
structure KvSession where
  layers : Nat
  heads : Nat
  headSize : Nat
  /-- Element format by R143: 4 E4M3, 7 BF16. -/
  fmt : Nat
  capacity : Nat
deriving DecidableEq, Repr, Inhabited

/-- A contribution to a gradient round (R223): the call and the address. -/
structure Contribution where
  queue : Nat
  seq : Nat
  port : Nat
  cls : Nat
  addr : Nat
  edition : Nat
deriving DecidableEq, Repr, Inhabited

/-- A gradient group (R223). -/
structure Group where
  isOpen : Bool := false
  mask : BitVec 6 := 0
  fmt : Nat := 0
  count : Nat := 0
  region : Nat := 0
  offset : Nat := 0
  mean : Bool := false
  timeoutUs : Nat := 0
  /-- Edition of the open round, and when it opened. -/
  round : Option Nat := none
  openedAt : Nat := 0
  /-- Contributions of the open round in arrival order, then those waiting for a later one. -/
  parts : List Contribution := []
  later : List Contribution := []
deriving DecidableEq, Repr, Inhabited

/-- A surrogate handle (R225). -/
structure Model where
  loaded : Bool := false
  header : Nat := 0
  /-- The call whose job runs: queue, entry, output address, job. -/
  running : Option (Nat × Nat × Nat × Nat) := none
  /-- Its job is on its way: the queue and the CID of Shombe's JOB_SUBMIT, none where the streamer has it; queue 65,536 where the entry was lost and goes out again. -/
  entry : Option (Nat × Nat) := none
  /-- Its job has completed and the output is not copied yet: the job. -/
  ended : Option Job := none
  /-- A read or write of its chain or its input was refused (R217, R225). -/
  inputRefused : Bool := false
  /-- Calls waiting in arrival order: queue, entry, input, output. -/
  waiting : List (Nat × Nat × Nat × Nat) := []
  /-- An unload waits for the running call: queue and entry. -/
  unload : Option (Nat × Nat) := none
deriving DecidableEq, Repr, Inhabited

/-- The resident services (R215 to R225). -/
structure SvcState where
  /-- Calls received and not yet ended (R215); reset none. -/
  calls : List SvcCall := []
  /-- The parameters of the key-value cache sessions, by region index (R218); reset none. -/
  kv : Sparse (Option KvSession) := []
  /-- The 64 gradient groups (R223); reset closed. -/
  groups : Sparse Group := []
  /-- The 256 surrogate handles (R225); reset unloaded. -/
  models : Sparse Model := []
deriving DecidableEq, Repr, Inhabited

/-- A control core: the RV64GC state the spec names (R283, R288), in machine and user modes. -/
structure Core where
  /-- STATE of CTL_CORE_STATE: 0 held or idle spare, 1 running, 2 dormant, 3 halted, 4 retired; reset 0. -/
  state : Nat := 0
  /-- RETIRE_NOTICE raised, and when (R292); reset none. -/
  notice : Option Nat := none
  logical : Nat := 0
  /-- Integer registers x0 to x31, 64 bits (R288); reset 0. -/
  x : Vector DWord 32 := Vector.replicate 32 0
  /-- Floating-point registers f0 to f31 and fcsr of RV64GC (R283), PRESUMED; reset 0. -/
  f : Vector DWord 32 := Vector.replicate 32 0
  fcsr : Word := 0
  /-- Program counter, 64 bits (R288); reset 0. -/
  pc : DWord := 0
  /-- Machine trap registers of RV64GC (R290): mcause, mtval, mepc, mtvec, mscratch, mstatus, mie; reset 0 (R288). -/
  mcause : DWord := 0
  mtval : DWord := 0
  mepc : DWord := 0
  mtvec : DWord := 0
  mscratch : DWord := 0
  mstatus : DWord := 0
  mie : DWord := 0
  /-- Counters that user mode may read (RV64GC's mcounteren, PRESUMED); reset 0. -/
  mcounteren : Word := 0
  /-- Sixteen PMP entries: configuration and address (R283); reset 0. -/
  pmpcfg : Vector Byte 16 := Vector.replicate 16 0
  pmpaddr : Vector DWord 16 := Vector.replicate 16 0
  /-- mcycle and minstret (R284); reset 0. -/
  mcycle : DWord := 0
  minstret : DWord := 0
  /-- Time base up to which mcycle has been counted; reset 0. -/
  cycleAt : Nat := 0
  /-- Machine mode (true) or user mode (R283); reset machine. -/
  machine : Bool := true
  /-- Stopped fetching by WFI, and when (R300); reset none. -/
  wfiAt : Option Nat := none
  /-- Time at which a wake from dormant ends (R300); reset none. -/
  wakeAt : Option Nat := none
  /-- The reservation of R309: the key of an 8-byte word; reset none. -/
  reservation : Option Nat := none
  /-- Addresses of instruction-cache lines held, with their bytes (R284); reset none. -/
  icache : List (Nat × List Byte) := []
  /-- Uncorrectable traps of KIND 1 or 2 within the hour, by time (R345); reset none. -/
  ueTimes : List Nat := []
  /-- Halted by the debug port, and let run one instruction by its step (R388); reset false. -/
  debugHalt : Bool := false
  debugStep : Bool := false
  /-- A mesh flit of the core's next access over the mesh has an uncorrectable error, and whether it is a header (R316); reset none. -/
  meshHit : Option Bool := none
deriving DecidableEq, Repr, Inhabited

/-- A shared interrupt source (R294, R295). -/
structure Src where
  count : Nat := 0
  insvc : Bool := false
  claimer : Nat := 0
  /-- ICU_SRC_CFG, 32 bits; reset 0. -/
  cfg : Word := 0
  /-- Its redirection has been logged while pending (R301). -/
  redirected : Bool := false
deriving DecidableEq, Repr, Inhabited

/-- A redirect-log entry (R296). -/
structure Redir where
  id : Nat
  fromL : Nat
  toL : Nat
deriving DecidableEq, Repr, Inhabited

/-- The interrupt controller (R294 to R301). -/
structure IcuState where
  /-- Counters of private source n of core L, 8 bits, key 64 L + n (R295); reset 0. -/
  privCnt : Sparse Nat := []
  /-- In-service flags of private sources, same key (R295); reset clear. -/
  privSvc : Sparse Bool := []
  /-- The 4,096 shared sources (R294); reset idle. -/
  srcs : Sparse Src := []
  /-- The 16-entry redirect log (R296); reset empty. -/
  redirLog : List Redir := []
  /-- OVF of ICU_REDIR_LOG, 7 bits; reset 0. -/
  redirOvf : Nat := 0
  /-- Cores whose timer has been raised for the present ICU_TIMECMP, by bit (R295); reset none. -/
  timerFired : BitVec 16 := 0
deriving DecidableEq, Repr, Inhabited

/-- The on-die stores (R302 to R316). -/
structure StoState where
  /-- Cluster stores, byte b of cluster c of row r at 2^21 (64 r + c) + b (R302); reset 0. -/
  cluster : Memory := []
  /-- Row stores, byte b of row r at 2^25 r + b (R302); reset 0. -/
  row : Memory := []
  /-- Shared memory, 16 MiB: open part then secure partition (R302); reset 0. -/
  shared : Memory := []
  /-- Core local memories, byte b of core c at 2^18 c + b (R302); reset 0. -/
  localMem : Memory := []
  /-- Words carrying the poison pattern, key 2^36 store + 8-byte word number (R304); reset none. -/
  poison : Sparse Bool := []
  /-- Collisions and atomics counted per bank, 32 bits, key 2^20 store + 64 inst + bank; reset 0. -/
  coll : Sparse Nat := []
  atom : Sparse Nat := []
  /-- When the running wipe began, and that a wipe has failed since the cold start (R313, R389); reset 0, false. -/
  wipeAt : Nat := 0
  wipeFail : Bool := false
  /-- Words of the tested banks that port A wrote during a destructive march run, keyed as poison (R344); reset none. -/
  marchHit : List Nat := []
deriving DecidableEq, Repr, Inhabited

/-- A request in a DRAM controller's queue (R321). -/
structure DramReq where
  cls : Nat
  /-- Source 0 to 5 a port, 6 everything else. -/
  src : Nat
  write : Bool
  rank : Nat
  bank : Nat
  row : Nat
  /-- Line or sector identity for R322. -/
  line : Nat
  arrived : Nat
  /-- Column byte in the row (R317, R319). -/
  column : Nat := 0
deriving DecidableEq, Repr, Inhabited

/-- A DRAM channel's controller (R317 to R332). -/
structure ChanState where
  /-- Requests waiting, in arrival order (R321); reset none. -/
  reqs : List DramReq := []
  /-- Open row plus one of each bank, key 16 rank + bank (R324); reset closed. -/
  openRow : Sparse Nat := []
  /-- The 2-bit page counters of R324, key 16 rank + bank, less 2; unlisted is 2; reset 2. -/
  pageCtr : Sparse Nat := []
  /-- The write queue drains (R322); reset false. -/
  draining : Bool := false
  /-- Requests served in this interval by class, those of class 3's floor not among them, and by class and source (R21, R321), keys cls and 8 cls + src; reset 0. -/
  served : Sparse Nat := []
  /-- Requests of class 3 served in this interval under its floor of 1/16 (R21); reset 0. -/
  floorServed : Nat := 0
  srcServed : Sparse Nat := []
  /-- Start of the 1 us interval, and the class and source weight words it uses (R21, R332); reset 0 and reset weights. -/
  intervalAt : Nat := 0
  classWt : Word := 0x268#32
  srcWt : Word := 0x0111_1111#32
  /-- Ranks in power-down and the channel in self-refresh (R327, R328); reset none. -/
  powerDown : BitVec 8 := 0
  selfRefresh : Bool := false
  /-- Refreshes postponed per bank, key 16 rank + bank (R325); reset 0. -/
  postponed : Sparse Nat := []
  /-- Time of the last request of the channel (R328), and of the last request or refresh of each rank (R327); reset 0. -/
  lastReq : Nat := 0
  rankAt : Sparse Nat := []
  /-- When the last per-bank refresh of each bank fell due, key 16 rank + bank (R325, R326); reset 0. -/
  dueAt : Sparse Nat := []
  /-- When the DQS interval oscillator was last read, and the ranks whose delays the next refresh corrects (R331); reset 0, none. -/
  dqsAt : Nat := 0
  dqsOwed : BitVec 8 := 0
  /-- STATE, SPARES_USED, RD_MARGIN, WR_MARGIN, RETRAINS as in VAT_CHAN_TRAIN; reset 0. -/
  train : Word := 0
  /-- VAT_CHAN_TIME or CLR_CHAN_TIME, 64 bits; reset 0. -/
  trainedAt : Nat := 0
deriving DecidableEq, Repr, Inhabited

/-- The DRAM controllers (R317 to R332). -/
structure DramState where
  /-- Vat channels, key 64 stack + channel (R317); reset idle, untrained. -/
  vat : Sparse ChanState := []
  /-- Cellar channels, key 4 package + channel (R319); reset idle, untrained. -/
  cellar : Sparse ChanState := []
  /-- MR4 refresh-rate field of each rank, key 8 package + 2 channel-pair rank (R326); reset 0. -/
  mr4 : Sparse Nat := []
  /-- When MR4 of each rank was last read, same key (R326); reset 0. -/
  mr4At : Sparse Nat := []
deriving DecidableEq, Repr, Inhabited

/-- A repair-log entry of 16 bytes (R351). -/
structure LogEntry where
  time : Nat
  action : Nat
  unit : Nat
  detail : Nat
deriving DecidableEq, Repr, Inhabited

/-- A suspect DRAM row (R345). -/
structure Suspect where
  unit : RepairUnit
  count : Nat
  since : Nat
  /-- Corrections in the scrub pass in progress. -/
  inPass : Nat := 1
deriving DecidableEq, Repr, Inhabited

/-- A vat remap copy in progress (R347). -/
structure RemapCopy where
  stack : Nat
  channel : Nat
  rank : Nat
  bank : Nat
  row : Nat
  /-- A whole bank is copied. -/
  whole : Bool
  line : Nat := 0
  /-- Lines left to copy. -/
  left : Nat
  stepAt : Nat := 0
deriving DecidableEq, Repr, Inhabited

/-- Integrity and repair (R333 to R355). -/
structure IgrState where
  /-- Leaky-bucket levels, 16 bits, key 4,096 kind + index (R341, R342); reset 0. -/
  level : Sparse Nat := []
  /-- Overflows of each bucket, 16 bits, same key (IGR_BKT_LEVEL); reset 0. -/
  overflows : Sparse Nat := []
  /-- The 16-entry overflow log: kind and index (R342); reset empty. -/
  bktLog : List (Nat × Nat) := []
  /-- OVF of IGR_BKT_LOG, 8 bits; reset 0. -/
  bktOvf : Nat := 0
  /-- When each bucket last leaked or was filled from zero (R342), same key. -/
  leakAt : Sparse Nat := []
  /-- The table of 4,096 suspect DRAM rows (R345); reset empty. -/
  suspects : List Suspect := []
  /-- Units that have met a trigger of R345 which the block counts itself, and that the cooper has not taken yet; reset none. -/
  due : List RepairUnit := []
  /-- Overflows of the packages' buckets in the last 24 hours: package and time (R345); reset none. -/
  pkgOver : List (Nat × Nat) := []
  /-- Corrections in each cluster store since its row's bucket last overflowed, key 64 row + cluster (R345); reset 0. -/
  storeCe : Sparse Nat := []
  /-- Places that scrub has visited in the pass in progress, key 4 place + tier (R339); reset none. -/
  scrubbed : Sparse Bool := []
  /-- When a remap copy last stepped in a bank, key 128 channel key + 16 rank + bank (R347); reset 0. -/
  bankStep : Sparse Nat := []
  /-- The repair log in flash, up to 8,192 entries, oldest first (R351); reset as recorded: empty. -/
  log : List LogEntry := []
  /-- Triggers whose action awaits its entry's acknowledgement, with that entry, in order (R346); reset none. -/
  waiting : List (RepairUnit × LogEntry) := []
  /-- Cellar rows being retired, whose casks have not all been relocated (R348); reset none. -/
  rowsLeaving : List RepairUnit := []
  /-- Relocation copies the cooper has made and not yet passed through its queues (R260); reset 0. -/
  copies : Nat := 0
  /-- The queue in which the next of their entries waits to be written (R116); reset none. -/
  copyAt : Option Nat := none
  /-- Triggers held until the control cores are released (R398), and those of a bank that wait for the copy of a row in it (R355); reset none. -/
  early : List RepairUnit := []
  /-- Repair-log entries replayed at the last start (REPAIR_ENTRIES, R289, R353); reset 0. -/
  replayed : Nat := 0
  /-- Cluster and column-group actions acknowledged but held for the row to be free (R346, R11); reset none. -/
  heldSubst : List RepairUnit := []
  /-- The running vat remap copies, the one stepped longest ago first (R347); reset none. -/
  remap : List RemapCopy := []
  /-- Rows and banks remapped: channel key, bank key, row or none for a bank (R347); reset none. -/
  remapped : List (Nat × Nat × Option Nat) := []
  /-- Triggers counted while AUTO is clear or before release (R345, R398); reset 0. -/
  triggers : Nat := 0
  /-- The march run in progress: mode, store, instance, first and last bank (R343); reset none. -/
  march : Option (Bool × Nat × Nat × Nat × Nat) := none
  /-- STOP has been written during the run (IGR_MARCH_CMD); reset false. -/
  marchStop : Bool := false
  /-- Scrub positions of the three tiers, in codewords visited this pass (R339); reset 0. -/
  scrubPos : Vector Nat 3 := Vector.replicate 3 0
  /-- Spares brought in of each kind: 0 vat bank, 1 bond lane, 2 column group, 3 cluster, 4 core, 5 press lane, 6 row remap; reset 0. -/
  sparesUsed : Sparse Nat := []
deriving DecidableEq, Repr, Inhabited

/-- The tensor rows (R140 to R170). -/
structure TnsState where
  /-- Jobs whose layers run on each row, by job id plus one (R165); reset 0: idle. -/
  runBy : Vector Nat 16 := Vector.replicate 16 0
  /-- Level of each row, 0 to 7 (R363, R364); reset 0. -/
  level : Vector Nat 16 := Vector.replicate 16 0
  /-- Multiply-accumulates performed by each row, of which TNS_MAC_COUNT shows whole units of 65,536; reset 0. -/
  macs : Vector Nat 16 := Vector.replicate 16 0
deriving DecidableEq, Repr, Inhabited

/-- Power and the reference (R356 to R370). -/
structure PwrState where
  /-- Rails that are up, by place in the order of R357, 9 bits; reset VSTBY only. -/
  rails : BitVec 9 := 1
  /-- Input power samples of the last 10 ms, newest first, at most 100 (R358); reset none. -/
  samples : List Nat := []
  /-- The module is off after a trip or a power cycle (R366, R419); reset false. -/
  off : Bool := false
  /-- The recorded trip: cause and stack, VSTBY-held (R366); reset none: 0, 0. -/
  tripCause : Nat := 0
  tripStack : Nat := 0
  /-- Input present through the mate-last contact (R416); reset true. -/
  input : Bool := true
  /-- Rows held by heat, and all rows held by power (R365, R358); reset none. -/
  heatHold : BitVec 16 := 0
  powerHold : Bool := false
  /-- Idle time of rows and engines for R362: moment each became idle. -/
  rowIdleAt : Vector Nat 16 := Vector.replicate 16 0
  denIdleAt : Vector Nat 16 := Vector.replicate 16 0
  /-- Moment from which each island has had nothing to keep it awake but running or waiting work (R362): its enable bit's commit, the end of the job that held the row, the end of a march run on its stores. Rows 0 to 15, engines 16 to 31; reset 0. -/
  dozeFrom : Vector Nat 32 := Vector.replicate 32 0
  /-- Moment of the last loss of the reference (R361); reset 0. -/
  refLostAt : Nat := 0
  /-- The module stays off after a trip, until its input has been absent for a second or a power cycle comes (R366); reset false. -/
  latched : Bool := false
  /-- Moment of the first cycle after a wake (R362). -/
  rowWakeAt : Vector Nat 16 := Vector.replicate 16 0
  denWakeAt : Vector Nat 16 := Vector.replicate 16 0
  /-- The running warm start has quiesced: its islands were reset (R396); reset false. -/
  quiesced : Bool := false
  /-- The repair log as the running cold start found it (R357); reset empty. -/
  startLog : List LogEntry := []
  /-- 0 none, 1 a cold start runs, 2 a warm start runs (R390); reset 1. -/
  starting : Nat := 1
  /-- Time of the running start's trigger (R391, R396); reset 0. -/
  startAt : Nat := 0
deriving DecidableEq, Repr, Inhabited

/-- A verified image as the trust core keeps it (R374, R386): digest D as a little-endian number, SVN, BUILD_ID, body length, entry offset. -/
structure Image where
  digest : Nat := 0
  svn : Nat := 0
  buildId : Nat := 0
  bodyLen : Nat := 0
  entryOff : Nat := 0
deriving DecidableEq, Repr, Inhabited

/-- The image area of flash (R373): what it held when made, which the spec does not say and the first start shows; no valid image after a write that failed (R377); or the bytes of an image. -/
inductive FlashArea where
  | asMade
  | invalid
  | holds (bytes : List Byte)
deriving DecidableEq, Repr, Inhabited

/-- A command of the recovery mailbox in progress (R375 to R377): KIND, requester, object, TRU_RCV_LEN, and the moment of its GO. -/
structure RcvCmd where
  kind : Nat
  req : Requester
  object : TrustObject
  len : Nat
  goAt : Nat
deriving DecidableEq, Repr, Inhabited

/-- Firmware, trust and life cycle (R371 to R389). -/
structure TruState where
  /-- LC marks of OTP, 8 bits (R379, R382); reset bit 0: PRODUCTION, as shipped. -/
  lc : BitVec 8 := 1
  /-- SERIAL of OTP, 64 bits (R379); reset 0, DESIGN CHOICE. -/
  serial : Nat := 0
  /-- ROM_DIGEST of OTP, 512 bits (R379); reset the SHAKE256 digest of the ROM below, DESIGN CHOICE (log entries 5, 175). -/
  romDigest : Nat := 0xbf12a8927cc2ce22a2c60d13defe400ddc6ffdba4ae0ec389d332be61bca4a019d69eb91932a2c02956141e96863b137c55ba36d2042d2c4c86937420828672f
  /-- UDS of OTP, 256 bits (R379); reset 0, DESIGN CHOICE. -/
  uds : Nat := 0
  /-- The four vintage slots, 128 bytes each (R379); reset slot 0 as made (MGMT_PORT, DEBUG_ALLOW and MIN_SVN 0; the key hash zero, DESIGN CHOICE; CHECK as R379), the rest unwritten: zero. -/
  slots : Vector (List Byte) 4 :=
    #v[List.replicate 72 0#8 ++ [0xCB#8, 0x5F#8, 0xE2#8, 0x1F#8] ++ List.replicate 52 0#8, List.replicate 128 0#8, List.replicate 128 0#8, List.replicate 128 0#8]
  /-- Vintage in force since the last cold start (R380); reset 0. -/
  current : Nat := 0
  /-- Life-cycle state in force since the last cold start (R383); reset 1. -/
  lcNow : Nat := 1
  /-- The image area of flash (R373); reset as made. -/
  flash : FlashArea := .asMade
  /-- The staging area of flash (R373). -/
  staging : Option (List Byte) := none
  /-- The image that runs, or was verified last (R374). -/
  image : Option Image := none
  /-- The command in progress (R375); reset none. -/
  rcv : Option RcvCmd := none
  /-- The seeds of the device and the alias key pair in trust-core RAM, 32 bytes each (R385, R387); reset absent. -/
  deviceKey : Option (List Byte) := none
  aliasKey : Option (List Byte) := none
  /-- The alias certificate, certificate slot 1, as the last start issued it (R385); reset none. -/
  aliasCert : Option Nat := none
  /-- The 64 KiB boot ROM (R371), whose content is not in the spec; STAGE 1 checks it against ROM_DIGEST (R372); reset zero bytes, DESIGN CHOICE (log entry 175). -/
  rom : Memory := []
  /-- The 128 KiB of private RAM (R371), which no command reads or writes but for the keys below (R385, R387); reset zero bytes, DESIGN CHOICE (log entry 175). -/
  ram : Memory := []
  /-- A start since the last cold start's trigger stopped with WIPE_FAIL, which no warm start recovers (R401); reset false. -/
  wipeStop : Bool := false
  /-- TRU_NONCE, eight words (R378): random; reset 0, DESIGN CHOICE. -/
  nonce : Vector Word 8 := Vector.replicate 8 0
deriving DecidableEq, Repr, Inhabited

/-- The module's management interface and indicators (R417 to R422). -/
structure ModState where
  /-- I3C dynamic address, or none: static 0x3A answers (R417); reset none. -/
  dynAddr : Option Nat := none
  /-- In-band interrupts enabled (R417); reset false. -/
  ibiEn : Bool := false
  /-- Byte-map offset, 8 bits (R418); reset 0. -/
  offset : Nat := 0
  /-- RESULT of the last command (R418); reset 0. -/
  result : Nat := 0
  /-- When a power cycle was armed (R418); reset none. -/
  armedAt : Option Nat := none
  /-- When the rails fell in a power cycle (R419); reset none. -/
  cycleAt : Option Nat := none
  /-- Locate indication (R418, R421); reset off. -/
  locate : Bool := false
  /-- LEAK of FLAGS (R422); reset 0. -/
  leak : Bool := false
  /-- STATE, TRIP and FLAGS as last seen by the in-band interrupt logic (R417). -/
  seen : Nat × Nat × Nat := (1, 0, 0)
deriving DecidableEq, Repr, Inhabited

/-- The staged values an accepted COMMIT has taken (R405). -/
structure Taken where
  page : Nat
  /-- REQ code of the requester that committed. -/
  req : Nat
  vals : Sparse Word
deriving DecidableEq, Repr, Inhabited

/-- The register file of BAR0 (R402 to R413). -/
structure RegState where
  /-- Live 32-bit register words by 4,096 page + offset; unlisted reads as the Reset column. -/
  live : Sparse Word := []
  /-- Staged words of pages with RWS fields, listed where written and not yet equal to live (R405). -/
  staged : Sparse Word := []
  /-- Accepted commits not yet in effect: COMMIT_BUSY (R405); reset none. -/
  taken : List Taken := []
  /-- Selection registers and per-requester data, key 2^24 (requester code) + word key (R409). -/
  sel : Sparse Word := []
  /-- High halves latched by a low-half read (R404), same key. -/
  latch : List (Nat × Word) := []
  /-- Low halves held (R408): word key, requester code, value. -/
  half : List (Nat × Nat × Word) := []
deriving DecidableEq, Repr, Inhabited

/-- The Izxaca. -/
structure State where
  /-- ORDER, fixed at manufacture (R1, R379); reset TWZ-3072-L, DESIGN CHOICE. -/
  order : Order
  /-- The time base, 64 bits of nanoseconds (R368); reset 0. -/
  now : Nat
  /-- The register file (R402). -/
  reg : RegState
  /-- Region table and leases. -/
  rgn : RgnState
  /-- Vat, cellar, maps and allocators. -/
  mem : MemState
  /-- Racking engine. -/
  rck : RckState
  /-- Presses and tables. -/
  prs : PrsState
  /-- Directory. -/
  dir : DirState
  /-- Edition engine. -/
  edn : EdnState
  /-- The six ports. -/
  ports : Vector PortState 6
  /-- Queue manager. -/
  qmg : QmgState
  /-- Layer streamer. -/
  lst : LstState
  /-- Data engines. -/
  den : DenState
  /-- Resident services. -/
  svc : SvcState
  /-- The eighteen control cores. -/
  cores : Vector Core 18
  /-- Interrupt controller. -/
  icu : IcuState
  /-- On-die stores. -/
  sto : StoState
  /-- DRAM controllers. -/
  dram : DramState
  /-- Integrity and repair. -/
  igr : IgrState
  /-- Tensor rows. -/
  tns : TnsState
  /-- Power and islands. -/
  pwr : PwrState
  /-- Trust core. -/
  tru : TruState
  /-- Module interface. -/
  mod : ModState
  /-- What the block has sent on its links, newest last. -/
  out : List Out
  /-- The model's own counter of free values drawn (log entry 2); reset 0, DESIGN CHOICE. -/
  freeCtr : Nat
  /-- The commands waiting, first in, first out. -/
  pending : List Instr
deriving DecidableEq, Repr, Inhabited

/-- The machine right after reset, for either ordering code. -/
def State.resetOf (o : Order) : State :=
  { order := o, now := 0, reg := {}, rgn := {}, mem := {}, rck := {}, prs := {}, dir := {}, edn := {},
    ports := Vector.replicate 6 {}, qmg := {}, lst := {}, den := {}, svc := {},
    cores := Vector.ofFn (fun i => if i.val < 16 then { logical := i.val } else {}),
    icu := {}, sto := {}, dram := {}, igr := {}, tns := {}, pwr := {}, tru := {}, mod := {},
    out := [], freeCtr := 0, pending := [] }

/-- The machine right after reset. -/
def State.reset : State := State.resetOf .l3072

end Sys2Proof.Machine
end

