-- ==== Sys2Proof/Machine/Sparse.lean ====
section
/-! DEFINITION. Sparse maps and byte memories in one canonical form: keys strictly rising, no entry equal to what an unlisted key reads as. -/

namespace Sys2Proof.Machine

/-- The value a sparse map holds at key k; d is what an unlisted key reads as. -/
def sget {β : Type} (d : β) : Sparse β → Nat → β
  | [], _ => d
  | (a, v) :: m, k => if k = a then v else sget d m k

/-- The map with value v put at key k, before unlisting. -/
def sput {β : Type} : Sparse β → Nat → β → Sparse β
  | [], k, v => [(k, v)]
  | (a, w) :: m, k, v => if k = a then (k, v) :: m else if k < a then (k, v) :: (a, w) :: m else (a, w) :: sput m k v

/-- The map with key k unlisted. -/
def sdel {β : Type} (m : Sparse β) (k : Nat) : Sparse β := m.filter (fun e => decide (e.1 ≠ k))

/-- Write v at key k, keeping the canonical form: the default value is not listed. -/
def sset {β : Type} [DecidableEq β] (d : β) (m : Sparse β) (k : Nat) (v : β) : Sparse β :=
  if v = d then sdel m k else sput m k v

/-- Every key of m lies above lo. -/
def above {β : Type} (lo : Nat) : Sparse β → Bool
  | [] => true
  | (a, _) :: _ => decide (lo < a)

/-- The canonical form: keys strictly rising and no default value listed. -/
def swf {β : Type} [DecidableEq β] (d : β) : Sparse β → Bool
  | [] => true
  | (a, v) :: m => decide (v ≠ d) && above a m && swf d m

/-- One byte of a memory; a byte nothing has written reads zero (R14, R397). -/
def Memory.rd (m : Memory) (a : Nat) : Byte := sget 0#8 m a

/-- A memory with one byte written. -/
def Memory.wr (m : Memory) (a : Nat) (v : Byte) : Memory := sset 0#8 m a v

/-- The canonical form of a memory. -/
def Memory.wf (m : Memory) : Bool := swf 0#8 m

/-- n bytes from address a upward. -/
def Memory.bytes (m : Memory) (a n : Nat) : List Byte := (List.range n).map (fun i => Memory.rd m (a + i))

/-- A memory with the bytes l stored from address a upward. -/
def Memory.store (m : Memory) (a : Nat) : List Byte → Memory
  | [] => m
  | b :: l => Memory.store (Memory.wr m a b) (a + 1) l

/-- A memory with those bytes of l stored from address a whose enable is set; enable i goes with byte i. -/
def Memory.merge (m : Memory) (a : Nat) (l : List Byte) (be : Nat → Bool) : Nat → Memory
  | 0 => m
  | n + 1 => let m' := Memory.merge m a l be n
             if be n then Memory.wr m' (a + n) (l.getD n 0#8) else m'

/-- A memory with n bytes from a upward made zero. -/
def Memory.clear (m : Memory) (a n : Nat) : Memory := m.filter (fun c => !(decide (a ≤ c.1) && decide (c.1 < a + n)))

/-- The little-endian value of a byte list (R4). -/
def leNat : List Byte → Nat
  | [] => 0
  | b :: l => b.toNat + 256 * leNat l

/-- The n little-endian bytes of a number (R4). -/
def leBytes : Nat → Nat → List Byte
  | 0, _ => []
  | n + 1, v => BitVec.ofNat 8 v :: leBytes n (v / 256)

/-- Bits [lo + w - 1 : lo] of a number. -/
def bits (v lo w : Nat) : Nat := (v / 2 ^ lo) % 2 ^ w

/-- A number with its bits [lo + w - 1 : lo] replaced. -/
def setBits (v lo w f : Nat) : Nat := v - bits v lo w * 2 ^ lo + (f % 2 ^ w) * 2 ^ lo

end Sys2Proof.Machine
end

