-- ==== Sys2Proof/Machine/Cask.lean ====
section
/-! DEFINITION. The cask format as pure functions: CRC-32C, code tables (R89 to R92), the nine shapes (R88), the deterministic encoder (R94, R95), the checks of a decoder (R101, R102), and the training procedures (R96, R97). -/

namespace Sys2Proof.Machine

/-! ### CRC-32C -/

/-- One bit of the reflected Castagnoli division. -/
def crcStep (c : Nat) : Nat := if c % 2 = 1 then (c / 2) ^^^ 0x82F63B78 else c / 2

/-- One byte of CRC-32C. -/
def crcByte (c : Nat) (b : Byte) : Nat :=
  crcStep (crcStep (crcStep (crcStep (crcStep (crcStep (crcStep (crcStep (c ^^^ b.toNat))))))))

/-- CRC-32C of a byte list (R83). -/
def crc32c (l : List Byte) : Nat := (l.foldl crcByte 0xFFFFFFFF) ^^^ 0xFFFFFFFF

/-! ### Bits and chunks -/

/-- The first k chunks of n elements. -/
def chunks {α : Type} (n : Nat) : Nat → List α → List (List α)
  | 0, _ => []
  | k + 1, l => l.take n :: chunks n k (l.drop n)

/-- The w bits of v, most significant first (R87). -/
def msbBits (w v : Nat) : List Bool := (List.range w).map (fun i => v.testBit (w - 1 - i))

/-- The value of bits, most significant first. -/
def msbVal (l : List Bool) : Nat := l.foldl (fun a b => 2 * a + (if b then 1 else 0)) 0

/-- Bits packed into bytes from bit 7 down; zero bits pad the last byte (R87). -/
def packBits (l : List Bool) : List Byte :=
  (chunks 8 ((l.length + 7) / 8) l).map (fun c => BitVec.ofNat 8 (msbVal c * 2 ^ (8 - c.length)))

/-- The bits of bytes, bit 7 of the first byte first. -/
def unpackBits (l : List Byte) : List Bool := l.flatMap (fun b => msbBits 8 b.toNat)

/-- A byte list made n bytes long with zero bytes. -/
def padTo (n : Nat) (l : List Byte) : List Byte := l ++ List.replicate (n - l.length) 0#8

/-! ### Code tables -/

/-- The code length at rank r of a profile: 0 uniform, 1 steep, 2 medium, 3 flat (R92). -/
def profileLen (profile r : Nat) : Nat :=
  match profile with
  | 0 => 8
  | 1 => if r = 0 then 2 else if r ≤ 2 then 3 else if r ≤ 6 then 5 else if r ≤ 14 then 6 else if r ≤ 30 then 8
         else if r ≤ 62 then 10 else 11
  | 2 => if r ≤ 3 then 4 else if r ≤ 11 then 5 else if r ≤ 27 then 6 else if r ≤ 59 then 9 else 11
  | _ => if r ≤ 31 then 6 else if r ≤ 95 then 8 else 10

/-- Profile and centre of a built-in table (R92). -/
def builtIn (id : Nat) : Nat × Nat :=
  match id with
  | 2 => (1, 0) | 3 => (2, 0) | 4 => (3, 0) | 5 => (1, 120) | 6 => (2, 120) | 7 => (3, 120) | 8 => (1, 127) | 9 => (2, 127)
  | 10 => (1, 12) | 11 => (2, 12) | 12 => (1, 5) | 13 => (2, 5) | 14 => (1, 13) | 15 => (2, 128) | _ => (0, 0)

/-- The rank of a symbol about a centre: centre, centre-1, centre+1, centre-2, ... modulo 256 (R92). -/
def rankOf (c v : Nat) : Nat :=
  let up := (v + 256 - c) % 256
  if up = 0 then 0 else if up ≤ 127 then 2 * up else 2 * (256 - up) - 1

/-- The 256 code lengths of a built-in table. -/
def builtInLens (id : Nat) : List Nat :=
  let pc := builtIn id
  (List.range 256).map (fun v => profileLen pc.1 (rankOf pc.2 v))

/-- The canonical codes of a table (R90): symbol, code and length, in order of length and then of symbol. -/
def canonicalCodes (lens : List Nat) : List (Nat × Nat × Nat) :=
  ((List.range 11).foldl (fun acc i =>
      let len := i + 1
      let syms := (lens.zipIdx.filter (fun e => decide (e.1 = len))).map (fun e => e.2)
      syms.foldl (fun a v => (a.1 ++ [(v, a.2, len)], a.2 + 1)) (acc.1, 2 * acc.2)) (([] : List (Nat × Nat × Nat)), 0)).1

/-- The sum over coded symbols of 2^(11 - length) (R89). -/
def kraft (lens : List Nat) : Nat := (lens.map (fun l => if l = 0 then 0 else 2 ^ (11 - l))).sum

/-- A loaded table obeys R89: 256 lengths of 0 to 11 with a Kraft sum of at most 2,048. -/
def tableOk (lens : List Nat) : Bool :=
  decide (lens.length = 256) && lens.all (fun l => decide (l ≤ 11)) && decide (kraft lens ≤ 2048)

/-- The 256 lengths of 128 stored bytes (R89). -/
def lensOfBytes (l : List Byte) : List Nat := l.flatMap (fun b => [b.toNat % 16, b.toNat / 16])

/-- The 128 stored bytes of 256 lengths (R89). -/
def bytesOfLens (lens : List Nat) : List Byte :=
  (chunks 2 128 lens).map (fun c => BitVec.ofNat 8 (c.getD 0 0 + 16 * c.getD 1 0))

/-! ### Shapes -/

/-- Element width in bytes of a shape (R94's list). -/
def shapeWidth : Nat → Nat
  | 0 => 1 | 1 => 2 | 2 => 4 | 3 => 8 | 4 => 2 | 5 => 2 | 6 => 4 | _ => 1

/-- METHOD of a shape. -/
def shapeMethod (s : Nat) : Nat := if s ≤ 3 then 4 else if s ≤ 6 then 3 else 5

/-- ELEM of a shape. -/
def shapeElem (s : Nat) : Nat := if s ≤ 3 then s else if s ≤ 6 then s - 4 else s - 7

/-- The shape of METHOD 3, 4 or 5 and ELEM, where neither is reserved (R85). -/
def shapeOf (method elem : Nat) : Option Nat :=
  if method = 4 ∧ elem ≤ 3 then some elem
  else if method = 3 ∧ elem ≤ 2 then some (4 + elem)
  else if method = 5 ∧ elem ≤ 1 then some (7 + elem)
  else none

/-- The shapes that COMP_HINT permits (R94). -/
def hintShapes (hint : Nat) : List Nat :=
  match hint with
  | 0 => List.range 9 | 1 => [0, 1, 2, 3] | 2 => [4, 5, 6] | 3 => [7, 8] | _ => []

/-- Exponent place and width, and element width in bits, of a shape of method 3 or 5 (R88). -/
def expoOf (s : Nat) : Nat × Nat × Nat :=
  match s with
  | 4 => (7, 8, 16) | 5 => (10, 5, 16) | 6 => (23, 8, 32) | 7 => (3, 4, 8) | _ => (2, 5, 8)

/-- The symbol of an element (R88). -/
def expoSym (s v : Nat) : Nat := bits v (expoOf s).1 (expoOf s).2.1

/-- The plain field of an element: sign, then mantissa; and its width in bits (R88). -/
def plainField (s v : Nat) : Nat := bits v ((expoOf s).2.2 - 1) 1 * 2 ^ (expoOf s).1 + bits v 0 (expoOf s).1
def plainWidth (s : Nat) : Nat := 1 + (expoOf s).1

/-- The elements of 4,096 raw bytes at a width (R86). -/
def elemsOf (w : Nat) (raw : List Byte) : List Nat := (chunks w (4096 / w) raw).map leNat

/-- Byte plane p of elements. -/
def plane (p : Nat) (es : List Nat) : List Nat := es.map (fun v => bits v (8 * p) 8)

/-- Coded bits of symbols under a table, none where a symbol has no code. -/
def codedBits (lens : List Nat) (syms : List Nat) : Option Nat :=
  syms.foldl (fun a v => match a with
    | none => none
    | some n => let l := lens.getD v 0; if l = 0 then none else some (n + l)) (some 0)

/-- The symbol sequence S, the plain bytes and PLANE_RAW of a content under a shape and table, or none where R94 skips the pair. -/
def splitBy (s : Nat) (lens : List Nat) (raw : List Byte) : Option (List Nat × List Byte × Nat) :=
  let w := shapeWidth s
  let es := elemsOf w raw
  if s ≤ 3 then
    let marks := (List.range w).map (fun p =>
      match codedBits lens (plane p es) with
      | none => true
      | some n => decide (8 * (4096 / w) < n))
    if marks.all id then none
    else
      let coded := (List.range w).filter (fun p => !(marks.getD p true))
      let rawp := (List.range w).filter (fun p => marks.getD p true)
      some (coded.flatMap (fun p => plane p es),
        rawp.flatMap (fun p => (plane p es).map (BitVec.ofNat 8)),
        (rawp.map (fun p => 2 ^ p)).sum)
  else
    let syms := es.map (expoSym s)
    match codedBits lens syms with
    | none => none
    | some _ => some (syms, packBits (es.flatMap (fun v => msbBits (plainWidth s) (plainField s v))), 0)

/-- The sixteen substreams of a symbol sequence (R87). -/
def substreams (syms : List Nat) : List (List Nat) := chunks (syms.length / 16) 16 syms

/-- PAYLOAD_LEN of a split under a table (R87). -/
def payloadLen (lens : List Nat) (syms : List Nat) (plain : List Byte) : Nat :=
  32 + ((substreams syms).map (fun l => ((codedBits lens l).getD 0 + 7) / 8)).sum + plain.length

/-- The bits of a symbol under canonical codes. -/
def symBits (codes : List (Nat × Nat × Nat)) (v : Nat) : List Bool :=
  match codes.find? (fun c => decide (c.1 = v)) with
  | some (_, code, len) => msbBits len code
  | none => []

/-- The payload bytes: directory, substreams, plain part (R87). -/
def payloadBytes (lens : List Nat) (syms : List Nat) (plain : List Byte) : List Byte :=
  let codes := canonicalCodes lens
  let subs := (substreams syms).map (fun l => packBits (l.flatMap (symBits codes)))
  subs.flatMap (fun b => leBytes 2 b.length) ++ subs.flatten ++ plain

/-! ### Encoding -/

/-- A cask as stored: METHOD, TABLE_ID, LENGTH in sectors, POISON and the bytes of its sectors. -/
structure StoredCask where
  method : Nat
  table : Nat
  length : Nat
  poison : BitVec 64
  bytes : List Byte
deriving DecidableEq, Repr, Inhabited

/-- The 32-byte header (R83). -/
def caskHeader (method elem table payload crc : Nat) (poison : BitVec 64) (planeRaw : Nat) : List Byte :=
  leBytes 4 (0xCA5E + 2 ^ 16 + method * 2 ^ 20 + elem * 2 ^ 24) ++ leBytes 4 (table + 4096 * 2 ^ 16) ++ leBytes 4 payload ++
    leBytes 4 crc ++ leBytes 8 poison.toNat ++ leBytes 8 planeRaw

/-- The content with every poisoned line taken as zero bytes (R94). -/
def blankPoison (raw : List Byte) (poison : BitVec 64) : List Byte :=
  ((chunks 64 64 (padTo 4096 raw)).zipIdx.map (fun e => if poison.getLsbD e.2 then List.replicate 64 0#8 else e.1)).flatten

/-- A candidate of R94: size, trained, shape, table. -/
structure Candidate where
  size : Nat
  trained : Bool
  shape : Nat
  table : Nat
  lens : List Nat
deriving DecidableEq, Repr, Inhabited

/-- One candidate is better than another (R94). -/
def Candidate.better (a b : Candidate) : Bool :=
  if a.size ≠ b.size then decide (a.size < b.size)
  else if a.trained ≠ b.trained then a.trained
  else if a.shape ≠ b.shape then decide (a.shape < b.shape)
  else decide (a.table < b.table)

/-- PAYLOAD_LEN of a content under a shape and table, none where skipped. -/
def sizeUnder (s : Nat) (lens : List Nat) (raw : List Byte) : Option Nat :=
  (splitBy s lens raw).map (fun x => payloadLen lens x.1 x.2.1)

/-- The best candidate of at most 4,064 bytes; cur is the region's CUR_TABLE with its shape and lengths, where it has one. -/
def bestCandidate (hint : Nat) (cur : Option (Nat × Nat × List Nat)) (raw : List Byte) : Option Candidate :=
  let ofTable (s t : Nat) (trained : Bool) (lens : List Nat) : Option Candidate :=
    match sizeUnder s lens raw with
    | none => none
    | some n => if n ≤ 4064 then some ⟨n, trained, s, t, lens⟩ else none
  let cands := (hintShapes hint).flatMap (fun s =>
    ((List.range 15).filterMap (fun i => ofTable s (i + 1) false (builtInLens (i + 1)))) ++
    (match cur with
     | some (id, sh, lens) => if sh = s then (ofTable s id true lens).toList else []
     | none => []))
  cands.foldl (fun best c => match best with
    | none => some c
    | some b => if c.better b then some c else some b) none

/-- The encode procedure (R94, R95). -/
def encodeCask (hint : Nat) (cur : Option (Nat × Nat × List Nat)) (raw0 : List Byte) (poison : BitVec 64) : StoredCask :=
  let raw := blankPoison raw0 poison
  let crc := crc32c raw
  let rawEscape : StoredCask :=
    ⟨0, 0, 65, poison, padTo 64 (caskHeader 0 0 0 4096 crc poison 0) ++ raw⟩
  if raw.all (fun b => decide (b = 0#8)) then
    if poison = 0#64 then ⟨1, 0, 0, 0#64, []⟩
    else ⟨1, 0, 1, poison, padTo 64 (caskHeader 1 0 0 0 crc poison 0)⟩
  else if (chunks 8 512 raw).all (fun c => decide (c = raw.take 8)) then
    ⟨2, 0, 1, poison, padTo 64 (caskHeader 2 0 0 8 crc poison 0 ++ raw.take 8)⟩
  else if hint = 4 then rawEscape
  else
    match bestCandidate hint cur raw with
    | none => rawEscape
    | some c =>
      match splitBy c.shape c.lens raw with
      | none => rawEscape
      | some (syms, plain, planeRaw) =>
        let sectors := (32 + c.size + 63) / 64
        ⟨shapeMethod c.shape, c.table, sectors, poison,
          padTo (64 * sectors) (caskHeader (shapeMethod c.shape) (shapeElem c.shape) c.table c.size crc poison planeRaw
            ++ payloadBytes c.lens syms plain)⟩

/-! ### Decoding -/

/-- A cask header as read (R83). -/
structure CaskHead where
  method : Nat
  elem : Nat
  table : Nat
  payload : Nat
  crc : Nat
  poison : BitVec 64
  planeRaw : Nat
  /-- MAGIC, VERSION, RAW_LEN and the reserved bits are as R83 says. -/
  wellFormed : Bool
deriving DecidableEq, Repr, Inhabited

/-- Read a header from the first 32 bytes of a sector. -/
def readHead (l : List Byte) : CaskHead :=
  let w0 := leNat (l.take 4)
  let w1 := leNat ((l.drop 4).take 4)
  let w2 := leNat ((l.drop 8).take 4)
  let q3 := leNat ((l.drop 24).take 8)
  { method := bits w0 20 3, elem := bits w0 24 3, table := bits w1 0 12, payload := bits w2 0 13,
    crc := leNat ((l.drop 12).take 4), poison := BitVec.ofNat 64 (leNat ((l.drop 16).take 8)), planeRaw := bits q3 0 8,
    wellFormed := decide (bits w0 0 16 = 0xCA5E) && decide (bits w0 16 4 = 1) && decide (bits w0 23 1 = 0)
      && decide (bits w0 27 5 = 0) && decide (bits w1 12 4 = 0) && decide (bits w1 16 13 = 4096) && decide (bits w1 29 3 = 0)
      && decide (bits w2 13 19 = 0) && decide (q3 / 256 = 0) }

/-- Method, element, table and PLANE_RAW fit together (code 0 of R101). Code 0 names PLANE_RAW for methods 3, 4 and 5 only; for methods 0, 1 and 2, which have no planes, one that is not zero is taken as wrong too (DESIGN CHOICE, log entry 155). -/
def CaskHead.valuesOk (h : CaskHead) : Bool :=
  if h.method ≤ 2 then decide (h.elem = 0) && decide (h.table = 0) && decide (h.planeRaw = 0)
  else match shapeOf h.method h.elem with
    | none => false
    | some s => decide (h.table ≠ 0) &&
        (if h.method = 4 then decide (h.planeRaw < 2 ^ shapeWidth s) && decide (h.planeRaw ≠ 2 ^ shapeWidth s - 1)
         else decide (h.planeRaw = 0))

/-- How many of the planes below w PLANE_RAW marks. -/
def rawPlanes (w planeRaw : Nat) : List Nat := (List.range w).filter (fun p => planeRaw.testBit p)

/-- Symbols coded and plain bytes of a shape with PLANE_RAW (R88). -/
def shapeCounts (s planeRaw : Nat) : Nat × Nat :=
  let w := shapeWidth s
  if s ≤ 3 then
    let r := (rawPlanes w planeRaw).length
    (4096 - r * (4096 / w), r * (4096 / w))
  else (4096 / w, (4096 / w) * plainWidth s / 8)

/-- One symbol from a bit list: the symbol and the rest, or the damage code 3 or 4 of R101. Bits taken so far are acc of length n. -/
def readSym (codes : List (Nat × Nat × Nat)) : Nat → Nat → Nat → List Bool → Except Nat (Nat × List Bool)
  | 0, _, _, _ => .error 3
  | fuel + 1, n, acc, l =>
    match l with
    | [] => .error 4
    | b :: l =>
      let acc' := 2 * acc + (if b then 1 else 0)
      match codes.find? (fun c => decide (c.2.2 = n + 1) && decide (c.2.1 = acc')) with
      | some c => .ok (c.1, l)
      | none =>
        if codes.any (fun c => decide (n + 1 < c.2.2) && decide (c.2.1 / 2 ^ (c.2.2 - (n + 1)) = acc')) then readSym codes fuel (n + 1) acc' l
        else .error 3

/-- The k symbols of a substream, and the bits left; top is the largest symbol the stream may hold (R101 code 3). -/
def readSyms (codes : List (Nat × Nat × Nat)) (top : Nat) : Nat → List Bool → Except Nat (List Nat × List Bool)
  | 0, l => .ok ([], l)
  | k + 1, l =>
    match readSym codes 11 0 0 l with
    | .error e => .error e
    | .ok (v, l') =>
      if top < v then .error 3
      else match readSyms codes top k l' with
        | .error e => .error e
        | .ok (vs, r) => .ok (v :: vs, r)

/-- The largest symbol of a shape's stream (R101 code 3). -/
def topSym (s : Nat) : Nat := match s with | 5 => 31 | 7 => 15 | 8 => 31 | _ => 255

/-- All sixteen substreams in order; excess says that one holds more than 7 bits after its last symbol (R111). -/
def readStreams (codes : List (Nat × Nat × Nat)) (top per : Nat) : List Nat → List Byte → Except Nat (List Nat × Bool)
  | [], _ => .ok ([], false)
  | n :: ns, l =>
    match readSyms codes top per (unpackBits (l.take n)) with
    | .error e => .error e
    | .ok (vs, left) =>
      match readStreams codes top per ns (l.drop n) with
      | .error e => .error e
      | .ok (ws, x) => .ok (vs ++ ws, x || decide (7 < left.length))

/-- Some substream ends before its symbols, or holds more than 7 bits after its last one (R111, R112). -/
def streamsMisfit (codes : List (Nat × Nat × Nat)) (top per : Nat) : List Nat → List Byte → Bool
  | [], _ => false
  | n :: ns, l =>
    (match readSyms codes top per (unpackBits (l.take n)) with
     | .error e => decide (e = 4)
     | .ok (_, left) => decide (7 < left.length)) || streamsMisfit codes top per ns (l.drop n)

/-- Put symbols and plain part back together into 4,096 bytes (R88). -/
def joinBy (s planeRaw : Nat) (syms : List Nat) (plain : List Byte) : List Byte :=
  let w := shapeWidth s
  let n := 4096 / w
  if s ≤ 3 then
    let rawp := rawPlanes w planeRaw
    let coded := (List.range w).filter (fun p => !(planeRaw.testBit p))
    let rawLists := rawp.zip ((chunks n rawp.length plain).map (fun l => l.map BitVec.toNat))
    let codedLists := coded.zip (chunks n coded.length syms)
    let planes := (List.range w).map (fun p => (((rawLists ++ codedLists).find? (fun e => decide (e.1 = p))).map (fun e => e.2)).getD [])
    (List.range n).flatMap (fun e => planes.map (fun l => BitVec.ofNat 8 (l.getD e 0)))
  else
    let pw := plainWidth s
    let fields := (chunks pw n (unpackBits plain)).map msbVal
    (syms.zip fields).flatMap (fun e =>
      let m := (expoOf s).1
      leBytes w (e.2 / 2 ^ m * 2 ^ ((expoOf s).2.2 - 1) + e.1 * 2 ^ m + e.2 % 2 ^ m))

/-- What a decoder finds: a damage code of R101, or the 4,096 bytes (poisoned lines zero), the poison, and whether a substream holds excess bits. -/
inductive Decoded where
  | damaged (code : Nat)
  | ok (raw : List Byte) (poison : BitVec 64) (excess : Bool)
deriving DecidableEq, Repr, Inhabited

/-- Decode the bytes of a cask of the given LENGTH, against the METHOD, TABLE_ID and POISON_ANY of its cask-map entry where one is given, with the table store's lookup; bad says that a sector had an uncorrectable error (R101). An entropy-coded cask of more than the 64 sectors of R82 has a PAYLOAD_LEN that fits no LENGTH, code 7 (DEDUCED, log entry 164). A METHOD 2 pattern that is all zero is accepted: R101 lists no reason for it (DESIGN CHOICE, log entry 156). -/
def decodeCask (entry : Option (Nat × Nat × Bool)) (length : Nat) (bytes : List Byte) (bad : Bool)
    (tables : Nat → Option (List Nat)) : Decoded :=
  if length = 0 then
    match entry with
    | some (1, 0, false) => .ok (List.replicate 4096 0#8) 0#64 false
    | _ => .damaged 7
  else if bad then .damaged 6
  else
    let h := readHead bytes
    let last := 64 * (length - 1)
    let padBad := if h.method = 0 then ((bytes.drop 32).take 32).any (fun b => decide (b ≠ 0#8))
      else (bytes.drop (max (32 + h.payload) last)).any (fun b => decide (b ≠ 0#8))
    let code0 := !h.wellFormed || !h.valuesOk || padBad
    let code1 := match entry with
      | some (m, t, p) => decide (m ≠ h.method) || decide (t ≠ h.table) || decide (p ≠ decide (h.poison ≠ 0#64))
      | none => false
    let dir := (chunks 2 16 ((bytes.drop 32).take 32)).map leNat
    let fixedBad := match h.method with
      | 0 => decide (h.payload ≠ 4096) || decide (length ≠ 65)
      | 1 => decide (h.payload ≠ 0) || decide (length ≠ 1)
      | 2 => decide (h.payload ≠ 8) || decide (length ≠ 1)
      | _ => decide (h.payload ≠ 32 + dir.sum + (shapeCounts ((shapeOf h.method h.elem).getD 0) h.planeRaw).2)
          || decide (length ≠ (32 + h.payload + 63) / 64) || decide (64 < length)
    if code0 then .damaged 0
    else if code1 then .damaged 1
    else if fixedBad then .damaged 7
    else
      let finish (raw : List Byte) (excess : Bool) : Decoded :=
        let r := blankPoison raw h.poison
        if crc32c r = h.crc then .ok r h.poison excess else .damaged 5
      match h.method with
      | 0 => finish ((bytes.drop 64).take 4096) false
      | 1 => finish (List.replicate 4096 0#8) false
      | 2 => finish ((List.replicate 512 ((bytes.drop 32).take 8)).flatten) false
      | _ =>
        let s := (shapeOf h.method h.elem).getD 0
        match tables h.table with
        | none => .damaged 2
        | some lens =>
          let counts := shapeCounts s h.planeRaw
          match readStreams (canonicalCodes lens) (topSym s) (counts.1 / 16) dir (bytes.drop 64) with
          | .error e => .damaged e
          | .ok (syms, excess) =>
            let plain := (bytes.drop (64 + dir.sum)).take counts.2
            if plain.length < counts.2 then .damaged 4
            else finish (joinBy s h.planeRaw syms plain) excess

/-- A substream of an image does not fit its size, whatever else is wrong with the image (R112). -/
def imageMisfit (bytes : List Byte) (tables : Nat → Option (List Nat)) : Bool :=
  let h := readHead bytes
  match shapeOf h.method h.elem, tables h.table with
  | some s, some lens =>
    let dir := (chunks 2 16 ((bytes.drop 32).take 32)).map leNat
    decide (3 ≤ h.method) && streamsMisfit (canonicalCodes lens) (topSym s) ((shapeCounts s h.planeRaw).1 / 16) dir (bytes.drop 64)
  | _, _ => false

/-! ### Training -/

/-- A Huffman node: weight, its symbols in rising order (the first is the lowest). -/
abbrev HuffNode := Nat × List Nat

/-- A node comes before another in the merge order: less weight, then smaller lowest symbol (R97). -/
def huffLess (a b : HuffNode) : Bool :=
  if a.1 ≠ b.1 then decide (a.1 < b.1) else decide (a.2.headD 0 < b.2.headD 0)

/-- Put a node in its place in merge order. -/
def huffInsert (a : HuffNode) : List HuffNode → List HuffNode
  | [] => [a]
  | b :: l => if huffLess a b then a :: b :: l else b :: huffInsert a l

/-- Merge rising lists of symbols, keeping the lowest first. -/
def lowFirst (a b : List Nat) : List Nat := if a.headD 0 < b.headD 0 then a ++ b else b ++ a

/-- Repeatedly merge the two nodes of least weight; depths counts the merges above each symbol (R97). -/
def huffMerge : Nat → List HuffNode → (Nat → Nat) → (Nat → Nat)
  | 0, _, depth => depth
  | fuel + 1, nodes, depth =>
    match nodes with
    | a :: b :: rest =>
      let m : HuffNode := (a.1 + b.1, lowFirst a.2 b.2)
      huffMerge fuel (huffInsert m rest) (fun v => if m.2.contains v then depth v + 1 else depth v)
    | _ => depth

/-- huffman_lengths of 256 weights (R97). -/
def huffmanLengths (f : List Nat) : List Nat :=
  let nodes := (f.zipIdx.map (fun e => ((e.1, [e.2]) : HuffNode))).foldl (fun l a => huffInsert a l) []
  let depth := huffMerge 256 nodes (fun _ => 0)
  (List.range 256).map depth

/-- The symbol limit lengthens next: greatest length below 11, then smaller f, then lower symbol (R97). -/
def limitPick (f lens : List Nat) : Option Nat :=
  let cand := (List.range 256).filter (fun v => decide (lens.getD v 0 < 11))
  cand.foldl (fun best v => match best with
    | none => some v
    | some b =>
      let lv := lens.getD v 0
      let lb := lens.getD b 0
      if lb < lv ∨ (lv = lb ∧ f.getD v 0 < f.getD b 0) then some v else some b) none

/-- limit(L, 11) after lengths above 11 are set to 11 (R97). -/
def limitLens (f : List Nat) : Nat → List Nat → List Nat
  | 0, lens => lens
  | fuel + 1, lens =>
    if kraft lens ≤ 2048 then lens
    else match limitPick f lens with
      | none => lens
      | some v => limitLens f fuel (lens.set v (lens.getD v 0 + 1))

/-- Every symbol of a content under a shape, all planes (R96). -/
def allSyms (s : Nat) (raw : List Byte) : List Nat :=
  let es := elemsOf (shapeWidth s) raw
  if s ≤ 3 then (List.range (shapeWidth s)).flatMap (fun p => plane p es) else es.map (expoSym s)

/-- Add the counts of symbols to a histogram. -/
def histAdd (h : List Nat) (syms : List Nat) : List Nat := syms.foldl (fun h v => h.set v (h.getD v 0 + 1)) h

/-- The permitted shape with the smallest size over tables 1 to 15; ties to the lower shape (R96). -/
def bestShape (shapes : List Nat) (raw : List Byte) : Option Nat :=
  let sized := shapes.filterMap (fun s =>
    (((List.range 15).filterMap (fun i => sizeUnder s (builtInLens (i + 1)) raw)).min?).map (fun n => (s, n)))
  (sized.foldl (fun best e => match best with
    | none => some e
    | some b => if e.2 < b.2 then some e else some b) (none : Option (Nat × Nat))).map (fun e => e.1)

/-- The table and shape that training gives for a sample of contents with poisoned lines as zero (R96). -/
def trainTable (hint : Nat) (sample : List (List Byte)) : Option (List Nat × Nat) :=
  let shapes := hintShapes hint
  if sample = [] then none
  else
    let wins := sample.filterMap (bestShape shapes)
    let weight := fun s => (wins.filter (fun x => decide (x = s))).length
    (shapes.foldl (fun best s => match best with
      | none => some s
      | some b => if weight b < weight s then some s else some b) none).map (fun s =>
        let h := sample.foldl (fun h raw => histAdd h (allSyms s raw)) (List.replicate 256 0)
        let f := h.map (· + 1)
        (limitLens f 4096 ((huffmanLengths f).map (fun l => min l 11)), s))

end Sys2Proof.Machine
end

