-- ==== Sys2Proof/Config.lean ====
section
/-! DEFINITION. Configuration: the values the spec leaves open. Each is an opaque constant with no body, so nothing can be proved of its value, and a statement about it holds for every value. -/

namespace Sys2Proof.Config

/-- Where a search for a free vat slot, sector run, window slot or tag place begins, by draw (R58, R67). -/
opaque freePlace : Nat → Nat

/-- The order among tiles of equal heat, by draw and tile (R65, R78, R80). -/
opaque tieRank : Nat → Nat → Nat

/-- A 32-bit word the spec calls random or does not state: nonce words, key and certificate material, drawn in turn (R378, R385). -/
opaque freeWord : Nat → BitVec 32

/-- A byte the spec does not state, drawn in turn (a capability field's content, a march cell after an early stop). -/
opaque freeByte : Nat → BitVec 8

/-- The binary32 result of exp on a binary32 argument, which R220 names and does not round. -/
opaque expF32 : BitVec 32 → BitVec 32

/-- The cluster, among a row's active ones, that the row deals a block to: row, block number, active clusters (R163). -/
opaque dealBlock : Nat → Nat → Nat → Nat

/-- The shape of a row's reduction tree (R156): the place at which the run of positions lo to hi-1 is split in two. -/
opaque treeSplit : Nat → Nat → Nat

/-- The rank of a poisoned or unnamed choice the spec leaves to Shombe (service bookkeeping the spec does not lay out). -/
opaque shombeChoice : Nat → Nat

/-- Byte i of the 64 bytes in which a key-value session tile holds the session's parameters, whose layout R218 does not give: layers, heads, head size, format, capacity, i. -/
opaque kvParamByte : Nat → Nat → Nat → Nat → Nat → Nat → BitVec 8

/-- The verdict of the ML-DSA-65 engine on a public key, a message and a signature, with an empty context string (R374, R378): the spec names the algorithm only. -/
opaque mlDsaVerifies : List (BitVec 8) → List (BitVec 8) → List (BitVec 8) → Bool

/-- Vowen's certificate of the device key, as written to flash at manufacture (R385). -/
opaque deviceCertificate : Nat

/-- The alias certificate that the device key signs, from the two seeds (R385). -/
opaque aliasCertificate : List (BitVec 8) → List (BitVec 8) → Nat

/-- The digest of a certificate that GET_DIGESTS answers (R384). -/
opaque certificateDigest : Nat → Nat

/-- A byte of the module's I3C provisional ID (0 to 5), BCR (6) and DCR (7), whose values R417 does not give. -/
opaque i3cByte : Nat → BitVec 8

/-- A word of a function's configuration space (below 2^12) or of its BAR4 (from there on), of which neither the spec nor the state gives the content (R233, R236). -/
opaque spaceWord : Nat → BitVec 32

end Sys2Proof.Config
end

