-- ==== Sys2Proof/Machine/RegTable.lean ====
section
/-! DEFINITION. The register tables of the spec as data: which pages exist (R402, R410), and for each class of page the fields that can be written or that reset to something other than zero, with access code (R5), reset value and legal values (R7). A field not listed is RO with reset zero, or reserved (R6). -/

namespace Sys2Proof.Machine

/-- The page prefixes of R410. -/
inductive PageClass where
  | plt | pwr | tim | tru | otp | prt | dir | edn | rgn | rck0 | rck1 | prs | vat | clr | lst | den | qmg0 | qmg1 | ctl
  | icu1 | icuBank | icuSrc | icuMap | sto | igr0 | igr1 | tns | cls
deriving DecidableEq, Repr, Inhabited

/-- The class of a page number, none for an absent page (R402, R410). -/
def pageClass (n : Nat) : Option PageClass :=
  if n = 0 then some .plt else if n = 1 then some .pwr else if n = 2 then some .tim else if n = 3 then some .tru
  else if n = 4 then some .otp else if n < 0x008 then none else if n ≤ 0x00D then some .prt
  else if n < 0x010 then none else if n = 0x010 then some .dir else if n = 0x011 then some .edn else if n = 0x012 then some .rgn
  else if n < 0x018 then none else if n = 0x018 then some .rck0 else if n = 0x019 then some .rck1
  else if n < 0x020 then none else if n ≤ 0x04F then some .prs else if n ≤ 0x05F then some .vat else if n ≤ 0x08F then some .clr
  else if n = 0x090 then some .lst else if n < 0x0A0 then none else if n ≤ 0x0AF then some .den
  else if n = 0x0B0 then some .qmg0 else if n = 0x0B1 then some .qmg1 else if n < 0x0C0 then none
  else if n = 0x0C0 then some .ctl else if n = 0x0C1 then some .icu1 else if n ≤ 0x0C5 then some .icuBank
  else if n = 0x0C6 then some .icuSrc else if n ≤ 0x0C8 then some .icuMap else if n < 0x0D0 then none
  else if n = 0x0D0 then some .sto else if n < 0x0E0 then none else if n = 0x0E0 then some .igr0 else if n = 0x0E1 then some .igr1
  else if n < 0x100 then none else if n ≤ 0x10F then some .tns
  else if 0x200 ≤ n ∧ n < 0x600 ∧ (n - 0x200) % 64 < 34 then some .cls else none

/-- A page exists on the part: not absent, and not one of the dark pages of R2. -/
def pageExists (o : Order) (n : Nat) : Bool :=
  match pageClass n with
  | none => false
  | some .prs => decide (o = .l3072 ∨ n < 0x038)
  | some .clr => decide (o = .l3072 ∨ n < 0x078)
  | some _ => true

/-- TYPE and INSTANCE of a page (R410). -/
def pageType (n : Nat) : Nat × Nat :=
  match pageClass n with
  | none => (0, 0)
  | some .plt => (0x0001, 0) | some .pwr => (0x0002, 0) | some .tim => (0x0003, 0) | some .tru => (0x0004, 0)
  | some .otp => (0x0005, 0) | some .prt => (0x0010, n - 0x008) | some .dir => (0x0020, 0) | some .edn => (0x0021, 0)
  | some .rgn => (0x0022, 0) | some .rck0 => (0x0030, 0) | some .rck1 => (0x0030, 1) | some .prs => (0x0040, n - 0x020)
  | some .vat => (0x0050, n - 0x050) | some .clr => (0x0060, n - 0x060) | some .lst => (0x0070, 0)
  | some .den => (0x0080, n - 0x0A0) | some .qmg0 => (0x0090, 0) | some .qmg1 => (0x0090, 1) | some .ctl => (0x00A0, 0)
  | some .icu1 => (0x00B0, 0) | some .icuBank => (0x00B0, n - 0x0C1) | some .icuSrc => (0x00B0, 5)
  | some .icuMap => (0x00B0, n - 0x0C1) | some .sto => (0x00C0, 0) | some .igr0 => (0x00D0, 0) | some .igr1 => (0x00D0, 1)
  | some .tns => (0x0100, n - 0x100) | some .cls => (0x0200 + (n - 0x200) / 64, (n - 0x200) % 64)

/-- Highest block-register offset of a page, for PAGE_CAP TOP (R402, R413). -/
def pageTop (n : Nat) : Nat :=
  match pageClass n with
  | none => 0
  | some .plt => 0x110 | some .pwr => 0x170 | some .tim => 0x168 | some .tru => 0x170 | some .otp => 0x1FC
  | some .prt => 0x27C | some .dir => 0x120 | some .edn => 0x114 | some .rgn => 0x194 | some .rck0 => 0x19C | some .rck1 => 0x140
  | some .prs => if n = 0x020 then 0x248 else 0x11C | some .vat => if n = 0x050 then 0x18C else 0x110
  | some .clr => if n = 0x060 then 0x18C else 0x110 | some .lst => 0x138 | some .den => 0x128 | some .qmg0 => 0x154
  | some .qmg1 => 0x12C | some .ctl => 0x1B8 | some .icu1 => 0x114 | some .icuBank => 0x780 | some .icuSrc => 0x108
  | some .icuMap => 0x2FC | some .sto => 0x134 | some .igr0 => 0x15C | some .igr1 => 0x118 | some .tns => 0x150 | some .cls => 0x130

/-- Event counters that count on a page, EVT_NUM of PAGE_CAP (R402). -/
def evtNum (n : Nat) : Nat :=
  match pageClass n with
  | none => 0
  | some .plt => 2 | some .tim => 3 | some .otp => 1 | some .cls => 3 | some .igr1 => 3
  | some .qmg1 => 0 | some .icuBank => 0 | some .icuSrc => 0 | some .icuMap => 0 | some .ctl => 6
  | some _ => 6

/-- The access codes of R5 for writable fields; sel marks a field held separately for each requester (R409). -/
inductive Acc where
  | ro | rw | wo | w1c | w1s | rws | sel
deriving DecidableEq, Repr, Inhabited

/-- One field, or one family of like fields, of a class of page: first word offset, distance and number of repeats, bit place within the word (a field of a 64-bit register is listed once for each half), access, reset, and the legal range. -/
structure Row where
  off : Nat
  stride : Nat := 4
  count : Nat := 1
  lo : Nat := 0
  width : Nat
  acc : Acc
  reset : Nat := 0
  least : Nat := 0
  most : Nat
  /-- Legal values are multiples of this. -/
  mult : Nat := 1
  /-- The field exists only in the first page of its class. -/
  firstOnly : Bool := false
deriving DecidableEq, Repr, Inhabited

/-- A field all of whose values are legal. -/
def Row.plain (off lo width : Nat) (acc : Acc) (reset : Nat := 0) (stride : Nat := 4) (count : Nat := 1) : Row :=
  { off := off, lo := lo, width := width, acc := acc, reset := reset, most := 2 ^ width - 1, stride := stride, count := count }

/-- A field with a legal range. -/
def Row.range (off lo width : Nat) (acc : Acc) (reset least most : Nat) (stride : Nat := 4) (count : Nat := 1) : Row :=
  { off := off, lo := lo, width := width, acc := acc, reset := reset, least := least, most := most, stride := stride, count := count }

/-- The common header's writable fields and non-zero resets (R402). -/
def headerRows : List Row :=
  [ .plain 0x008 0 1 .rw, .plain 0x008 1 2 .wo, .plain 0x014 0 16 .wo, .plain 0x018 0 4 .w1c, .plain 0x018 8 24 .w1c,
    .plain 0x01C 0 32 .rw 0xFFFFFFFF ]

/-- The block registers of each class (chapters 02 to 17). -/
def blockRows (o : Order) : PageClass → List Row
  | .plt => [.plain 0x100 0 1 .wo, .plain 0x104 7 1 .w1s]
  | .pwr => [.range 0x10C 0 12 .rws 1800 100 2000, .plain 0x110 0 8 .rws 86, .plain 0x110 8 8 .rws 90, .plain 0x110 16 8 .rws 93,
      .range 0x110 24 3 .rws 7 1 7, .plain 0x114 0 16 .rws, .plain 0x114 16 16 .rws, .range 0x118 0 16 .rws 1000 1 65535]
  | .tim => [.range 0x108 0 10 .rws 10 1 1000]
  | .tru => [.plain 0x160 6 26 .rw, .plain 0x164 0 32 .rw, .plain 0x168 0 24 .rw, .plain 0x16C 0 3 .wo, .plain 0x16C 31 1 .wo]
  | .otp => [.plain 0x110 0 2 .sel]
  | .prt => [.range 0x104 0 3 .rws 6 1 6, .plain 0x104 3 1 .wo, .plain 0x108 8 2 .wo, .range 0x118 0 8 .rws 64 0 128,
      .range 0x118 8 8 .rws 64 0 128, .range 0x11C 0 11 .rws 16 1 1024, .plain 0x120 0 4 .rws, .plain 0x124 0 1 .rws,
      .plain 0x12C 0 11 .rw, .plain 0x180 0 32 .w1c 0 4 64]
  | .dir => [.range 0x100 0 14 .rws 100 1 10000, .plain 0x11C 0 1 .wo]
  | .edn => [.range 0x100 0 32 .rws 0x7FFFFFFF 1 0x7FFFFFFF, .range 0x104 0 21 .rws 262144 1 1048576]
  | .rgn => [.range 0x100 0 15 .rws (match o with | .l3072 => 6144 | .l1536 => 3584) 1 16384, .plain 0x104 0 6 .rws 1,
      .range 0x108 0 8 .rws 64 0 128, .plain 0x114 0 12 .wo, .plain 0x114 16 3 .wo, .plain 0x140 0 32 .sel 0 4 16, .plain 0x194 0 1 .wo]
  | .rck0 => [.plain 0x100 0 1 .rws 1, .plain 0x100 1 1 .rws 1, .plain 0x100 2 1 .rws 1, .range 0x104 0 8 .rws 32 1 255,
      .range 0x104 8 8 .rws 4 0 254, .plain 0x108 0 4 .rws 1, .plain 0x108 4 4 .rws 2, .plain 0x108 8 4 .rws 0,
      .range 0x108 16 16 .rws 1000 1 65535, .range 0x10C 0 8 .rws 4 1 63, .range 0x10C 8 8 .rws 8 2 64,
      .range 0x110 0 16 .rws 200 1 65535, .range 0x114 0 11 .rws 1024 1 1024, .plain 0x118 0 16 .rws 4096,
      .plain 0x140 14 18 .rws 0 0x10 6, .plain 0x144 0 32 .rws 0 0x10 6, .plain 0x148 0 29 .rws 0 0x10 6,
      .plain 0x14C 0 1 .rws 0 0x10 6, .plain 0x14C 2 2 .wo 0 0x10 6]
  | .rck1 => [.plain 0x114 0 1 .wo]
  | .prs => [.plain 0x100 0 1 .wo, .range 0x104 0 14 .rws 50 1 10000, .plain 0x11C 0 1 .wo,
      { (Row.range 0x180 0 8 .rws 64 1 255) with firstOnly := true }, { (Row.plain 0x184 0 12 .wo) with firstOnly := true },
      { (Row.plain 0x184 31 1 .wo) with firstOnly := true }, { (Row.plain 0x190 0 12 .sel) with firstOnly := true },
      { (Row.range 0x190 16 4 .sel 0 0 8) with firstOnly := true }, { (Row.plain 0x194 0 2 .wo) with firstOnly := true },
      { (Row.plain 0x1C0 0 32 .sel 0 4 32) with firstOnly := true },
      { (Row.range 0x240 0 20 .rws 1000 1 1000000) with firstOnly := true }, { (Row.plain 0x244 0 6 .sel) with firstOnly := true }]
  | .vat => [.plain 0x104 0 6 .sel, { (Row.range 0x180 0 4 .rws 8 1 15) with firstOnly := true },
      { (Row.range 0x180 4 4 .rws 6 1 15) with firstOnly := true }, { (Row.range 0x180 8 4 .rws 2 1 15) with firstOnly := true },
      { (Row.range 0x184 0 4 .rws 1 1 15) with firstOnly := true }, { (Row.range 0x184 4 4 .rws 1 1 15) with firstOnly := true },
      { (Row.range 0x184 8 4 .rws 1 1 15) with firstOnly := true }, { (Row.range 0x184 12 4 .rws 1 1 15) with firstOnly := true },
      { (Row.range 0x184 16 4 .rws 1 1 15) with firstOnly := true }, { (Row.range 0x184 20 4 .rws 1 1 15) with firstOnly := true },
      { (Row.range 0x184 24 4 .rws 1 1 15) with firstOnly := true }, { (Row.range 0x188 0 16 .rws 2000 100 65535) with firstOnly := true },
      { (Row.plain 0x18C 0 10 .rws 64) with firstOnly := true }, { (Row.plain 0x18C 10 1 .rws 1) with firstOnly := true },
      { (Row.range 0x18C 16 16 .rws 100 1 65535) with firstOnly := true }]
  | .clr => [.plain 0x104 0 2 .sel, { (Row.range 0x180 0 4 .rws 8 1 15) with firstOnly := true },
      { (Row.range 0x180 4 4 .rws 6 1 15) with firstOnly := true }, { (Row.range 0x180 8 4 .rws 2 1 15) with firstOnly := true },
      { (Row.range 0x184 0 4 .rws 1 1 15) with firstOnly := true }, { (Row.range 0x184 4 4 .rws 1 1 15) with firstOnly := true },
      { (Row.range 0x184 8 4 .rws 1 1 15) with firstOnly := true }, { (Row.range 0x184 12 4 .rws 1 1 15) with firstOnly := true },
      { (Row.range 0x184 16 4 .rws 1 1 15) with firstOnly := true }, { (Row.range 0x184 20 4 .rws 1 1 15) with firstOnly := true },
      { (Row.range 0x184 24 4 .rws 1 1 15) with firstOnly := true }, { (Row.range 0x188 0 16 .rws 4000 100 65535) with firstOnly := true },
      { (Row.plain 0x18C 0 10 .rws 128) with firstOnly := true }, { (Row.plain 0x18C 10 1 .rws 1) with firstOnly := true },
      { (Row.range 0x18C 16 16 .rws 100 1 65535) with firstOnly := true }]
  | .lst => [.plain 0x100 0 1 .rws 1, .range 0x104 0 5 .rws 16 4 24, { (Row.range 0x108 0 19 .rws 393216 16 393216) with mult := 16 },
      .plain 0x120 0 8 .sel]
  | .den => [.plain 0x100 0 1 .rws 1, .plain 0x104 16 10 .ro 700]
  | .qmg0 => [.plain 0x100 0 1 .rws 1, .plain 0x110 0 16 .sel, .range 0x120 0 20 .rws 1000 10 1000000 4 6]
  | .qmg1 => [.plain 0x100 0 16 .sel, .plain 0x120 0 3 .wo]
  | .ctl => [.plain 0x100 0 32 .ro 0x10000000, .plain 0x1A0 0 11 .wo, .plain 0x1A8 2 30 .rw 0x04000000, .plain 0x1AC 0 32 .rw]
  | .icu1 => [.plain 0x100 0 9 .wo, .plain 0x104 0 12 .wo, .plain 0x108 0 1 .rw 1, .plain 0x114 0 1 .wo]
  | .icuBank => (List.range 4).flatMap (fun b => let a := 0x100 + 0x200 * b
      [.plain (a + 4) 0 16 .wo, .plain (a + 8) 0 4 .rw, .plain (a + 8) 4 1 .rw, .plain (a + 8) 8 4 .rw,
       .plain (a + 0x10) 0 32 .rw 0xFFFFFFFF, .plain (a + 0x14) 0 32 .rw 0xFFFFFFFF,
       .plain (a + 0x20) 0 32 .rw 0 4 4, .plain (a + 0x30) 0 8 .rw])
  | .icuSrc => [.plain 0x100 0 12 .sel, .plain 0x108 31 1 .wo]
  | .icuMap => []
  | .sto => [.plain 0x100 0 1 .rw, .plain 0x100 1 1 .wo, .plain 0x110 0 2 .sel, .plain 0x110 2 10 .sel, .plain 0x110 12 6 .sel]
  | .igr0 => [.plain 0x100 0 1 .rws 1, .plain 0x100 1 1 .rws 1, .plain 0x100 2 1 .rws 1, .range 0x100 8 8 .rws 24 1 255,
      .range 0x100 16 8 .rws 24 1 255, .range 0x100 24 8 .rws 60 1 255,
      .range 0x108 0 16 .rws 32 1 65535, .range 0x108 16 16 .rws 600 1 65535, .range 0x10C 0 16 .rws 256 1 65535,
      .range 0x10C 16 16 .rws 60 1 65535, .range 0x110 0 16 .rws 128 1 65535, .range 0x110 16 16 .rws 120 1 65535,
      .range 0x114 0 16 .rws 64 1 65535, .range 0x114 16 16 .rws 60 1 65535, .range 0x118 0 16 .rws 16 1 65535,
      .range 0x118 16 16 .rws 600 1 65535, .range 0x120 0 3 .sel 0 0 4, .plain 0x120 4 12 .sel, .plain 0x12C 0 1 .wo,
      .plain 0x140 0 1 .rws 1, .range 0x140 4 4 .rws 3 1 15, .range 0x140 8 8 .rws 32 1 255, .range 0x140 16 4 .rws 2 1 15,
      .plain 0x14C 0 13 .sel]
  | .igr1 => [.plain 0x100 0 25 .rw, .plain 0x104 0 2 .wo]
  | .tns => [.plain 0x100 0 1 .rws 1, .plain 0x104 22 10 .ro 700, .plain 0x104 16 5 .ro 1]
  | .cls => [.plain 0x104 0 1 .w1s]

/-- The word offsets a row covers. -/
def Row.covers (r : Row) (off : Nat) : Bool :=
  decide (r.off ≤ off) && decide ((off - r.off) % r.stride = 0) && decide ((off - r.off) / r.stride < r.count)

/-- The first page of a page's class, where the fields of one page for all live. -/
def firstPage (n : Nat) : Bool := decide (n = 0x020 ∨ n = 0x050 ∨ n = 0x060)

/-- The rows of one register word. -/
def wordRows (o : Order) (page off : Nat) : List Row :=
  match pageClass page with
  | none => []
  | some c =>
    (if off < 0x100 then headerRows else blockRows o c).filter
      (fun r => r.covers off && (!r.firstOnly || firstPage page))

/-- Reset values that depend on the instance, or that a header word takes from the page (R402, chapters 06 and 11). -/
def resetSpecial (o : Order) (page off : Nat) : Nat :=
  match pageClass page with
  | none => 0
  | some c =>
    if off = 0x000 then (pageType page).1 + (pageType page).2 * 2 ^ 16 + 2 ^ 24
    else if off = 0x004 then
      (if (blockRows o c).any (fun r => decide (r.acc = .rws) && (!r.firstOnly || firstPage page)) then 1 else 0)
        + evtNum page * 2 + (pageTop page / 16) * 2 ^ 8
    else match c with
      | .tns =>
        if off = 0x104 then 32 + (page - 0x100) * 2 ^ 12 + 2 ^ 16 + 700 * 2 ^ 22
        else if off = 0x108 then 2
        else if 0x110 ≤ off ∧ off ≤ 0x12C then
          let n := off - 0x110
          (n + 128) + (n + 1 + 128) * 2 ^ 8 + (n + 2 + 128) * 2 ^ 16 + (n + 3 + 128) * 2 ^ 24
        else 0
      | .cls => if off = 0x100 then (let k := (page - 0x200) % 64; if k < 32 then k * 2 ^ 8 else 1) else 0
      | .ctl =>
        if off = 0x108 then 16 * 2 + 2 * 2 ^ 6
        else if 0x110 ≤ off ∧ off ≤ 0x14C then (off - 0x110) / 4 + 2 ^ 7
        else if 0x150 ≤ off ∧ off ≤ 0x174 then (if (off - 0x150) / 4 < 16 then ((off - 0x150) / 4) * 2 ^ 4 else 0)
        else 0
      | .icuBank =>
        if 0x900 ≤ off then 0
        else if off ≥ 0x100 ∧ (off - 0x100) % 0x200 = 8 then (((page - 0x0C2) * 4 + (off - 0x100) / 0x200 + 1) % 16) * 2 ^ 8
        else if off ≥ 0x100 ∧ (off - 0x100) % 0x200 = 0 then 0xFFFF
        else 0
      | .vat => if off = 0x100 then (match o with | .l3072 => 0 | .l1536 => 2 ^ 10) else 0
      | .clr => if off = 0x100 then (match o with | .l3072 => 0 | .l1536 => 2 ^ 6) else 0
      | _ => 0

/-- The reset word of a register: what live reads as where nothing is listed (Reset columns). -/
def resetWord (o : Order) (key : Nat) : Word :=
  let page := key / 4096
  let off := key % 4096
  let special := resetSpecial o page off
  if special ≠ 0 then BitVec.ofNat 32 special
  else BitVec.ofNat 32 (((wordRows o page off).map (fun r => r.reset * 2 ^ r.lo)).sum)

end Sys2Proof.Machine
end

