-- ==== Sys2Proof/Machine/Ops.lean ====
section
/-! DEFINITION. The named operations every family uses: register words and fields, event counters, messages sent, free values, ports and cores by number, interrupt sources (R294 to R301), MSI-X and INTx (R251, R252), and the recording of an error in a page header (R403). -/

namespace Sys2Proof.Machine

/-- The outcome of a command. -/
abbrev Result := Host.Outcome State Fault Refusal

/-- The outcome of a command whose effect is the state t. -/
def done (t : State) : Result := .next t

/-! ### Register words -/

/-- The live value of a register word as a number. -/
def State.word (s : State) (page off : Nat) : Nat :=
  (sget (resetWord s.order (4096 * page + off)) s.reg.live (4096 * page + off)).toNat

/-- Set the live value of a register word. -/
def State.setWord (s : State) (page off v : Nat) : State :=
  let key := 4096 * page + off
  { s with reg := { s.reg with live := sset (resetWord s.order key) s.reg.live key (BitVec.ofNat 32 v) } }

/-- Bits [lo + w - 1 : lo] of a register word. -/
def State.field (s : State) (page off lo w : Nat) : Nat := bits (s.word page off) lo w

/-- Set bits [lo + w - 1 : lo] of a register word. -/
def State.setField (s : State) (page off lo w v : Nat) : State :=
  s.setWord page off (setBits (s.word page off) lo w v)

/-- A 64-bit register (R404). -/
def State.word64 (s : State) (page off : Nat) : Nat := s.word page off + 2 ^ 32 * s.word page (off + 4)

/-- Set a 64-bit register. -/
def State.setWord64 (s : State) (page off v : Nat) : State :=
  (s.setWord page off (v % 2 ^ 32)).setWord page (off + 4) (v / 2 ^ 32 % 2 ^ 32)

/-- Count n events on event counter i of a page, unless CNT_FREEZE holds it; a counter wraps at 2^32 (R402). -/
def State.count (s : State) (page i : Nat) (n : Nat := 1) : State :=
  if s.field page 0x008 0 1 = 1 ∨ n = 0 then s else s.setWord page (0x028 + 4 * i) (s.word page (0x028 + 4 * i) + n)

/-- Add n to a 64-bit count held in a register (R404). -/
def State.add64 (s : State) (page off n : Nat) : State := s.setWord64 page off ((s.word64 page off + n) % 2 ^ 64)

/-! ### Messages, free values, time -/

/-- Send a message on a link. -/
def State.emit (s : State) (o : Out) : State := { s with out := s.out ++ [o] }

/-- The next free value's number; the counter advances. -/
def State.draw (s : State) : Nat × State := (s.freeCtr, { s with freeCtr := s.freeCtr + 1 })

/-- Time passes to the moment at which something falls due: a command that is due at a moment says that the moment has come (log entry 3). -/
def State.until (s : State) (due : Nat) : State := { s with now := max s.now due }

/-- One microsecond, one millisecond and one second in nanoseconds. -/
def us : Nat := 1000
def ms : Nat := 1000000
def sec : Nat := 1000000000

/-- The 1 GiB, 16 KiB tile, 4 KiB cask and 64-byte line. -/
def gib : Nat := 2 ^ 30
def tileBytes : Nat := 16384
def caskBytes : Nat := 4096
def lineBytes : Nat := 64

/-! ### Ports and cores by number -/

/-- The state of port p. -/
def State.port (s : State) (p : Port) : PortState := s.ports[p]

/-- Change the state of port p. -/
def State.modPort (s : State) (p : Port) (f : PortState → PortState) : State :=
  { s with ports := s.ports.set p (f s.ports[p]) }

/-- The port of a number below 6. -/
def portOf (n : Nat) : Option Port := if h : n < 6 then some ⟨n, h⟩ else none

/-- All six ports. -/
def allPorts : List Port := [0, 1, 2, 3, 4, 5]

/-- The page of port p (R410). -/
def prtPage (p : Port) : Nat := 8 + p.val

/-- The physical core of a number below 18. -/
def State.core (s : State) (c : Nat) : Core := if h : c < 18 then s.cores[c] else default

/-- Change a physical core. -/
def State.modCore (s : State) (c : Nat) (f : Core → Core) : State :=
  if h : c < 18 then { s with cores := s.cores.set c (f s.cores[c]) } else s

/-- CTL_MAP of logical number l is VALID (R292). -/
def State.active (s : State) (l : Nat) : Bool := decide (l < 16) && decide (s.field 0x0C0 (0x110 + 4 * l) 7 1 = 1)

/-- The physical core that holds logical number l. -/
def State.physOf (s : State) (l : Nat) : Nat := s.field 0x0C0 (0x110 + 4 * l) 0 5

/-- RELEASED of CTL_STATUS (R288). -/
def State.released (s : State) : Bool := decide (s.field 0x0C0 0x108 0 1 = 1)

/-- The active logical numbers. -/
def State.activeCores (s : State) : List Nat := (List.range 16).filter s.active

/-- An active core that runs (not dormant). -/
def State.awake (s : State) (l : Nat) : Bool := s.active l && decide ((s.core (s.physOf l)).state = 1)

/-! ### Requesters -/

/-- REQ of ERR_INFO (R402). -/
def reqCode : Requester → Nat
  | .port p => p.val
  | .core _ => 6
  | .trust => 7
  | .debug => 8

/-- A number for each requester that holds its own selections (R409). -/
def reqIndex : Requester → Nat
  | .port p => p.val
  | .core l => 16 + l.val
  | .trust => 40
  | .debug => 41

/-- REQ of ERR_INFO for what no requester caused. -/
def reqInternal : Nat := 9

/-- A per-requester word (R409); its reset is the register's. -/
def State.sel (s : State) (req : Requester) (page off : Nat) : Nat :=
  (sget (resetWord s.order (4096 * page + off)) s.reg.sel (2 ^ 24 * reqIndex req + (4096 * page + off))).toNat

/-- Set a per-requester word. -/
def State.setSel (s : State) (req : Requester) (page off v : Nat) : State :=
  let key := 4096 * page + off
  { s with reg := { s.reg with sel := sset (resetWord s.order key) s.reg.sel (2 ^ 24 * reqIndex req + key) (BitVec.ofNat 32 v) } }

/-! ### Interrupt sources -/

/-- Page of the private bank of logical core l, and its base (ICU pages). -/
def bankPage (l : Nat) : Nat := 0x0C2 + l / 4
def bankBase (l : Nat) : Nat := 0x100 + 0x200 * (l % 4)

/-- THRESHOLD of a core's bank (R297). -/
def State.threshold (s : State) (l : Nat) : Nat := s.field (bankPage l) (bankBase l + 8) 0 4

/-- PRIORITY of private source n of logical core l; sources 34 to 63 are reserved. -/
def State.privPrio (s : State) (l n : Nat) : Nat :=
  if n < 34 then s.field (bankPage l) (bankBase l + 0x20 + 4 * (n / 8)) (4 * (n % 8)) 4 else 0

/-- A shared source's record. -/
def State.src (s : State) (n : Nat) : Src := sget {} s.icu.srcs n

/-- Change a shared source's record. -/
def State.setSrc (s : State) (n : Nat) (v : Src) : State := { s with icu := { s.icu with srcs := sset {} s.icu.srcs n v } }

/-- PRIORITY of ICU_SRC_CFG. -/
def Src.prio (r : Src) : Nat := bits r.cfg.toNat 0 4
/-- MODE of ICU_SRC_CFG: claim mode. -/
def Src.claimMode (r : Src) : Bool := decide (bits r.cfg.toNat 4 1 = 1)
/-- TARGET of ICU_SRC_CFG. -/
def Src.target (r : Src) : Nat := bits r.cfg.toNat 8 4
/-- MASK of ICU_SRC_CFG. -/
def Src.mask (r : Src) : Nat := bits r.cfg.toNat 16 16
/-- A source is pending while its counter is above zero and it is not in service (R295). -/
def Src.pend (r : Src) : Bool := decide (0 < r.count) && !r.insvc

/-- Counter and in-service flag of private source n of logical core l. -/
def State.privCount (s : State) (l n : Nat) : Nat := sget 0 s.icu.privCnt (64 * l + n)
def State.privInsvc (s : State) (l n : Nat) : Bool := sget false s.icu.privSvc (64 * l + n)
def State.setPrivCount (s : State) (l n v : Nat) : State :=
  { s with icu := { s.icu with privCnt := sset 0 s.icu.privCnt (64 * l + n) v } }
def State.setPrivInsvc (s : State) (l n : Nat) (v : Bool) : State :=
  { s with icu := { s.icu with privSvc := sset false s.icu.privSvc (64 * l + n) v } }

/-- GLOBAL_DIS (R299). -/
def State.globalDis (s : State) : Bool := decide (s.field 0x0C1 0x108 0 1 = 1)

/-- The core a direct target t leads to, and whether it was redirected (R296): TARGET, else its FALLBACK, else the lowest active core. -/
def State.directTo (s : State) (t : Nat) : Option (Nat × Bool) :=
  let f := s.field (bankPage t) (bankBase t + 8) 8 4
  if s.active t then some (t, false)
  else if s.active f then some (f, true)
  else (s.activeCores.head?).map (fun l => (l, true))

/-- The lowest set bit of a 16-bit mask. -/
def lowestBit (m : Nat) : Option Nat := (List.range 16).find? (fun i => m.testBit i)

/-- The cores a shared source is delivered to, and a redirection from and to (R296, R301). A claim mask of 0 names no core. -/
def State.targets (s : State) (r : Src) : List Nat × Option (Nat × Nat) :=
  let direct (t : Nat) : List Nat × Option (Nat × Nat) :=
    match s.directTo t with
    | none => ([], none)
    | some (l, moved) => ([l], if moved then some (t, l) else none)
  if r.claimMode then
    let inMask := s.activeCores.filter (fun l => r.mask.testBit l)
    if inMask = [] then
      match lowestBit r.mask with
      | none => ([], none)
      | some t => direct t
    else
      let up := inMask.filter s.awake
      (if up = [] then inMask else up, none)
  else direct r.target

/-- A source of priority prio reaches logical core l: a dormant core is woken, with MEIP 2.0 µs later (R300); a core stopped by WFI resumes; MEIP is asserted where prio is above THRESHOLD (R297). -/
def State.reach (s : State) (l prio : Nat) : State :=
  let c := s.physOf l
  let k := s.core c
  if k.state = 2 then
    if k.wakeAt.isSome then s
    else (s.modCore c (fun k => { k with wakeAt := some (s.now + 2000) })).count 0x0C1 4
  else if k.state = 1 then
    if s.threshold l < prio then (s.modCore c (fun k => { k with wfiAt := none })).emit (.meip c) else s
  else s

/-- Push an entry into the 16-entry redirect log; a full log adds to OVF, which saturates at 127 (ICU_REDIR_LOG). The Bool says that the entry was lost. -/
def State.pushRedir (s : State) (e : Redir) : State × Bool :=
  if s.icu.redirLog.length < 16 then ({ s with icu := { s.icu with redirLog := s.icu.redirLog ++ [e] } }, false)
  else ({ s with icu := { s.icu with redirOvf := min 127 (s.icu.redirOvf + 1) } }, true)

/-- Record a rise of a bit in ERR_STATUS and in ERR_FIRST, without the interrupt (R403). The Bool says that the bit rose. -/
def State.riseBit (s : State) (page bit : Nat) : State × Bool :=
  let st := s.word page 0x018
  if st.testBit bit then (s, false)
  else
    let s1 := if st = 0 then s.setWord page 0x020 (bit + 256) else s
    (s1.setWord page 0x018 (st + 2 ^ bit), true)

/-- A bit of ERR_STATUS is unmasked (R403). -/
def State.unmasked (s : State) (page bit : Nat) : Bool := !((s.word page 0x01C).testBit bit)

/-- The shared source of a page's interrupt (R294). -/
def pageSource (page : Nat) : Option Nat :=
  if page < 256 then some (3584 + page)
  else if page < 0x110 then some (3840 + (page - 256))
  else if 0x200 ≤ page ∧ page < 0x600 then some (3856 + (page - 0x200) / 64)
  else none

/-- Raise a shared source once and deliver it where it is newly pending (R295, R296). A redirection is logged, which sets REDIRECT of page 0x0C1 and may raise that page's own source: the fuel bounds that chain, whose length is at most two pages' bits. -/
def State.raiseFuel : Nat → State → Nat → State
  | 0, s, _ => s
  | fuel + 1, s, n =>
    let r := s.src n
    if 255 ≤ r.count then s.count 0x0C1 5
    else
      let s1 := s.setSrc n { r with count := r.count + 1 }
      if r.pend then s1 else deliverFuel fuel s1 n
where
  /-- Deliver a pending shared source (R296). -/
  deliverFuel : Nat → State → Nat → State
  | fuel, s, n =>
    let r := s.src n
    if s.globalDis ∨ r.prio = 0 ∨ !r.pend then s
    else
      let (ts, moved) := s.targets r
      if ts = [] then s
      else
        let s1 := (ts.foldl (fun t l => t.reach l r.prio) s).count 0x0C1 0
        match moved with
        | none => s1
        | some (a, b) =>
          if r.redirected then s1
          else
            let (s2, lost) := (s1.setSrc n { r with redirected := true }).pushRedir ⟨n, a, b⟩
            let (s3, rose) := (s2.count 0x0C1 3).riseBit 0x0C1 8
            let s4 := if rose && s3.unmasked 0x0C1 8 then relay fuel s3 else s3
            if lost then
              let (s5, rose2) := s4.riseBit 0x0C1 10
              if rose2 && s5.unmasked 0x0C1 10 then relay fuel s5 else s5
            else s4
  /-- Raise the shared source of page 0x0C1 itself; its own redirection, if any, finds REDIRECT already set. -/
  relay : Nat → State → State
  | 0, s => s
  | _ + 1, s =>
    let r := s.src (3584 + 0x0C1)
    if 255 ≤ r.count then s.count 0x0C1 5
    else
      let s1 := s.setSrc (3584 + 0x0C1) { r with count := r.count + 1 }
      if r.pend ∨ s1.globalDis ∨ r.prio = 0 ∨ r.insvc then s1
      else
        let (ts, moved) := s1.targets r
        let s2 := if ts = [] then s1 else (ts.foldl (fun t l => t.reach l r.prio) s1).count 0x0C1 0
        match moved with
        | none => s2
        | some (a, b) =>
          if ts = [] ∨ r.redirected then s2
          else ((s2.setSrc (3584 + 0x0C1) { r with count := r.count + 1, redirected := true }).pushRedir ⟨3584 + 0x0C1, a, b⟩).1.count 0x0C1 3

/-- Raise shared source n once (R295). -/
def State.raise (s : State) (n : Nat) : State := State.raiseFuel 2 s n

/-- Deliver shared source n if it is pending (R296), after its target, its state or GLOBAL_DIS changed. -/
def State.deliver (s : State) (n : Nat) : State := State.raiseFuel.deliverFuel 2 s n

/-- Deliver private source n of logical core l to its own core, where l is active (R296). -/
def State.deliverPriv (s : State) (l n : Nat) : State :=
  if s.globalDis ∨ s.privPrio l n = 0 ∨ !(s.active l) ∨ s.privCount l n = 0 ∨ s.privInsvc l n then s
  else (s.reach l (s.privPrio l n)).count 0x0C1 0

/-- Raise private source n of logical core l once (R295). -/
def State.raisePriv (s : State) (l n : Nat) : State :=
  let k := s.privCount l n
  if 255 ≤ k then s.count 0x0C1 5
  else
    let s1 := s.setPrivCount l n (k + 1)
    if 0 < k ∧ !(s.privInsvc l n) then s1 else s1.deliverPriv l n

/-! ### MSI-X and INTx -/

/-- READY of PRT_LINK (R250). -/
def State.portIsReady (s : State) (p : Port) : Bool := decide (s.field (prtPage p) 0x100 7 1 = 1)

/-- CONTAINED of PRT_CONTAIN (R246). -/
def State.contained (s : State) (p : Port) : Bool := decide (s.field (prtPage p) 0x108 0 1 = 1)

/-- The port takes requests: ready, not contained, no port reset running (R246, R250), its link not in L2/L3 Ready (R226). -/
def State.portTakes (s : State) (p : Port) : Bool :=
  s.portIsReady p && !(s.contained p) && (s.port p).resetAt.isNone && !(s.port p).l23

/-- The port may issue a memory write or message: ready, not contained, Bus Master Enable set, in D0 (R234, R244, R246). -/
def State.canMaster (s : State) (p : Port) : Bool :=
  s.portTakes p && (s.port p).bme && !(s.port p).d3hot

/-- Vector v of port p is masked by its mask bit or Function Mask (R251). -/
def State.vectorMasked (s : State) (p : Port) (v : Nat) : Bool :=
  !(sget false (s.port p).unmasked v) || (s.port p).funcMask

/-- Some bit of the 64 PRT_INTX_PEND registers is set (R252). -/
def State.intxAny (s : State) (p : Port) : Bool :=
  (List.range 64).any (fun n => decide (s.word (prtPage p) (0x180 + 4 * n) ≠ 0))

/-- Send Assert_INTA or Deassert_INTA as the pending bits and Interrupt Disable require (R252); a function in D3hot issues no request, and its level is judged again in D0 (R234). -/
def State.intxLevel (s : State) (p : Port) : State :=
  let want := s.intxAny p && !(s.port p).intxDisable
  if want = (s.port p).intxAsserted ∨ (s.port p).d3hot then s
  else (s.modPort p (fun q => { q with intxAsserted := want })).emit (.intx p.val want)

/-- Send the message of vector v of port p: as INTx while MSI-X is disabled (R252), into the PBA while masked or while the port may not send (R244, R246, R251), else on the link. -/
def State.sendMsix (s : State) (p : Port) (v : Nat) : State :=
  if (s.port p).msixEnable then
    if s.vectorMasked p v || !(s.canMaster p) then
      s.modPort p (fun q => { q with pba := sset false q.pba v true })
    else s.emit (.msix p.val v)
  else
    let o := 0x180 + 4 * (v / 32)
    (s.setWord (prtPage p) o (setBits (s.word (prtPage p) o) (v % 32) 1 1)).intxLevel p

/-- Send every message whose PBA bit is set and whose vector is unmasked, where the port may send (R244, R251). -/
def State.flushPba (s : State) (p : Port) : State :=
  if (s.port p).msixEnable && s.canMaster p then
    (s.port p).pba.foldl (fun t e =>
      if t.vectorMasked p e.1 then t
      else (t.modPort p (fun q => { q with pba := sset false q.pba e.1 false })).emit (.msix p.val e.1)) s
  else s

/-! ### Errors -/

/-- Raise a page's interrupt once: its shared source, and for a PRT page the MSI-X message of R251 (R403). -/
def State.pageInterrupt (s : State) (page : Nat) : State :=
  let s1 := match pageSource page with
    | none => s
    | some n => s.raise n
  match portOf (page - 8) with
  | some p => if 8 ≤ page then s1.sendMsix p (s1.field page 0x12C 0 11) else s1
  | none => s1

/-- A bit of ERR_STATUS rises (R403). -/
def State.err (s : State) (page bit : Nat) : State :=
  let (s1, rose) := s.riseBit page bit
  if rose && s1.unmasked page bit then s1.pageInterrupt page else s1

/-- A common error: KIND 0 CONFIG, 1 ACCESS, 2 SKEW, 3 STALE_COMMIT, which is also its bit; ERR_INFO holds the most recent (R402). -/
def State.errInfo (s : State) (page kind off req : Nat) : State :=
  (s.setWord page 0x024 (off % 4096 + req * 2 ^ 12 + kind * 2 ^ 16)).err page kind

/-- A page's event counter and error together. -/
def State.errCount (s : State) (page bit i : Nat) : State := (s.count page i).err page bit

end Sys2Proof.Machine
end

