-- ==== Sys2Proof/Machine/Dram.lean ====
section
/-! DEFINITION. The vat and cellar controllers (R317 to R332): where a line lies, the request queues and how the next request is picked, refresh, power-down, self-refresh, temperatures and retraining. -/

namespace Sys2Proof.Machine

/-! ### Geometry -/

/-- Place of byte o of vat slot s (R317): stack, channel, rank, bank, row. -/
def vatPlace (s o : Nat) : Nat × Nat × Nat × Nat × Nat :=
  let c := (s / 16) * 256 + o % 256
  (s % 16, o / 256, (c / 16384) % 8, (c / 1024) % 16, c / 131072)

/-- Column byte of byte o of vat slot s in its row (R317). -/
def vatColumn (s o : Nat) : Nat := ((s / 16) * 256 + o % 256) % 1024

/-- Rank, bank, row and column byte of byte b of a cellar channel (R319). -/
def cellarAt (b : Nat) : Nat × Nat × Nat × Nat := ((b / 32768) % 2, (b / 2048) % 16, b / 65536, b % 2048)

/-- Place of cellar sector x of a package (R319): channel, rank, bank, row. -/
def cellarPlace (x : Nat) : Nat × Nat × Nat × Nat :=
  let j := x / 4
  let (rank, bank, row, _) := cellarAt ((j / 8) * 576 + (j % 8) * 64)
  (x % 4, rank, bank, row)

/-- First data byte, and first check byte, of cellar sector x within its channel (R319). -/
def cellarBytes (x : Nat) : Nat × Nat :=
  let j := x / 4
  ((j / 8) * 576 + (j % 8) * 64, (j / 8) * 576 + 512 + (j % 8) * 8)

/-! ### Channels -/

/-- The number of a channel within its tier. -/
def chanKey : Chan → Nat
  | .vat s c => 64 * (s % 16) + c % 64
  | .cellar p c => 4 * (p % 48) + c % 4

/-- A channel's controller. -/
def State.chan (s : State) : Chan → ChanState
  | .vat a c => sget {} s.dram.vat (chanKey (.vat a c))
  | .cellar a c => sget {} s.dram.cellar (chanKey (.cellar a c))

/-- Change a channel's controller. -/
def State.modChan (s : State) (ch : Chan) (f : ChanState → ChanState) : State :=
  match ch with
  | .vat _ _ => { s with dram := { s.dram with vat := sset {} s.dram.vat (chanKey ch) (f (s.chan ch)) } }
  | .cellar _ _ => { s with dram := { s.dram with cellar := sset {} s.dram.cellar (chanKey ch) (f (s.chan ch)) } }

/-- The register page of a channel's stack or package, and the page of the fields that govern every controller of its tier. -/
def chanPage : Chan → Nat
  | .vat s _ => 0x050 + s % 16
  | .cellar p _ => 0x060 + p % 48
def tierPage : Chan → Nat
  | .vat _ _ => 0x050
  | .cellar _ _ => 0x060

/-- The channel exists on the part (R2). -/
def State.chanExists (s : State) : Chan → Bool
  | .vat _ _ => true
  | .cellar p _ => decide (p < (match s.order with | .l3072 => 48 | .l1536 => 24))

/-- Training STATE of a channel: 0 untrained, 1 trained, 2 retraining, 3 failed. -/
def ChanState.trainState (c : ChanState) : Nat := bits c.train.toNat 0 2

/-- A DRAM command on a channel's bus. -/
def State.dramOut (s : State) (ch : Chan) (cmd bank row : Nat) : State :=
  match ch with
  | .vat a c => s.emit (.dram false (a % 16) (c % 64) cmd bank row)
  | .cellar a c => s.emit (.dram true (a % 48) (c % 4) cmd bank row)

/-- A request joins a channel's queue (R321). A channel in self-refresh leaves it at its next request (R328); one in STATE 3 takes none (R331). -/
def State.dramPush (s : State) (ch : Chan) (r : DramReq) : State :=
  let out := (s.chan ch).selfRefresh
  if (s.chan ch).trainState = 3 then s
  else
    let s1 := s.modChan ch (fun c => { c with
      reqs := c.reqs ++ [r], lastReq := s.now, rankAt := sset 0 c.rankAt r.rank s.now, selfRefresh := false })
    if out then s1.dramOut ch 5 0 0 else s1

/-- For whom memory is accessed: the traffic class (R19, R20), and the source of R321: 0 to 5 a port, 6 work of the block, 7 its maintenance, which two R321 counts as one. -/
structure Traffic where
  cls : Nat
  src : Nat
deriving DecidableEq, Repr, Inhabited

/-- The Izxaca's own maintenance: class 3 (R19, R20). -/
def background : Traffic := ⟨3, 7⟩

/-- A line of a vat slot is accessed for a source in a class (R19, R321). -/
def State.dramVat (s : State) (slot line : Nat) (write : Bool) (w : Traffic) : State :=
  let (st, c, rank, bank, row) := vatPlace slot (64 * line)
  s.dramPush (.vat st c) ⟨w.cls, min w.src 6, write, rank, bank, row, 256 * slot + line, s.now, vatColumn slot (64 * line)⟩

/-- Byte b of a cellar channel is accessed; line names the sector for R322. -/
def State.cellarPush (s : State) (package c b line : Nat) (write : Bool) (w : Traffic) : State :=
  let (rank, bank, row, column) := cellarAt b
  s.dramPush (.cellar package c) ⟨w.cls, min w.src 6, write, rank, bank, row, line, s.now, column⟩

/-- n cellar sectors of a package are accessed, and with them the check sector of every group they touch, once in each channel (R319). -/
def State.dramCellar (s : State) (package sector n : Nat) (write : Bool) (w : Traffic) : State :=
  (List.range n).foldl (fun t i =>
    let x := sector + i
    let (data, check) := cellarBytes x
    let u := t.cellarPush package (x % 4) data x write w
    if i < 4 ∨ x / 4 % 8 = 0 then u.cellarPush package (x % 4) (check / 64 * 64) (2 ^ 32 + 4 * (x / 32) + x % 4) write w else u) s

/-! ### Picking the next request -/

/-- A request has waited longer than AGE_NS (R321). -/
def agedReq (now cap : Nat) (r : DramReq) : Bool := decide (cap < now - r.arrived)

/-- The row of a request is open in its bank (R324). -/
def rowHit (c : ChanState) (r : DramReq) : Bool := decide (sget 0 c.openRow (16 * r.rank + r.bank) = r.row + 1)

/-- The earliest access of the list before place i that goes to the same line and, with access i, is not two reads (R322). -/
def blocker (reqs : List DramReq) (i : Nat) : Option Nat :=
  match reqs[i]? with
  | none => none
  | some r => (List.range i).find? (fun j => match reqs[j]? with
      | some q => decide (q.line = r.line ∧ q.rank = r.rank) && (q.write || r.write)
      | none => false)

/-- The access that must be issued for access i to come: i itself, or the earliest access that it, or what it waits for, waits for (R322). -/
def unblocked (reqs : List DramReq) : Nat → Nat → Nat
  | 0, i => i
  | n + 1, i => match blocker reqs i with
    | none => i
    | some j => unblocked reqs n j

/-- The weight of class 1, 2 or 3 in a class weight word; and of a source in a source weight word (R21, R321). -/
def classWeight (w : Word) (c : Nat) : Nat := if c = 0 then 0 else bits w.toNat (4 * (c - 1)) 4
def srcWeight (w : Word) (i : Nat) : Nat := bits w.toNat (4 * i) 4

/-- Class a goes before class b: it has had less for its weight; ties to the lower class (R21). -/
def classBefore (c : ChanState) (a b : Nat) : Bool :=
  let sa := sget 0 c.served a * classWeight c.classWt b
  let sb := sget 0 c.served b * classWeight c.classWt a
  if sa = sb then decide (a < b) else decide (sa < sb)

/-- Class 3 has had less than its floor of 1/16 of what the controller has delivered in the interval (R21 step 2). -/
def floorDue (c : ChanState) : Bool :=
  let total := sget 0 c.served 0 + sget 0 c.served 1 + sget 0 c.served 2 + sget 0 c.served 3 + c.floorServed
  decide (16 * c.floorServed < total)

/-- The class served next by weight among those that wait (R21 step 3). -/
def pickClass (c : ChanState) (waiting : List Nat) : Option Nat :=
  waiting.foldl (fun best k => match best with
    | none => some k
    | some b => if classBefore c k b then some k else some b) none

/-- Requests of sources that have not had their share yet, or all where every source has (R321). -/
def shareFilter (c : ChanState) (cls : Nat) (l : List (Nat × DramReq)) : List (Nat × DramReq) :=
  let srcs := (l.map (fun e => e.2.src)).dedup
  let sum := (srcs.map (srcWeight c.srcWt)).sum
  let had := sget 0 c.served cls + (if cls = 3 then c.floorServed else 0)
  let sated (i : Nat) : Bool := decide (had * srcWeight c.srcWt i < sget 0 c.srcServed (8 * cls + i) * sum)
  let under := l.filter (fun e => !(sated e.2.src))
  if under = [] then l else under

/-- Within a class: aged requests oldest first, then row hits, then the oldest; the list is in arrival order (R321). -/
def pickWithin (now cap : Nat) (c : ChanState) (l : List (Nat × DramReq)) : Option Nat :=
  match l.find? (fun e => agedReq now cap e.2) with
  | some e => some e.1
  | none => match l.find? (fun e => rowHit c e.2) with
    | some e => some e.1
    | none => l.head?.map (fun e => e.1)

/-- The place in the queue of the request a controller issues next: class 0 first, class 3 while its floor is due, of the direction the controller serves where one waits there, then by weight (R21, R321, R322). -/
def pickRequest (now cap : Nat) (c : ChanState) : Option Nat :=
  let all : List (Nat × DramReq) := c.reqs.zipIdx.map (fun e => (e.2, e.1))
  let zero := all.filter (fun e => decide (e.2.cls = 0))
  let first : Option Nat := match zero.head? with
    | some e => some e.1
    | none =>
      let reads := all.filter (fun e => !e.2.write)
      let pool := if c.draining || reads.isEmpty then all.filter (fun e => e.2.write) else reads
      let third := all.filter (fun e => decide (e.2.cls = 3))
      let thirdHere := pool.filter (fun e => decide (e.2.cls = 3))
      if floorDue c && !third.isEmpty then
        pickWithin now cap c (shareFilter c 3 (if thirdHere.isEmpty then third else thirdHere))
      else match pickClass c ((pool.map (fun e => e.2.cls)).dedup) with
      | none => none
      | some k => pickWithin now cap c (shareFilter c k (pool.filter (fun e => decide (e.2.cls = k))))
  first.map (unblocked c.reqs c.reqs.length)

/-- Remove the element at a place. -/
def dropAt {α : Type} (l : List α) (i : Nat) : List α := l.take i ++ l.drop (i + 1)

/-- The state of the write queue's drain: it starts at 48 writes and ends at 16 (R322). -/
def drainNext (c : ChanState) : Bool :=
  let n := (c.reqs.filter (fun r => r.write)).length
  if 48 ≤ n then true else if n ≤ 16 then false else c.draining

/-- Issue request i of a channel: power-down and self-refresh exit, row activation under the page policy, the counts of the tier's page (R321, R323, R324, R327); the rank's and the channel's idle time begins (R327, R328). -/
def State.issue (s : State) (ch : Chan) (i : Nat) : State :=
  let c := s.chan ch
  match c.reqs[i]? with
  | none => s
  | some r =>
    let bankKey := 16 * r.rank + r.bank
    let open' := sget 0 c.openRow bankKey
    let hit := rowHit c r
    let conflict := decide (open' ≠ 0) && !hit
    let aged := agedReq s.now (s.field (tierPage ch) 0x188 0 16) r && decide (r.cls ≠ 0)
    let ctr := sget 2 c.pageCtr bankKey
    let ctr' := if hit then min 3 (ctr + 1) else if conflict then ctr - 1 else ctr
    let rest := dropAt c.reqs i
    let predicted := decide (s.order = .l1536)
    let more := rest.any (fun q => decide (q.rank = r.rank ∧ q.bank = r.bank ∧ q.row = r.row))
    let row' := if predicted && !more && decide (ctr' < 2) then 0 else r.row + 1
    let asleep := c.powerDown.getLsbD r.rank
    let c' : ChanState := { c with
      reqs := rest
      draining := drainNext { c with reqs := rest }
      rankAt := sset 0 c.rankAt r.rank s.now, lastReq := s.now
      openRow := sset 0 c.openRow bankKey row'
      pageCtr := if predicted then sset 2 c.pageCtr bankKey ctr' else c.pageCtr
      served := if r.cls = 3 ∧ floorDue c then c.served else sset 0 c.served r.cls (sget 0 c.served r.cls + 1)
      floorServed := if r.cls = 3 ∧ floorDue c then c.floorServed + 1 else c.floorServed
      srcServed := sset 0 c.srcServed (8 * r.cls + r.src) (sget 0 c.srcServed (8 * r.cls + r.src) + 1)
      powerDown := c.powerDown &&& ~~~(BitVec.ofNat 8 (2 ^ r.rank)) }
    let s1 := s.modChan ch (fun _ => c')
    let s2 := if asleep then s1.dramOut ch 5 r.bank r.row else s1
    let s3 := s2.dramOut ch (if r.write then 1 else 0) r.bank r.row
    let s4 := if hit then s3.count (chanPage ch) 0 else if conflict then s3.count (chanPage ch) 1 else s3
    if aged then s4.count (chanPage ch) 2 else s4

/-- DRAM_REQUEST_ISSUE (R321): a trained controller issues its next request. -/
def execDramRequestIssue (ch : Chan) (s : State) : Result :=
  let c := s.chan ch
  if c.trainState = 1 ∧ s.chanExists ch then
    let c1 := { c with draining := drainNext c }
    match pickRequest s.now (s.field (tierPage ch) 0x188 0 16) c1 with
    | none => done s
    | some i => done ((s.modChan ch (fun _ => c1)).issue ch i)
  else done s

/-- CLASS_INTERVAL (R21, R332): a 1 us interval ends at a controller; the next one starts with nothing served and with the weights committed by then. -/
def execClassInterval (ch : Chan) (s : State) : Result :=
  let s1 := s.until ((s.chan ch).intervalAt + 1000)
  done (s1.modChan ch (fun c => { c with
    intervalAt := s1.now, served := [], floorServed := 0, srcServed := [],
    classWt := BitVec.ofNat 32 (s1.word (tierPage ch) 0x180), srcWt := BitVec.ofNat 32 (s1.word (tierPage ch) 0x184) }))

/-- What MR4's refresh-rate code makes of a cellar rank's tREFIpb of 488 ns (R326; the codes' multipliers are PRESUMED from JEDEC LPDDR5X, log entry 14). -/
def mr4Interval (rate : Nat) : Nat := [488, 3904, 2928, 1952, 1610, 1220, 976, 829, 634, 488, 341, 244, 122, 122].getD rate 61

/-- The MR4 refresh-rate codes that ask for a refresh multiplier of 2 or more (PRESUMED from JEDEC LPDDR5X, log entry 14). -/
def mr4Hot (rate : Nat) : Bool := decide (11 ≤ rate)

/-- The key of a rank of a channel among its package's eight. -/
def mr4Key (p c rank : Nat) : Nat := 8 * (p % 48) + 2 * (c % 4) + rank % 2

/-- tREFIpb of a rank of a channel, in nanoseconds (R318, R325, R326). -/
def State.refreshEvery (s : State) (ch : Chan) (rank : Nat) : Nat :=
  match ch with
  | .vat _ _ => if s.field (chanPage ch) 0x100 8 1 = 1 then 1950 else 3900
  | .cellar p c => mr4Interval (sget 0 s.dram.mr4 (mr4Key p c rank))

/-- REFRESH_DUE (R325, R326): a bank's refresh falls due tREFIpb after its last; it is postponed while requests to the bank wait, at most four times, and otherwise issued with those postponed before it; it closes the bank's row, takes its rank out of power-down (R327), and brings in the rank's correction of the WCK-to-DQ delays (R331). A channel in self-refresh refreshes itself. -/
def execRefreshDue (ch : Chan) (rank bank : Nat) (s : State) : Result :=
  let c := s.chan ch
  let rank := rank % 8
  let key := 16 * rank + bank % 16
  let waits := c.reqs.any (fun r => decide (r.rank = rank ∧ r.bank = bank % 16))
  let owed := sget 0 c.postponed key
  if c.selfRefresh then done s
  else
    let s1 := s.until (sget 0 c.dueAt key + s.refreshEvery ch rank)
    let s2 := s1.modChan ch (fun c => { c with dueAt := sset 0 c.dueAt key s1.now })
    if waits && decide (owed < 4) then done (s2.modChan ch (fun c => { c with postponed := sset 0 c.postponed key (owed + 1) }))
    else
      let s3 := s2.modChan ch (fun c => { c with
        postponed := sset 0 c.postponed key 0, openRow := sset 0 c.openRow key 0, rankAt := sset 0 c.rankAt rank s1.now
        powerDown := c.powerDown &&& ~~~(BitVec.ofNat 8 (2 ^ rank)), dqsOwed := c.dqsOwed &&& ~~~(BitVec.ofNat 8 (2 ^ rank)) })
      let s3a := if c.powerDown.getLsbD rank then s3.dramOut ch 5 (bank % 16) 0 else s3
      let s4 := ((List.range (owed + 1)).foldl (fun t _ => t.dramOut ch 2 (bank % 16) 0) s3a).count (chanPage ch) 3 (owed + 1)
      done (if c.dqsOwed.getLsbD rank then s4.count (chanPage ch) 5 else s4)

/-- MR4_READ (R326): every 16 ms the rate field of a rank is read; MR4_RATE shows the hottest rank's, and a multiplier of 2 or more sets MR4_HOT. -/
def execMr4Read (package : Fin 48) (rank rate : Nat) (s : State) : Result :=
  let page := 0x060 + package.val
  if pageExists s.order page then
    let key := 8 * package.val + rank % 8
    let s0 := s.until (sget 0 s.dram.mr4At key + 16 * ms)
    let m := sset 0 s.dram.mr4 key (rate % 32)
    let s1 := { s0 with dram := { s0.dram with mr4 := m, mr4At := sset 0 s0.dram.mr4At key s0.now } }
    let top := ((List.range 8).map (fun r => sget 0 m (8 * package.val + r))).foldl max 0
    let s2 := s1.setField page 0x100 0 5 top
    done (if mr4Hot (rate % 32) then s2.err page 9 else s2)
  else done s

/-- The hottest die of a stack is reported: at 85 °C refresh doubles and TEMP_HIGH is set, below 82 °C it returns to normal (R325). -/
def State.stackTemp (s : State) (stack temp : Nat) : State :=
  let page := 0x050 + stack
  let s1 := s.setField page 0x100 0 8 (min temp 255)
  let twice := decide (s.field page 0x100 8 1 = 1)
  if 85 ≤ temp ∧ !twice then (s1.setField page 0x100 8 1 1).err page 8
  else if temp < 82 then s1.setField page 0x100 8 1 0 else s1

/-- STACK_TEMPERATURE (R325). -/
def execStackTemperature (stack : Fin 16) (temp : Nat) (s : State) : Result := done (s.stackTemp stack.val temp)

/-- Some valid region is of class 0; and one that is not vat-pinned (R328). -/
def State.vatInhibit (s : State) : Bool := s.rgn.entries.any (fun e => e.2.valid && decide (e.2.cls = 0))
def State.cellarInhibit (s : State) : Bool :=
  s.rgn.entries.any (fun e => e.2.valid && decide (e.2.cls = 0) && decide (e.2.policy ≠ 1))

/-- Self-refresh is inhibited for a channel (R328). -/
def State.inhibited (s : State) : Chan → Bool
  | .vat _ _ => s.vatInhibit
  | .cellar _ _ => s.cellarInhibit

/-- A refresh of some bank of a rank is due and postponed. -/
def ChanState.refreshOwed (c : ChanState) (rank : Nat) : Bool := c.postponed.any (fun e => decide (e.1 / 16 = rank) && decide (0 < e.2))

/-- POWER_DOWN_ENTRY (R327): a rank with no queued request and no refresh due for PD_IDLE_NS enters power-down; 0 disables it. -/
def execPowerDownEntry (ch : Chan) (rank : Nat) (s : State) : Result :=
  let c := s.chan ch
  let idle := s.field (tierPage ch) 0x18C 0 10
  if idle = 0 ∨ c.selfRefresh ∨ c.reqs.any (fun r => decide (r.rank = rank % 8)) ∨ c.refreshOwed (rank % 8) = true then done s
  else
    let s1 := s.until (sget 0 c.rankAt (rank % 8) + idle)
    done ((s1.modChan ch (fun c => { c with powerDown := c.powerDown ||| BitVec.ofNat 8 (2 ^ (rank % 8)) })).dramOut ch 3 (rank % 8) 0)

/-- SELF_REFRESH_ENTRY (R328): a channel without requests for SR_IDLE_US enters self-refresh while SR_EN is set and nothing inhibits it. -/
def execSelfRefreshEntry (ch : Chan) (s : State) : Result :=
  let c := s.chan ch
  if s.field (tierPage ch) 0x18C 10 1 = 1 ∧ !(s.inhibited ch) ∧ c.reqs = [] ∧ !c.selfRefresh then
    let s1 := s.until (c.lastReq + us * s.field (tierPage ch) 0x18C 16 16)
    done (((s1.modChan ch (fun c => { c with selfRefresh := true, openRow := [] })).dramOut ch 4 0 0).count (chanPage ch) 4)
  else done s

/-- Every channel that is in self-refresh leaves it, with the exit command: of the vat, of the cellar, or of both (R328). -/
def State.exitRefresh (s : State) (vat cellar : Bool) : State :=
  let wake (m : Sparse ChanState) : Sparse ChanState := m.foldl (fun acc e => sset {} acc e.1 { e.2 with selfRefresh := false }) []
  let asleep (on : Bool) (m : Sparse ChanState) : List Nat := if on then (m.filter (fun e => e.2.selfRefresh)).map (fun e => e.1) else []
  let s1 : State := { s with dram := { s.dram with
    vat := if vat then wake s.dram.vat else s.dram.vat
    cellar := if cellar then wake s.dram.cellar else s.dram.cellar } }
  let s2 := (asleep vat s.dram.vat).foldl (fun u k => u.dramOut (.vat (k / 64) (k % 64)) 5 0 0) s1
  (asleep cellar s.dram.cellar).foldl (fun u k => u.dramOut (.cellar (k / 4) (k % 4)) 5 0 0) s2

/-- Every channel of a tier that is in self-refresh leaves it once the tier is inhibited (R328). -/
def State.leaveSelfRefresh (s : State) : State := s.exitRefresh s.vatInhibit s.cellarInhibit

/-- DQS_OSCILLATOR_READ (R331): every 1 ms the drift of a channel is read; the WCK-to-DQ delays of its ranks are corrected, and counted, inside each rank's next refresh. -/
def execDqsOscillatorRead (package : Fin 48) (channel : Fin 4) (s : State) : Result :=
  let ch := Chan.cellar package.val channel.val
  if pageExists s.order (0x060 + package.val) then
    let s1 := s.until ((s.chan ch).dqsAt + ms)
    done (s1.modChan ch (fun c => { c with dqsAt := s1.now, dqsOwed := 3#8 }))
  else done s

/-- A vat channel starts to retrain a bond lane (R12, R331): STATE 2, RETRAINS and EVT_CNT5 grow. -/
def State.startRetrain (s : State) (stack channel : Nat) : State :=
  let ch := Chan.vat stack channel
  let t := (s.chan ch).train.toNat
  let t' := setBits (setBits t 0 2 2) 24 8 (min 255 (bits t 24 8 + 1))
  (s.modChan ch (fun c => { c with train := BitVec.ofNat 32 t' })).count (chanPage ch) 5

/-- CHANNEL_RETRAIN_END (R331): a retraining channel is trained again, with its margins and the time. -/
def execChannelRetrainEnd (stack : Fin 16) (channel : Fin 64) (rdMargin wrMargin : Nat) (s : State) : Result :=
  let ch := Chan.vat stack.val channel.val
  let c := s.chan ch
  if c.trainState = 2 then
    let t := setBits (setBits (setBits c.train.toNat 0 2 1) 8 8 rdMargin) 16 8 wrMargin
    done (s.modChan ch (fun c => { c with train := BitVec.ofNat 32 t, trainedAt := s.now }))
  else done s

end Sys2Proof.Machine
end

