-- ==== Sys2Proof/Machine/Ecc.lean ====
section
/-! DEFINITION. The two double-error-correcting codes (R333, R334), their decoder with the poison pattern (R335), the leaky buckets (R341, R342) and the record of an uncorrectable codeword (R338). -/

namespace Sys2Proof.Machine

/-- Product of two polynomials over GF(2), the second with at most n coefficients. -/
def clmul (a b : Nat) : Nat → Nat
  | 0 => 0
  | n + 1 => (clmul a b n) ^^^ (if b.testBit n then a <<< n else 0)

/-- Remainder of a polynomial of fewer than deg + n coefficients by g of degree deg. -/
def polyMod (g deg : Nat) : Nat → Nat → Nat
  | 0, v => v
  | n + 1, v => polyMod g deg n (if v.testBit (deg + n) then v ^^^ (g <<< n) else v)

/-- A code: data bits, check bits, generator and poison pattern. -/
structure Code where
  data : Nat
  check : Nat
  gen : Nat
  poison : Nat
deriving DecidableEq, Repr, Inhabited

/-- The generator of R333: the minimal polynomials x^8+x^4+x^3+x^2+1 of alpha and x^8+x^6+x^5+x^4+x^2+x+1 of alpha^3. -/
def gen128 : Nat := clmul 0x11D 0x177 9

/-- The generator of R334: the minimal polynomials x^7+x^3+1 of beta and x^7+x^3+x^2+x+1 of beta^3. -/
def gen64 : Nat := clmul 0x89 0x8F 8

/-- The 128-bit code (R333) and the 64-bit code (R334), with the patterns of R335. -/
def code128 : Code := ⟨128, 16, gen128, 0xA5C3⟩
def code64 : Code := ⟨64, 14, gen64, 0x2B5C⟩

/-- Check bits of data (R333). -/
def Code.checkBits (c : Code) (d : Nat) : Nat := polyMod c.gen c.check c.data (d <<< c.check)

/-- What a single-bit error does to the check-bit difference: data positions first, then check positions (R335). -/
def Code.signature (c : Code) (k : Nat) : Nat := if k < c.data then c.checkBits (2 ^ k) else 2 ^ (k - c.data)

/-- Outcomes of a decoder (R335). -/
inductive EccOut where
  | good (d : Nat)
  | poisoned (corrected : Bool)
  | corrected (d : Nat) (double : Bool)
  | bad
deriving DecidableEq, Repr, Inhabited

/-- Flip position k of the data; a check position leaves the data. -/
def Code.flip (c : Code) (d k : Nat) : Nat := if k < c.data then d ^^^ 2 ^ k else d

/-- Two positions whose single-bit errors together give the difference. -/
def pairFor (sigs : List Nat) (delta : Nat) : Option (Nat × Nat) :=
  (List.range sigs.length).findSome? (fun i =>
    ((List.range sigs.length).find? (fun j => decide (i < j) && decide (sigs.getD i 0 ^^^ sigs.getD j 0 = delta))).map (fun j => (i, j)))

/-- Decode received data and check bits, in the order of R335. -/
def Code.decode (c : Code) (d k : Nat) : EccOut :=
  let delta := k ^^^ c.checkBits d
  if delta = 0 then .good d
  else if delta = c.poison then .poisoned false
  else
    let sigs := (List.range (c.data + c.check)).map c.signature
    if sigs.any (fun g => decide (c.poison ^^^ g = delta)) then .poisoned true
    else match (List.range sigs.length).find? (fun i => decide (sigs.getD i 0 = delta)) with
      | some i => .corrected (c.flip d i) false
      | none => match pairFor sigs delta with
        | some (i, j) => .corrected (c.flip (c.flip d i) j) true
        | none => .bad

/-- What a cell holds for data, or for the poison mark: data and check bits (R335). -/
def Code.stored (c : Code) (d : Nat) (poison : Bool) : Nat × Nat :=
  if poison then (0, c.poison) else (d, c.checkBits d)

/-- Decode a codeword whose cells hold wrong bits: the mask has the data bits low and the check bits above them. -/
def Code.readUpset (c : Code) (d : Nat) (poison : Bool) (mask : Nat) : EccOut :=
  let (sd, sk) := c.stored d poison
  c.decode (sd ^^^ (mask % 2 ^ c.data)) (sk ^^^ (mask / 2 ^ c.data % 2 ^ c.check))

/-! ### Leaky buckets and records -/

/-- Key of a bucket. -/
def bucketKey (kind index : Nat) : Nat := 4096 * kind + index

/-- A unit meets a trigger of R345 that the block counts: the cooper finds it due. -/
def State.reported (s : State) (u : RepairUnit) : State :=
  if s.igr.due.contains u then s else { s with igr := { s.igr with due := s.igr.due ++ [u] } }

/-- Seconds of 24 hours. -/
def daySec : Nat := 86400

/-- What an overflow of a bucket means for the cooper (R345): a package's eighth within 24 hours, and a cluster store with 16 or more of the corrections, counted since the row's bucket last overflowed (DEDUCED, log entry 174). -/
def State.overflowed (s : State) (kind index : Nat) : State :=
  if kind = 2 then
    let l := s.igr.pkgOver.filter (fun e => decide (s.now ≤ e.2 + daySec * sec)) ++ [(index, s.now)]
    let s1 := { s with igr := { s.igr with pkgOver := l } }
    if 8 ≤ (l.filter (fun e => decide (e.1 = index))).length then s1.reported (.cellarPackage index) else s1
  else if kind = 3 then
    let mine := s.igr.storeCe.filter (fun e => decide (e.1 / 64 = index))
    let s1 := (mine.filter (fun e => decide (16 ≤ e.2))).foldl (fun u e => u.reported (.cluster index (e.1 % 64))) s
    { s1 with igr := { s1.igr with storeCe := s1.igr.storeCe.filter (fun e => decide (e.1 / 64 ≠ index)) } }
  else s

/-- Push into the 16-entry overflow log, or count in OVF (R342). -/
def State.pushBucket (s : State) (kind index : Nat) : State :=
  if s.igr.bktLog.length < 16 then { s with igr := { s.igr with bktLog := s.igr.bktLog ++ [(kind, index)] } }
  else { s with igr := { s.igr with bktOvf := min 255 (s.igr.bktOvf + 1) } }

/-- Add n to a bucket; a level above THRESHOLD overflows it (R342). -/
def State.addBucket (s : State) (kind index n : Nat) : State :=
  let key := bucketKey kind index
  let old := sget 0 s.igr.level key
  let level := old + n
  let s1 := if old = 0 then { s with igr := { s.igr with leakAt := sset 0 s.igr.leakAt key s.now } } else s
  if s.field 0x0E0 (0x108 + 4 * kind) 0 16 < level then
    let s2 := { s1 with igr := { s1.igr with
      level := sset 0 s1.igr.level key 0
      overflows := sset 0 s1.igr.overflows key (min 65535 (sget 0 s1.igr.overflows key + 1)) } }
    (((s2.overflowed kind index).pushBucket kind index).count 0x0E0 5).err 0x0E0 8
  else { s1 with igr := { s1.igr with level := sset 0 s1.igr.level key level } }

/-- A corrected codeword feeds its buckets, 1 for a single-bit and 4 for a double-bit correction, and is counted (R337, R341). -/
def State.corrected (s : State) (double : Bool) (units : List (Nat × Nat)) : State :=
  units.foldl (fun t u => t.addBucket u.1 u.2 (if double then 4 else 1)) (s.count 0x0E0 (if double then 1 else 0))

/-- The row of a vat line, and of a cellar sector, as a repair unit. -/
def vatRowUnit (slot line : Nat) : RepairUnit :=
  let (st, c, rank, bank, row) := vatPlace slot (64 * line)
  .vatRow st c rank bank row
def cellarRowUnit (package sector : Nat) : RepairUnit :=
  let (_, rank, bank, row) := cellarPlace sector
  .cellarRow package (sector % 4) rank bank row

/-- The unit that an uncorrectable codeword is a trigger for: its DRAM row, or the cluster of its store (R345). -/
def ueUnit (whereTo addr : Nat) : Option RepairUnit :=
  match whereTo with
  | 1 => some (vatRowUnit (addr / 16384) (addr % 16384 / 64))
  | 2 => some (cellarRowUnit (addr / 2 ^ 32) (addr % 2 ^ 32))
  | 3 => some (.cluster (addr / 2 ^ 32 / 64) (addr / 2 ^ 32 % 64))
  | _ => none

/-- An uncorrectable codeword is recorded, with WHERE, FOUND_BY and location, and reported to the cooper (R338, R345). -/
def State.recordUe (s : State) (whereTo foundBy addr : Nat) : State :=
  let s1 := (((s.setWord64 0x0E0 0x130 addr).setWord 0x0E0 0x138 (whereTo + foundBy * 2 ^ 4)).count 0x0E0 2).err 0x0E0 9
  match ueUnit whereTo addr with
  | some u => s1.reported u
  | none => s1

/-- A correction in a DRAM row is counted in the table of 4,096 suspect rows (R345): a full table loses the entry of lowest count, then the oldest. A double-bit codeword, or ROW_CE corrections within the scrub pass, makes the row due. -/
def State.suspect (s : State) (u : RepairUnit) (double : Bool) : State :=
  let l := s.igr.suspects
  let seen := match l.find? (fun e => decide (e.unit = u)) with | some e => e.inPass + 1 | none => 1
  let worst := l.foldl (fun (b : Option Suspect) e => match b with
    | none => some e
    | some b => if e.count < b.count ∨ (e.count = b.count ∧ e.since < b.since) then some e else some b) none
  let next :=
    if l.any (fun e => decide (e.unit = u)) then
      l.map (fun e => if e.unit = u then { e with count := e.count + 1, inPass := e.inPass + 1 } else e)
    else
      (if l.length < 4096 then l else match worst with
        | none => l
        | some w => l.filter (fun e => decide (e.unit ≠ w.unit))) ++ [{ unit := u, count := 1, since := s.now }]
  let s1 := { s with igr := { s.igr with suspects := next } }
  if double ∨ s.field 0x0E0 0x140 4 4 ≤ seen then s1.reported u else s1

/-- A correction in a cluster store is counted by its cluster (R345). -/
def State.storeCorrected (s : State) (row cluster : Nat) : State :=
  let k := 64 * row + cluster
  { s with igr := { s.igr with storeCe := sset 0 s.igr.storeCe k (sget 0 s.igr.storeCe k + 1) } }

/-! ### What the cooper reports -/

/-- A repair action is done: REPAIR and its count (EVT_CNT4 of page 0x0E0). -/
def State.repaired (s : State) : State := (s.count 0x0E0 4).err 0x0E0 10

/-- A kind of spare is used up (R345). -/
def State.spareLow (s : State) : State := s.err 0x0E0 11

/-- Count a spare brought in. -/
def State.useSpare (s : State) (kind : Nat) : State :=
  { s with igr := { s.igr with sparesUsed := sset 0 s.igr.sparesUsed kind (sget 0 s.igr.sparesUsed kind + 1) } }

/-! ### Places of the on-die stores (R302, R303) -/

/-- A place in an on-die store: store 0 cluster, 1 row, 2 shared memory, 3 core local memory, as STORE of STO_BANK_SEL; its instance; and the byte offset in it. -/
structure Spot where
  store : Nat
  inst : Nat
  off : Nat
deriving DecidableEq, Repr, Inhabited

/-- Bytes of an instance of a store (R302). -/
def storeBytes (store : Nat) : Nat :=
  match store with | 0 => 2 ^ 21 | 1 => 2 ^ 25 | 2 => 2 ^ 24 | _ => 2 ^ 18

/-- An instance of a store that exists. -/
def storeInst (store inst : Nat) : Bool :=
  match store with
  | 0 => decide (inst / 64 < 16 ∧ inst % 64 < 34)
  | 1 => decide (inst < 16)
  | 2 => decide (inst = 0)
  | 3 => decide (inst < 18)
  | _ => false

/-- Banks of an instance of a store (R302). -/
def storeBanks (store : Nat) : Nat := match store with | 0 => 32 | 1 => 64 | 2 => 64 | _ => 8

/-- First byte of the secure partition within shared memory (R302). -/
def secureAt : Nat := 0xC00000

/-- The secure partition holds a place. -/
def Spot.secure (x : Spot) : Bool := decide (x.store = 2 ∧ secureAt ≤ x.off)

/-- Bank and word within the bank of a byte offset of a store (R303). -/
def bankWord (store o : Nat) : Nat × Nat :=
  let w := o / 8
  let l := o / 64
  match store with
  | 0 => (w % 32, w / 32)
  | 1 => (l % 64, l / 64 * 8 + w % 8)
  | 2 =>
    if o < secureAt then (l % 48, l / 48 * 8 + w % 8)
    else
      let w' := (o - secureAt) / 8
      let l' := (o - secureAt) / 64
      (48 + l' % 16, l' / 16 * 8 + w' % 8)
  | _ => (w % 8, w / 8)

/-- Address of a place in its store's memory. -/
def Spot.addr (x : Spot) : Nat := storeBytes x.store * x.inst + x.off

/-- Key of the 8-byte word of a place. -/
def Spot.word (x : Spot) : Nat := 2 ^ 36 * x.store + x.addr / 8

/-- Key of the bank of a place. -/
def Spot.bankKey (x : Spot) : Nat := 2 ^ 20 * x.store + 64 * x.inst + (bankWord x.store x.off).1

/-! ### Collisions (R310, R311) -/

/-- The requesters of a store's banks (R306): those of port A, which the lane array, the cluster distribution, the control cores and the owning core are; and of port B the transfer from the row store, the vat path or another control core, the mesh, the wipe engine, the trust core, patrol scrub and the march test engine. -/
inductive BankUser where
  | portA | transfer | mesh | wipe | trust | scrub | march
deriving DecidableEq, Repr, Inhabited

/-- The number of a requester among those of a store, lower numbers first (R306). -/
def BankUser.number (store : Nat) : BankUser → Nat
  | .portA => 0
  | .transfer => 1
  | .wipe => 1
  | .mesh => 2
  | .trust => 2
  | .scrub => if store = 1 ∨ store = 2 then 3 else 2
  | .march => if store = 1 ∨ store = 2 then 4 else 3

/-- One more in a 32-bit count that saturates. -/
def satCount (m : Sparse Nat) (k : Nat) : Sparse Nat := sset 0 m k (min (2 ^ 32 - 1) (sget 0 m k + 1))

/-- A collision, which port A wins: counted at its bank, and shown in STO_COLL_LAST and STO_COLL_TIME (R310, R311). loserCore is the physical core of a losing control core. -/
def State.collide (s : State) (x : Spot) (loser : BankUser) (loserCore : Nat) : State :=
  let (bank, word) := bankWord x.store x.off
  let v := x.store + x.inst * 2 ^ 2 + bank * 2 ^ 12 + word * 2 ^ 18 + BankUser.portA.number x.store * 2 ^ 34 + loser.number x.store * 2 ^ 38 + loserCore * 2 ^ 42
  let s1 := { s with sto := { s.sto with coll := satCount s.sto.coll x.bankKey } }
  ((s1.setWord64 0x0D0 0x120 v).setWord64 0x0D0 0x128 s.now).errCount 0x0D0 8 0

end Sys2Proof.Machine
end

