-- ==== Sys2Proof/Machine/Regions.lean ====
section
/-! DEFINITION. The region table (R26 to R42): the 64-byte entry, lookup, the rights check with its five reasons, the record of a refusal, and the checks of a written entry. -/

namespace Sys2Proof.Machine

/-- The range size in bytes (R26). -/
def State.rangeGib (s : State) : Nat := s.field 0x012 0x100 0 15
def State.rangeBytes (s : State) : Nat := gib * s.rangeGib

/-- A region table entry. -/
def State.region (s : State) (i : Nat) : Region := sget {} s.rgn.entries i

/-- Set a region table entry. -/
def State.setRegion (s : State) (i : Nat) (r : Region) : State :=
  { s with rgn := { s.rgn with entries := sset {} s.rgn.entries i r } }

/-- An address lies in a region. -/
def Region.holds (r : Region) (a : Nat) : Bool := r.valid && decide (r.base ≤ a) && decide (a < r.base + r.size)

/-- The region that holds an address, with its index. -/
def State.findRegion (s : State) (a : Nat) : Option (Nat × Region) := s.rgn.entries.find? (fun e => e.2.holds a)

/-- Two runs of addresses overlap. -/
def runsMeet (b1 n1 b2 n2 : Nat) : Bool := decide (b1 < b2 + n2) && decide (b2 < b1 + n1)

/-! ### The entry as 64 bytes -/

/-- The eight 64-bit words of an entry (R33). -/
def Region.words (r : Region) : List Nat :=
  [ (if r.valid then 1 else 0) + r.kind * 2 ^ 1 + r.cls * 2 ^ 4 + r.readMask.toNat * 2 ^ 8 + r.writeMask.toNat * 2 ^ 16
      + r.policy * 2 ^ 24 + r.hint * 2 ^ 28 + r.gen * 2 ^ 32,
    r.base, r.size, r.leaseEnd, r.edition + r.editionPort * 2 ^ 32, r.curTable, 0, r.tag ]

/-- An entry read from eight 64-bit words (R33). -/
def Region.ofWords (w : List Nat) : Region :=
  let q0 := w.getD 0 0
  let q4 := w.getD 4 0
  { valid := q0.testBit 0, kind := bits q0 1 3, cls := bits q0 4 2, readMask := BitVec.ofNat 6 (bits q0 8 6),
    writeMask := BitVec.ofNat 6 (bits q0 16 6), policy := bits q0 24 4, hint := bits q0 28 4, gen := bits q0 32 16,
    base := w.getD 1 0, size := w.getD 2 0, leaseEnd := w.getD 3 0, edition := bits q4 0 32, editionPort := bits q4 32 3,
    curTable := bits (w.getD 5 0) 0 12, tag := bits (w.getD 7 0) 0 32 }

/-- A written entry has a reserved bit set or a reserved value (R7, R34). -/
def entryReserved (w : List Nat) : Bool :=
  let q0 := w.getD 0 0
  let r := Region.ofWords w
  decide (bits q0 6 2 ≠ 0) || decide (bits q0 14 2 ≠ 0) || decide (bits q0 22 2 ≠ 0) || decide (bits q0 48 16 ≠ 0)
    || decide (bits (w.getD 4 0) 35 29 ≠ 0) || decide (bits (w.getD 5 0) 12 52 ≠ 0) || decide (w.getD 6 0 ≠ 0)
    || decide (bits (w.getD 7 0) 32 32 ≠ 0) || decide (3 < r.kind) || decide (4 < r.policy) || decide (4 < r.hint)

/-- The 64 bytes a requester has staged in RGN_ENTRY_DATA0 to 15, as eight 64-bit words (R35, R409). -/
def State.entryData (s : State) (req : Requester) : List Nat :=
  (List.range 8).map (fun i => s.sel req 0x012 (0x140 + 8 * i) + 2 ^ 32 * s.sel req 0x012 (0x144 + 8 * i))

/-! ### Rights -/

/-- Who acts: a port, or 7 for a control core or an internal engine with rights in every region (R30). -/
abbrev Actor := Nat
def internal : Actor := 7

/-- The reason an access is refused, if it is: 4, 0, 3, then 1 or 2 (R42). hdmH says that it came through an HDM-H decoder, or without BI Enable (R29, R241). -/
def State.refusal (s : State) (actor : Actor) (write hdmH : Bool) (a : Nat) : Option Nat :=
  if s.rangeBytes ≤ a then some 4
  else match s.findRegion a with
    | none => some 0
    | some (_, r) =>
      if hdmH && decide (r.kind = 1) then some 3
      else if actor = internal then none
      else if write then (if r.writeMask.getLsbD actor then none else some 2)
      else (if r.readMask.getLsbD actor then none else some 1)

/-- Record, count and signal a refusal (R42). -/
def State.recordRefusal (s : State) (actor : Actor) (write : Bool) (a reason : Nat) : State :=
  let s1 := s.setWord64 0x012 0x180 a
  let s2 := s1.setWord 0x012 0x188 (actor + (if write then 2 ^ 3 else 0) + reason * 2 ^ 4)
  if reason = 0 ∨ reason = 4 then (s2.count 0x012 1).err 0x012 9 else (s2.count 0x012 0).err 0x012 8

/-- A region's traffic class, for an address; 1 outside every region. -/
def State.classOf (s : State) (a : Nat) : Nat := match s.findRegion a with | some (_, r) => r.cls | none => 1

/-! ### Totals -/

/-- Total SIZE of vat-pinned regions, in MiB (RGN_PIN_USED). -/
def State.pinMib (s : State) : Nat :=
  ((s.rgn.entries.filter (fun e => e.2.valid && decide (e.2.policy = 1))).map (fun e => e.2.size / 2 ^ 20)).sum

/-- Valid regions, and regions still being freed (RGN_COUNT). -/
def State.validRegions (s : State) : Nat := (s.rgn.entries.filter (fun e => e.2.valid)).length
def State.freeingRegions (s : State) : Nat := s.rgn.freeing.length

/-! ### The checks of a written entry -/

/-- The masks break R31. -/
def State.masksBad (s : State) (r : Region) : Bool :=
  decide (r.writeMask &&& ~~~r.readMask ≠ 0#6)
    || (decide (r.kind = 0) && decide ((((List.range 6).filter (fun p => r.readMask.getLsbD p)).length) ≠ 1))
    || (decide (r.kind = 3) && decide (r.writeMask &&& ~~~(BitVec.ofNat 6 (s.field 0x012 0x104 0 6)) ≠ 0#6))

/-- BASE or SIZE is misaligned or zero, BASE is not below 2^44, or the region ends beyond the range. -/
def State.rangeBad (s : State) (r : Region) : Bool :=
  decide (r.base % 2 ^ 21 ≠ 0) || decide (r.size % 2 ^ 21 ≠ 0) || decide (r.size = 0) || decide (2 ^ 44 ≤ r.base)
    || decide (s.rangeBytes < r.base + r.size)

/-- The pinned total with entry i as r would exceed LIMIT_GIB. -/
def State.pinBad (s : State) (i : Nat) (r : Region) : Bool :=
  let old := s.region i
  let without := s.pinMib - (if old.valid && decide (old.policy = 1) then old.size / 2 ^ 20 else 0)
  decide (r.policy = 1) && decide (s.field 0x012 0x108 0 8 * 1024 < without + r.size / 2 ^ 20)

/-- RESULT of a write of the words w to entry i (R36); where several apply, the first of RESERVED, IMMUTABLE, RANGE, RIGHTS, OVERLAP, FREEING, PIN_LIMIT (DESIGN CHOICE, log entry 21). -/
def State.entryResult (s : State) (i : Nat) (w : List Nat) : Nat :=
  let r := Region.ofWords w
  let old := s.region i
  if entryReserved w || (r.valid && !old.valid && decide (r.kind ≠ 2) && decide (r.edition ≠ 0)) then 4
  else if !r.valid && !old.valid then 0
  else if old.valid && (!r.valid || decide (r.base ≠ old.base) || decide (r.size ≠ old.size) || decide (r.kind ≠ old.kind)) then 6
  else if s.rangeBad r then 2
  else if s.masksBad r then 3
  else if s.rgn.entries.any (fun e => decide (e.1 ≠ i) && e.2.valid && runsMeet e.2.base e.2.size r.base r.size) then 1
  else if s.rgn.freeing.any (fun f => runsMeet f.base f.size r.base r.size) then 8
  else if s.pinBad i r then 5
  else 0

/-- The entry that an accepted write leaves (R36, R40). -/
def mergedEntry (old r : Region) : Region :=
  let gen := (old.gen + 1) % 65536
  if !r.valid then { r with gen := gen, editionPort := old.editionPort, curTable := old.curTable }
  else if old.valid then { r with gen := gen, edition := old.edition, editionPort := old.editionPort, curTable := old.curTable }
  else { r with gen := gen, editionPort := 7, curTable := 0 }

/-- RGN_OP_STATUS of a finished operation, and the counts of accepted and rejected ones. -/
def State.opDone (s : State) (i result : Nat) : State :=
  (s.setWord 0x012 0x118 (result * 2 ^ 4 + i * 2 ^ 8)).count 0x012 (if result = 0 then 3 else 4)

end Sys2Proof.Machine
end

