-- ==== Sys2Proof/Machine/Tiers.lean ====
section
/-! DEFINITION. Homes of tiles (R43 to R61): tier-map and cask-map entries, vat slots and cellar sectors and their allocation, capacity and usage (R76, R77), heat (R62, R64), the acceptance of moves (R67), and single lines of vat slots. -/

namespace Sys2Proof.Machine

/-! ### Numbers -/

/-- Slots of the vat, of the emergency reserve, sectors that hold casks in a package, and first sector and size of the relocation area, which ends at the last data-capable sector of the package (R47, R54, R58, log entry 44). -/
def vatSlots : Nat := 33554432
def emergencySlots : Nat := 65536
def caskSectors : Nat := 894784800
def relocFirst : Nat := 894784800 + 1814528
def relocSectors : Nat := 57837792

/-- Tile, line in the tile, and cask of a unified address (R43). -/
def tileOf (a : Nat) : Nat := a / 16384
def lineOf (a : Nat) : Nat := a % 16384 / 64
def caskOf (a : Nat) : Nat := a / 4096

/-- Slots of the map reserve (R47). -/
def State.mapSlots (s : State) : Nat := 160 * s.rangeGib

/-- Packages fitted by the ordering code (R1). -/
def Order.packages : Order → Nat | .l3072 => 48 | .l1536 => 24

/-- A package is fitted, out of start-up and not retired; and takes new casks (R59, R349, R392). -/
def State.packageCounts (s : State) (k : Nat) : Bool :=
  decide (k < s.order.packages) && s.mem.packageIn.getLsbD k && !(s.mem.retired.getLsbD k)
def State.packageTakes (s : State) (k : Nat) : Bool := s.packageCounts k && !(s.mem.evacuating.getLsbD k)

/-! ### Tier map and cask map -/

/-- The tier-map entry of a tile (R51) and the cask-map entry of a cask (R52). -/
def State.tmap (s : State) (t : Nat) : Nat := (sget 0#64 s.mem.tierMap t).toNat
def State.cmap (s : State) (k : Nat) : Nat := (sget 0#64 s.mem.caskMap k).toNat

/-- Entries the racking engine's caches hold (R49). -/
def tmapWays : Nat := 131072
def cmapWays : Nat := 262144

/-- Slot and line of the map reserve in which the entry of a tile, or of a cask, lies (R47). -/
def State.tmapPlace (_ : State) (t : Nat) : Nat × Nat := (8 * t / 16384, 8 * t % 16384 / 64)
def State.cmapPlace (s : State) (k : Nat) : Nat × Nat := (32 * s.rangeGib + 8 * k / 16384, 8 * k % 16384 / 64)

/-- A full cache of map entries gives up one, whose choice R49 leaves open (a free value, log entry 8); a changed one is written back in class 3. place says where an entry lies. The new cache and the state. -/
def State.cacheRoom (s : State) (cache : Sparse Nat) (ways : Nat) (place : Nat → Nat × Nat) : Sparse Nat × State :=
  if cache.length < ways then (cache, s)
  else
    let (d, s1) := s.draw
    match cache[Config.freePlace d % cache.length]? with
    | none => (cache, s1)
    | some (k, v) => (sdel cache k, if v = 2 then s1.dramVat (place k).1 (place k).2 true background else s1)

/-- A map entry is looked up: where the cache does not hold it, it is read from the map reserve in the class of the request it is read for (R20, R49). -/
def State.lookTile (s : State) (t : Nat) (w : Traffic) : State :=
  if sget 0 s.mem.tmapCache t ≠ 0 then s
  else
    let (c, s1) := (s.dramVat (s.tmapPlace t).1 (s.tmapPlace t).2 false w).cacheRoom s.mem.tmapCache tmapWays s.tmapPlace
    { s1 with mem := { s1.mem with tmapCache := sset 0 c t 1 } }
def State.lookCask (s : State) (k : Nat) (w : Traffic) : State :=
  if sget 0 s.mem.cmapCache k ≠ 0 then s
  else
    let (c, s1) := (s.dramVat (s.cmapPlace k).1 (s.cmapPlace k).2 false w).cacheRoom s.mem.cmapCache cmapWays s.cmapPlace
    { s1 with mem := { s1.mem with cmapCache := sset 0 c k 1 } }

/-- Write a map entry that has been looked up in the cache: every later lookup sees it, and the cache owes the vat its write-back (R49). -/
def State.putTmap (s : State) (t v : Nat) : State :=
  let u := s.lookTile t background
  { u with mem := { u.mem with tierMap := sset 0#64 s.mem.tierMap t (BitVec.ofNat 64 v), tmapCache := sset 0 u.mem.tmapCache t 2 } }
def State.putCmap (s : State) (k v : Nat) : State :=
  let u := s.lookCask k background
  { u with mem := { u.mem with caskMap := sset 0#64 s.mem.caskMap k (BitVec.ofNat 64 v), cmapCache := sset 0 u.mem.cmapCache k 2 } }

/-- Fields of a tier-map entry (R51). -/
def State.home (s : State) (t : Nat) : Nat := bits (s.tmap t) 0 3
def State.moving (s : State) (t : Nat) : Bool := (s.tmap t).testBit 3
def State.hold (s : State) (t : Nat) : Bool := (s.tmap t).testBit 4
def State.heat (s : State) (t : Nat) : Nat := bits (s.tmap t) 8 8
def State.stamp (s : State) (t : Nat) : Nat := bits (s.tmap t) 16 8
def State.loc (s : State) (t : Nat) : Nat := bits (s.tmap t) 24 32

/-- A cask-map entry of a tile in the cellar (R52). -/
structure CaskEntry where
  sector : Nat := 0
  package : Nat := 0
  length : Nat := 0
  method : Nat := 0
  table : Nat := 0
  poisonAny : Bool := false
  quarantined : Bool := false
  stale : Bool := false
deriving DecidableEq, Repr, Inhabited

/-- Read a cask-map entry (R52). -/
def CaskEntry.ofNat (v : Nat) : CaskEntry :=
  { sector := bits v 0 30, package := bits v 30 6, length := bits v 36 7, method := bits v 43 3, table := bits v 46 12,
    poisonAny := v.testBit 58, quarantined := v.testBit 59, stale := v.testBit 60 }

/-- Assemble a cask-map entry (R52). -/
def CaskEntry.toNat (e : CaskEntry) : Nat :=
  e.sector + e.package * 2 ^ 30 + e.length * 2 ^ 36 + e.method * 2 ^ 43 + e.table * 2 ^ 46
    + (if e.poisonAny then 2 ^ 58 else 0) + (if e.quarantined then 2 ^ 59 else 0) + (if e.stale then 2 ^ 60 else 0)

/-- The entry of cask k. -/
def State.cask (s : State) (k : Nat) : CaskEntry := CaskEntry.ofNat (s.cmap k)

/-! ### Vat slots -/

/-- What a slot is held for. -/
def State.useOf (s : State) (slot : Nat) : SlotUse := sget .free s.mem.slotUse slot
def State.setUse (s : State) (slot : Nat) (u : SlotUse) : State :=
  { s with mem := { s.mem with slotUse := sset .free s.mem.slotUse slot u } }

/-- Slots held for a use. -/
def State.slotCount (s : State) (u : SlotUse) : Nat := (s.mem.slotUse.filter (fun e => decide (e.2 = u))).length

/-- Slots of the pin reservation (R54). -/
def State.pinSlots (s : State) : Nat := s.pinMib * 64

/-- Free slots of the tile pool (R54), and of the emergency reserve. -/
def State.poolFree (s : State) : Nat :=
  vatSlots - emergencySlots - s.mapSlots - s.pinSlots - s.slotCount .window - s.slotCount .tile - s.slotCount .draft
def State.emergencyFree (s : State) : Nat := emergencySlots - s.slotCount .emergency

/-- The first place at or after k, cyclically below n, that is ok; fuel counts the places looked at. -/
def firstFrom (ok : Nat → Bool) (n : Nat) : Nat → Nat → Option Nat
  | 0, _ => none
  | fuel + 1, k => if ok k then some k else firstFrom ok n fuel (if k + 1 < n then k + 1 else 0)

/-- A slot that may be taken: free, above the map reserve, in a stack that takes new slots (R47, R350). -/
def State.slotOpen (s : State) (slot : Nat) : Bool :=
  decide (s.mapSlots ≤ slot) && decide (s.useOf slot = .free) && !(s.mem.stackOut.getLsbD (slot % 16))

/-- How many slots are looked at for an open one: enough that one of them is open wherever any is, since each used slot and each stack taken out hides few of its neighbours. -/
def State.slotSearch (s : State) : Nat := s.mapSlots + 16 * (4 + s.mem.slotUse.length)

/-- Take a slot for a use: which free slot is the Izxaca's choice, a free value (log entry 8). Its bytes read as zero and it carries no poison. -/
def State.takeSlot (s : State) (u : SlotUse) : Option (Nat × State) :=
  let (d, s1) := s.draw
  match firstFrom s.slotOpen vatSlots s.slotSearch (Config.freePlace d % vatSlots) with
  | none => none
  | some slot =>
    some (slot, { (s1.setUse slot u) with mem := { (s1.setUse slot u).mem with
      vat := Memory.clear s1.mem.vat (16384 * slot) 16384
      vatPoison := s1.mem.vatPoison.filter (fun e => decide (e.1 / 256 ≠ slot)) } })

/-- Take a slot of the tile pool, or of the emergency reserve, where one is free. -/
def State.takePool (s : State) (u : SlotUse) : Option (Nat × State) := if s.poolFree = 0 then none else s.takeSlot u
def State.takeEmergency (s : State) : Option (Nat × State) := if s.emergencyFree = 0 then none else (s.takeSlot .emergency).map (fun x => (x.1, x.2.count 0x019 5))

/-- Free a slot. -/
def State.freeSlot (s : State) (slot : Nat) : State := s.setUse slot .free

/-! ### Lines of a slot -/

/-- All 64 byte enables. -/
def fullBe : BitVec 64 := BitVec.allOnes 64

/-- The 64 bytes of a line of a slot, and its poison mark; a poisoned line holds no data (R335). -/
def State.vatLine (s : State) (slot line : Nat) : List Byte × Bool :=
  if sget false s.mem.vatPoison (256 * slot + line) then (List.replicate 64 0#8, true)
  else (Memory.bytes s.mem.vat (16384 * slot + 64 * line) 64, false)

/-- The enabled bytes of new over old. -/
def mergeLine (old new : List Byte) (be : BitVec 64) : List Byte :=
  (List.range 64).map (fun i => if be.getLsbD i then new.getD i 0#8 else old.getD i 0#8)

/-- What a write leaves of a line (R79, R243): poison poisons the whole line, a full-line write clears poison, a partial write to a poisoned line leaves it poisoned. -/
def writeOver (old : List Byte × Bool) (new : List Byte) (be : BitVec 64) (poison : Bool) : List Byte × Bool :=
  if poison then (List.replicate 64 0#8, true)
  else if be = fullBe then (mergeLine old.1 new be, false)
  else if old.2 then old
  else (mergeLine old.1 new be, false)

/-- Put a line into a slot. -/
def State.putVatLine (s : State) (slot line : Nat) (v : List Byte × Bool) : State :=
  { s with mem := { s.mem with
      vat := Memory.store s.mem.vat (16384 * slot + 64 * line) (v.1.take 64)
      vatPoison := sset false s.mem.vatPoison (256 * slot + line) v.2 } }

/-- Write a line of a slot. -/
def State.writeVat (s : State) (slot line : Nat) (new : List Byte) (be : BitVec 64) (poison : Bool) : State :=
  s.putVatLine slot line (writeOver (s.vatLine slot line) new be poison)

/-- Put a whole tile into a slot: its bytes by offset, and its poison. -/
def State.putTile (s : State) (slot : Nat) (buf : Memory) (poison : BitVec 256) : State :=
  (List.range 256).foldl (fun t i =>
    t.putVatLine slot i (if poison.getLsbD i then List.replicate 64 0#8 else Memory.bytes buf (64 * i) 64, poison.getLsbD i)) s

/-! ### Cellar sectors -/

/-- Key of a sector. -/
def sectorKey (package sector : Nat) : Nat := 2 ^ 30 * package + sector

/-- n sectors from x of a package are free and not withheld (R58). -/
def State.runFree (s : State) (package x n : Nat) : Bool :=
  (List.range n).all (fun i => !(sget false s.mem.sectorUse (sectorKey package (x + i))) && !(sget false s.mem.withheld (sectorKey package (x + i))))

/-- Mark n sectors from x allocated or free. -/
def State.markSectors (s : State) (package x n : Nat) (b : Bool) : State :=
  { s with mem := { s.mem with
      sectorUse := (List.range n).foldl (fun m i => sset false m (sectorKey package (x + i)) b) s.mem.sectorUse } }

/-- n contiguous free sectors of a package from the range [lo, lo + size): which run is the Izxaca's choice, a free value (log entry 8). -/
def State.findRun (s : State) (package lo size n : Nat) : Option Nat × State :=
  let (d, s1) := s.draw
  if size < n ∨ size = 0 then (none, s1)
  else
    let m := size - n + 1
    ((firstFrom (fun k => s.runFree package (lo + k) n) m (1 + n * (s.mem.sectorUse.length + s.mem.withheld.length)) (Config.freePlace d % m)).map (fun k => lo + k), s1)

/-- Store bytes in the sectors of a package from x; the codewords written are whole again. -/
def State.putSectors (s : State) (package x : Nat) (l : List Byte) : State :=
  let n := (l.length + 63) / 64
  { s with mem := { s.mem with
      cellar := Memory.store (Memory.clear s.mem.cellar (64 * sectorKey package x) (64 * n)) (64 * sectorKey package x) l
      cellarBad := s.mem.cellarBad.filter (fun e => !(decide (sectorKey package x ≤ e.1) && decide (e.1 < sectorKey package x + n))) } }

/-- The bytes of n sectors of a package from x, and whether one has an uncorrectable error (R338). -/
def State.getSectors (s : State) (package x n : Nat) : List Byte × Bool :=
  (Memory.bytes s.mem.cellar (64 * sectorKey package x) (64 * n),
   (List.range n).any (fun i => sget false s.mem.cellarBad (sectorKey package (x + i))))

/-- The package of the k-th choice for cask c of tile t in region g (R59). -/
def State.columnPackage (s : State) (t c g k : Nat) : Nat := 4 * ((t + g + k) % (s.order.packages / 4)) + c

/-- Find room for n sectors of cask c of tile t in region g: the first package in R59's order that takes casks and has a run (R59, R61). -/
def State.findColumn (s : State) (t c g n : Nat) : Option (Nat × Nat) × State :=
  (List.range (s.order.packages / 4)).foldl (fun acc k =>
    match acc.1 with
    | some _ => acc
    | none =>
      let pkg := s.columnPackage t c g k
      if acc.2.packageTakes pkg then
        let (r, s1) := acc.2.findRun pkg 0 caskSectors n
        (r.map (fun x => (pkg, x)), s1)
      else acc) (none, s)

/-- Allocate n sectors for a cask (R59). -/
def State.takeSectors (s : State) (t c g n : Nat) : Option (Nat × Nat × State) :=
  match s.findColumn t c g n with
  | (some (p, x), s1) => some (p, x, s1.markSectors p x n true)
  | (none, _) => none

/-! ### Map entries and their errors -/

/-- A vat channel is out of service: every line of it reads as poisoned (R350). -/
def State.lineOut (s : State) (slot line : Nat) : Bool :=
  let (st, c, _, _, _) := vatPlace slot (64 * line)
  sget false s.mem.channelOut (64 * st + c)

/-- The move of a tile that is in flight (R67). -/
def State.moveOf (s : State) (t : Nat) : Option Move := s.rck.moves.find? (fun m => decide (m.tile = t))

/-- The open assembly buffer of a cask (R105). -/
def State.bufOf (s : State) (k : Nat) : Option AsmBuf := s.prs.bufs.find? (fun b => decide (b.cask = k))

/-- FLUSHING of a press clears once no buffer of its FLUSH is left (R106). -/
def State.flushCheck (s : State) (p : Nat) : State :=
  if s.prs.bufs.any (fun b => b.flush && decide ((s.cask b.cask).package = p)) then s
  else { s with prs := { s.prs with flushing := s.prs.flushing &&& ~~~(BitVec.ofNat 48 (2 ^ p)) } }

/-- FLUSHING clears at each press whose flushed buffers are gone (R106). -/
def State.flushChecks (s : State) : State :=
  ((List.range 48).filter (fun p => s.prs.flushing.getLsbD p)).foldl (fun u p => u.flushCheck p) s

/-- The buffer of a cask is closed: sealed, or without it (R39, R68); a FLUSH that waited for it may be complete (R106). -/
def State.dropBuf (s : State) (k : Nat) : State :=
  ({ s with prs := { s.prs with bufs := s.prs.bufs.filter (fun b => decide (b.cask ≠ k)) } }).flushChecks

/-- Invalidate the cache entry of a cask (R104). -/
def State.cacheDrop (s : State) (k : Nat) : State :=
  { s with prs := { s.prs with cache := s.prs.cache.filter (fun e => decide (e.cask ≠ k)) } }

/-- Free the destination of a move (R67). -/
def State.freeDest (s : State) (m : Move) : State :=
  match m.dest with
  | .none => s
  | .slot x => s.freeSlot x
  | .casks places => places.foldl (fun u p => u.markSectors p.1 p.2 65 false) s
  | .window _ _ => s

/-- The reads of a move that are outstanding bring their data to nobody (R67, R278). -/
def State.dropReads (s : State) (t : Nat) : State :=
  let mine (g : Tag) : Bool := match g.consumer with | .move u _ => decide (u = t) | _ => false
  { s with ports := s.ports.map (fun x => { x with tags := x.tags.map (fun g => if mine g then { g with consumer := .gone } else g) }) }

/-- End the move of a tile without committing it: its destination is freed and MOVING clears (R67). -/
def State.dropMove (s : State) (t : Nat) : State :=
  match s.moveOf t with
  | none => s
  | some m =>
    let s1 := (s.freeDest m).putTmap t (setBits (s.tmap t) 3 1 0)
    ({ s1 with rck := { s1.rck with moves := s1.rck.moves.filter (fun x => decide (x.tile ≠ t)) } }).dropReads t

/-- A tile's map entry is lost (R50): HOME 4, and zero in its cask-map entries (R53); its address is recorded and MAP_UNCORR set. What backed it stays allocated, and counted in U: window space too; a slot of the pin reservation, which holds no tile any more, as one of the pool (R54, R76). A move of it ends. -/
def State.loseTile (s0 : State) (t : Nat) : State :=
  let s := if s0.home t = 1 ∧ s0.useOf (s0.loc t) = .pin then s0.setUse (s0.loc t) .tile else s0
  let s0 := if s.home t = 3 then { s with mem := { s.mem with lostHost := s.mem.lostHost ++ [s.loc t] } } else s
  let s1 := [0, 1, 2, 3].foldl (fun (u : State) c => ((u.dropBuf (4 * t + c)).cacheDrop (4 * t + c)).putCmap (4 * t + c) 0) (s0.dropMove t)
  ((s1.putTmap t 4).setWord64 0x019 0x140 (16384 * t)).err 0x018 13

/-- The tiles that a codeword of the map reserve describes: its two tier-map entries, or the owner of its two cask-map entries (R47, R50). -/
def State.mapTiles (s : State) (slot line q : Nat) : List Nat :=
  let b := 16384 * slot + 64 * line + 16 * q
  let casks := 32 * s.rangeGib * 16384
  if b < casks then [b / 8, b / 8 + 1] else [(b - casks) / 32]

/-- The bytes of a line of the map reserve: eight entries of the tier map, or behind it of the cask map (R47). -/
def State.reserveLine (s : State) (slot line : Nat) : List Byte :=
  let n := (16384 * slot + 64 * line) / 8
  let casks := 32 * s.rangeGib * 16384 / 8
  (List.range 8).flatMap (fun i => leBytes 8 (if n + i < casks then s.tmap (n + i) else s.cmap (n + i - casks)))

/-- A codeword of the map reserve is read with wrong bits in its cells (R50, R333): a correction feeds the stack's bucket; one that cannot be corrected loses the tiles it describes. -/
def State.readMap (s : State) (slot line q : Nat) (flips : BitVec 144) (foundBy : Nat) : State :=
  let lose (u : State) : State := (s.mapTiles slot line q).foldl State.loseTile u
  match code128.readUpset (leNat (((s.reserveLine slot line).drop (16 * q)).take 16)) false flips.toNat with
  | .good _ => s
  | .poisoned ce => lose (if ce then s.corrected false [(1, slot % 16)] else s)
  | .corrected _ double => (s.corrected double [(1, slot % 16)]).suspect (vatRowUnit slot line) double
  | .bad => lose (s.recordUe 1 foundBy (16384 * slot + 64 * line + 16 * q))

/-- A codeword of the map reserve in a channel out of service is read: it is poisoned, so the tiles it describes are lost (R50, R350). -/
def State.mapOut (s : State) (place : Nat × Nat) (q : Nat) : State := (s.mapTiles place.1 place.2 q).foldl State.loseTile s

/-- A request looks its tile's map entry up; where that is read from the vat, wrong bits of its cells, or a channel out of service, are met (R49, R50, R350). -/
def State.findTile (s : State) (t : Nat) (w : Traffic) (upset : Upset) : State :=
  let miss := decide (sget 0 s.mem.tmapCache t = 0)
  let s1 := s.lookTile t w
  if miss && s1.lineOut (s1.tmapPlace t).1 (s1.tmapPlace t).2 then s1.mapOut (s1.tmapPlace t) (t % 8 / 2)
  else match upset with
  | .tileMap flips => if miss then s1.readMap (s1.tmapPlace t).1 (s1.tmapPlace t).2 (t % 8 / 2) flips 0 else s1
  | _ => s1

/-- The same of a cask's map entry. -/
def State.findCask (s : State) (k : Nat) (w : Traffic) (upset : Upset) : State :=
  let miss := decide (sget 0 s.mem.cmapCache k = 0)
  let s1 := s.lookCask k w
  if miss && s1.lineOut (s1.cmapPlace k).1 (s1.cmapPlace k).2 then s1.mapOut (s1.cmapPlace k) (k % 8 / 2)
  else match upset with
  | .caskMap flips => if miss then s1.readMap (s1.cmapPlace k).1 (s1.cmapPlace k).2 (k % 8 / 2) flips 0 else s1
  | _ => s1

/-- Write a map entry: one that has to be read for it meets the errors of its place, and is not written where it was lost (R49, R50). -/
def State.setTmap (s : State) (t v : Nat) : State :=
  let u := s.findTile t background .none
  if u.tmap t = s.tmap t then u.putTmap t v else u
def State.setCmap (s : State) (k v : Nat) : State :=
  let u := s.findCask k background .none
  if u.home (k / 4) = s.home (k / 4) then u.putCmap k v else u

/-- Write HOME and LOC in one tier-map update (R67). -/
def State.setHome (s : State) (t home loc : Nat) : State :=
  s.setTmap t (setBits (setBits (s.tmap t) 0 3 home) 24 32 loc)

/-- Write MOVING. -/
def State.setMoving (s : State) (t : Nat) (b : Bool) : State :=
  s.setTmap t (setBits (s.tmap t) 3 1 (if b then 1 else 0))

/-- Write the entry of cask k. -/
def State.setCask (s : State) (k : Nat) (e : CaskEntry) : State := s.setCmap k e.toNat

/-- Zero the four cask-map entries of a tile (R53). -/
def State.clearCasks (s : State) (t : Nat) : State := [0, 1, 2, 3].foldl (fun u c => u.setCmap (4 * t + c) 0) s

/-! ### Capacity and usage -/

/-- D in sectors, and in units of 16 KiB (R76). -/
def State.capSectors (s : State) : Nat :=
  256 * (vatSlots - emergencySlots - s.mapSlots) + caskSectors * ((List.range 48).filter s.packageCounts).length
def State.capUnits (s : State) : Nat := s.capSectors / 256

/-- Cellar sectors that moves hold and that no cask occupies yet (R67, R76). -/
def State.heldSectors (s : State) : Nat :=
  (s.rck.moves.map (fun m => match m.dest with | .casks l => 65 * l.length | _ => 0)).sum

/-- U in sectors, and in units of 16 KiB: slots held by tiles, windows, drafts, moves and the pin reservation, and cellar sectors held by casks (R76, R131). -/
def State.usedSectors (s : State) : Nat :=
  256 * (s.slotCount .tile + s.slotCount .emergency + s.slotCount .window + s.slotCount .draft + s.pinSlots)
    + (s.mem.sectorUse.length - s.heldSectors)
def State.usedUnits (s : State) : Nat := s.usedSectors / 256

/-- U is at or above p percent of D; U is below p percent of D. -/
def State.usageAtLeast (s : State) (p : Nat) : Bool := decide (p * s.capSectors ≤ 100 * s.usedSectors)

/-- Set and clear WM85 and WM95 (R77); each rising edge sets the ERR_STATUS bit. -/
def State.watermarks (s : State) : State :=
  let mark (s : State) (bit up down : Nat) : State :=
    if s.field 0x018 0x11C bit 1 = 0 then
      (if s.usageAtLeast up then (s.setField 0x018 0x11C bit 1 1).err 0x018 (8 + bit) else s)
    else if s.usageAtLeast down then s else s.setField 0x018 0x11C bit 1 0
  mark (mark s 0 85 80) 1 95 90

/-! ### Heat -/

/-- The heat epoch (R62). -/
def State.epoch (s : State) : Nat := s.now / (1000 * s.field 0x018 0x108 16 16)

/-- The decayed heat of a tile (R62). -/
def State.decayed (s : State) (t : Nat) : Nat :=
  let d := (s.epoch + 256 - s.stamp t) % 256
  if 8 ≤ d then 0 else s.heat t / 2 ^ d

/-- Write HEAT with STAMP the current epoch; a later STAMP clears HOLD (R51). -/
def State.writeHeat (s : State) (t h : Nat) : State :=
  let e := s.epoch % 256
  let v := setBits (setBits (s.tmap t) 8 8 (min 255 h)) 16 8 e
  s.setTmap t (if e = s.stamp t then v else setBits v 4 1 0)

/-! ### Accepting moves -/

/-- Moves in ALLOC to COMMIT (R67). -/
def State.activeMoves (s : State) : Nat := (s.rck.moves.filter (fun m => decide (m.phase ≠ .queued))).length

/-- TIER_POLICY of a tile's region, and the region's index (R34). -/
def State.tileRegion (s : State) (t : Nat) : Option (Nat × Region) := s.findRegion (16384 * t)
def State.tilePolicy (s : State) (t : Nat) : Option Nat := (s.tileRegion t).map (fun e => e.2.policy)

/-- Accept a move of a tile: into ALLOC while fewer than MAX_MOVES are active, else into QUEUED; MOVING is set (R67). It runs under the policy and hint of this moment (R72). -/
def State.acceptMove (s : State) (t : Nat) (kind : MoveKind) : State :=
  if s.moving t then s
  else
    let phase := if s.activeMoves < s.field 0x018 0x114 0 11 then MovePhase.alloc else MovePhase.queued
    let r := ((s.tileRegion t).map (fun e => e.2)).getD {}
    let s1 := s.setMoving t true
    { s1 with rck := { s1.rck with moves := s1.rck.moves ++
        [{ tile := t, kind := kind, phase := phase, allocAt := s.now, policy := r.policy, hint := r.hint }] } }

/-- Change the move of a tile. -/
def State.modMove (s : State) (t : Nat) (f : Move → Move) : State :=
  { s with rck := { s.rck with moves := s.rck.moves.map (fun m => if m.tile = t then f m else m) } }

/-- A demotion or spill of a tile is in flight (R72). -/
def State.leaving (s : State) (t : Nat) : Bool :=
  match s.moveOf t with
  | some m => decide (m.kind = .demotion) || decide (m.kind = .spill)
  | none => false

/-- A promotion of a tile is due (R64): its home is the cellar or the host tier, or a move that would take it there runs (R72). MOVE_EN speaks of heat-driven promotions; those of TIER_POLICY 4, which any access makes due, it stops here as well (DESIGN CHOICE, log entry 150). -/
def State.promotionDue (s : State) (t : Nat) : Bool :=
  (decide (s.home t = 2) || decide (s.home t = 3) || (decide (s.home t = 1) && s.leaving t)) && decide (s.field 0x018 0x100 0 1 = 1)
    && !(s.hold t && decide (s.stamp t = s.epoch % 256))
    && (match s.tilePolicy t with
        | some 0 => decide (s.field 0x018 0x104 0 8 ≤ s.decayed t)
        | some 3 => decide (s.field 0x018 0x104 0 8 ≤ s.decayed t)
        | some 4 => true
        | _ => false)

/-- The promotion of a tile waits for the move of it that is in flight, and is counted (R72). -/
def State.awaitMove (s : State) (t : Nat) : State :=
  if s.rck.promoteWait.contains t then s
  else ({ s with rck := { s.rck with promoteWait := s.rck.promoteWait ++ [t] } }).count 0x019 1

/-- A counted access may promote its tile (R64); a promotion that meets a demotion or spill of the tile waits for it, one that meets another move starts nothing (R64, R72). -/
def State.promoteIfDue (s : State) (t : Nat) : State :=
  if s.promotionDue t then
    match s.moveOf t with
    | none => s.acceptMove t .promotion
    | some m => if m.kind = .demotion ∨ m.kind = .spill then s.awaitMove t else s
  else s

/-- A counted access adds an increment to the decayed heat of a tile with HOME 1, 2 or 3, saturating at 255, and may promote it (R62, R64). -/
def State.heatAccess (s : State) (t inc : Nat) : State :=
  if s.home t = 1 ∨ s.home t = 2 ∨ s.home t = 3 then
    (s.writeHeat t (min 255 (s.decayed t + inc))).promoteIfDue t
  else s

/-- READ_INC, WRITE_INC, ENGINE_INC (R62). -/
def State.readInc (s : State) : Nat := s.field 0x018 0x108 0 4
def State.writeInc (s : State) : Nat := s.field 0x018 0x108 4 4
def State.engineInc (s : State) : Nat := s.field 0x018 0x108 8 4

/-! ### Victims -/

/-- The better victim of two: the colder, then cellar tiles before vat tiles where that counts, then an order the spec leaves open (a free value, log entry 8). -/
def colder (s : State) (draw : Nat) (cellarFirst : Bool) (a b : Nat) : Bool :=
  if s.decayed a ≠ s.decayed b then decide (s.decayed a < s.decayed b)
  else if cellarFirst ∧ s.home a ≠ s.home b then decide (s.home a = 2)
  else decide (Config.tieRank draw a < Config.tieRank draw b)

/-- Put a tile in its place, coldest first. -/
def insertCold (s : State) (draw : Nat) (cellarFirst : Bool) (t : Nat) : List Nat → List Nat
  | [] => [t]
  | u :: l => if colder s draw cellarFirst t u then t :: u :: l else u :: insertCold s draw cellarFirst t l

/-- Tiles in victim order. -/
def coldOrder (s : State) (draw : Nat) (cellarFirst : Bool) (l : List Nat) : List Nat :=
  l.foldl (fun acc t => insertCold s draw cellarFirst t acc) []

/-- Tiles of the map that satisfy a test. -/
def State.tilesWhere (s : State) (p : Nat → Bool) : List Nat := (s.mem.tierMap.map (fun e => e.1)).filter p

/-- A vat tile of the pool that may be demoted, of the given policies (R65); one that moves is passed over (R72). -/
def State.demotable (s : State) (policies : List Nat) (t : Nat) : Bool :=
  decide (s.home t = 1) && decide (s.useOf (s.loc t) = .tile) && !(s.moving t)
    && decide (s.decayed t ≤ s.field 0x018 0x104 8 8)
    && (match s.tilePolicy t with | some p => policies.contains p | none => false)

/-- The tiles demoted to make room, coldest first (R65): cold ones of policy 0 or 3; cold ones of policy 4 only while the vat holds no tile of policy 0 or 3. -/
def State.demotionVictims (s : State) (draw : Nat) : List Nat :=
  let automatic := s.tilesWhere (fun t => decide (s.home t = 1)
    && (match s.tilePolicy t with | some p => decide (p = 0 ∨ p = 3) | none => false))
  coldOrder s draw false (s.tilesWhere (s.demotable (if automatic = [] then [4] else [0, 3])))

/-- Pool slots that demotions in flight will free. -/
def State.demotionsInFlight (s : State) : Nat :=
  (s.rck.moves.filter (fun m => decide (m.kind = .demotion) && decide (s.useOf (s.loc m.tile) = .tile))).length

/-- Free pool slots below LOW_GIB start demotions, coldest first, and these go on until the free slots reach HIGH_GIB (R65). -/
def State.demoteIfLow (s : State) : State :=
  if s.field 0x018 0x100 0 1 ≠ 1 then s
  else if 65536 * s.field 0x018 0x10C 8 8 ≤ s.poolFree then
    if s.rck.demoting then { s with rck := { s.rck with demoting := false } } else s
  else if s.rck.demoting ∨ s.poolFree < 65536 * s.field 0x018 0x10C 0 8 then
    let (d, s1) := ({ s with rck := { s.rck with demoting := true } }).draw
    let want := 65536 * s1.field 0x018 0x10C 8 8 - s1.poolFree - s1.demotionsInFlight
    ((s1.demotionVictims d).take want).foldl (fun t v => t.acceptMove v .demotion) s1
  else s

/-- A host-tier window is online (R74). -/
def State.windowOnline (s : State) (p : Nat) : Bool := decide (s.field 0x018 (0x14C + 0x10 * p) 1 1 = 1)

/-- Tiles homed in a port's window, and offsets taken by tiles, by lost entries (R50) and by moves (RCK_HOST_USED). -/
def State.hostTiles (s : State) (p : Nat) : List Nat :=
  s.tilesWhere (fun t => decide (s.home t = 3) && decide (bits (s.loc t) 29 3 = p))
def State.windowTaken (s : State) (p : Nat) : List Nat :=
  (s.hostTiles p).map (fun t => bits (s.loc t) 0 29)
    ++ s.mem.lostHost.filterMap (fun x => if bits x 29 3 = p then some (bits x 0 29) else none)
    ++ s.rck.moves.filterMap (fun m => match m.dest with | .window q o => if q = p then some o else none | _ => none)

/-- A window is online and has free space (R78). -/
def State.windowRoom (s : State) (p : Nat) : Bool :=
  s.windowOnline p && decide ((s.windowTaken p).length < s.field 0x018 (0x148 + 0x10 * p) 0 29)

/-- Sectors of storage a tile's home holds. -/
def State.tileSectors (s : State) (t : Nat) : Nat :=
  if s.home t = 1 then 256
  else if s.home t = 2 then ([0, 1, 2, 3].map (fun c => (s.cask (4 * t + c)).length)).sum else 0

/-- A tile of TIER_POLICY 3 in the vat or the cellar, a candidate for a spill (R78). -/
def State.spillable (s : State) (t : Nat) : Bool :=
  (decide (s.home t = 1) || decide (s.home t = 2)) && decide (s.tilePolicy t = some 3)

/-- Spill candidates from the front of a list until U less what they free is at most 90 % of D (R78); a candidate that is moving is passed over, and counted as cancelled where it moves for a promotion (R72). -/
def spillFrom : List Nat → Nat → State → State
  | [], _, s => s
  | t :: l, freed, s =>
    if 100 * (s.usedSectors - freed) ≤ 90 * s.capSectors then s
    else match s.moveOf t with
      | some m => spillFrom l freed (if m.kind = .promotion then s.count 0x019 0 else s)
      | none => spillFrom l (freed + s.tileSectors t) (s.acceptMove t .spill)

/-- Sectors that the spills in flight will free. -/
def State.spillFrees (s : State) : Nat := ((s.rck.moves.filter (fun m => decide (m.kind = .spill))).map (fun m => s.tileSectors m.tile)).sum

/-- While SPILLING is set, spills go on, coldest first and cellar tiles first among equal heat, until U falls to 90 % of D or no candidate remains, which clears it (R78). -/
def State.spillOn (s : State) : State :=
  if s.field 0x018 0x11C 3 1 = 0 then s
  else if 100 * s.usedSectors ≤ 90 * s.capSectors then s.setField 0x018 0x11C 3 1 0
  else
    let (d, s1) := s.draw
    let s2 := if (List.range 6).any s1.windowRoom ∧ s1.field 0x018 0x100 1 1 = 1 then
      spillFrom (coldOrder s1 d true (s1.tilesWhere s1.spillable)) s1.spillFrees s1 else s1
    if s2.rck.moves.any (fun m => decide (m.kind = .spill)) then s2 else s2.setField 0x018 0x11C 3 1 0

/-- Exhaustion, step 1 (R78): EXHAUSTED, and spills where a window has room and SPILL_EN is set. -/
def State.exhausted (s : State) : State :=
  let s1 := (s.setField 0x018 0x11C 2 1 1).err 0x018 10
  if (List.range 6).any s1.windowRoom ∧ s1.field 0x018 0x100 1 1 = 1 then (s1.setField 0x018 0x11C 3 1 1).spillOn else s1

/-- Push a dropped tile into the 16-entry exhaustion log (R78). -/
def State.pushExh (s : State) (t : Nat) (sealed : Bool) : State :=
  if s.rck.exhLog.length < 16 then { s with rck := { s.rck with exhLog := s.rck.exhLog ++ [(t, sealed)] } }
  else ({ s with rck := { s.rck with exhOvf := min 255 (s.rck.exhOvf + 1) } }).err 0x019 8

/-- Most sectors a recall takes: 65 for each of four casks (R58). -/
def recallSectors : Nat := 260

/-- Recalls from the front of a list while U, with what the recalls in flight will take, stays below 80 % of D (R80). -/
def recallFrom : List Nat → Nat → State → State
  | [], _, s => s
  | t :: l, planned, s =>
    if 80 * s.capSectors ≤ 100 * (s.usedSectors + planned) then s
    else recallFrom l (planned + recallSectors) (s.acceptMove t .recall)

/-- While U stays below 80 % of D and EXHAUSTED is clear, host-tier tiles are recalled, warmest first (R80). -/
def State.recallTiles (s : State) : State :=
  if s.usageAtLeast 80 ∨ s.field 0x018 0x11C 2 1 = 1 ∨ s.field 0x018 0x100 1 1 = 0 then s
  else
    let tiles := s.tilesWhere (fun t => decide (s.home t = 3) && !(s.moving t) && s.windowOnline (bits (s.loc t) 29 3))
    if tiles = [] then s
    else
      let (d, s1) := s.draw
      recallFrom (coldOrder s1 d false tiles).reverse
        (recallSectors * (s1.rck.moves.filter (fun m => decide (m.kind = .recall) && decide (m.dest = .none))).length) s1

/-- After usage or capacity changed (R65, R77, R78, R80): watermarks; below 95 % the emergency reserve's tiles are demoted; EXHAUSTED and RESERVE_EMPTY clear once the reserve is whole; spills, recalls and demotions go on as far as their rules want them. -/
def State.settleUsage (s : State) : State :=
  let s1 := s.watermarks
  let s2 := if s1.usageAtLeast 95 then s1
    else (s1.tilesWhere (fun t => decide (s1.home t = 1) && decide (s1.useOf (s1.loc t) = .emergency) && !(s1.moving t))).foldl
      (fun u t => u.acceptMove t .demotion) s1
  let s3 := if s2.slotCount .emergency = 0 then (s2.setField 0x018 0x11C 2 1 0).setField 0x018 0x11C 4 1 0 else s2
  (s3.spillOn.recallTiles).demoteIfLow

end Sys2Proof.Machine
end

