-- ==== Sys2Proof/Machine/Dma.lean ====
section
/-! DEFINITION. The DMA master of each port (R232, R278, R279): read tags, their issue, the arrival of completions, timeout and quarantine. What a consumer does with its data is in the consumer's family. -/

namespace Sys2Proof.Machine

/-- DMA read tags of one port (R278). -/
def tagLimit : Nat := 4096

/-- Outstanding and quarantined reads of a port (QMG_TAGS). -/
def State.tagsOut (s : State) (p : Port) : Nat := ((s.port p).tags.filter (fun t => !t.quarantined)).length
def State.tagsQuar (s : State) (p : Port) : Nat := ((s.port p).tags.filter (fun t => t.quarantined)).length

/-- The next tag of a port: one never used, else the least recently freed (R279). -/
def nextTagOf (q : PortState) : Option (Nat × PortState) :=
  if q.nextTag < tagLimit then some (q.nextTag, { q with nextTag := q.nextTag + 1 })
  else match q.freed with
    | [] => none
    | t :: rest => some (t, { q with freed := rest })

/-- Issue one DMA read of a port in a class, timed against the port's QMG_RD_TIMEOUT, or for the trust core against that of port 0 (R20, R278, R377); none where every tag is taken. -/
def State.issueRead (s : State) (p : Port) (haddr bytes cls : Nat) (c : Consumer) (timer : Port := p) : Option State :=
  match nextTagOf (s.port p) with
  | none => none
  | some (tag, q) =>
    let rec' : Tag := { tag := tag, haddr := haddr, bytes := bytes, consumer := c, cls := cls, issuedAt := s.now,
                        timeoutUs := s.field 0x0B0 (0x120 + 4 * timer.val) 0 20 }
    some ((s.modPort p (fun _ => { q with tags := q.tags ++ [rec'] })).emit (.dmaRead p.val tag haddr bytes))

/-- A tag is freed (R279). -/
def State.freeTag (s : State) (p : Port) (tag : Nat) : State :=
  s.modPort p (fun q => { q with tags := q.tags.filter (fun t => decide (t.tag ≠ tag)), freed := q.freed ++ [tag] })

/-- The record of a tag. -/
def State.tagOf (s : State) (p : Port) (tag : Nat) : Option Tag := (s.port p).tags.find? (fun t => decide (t.tag = tag))

/-- Change the record of a tag. -/
def State.modTag (s : State) (p : Port) (tag : Nat) (f : Tag → Tag) : State :=
  s.modPort p (fun q => { q with tags := q.tags.map (fun t => if t.tag = tag then f t else t) })

/-- Record an AER event of a port (R243, R278, R279). -/
def State.aer (s : State) (p : Port) (bit : Nat) : State := s.modPort p (fun q => { q with aer := q.aer ||| BitVec.ofNat 8 (2 ^ bit) })

/-- Quarantine a tag. -/
def State.quarantineTag (s : State) (p : Port) (tag : Nat) : State := s.modTag p tag (fun t => { t with quarantined := true })

/-- Quarantine every tag outstanding at a port (R246, R249). -/
def State.quarantineAll (s : State) (p : Port) : State :=
  s.modPort p (fun q => { q with tags := q.tags.map (fun t => { t with quarantined := true }) })

/-- A read has timed out (R278): Completion Timeout in AER, RD_TIMEOUT, and the tag is quarantined. -/
def State.readTimedOut (s : State) (p : Port) (tag : Nat) : State := ((s.aer p 2).errCount 0x0B0 11 2).quarantineTag p tag

/-- A tag for a read within one step: where none is free, the one quarantined longest ago, once its quarantine has ended (R278, R279). -/
def State.tagWithin (s : State) (p : Port) : State :=
  if (nextTagOf (s.port p)).isSome then s
  else match (s.port p).tags.find? (fun t => t.quarantined) with
    | none => s
    | some t => (s.until (t.issuedAt + 2 * us * t.timeoutUs)).freeTag p t.tag

/-- A read that is issued and answered, or not answered in time, within one step (log entry 7): the request goes out under a tag of its own; answered, the tag is freed, else the read times out at its limit (R278). The Bool says whether the data came: with every tag outstanding nothing goes out, and no data comes (DESIGN CHOICE, log entry 172). -/
def State.readWithin (s : State) (p : Port) (haddr bytes cls : Nat) (answered : Bool) (timer : Port := p) : Bool × State :=
  match (s.tagWithin p).issueRead p haddr bytes cls .gone timer with
  | none => (false, s)
  | some u =>
    match (u.port p).tags.getLast? with
    | none => (false, u)
    | some t => if answered then (true, u.freeTag p t.tag) else (false, (u.until (t.issuedAt + us * t.timeoutUs)).readTimedOut p t.tag)

/-- Every byte of a read has arrived. -/
def Tag.complete (t : Tag) : Bool := (List.range t.bytes).all (fun i => sget false t.got i)

/-- The bytes of a completion that a read still awaits, taken into it; and whether some byte was outside what it awaits (R279). -/
def Tag.take (t : Tag) (offset : Nat) (data : List Byte) (ep : Bool) : Tag × Bool :=
  (List.range data.length).foldl (fun (acc : Tag × Bool) i =>
    let o := offset + i
    if o < t.bytes ∧ !(sget false acc.1.got o) then
      ({ acc.1 with
         got := sset false acc.1.got o true
         data := Memory.wr acc.1.data o (data.getD i 0#8)
         ep := if ep then sset false acc.1.ep (o / 64) true else acc.1.ep }, acc.2)
    else (acc.1, true)) (t, false)

/-- A late completion, or the bytes of one that no read awaits: counted, LATE_CPL for a quarantined tag, Unexpected Completion in AER (R279). -/
def State.lateCompletion (s : State) (p : Port) (quarantined : Bool) : State :=
  let s1 := (s.count 0x0B0 3).aer p 3
  if quarantined then s1.err 0x0B0 10 else s1

/-- A line of the data a read has received, and whether it is poisoned: it arrived with EP (R243). -/
def Tag.line (t : Tag) (i : Nat) : List Byte × Bool := (Memory.bytes t.data (64 * i) 64, sget false t.ep i)

end Sys2Proof.Machine
end

