-- ==== Sys2Proof/Machine/Press.lean ====
section
/-! DEFINITION. The presses as operations on the state: table references (R93), decoded content with the cask cache and quarantine (R103, R104), assembly buffers (R105), seals (R107), the freeing of a tile's backing, exhaustion (R78, R79), and the lines of a tile read and written in whatever home it has (R44, R45, R105, R125). -/

namespace Sys2Proof.Machine

/-! ### Lines and the wrong bits of their cells -/

/-- The kinds of wrong bits: of a line, of the tier-map entry read for it, of the cask-map entry read for it. -/
def isHit : Upset → Bool | .hit _ _ => true | _ => false
def isTileMap : Upset → Bool | .tileMap _ => true | _ => false
def isCaskMap : Upset → Bool | .caskMap _ => true | _ => false

/-- The wrong bits of a kind that come to a line within a step (R333). -/
def upsetAt (host : HostLines) (a : Nat) (kind : Upset → Bool) : Upset :=
  match host.find? (fun h => decide (h.addr = a) && kind h.upset) with
  | some h => h.upset
  | none => .none

/-- A line of a partner's memory, where it was answered (R278). -/
def answerAt (host : HostLines) (a : Nat) : Option HostLine := host.find? (fun h => decide (h.addr = a ∧ h.upset = .none))

/-- Buckets that a correction in a line of a vat slot feeds: its stack's, and that of the region of the tile it holds (R341). -/
def State.vatUnits (s : State) (slot a : Nat) : List (Nat × Nat) :=
  (match s.findRegion a with | some (g, _) => [(0, g)] | none => []) ++ [(1, slot % 16)]

/-- The bytes of a line with codeword q replaced. -/
def putCodeword (l : List Byte) (q d : Nat) : List Byte := l.take (16 * q) ++ leBytes 16 d ++ l.drop (16 * q + 16)

/-- A vat line as a read finds it, with the wrong bits its cells hold: corrected errors are counted, an uncorrectable one is recorded and the line rewritten as poisoned. The Bool says that an uncorrectable error was found. a is the unified address of the line, foundBy the code of IGR_UE_INFO. -/
def State.readVatEcc (s : State) (slot line a : Nat) (upset : Upset) (foundBy : Nat) : (List Byte × Bool) × Bool × State :=
  let v := s.vatLine slot line
  if s.lineOut slot line then ((List.replicate 64 0#8, true), false, s)
  else match upset with
    | .hit q flips =>
      match code128.readUpset (leNat ((v.1.drop (16 * q.val)).take 16)) v.2 flips.toNat with
      | .good d => ((putCodeword v.1 q.val d, v.2), false, s)
      | .poisoned ce =>
        ((List.replicate 64 0#8, true), false, if ce then s.corrected false (s.vatUnits slot a) else s)
      | .corrected d double =>
        (if v.2 then (List.replicate 64 0#8, true) else (putCodeword v.1 q.val d, false), false,
          (s.corrected double (s.vatUnits slot a)).suspect (vatRowUnit slot line) double)
      | .bad =>
        ((List.replicate 64 0#8, true), true,
          (s.recordUe 1 foundBy (16384 * slot + 64 * line + 16 * q.val)).putVatLine slot line (List.replicate 64 0#8, true))
    | _ => (v, false, s)

/-- A write to a line of a slot: one of some of its bytes meets the wrong bits of the cells it is merged with (R337, R338). -/
def State.mergeVat (s : State) (slot line a : Nat) (new : List Byte) (be : BitVec 64) (poison : Bool) (upset : Upset) : State :=
  if poison ∨ be = fullBe ∨ (upset = .none ∧ s.lineOut slot line = false) then s.writeVat slot line new be poison
  else
    let (v, _, u) := s.readVatEcc slot line a upset 0
    u.putVatLine slot line (writeOver v new be poison)

/-- Buckets that a correction in a sector of cask k feeds: its package's, and its region's (R341). -/
def State.caskUnits (s : State) (k : Nat) : List (Nat × Nat) :=
  (match s.findRegion (4096 * k) with | some (g, _) => [(0, g)] | none => []) ++ [(2, (s.cask k).package)]

/-- Sector i of cask k as a read finds it, with the wrong bits its cells hold: a codeword is corrected, perhaps wrongly, and counted, or cannot be (R334, R337, R338). -/
def State.upsetSector (s : State) (k i : Nat) (bytes : List Byte) (q : Nat) (flips : BitVec 144) : List Byte × Bool × State :=
  let e := s.cask k
  match code128.readUpset (leNat ((bytes.drop (64 * i + 16 * q)).take 16)) false flips.toNat with
  | .good d => (putCodeword bytes (4 * i + q) d, false, s)
  | .corrected d double => (putCodeword bytes (4 * i + q) d, false, (s.corrected double (s.caskUnits k)).suspect (cellarRowUnit e.package (e.sector + i)) double)
  | _ => (bytes, true, s)

/-- The sectors of a stored cask as a read finds them, and whether one of them has an uncorrectable error. -/
def State.readSectors (s : State) (k : Nat) (host : HostLines) : List Byte × Bool × State :=
  let e := s.cask k
  let (bytes, ue) := s.getSectors e.package e.sector e.length
  if host = [] then (bytes, ue, s)
  else (List.range e.length).foldl (fun (acc : List Byte × Bool × State) i =>
    match upsetAt host (4096 * k + 64 * i) isHit with
    | .hit q flips => let (l, bad, u) := acc.2.2.upsetSector k i acc.1 q.val flips; (l, acc.2.1 || bad, u)
    | _ => acc) (bytes, ue, s)

/-- The first sector of a stored cask, counted from its first, that a read finds uncorrectable. -/
def State.firstBad (s : State) (k : Nat) (host : HostLines) : Nat :=
  let e := s.cask k
  let (bytes, _) := s.getSectors e.package e.sector e.length
  ((List.range e.length).find? (fun i => sget false s.mem.cellarBad (sectorKey e.package (e.sector + i))
    || (match upsetAt host (4096 * k + 64 * i) isHit with
        | .hit q flips => (s.upsetSector k i bytes q.val flips).2.1
        | _ => false))).getD 0

/-! ### Tables -/

/-- Register page of press k. -/
def prsPage (k : Nat) : Nat := 0x020 + k

/-- A slot of the table store. -/
def State.table (s : State) (id : Nat) : Table := sget {} s.prs.tables id
def State.setTable (s : State) (id : Nat) (t : Table) : State := { s with prs := { s.prs with tables := sset {} s.prs.tables id t } }

/-- The code lengths of a resident table: built in, or a slot that is not free (R91, R93). -/
def State.tableLens (s : State) (id : Nat) : Option (List Nat) :=
  if id = 0 then none
  else if id < 16 then some (builtInLens id)
  else if (s.table id).lens = [] then none else some (s.table id).lens

/-- Free slots among ids 16 to 4,095. -/
def State.tableFree (s : State) : Nat := 4080 - s.prs.tables.length

/-- Add a reference to a trained or loaded table (R93). -/
def State.addRef (s : State) (id : Nat) : State :=
  if id < 16 then s else s.setTable id { s.table id with refs := (s.table id).refs + 1 }

/-- A slot is free: regions waiting for one train again (R99): those that have waited longest, as many as there are free slots beyond the passes that run (R99 does not say which: DESIGN CHOICE, log entry 177). -/
def State.slotFreed (s : State) : State :=
  let n := s.tableFree - s.prs.training.length
  { s with prs := { s.prs with trainPending := s.prs.trainPending.drop n, training := s.prs.training ++ s.prs.trainPending.take n } }

/-- Drop a reference; the slot becomes free when its count reaches zero (R93). -/
def State.dropRef (s : State) (id : Nat) : State :=
  if id < 16 ∨ (s.table id).lens = [] then s
  else if (s.table id).refs ≤ 1 then (s.setTable id {}).slotFreed
  else s.setTable id { s.table id with refs := (s.table id).refs - 1 }

/-- A region's CUR_TABLE with its shape and lengths, where it is a trained or loaded table (R94). -/
def State.curTable (s : State) (r : Region) : Option (Nat × Nat × List Nat) :=
  if r.curTable < 16 then none
  else if (s.table r.curTable).lens = [] then none
  else some (r.curTable, (s.table r.curTable).shape, (s.table r.curTable).lens)

/-! ### Quarantine -/

/-- Push an entry into a press's 16-entry quarantine log; a full log counts in OVF. The Bool says that it was pushed. -/
def State.pushQlog (s : State) (e : QEntry) : State × Bool :=
  if (s.prs.qlog.filter (fun x => decide (x.press = e.press))).length < 16 then
    ({ s with prs := { s.prs with qlog := s.prs.qlog ++ [e] } }, true)
  else
    (({ s with prs := { s.prs with qlogOvf := sset 0 s.prs.qlogOvf e.press (min 255 (sget 0 s.prs.qlogOvf e.press + 1)) } }).err (prsPage e.press) 9, false)

/-- A cask is found damaged: quarantined, logged, counted, DAMAGED (R103); a sector's error is recorded with its place, counted from the cask's first sector (R338). -/
def State.quarantine (s : State) (k code : Nat) (foundBy : Nat := 0) (sector : Nat := 0) : State :=
  let e := s.cask k
  let s1 := if code = 6 then s.recordUe 2 foundBy (e.package * 2 ^ 32 + e.sector + sector) else s
  let s2 := { (s1.setCask k { e with quarantined := true }) with prs := { s1.prs with qReason := sset 0 s1.prs.qReason k (code + 1) } }
  let s3 := (s2.pushQlog { press := e.package, cask := k, reason := code }).1
  (s3.count (prsPage e.package) 4).err (prsPage e.package) 8

/-! ### Content -/

/-- Put a decoded cask at the front of its press's cache of 128 (R104). -/
def State.cachePut (s : State) (k : Nat) (raw : List Byte) (poison : BitVec 64) : State :=
  let p := (s.cask k).package
  let others := s.prs.cache.filter (fun e => decide (e.cask ≠ k))
  let mine := (others.filter (fun e => decide ((s.cask e.cask).package = p))).take 127
  let rest := others.filter (fun e => decide ((s.cask e.cask).package ≠ p))
  { s with prs := { s.prs with cache := { cask := k, data := Memory.store [] 0 raw, poison := poison } :: (mine ++ rest) } }

/-- A cached cask. -/
def State.cached (s : State) (k : Nat) : Option CachedCask := s.prs.cache.find? (fun e => decide (e.cask = k))

/-- What a stored cask holds once its sectors have come: decoded and checked (R100 to R103). A cask of LENGTH 0 takes a cache entry like any, and counts as no cask decoded (R104 does not say: DESIGN CHOICE, log entry 177). -/
def State.decodeRead (s : State) (k : Nat) (bad : Bool) (host : HostLines := []) : List Byte × BitVec 64 × State :=
  let e := s.cask k
  let (bytes, ue, s0) := s.readSectors k host
  let s1 := if e.length = 0 then s0 else s0.count (prsPage e.package) 0
  match decodeCask (some (e.method, e.table, e.poisonAny)) e.length bytes (ue || bad) s.tableLens with
  | .ok raw poison _ => (raw, poison, s1.cachePut k raw poison)
  | .damaged code => (List.replicate 4096 0#8, BitVec.allOnes 64, s1.quarantine k code 0 (s.firstBad k host))

/-- A stored cask is read from the cellar for someone and decoded (R19, R20, R100). -/
def State.decodeNow (s : State) (k : Nat) (w : Traffic) (host : HostLines := []) : List Byte × BitVec 64 × State :=
  (s.dramCellar (s.cask k).package (s.cask k).sector (s.cask k).length false w).decodeRead k false host

/-- The old content of a cask: 64 poisoned lines where quarantined, from the cask cache, or by decode for someone (R103, R104, R107). -/
def State.storedCask (s0 : State) (k : Nat) (w : Traffic) (host : HostLines := []) : List Byte × BitVec 64 × State :=
  let s := s0.lookCask k w
  if (s.cask k).quarantined then (List.replicate 4096 0#8, BitVec.allOnes 64, s)
  else match s.cached k with
    | some c => (Memory.bytes c.data 0 4096, c.poison, s.cachePut k (Memory.bytes c.data 0 4096) c.poison)
    | none => s.decodeNow k w host

/-- Open buffers of a press (PRS_STATUS). -/
def State.openBufs (s : State) (p : Nat) : Nat := (s.prs.bufs.filter (fun b => decide ((s.cask b.cask).package = p))).length

/-- A line held in a buffer. -/
def AsmBuf.line (b : AsmBuf) (i : Nat) : List Byte × Bool :=
  if b.poison.getLsbD i then (List.replicate 64 0#8, true) else (Memory.bytes b.data (64 * i) 64, false)

/-- Content with a buffer's written lines over it (R107). -/
def overlay (raw : List Byte) (poison : BitVec 64) (b : AsmBuf) : List Byte × BitVec 64 :=
  ((List.range 64).flatMap (fun i => if b.mask.getLsbD i then (b.line i).1 else (raw.drop (64 * i)).take 64),
   (poison &&& ~~~b.mask) ||| (b.poison &&& b.mask))

/-- The content of a cask: old content with its buffer's lines merged (R105, R110). -/
def State.caskContent (s : State) (k : Nat) (w : Traffic) (host : HostLines := []) : List Byte × BitVec 64 × State :=
  let (raw, poison, s1) := s.storedCask k w host
  match s1.bufOf k with
  | none => (raw, poison, s1)
  | some b => let (r, q) := overlay raw poison b; (r, q, s1)

/-- One line of a cask: from its buffer where written, else from the stored cask (R105). -/
def State.caskLine (s : State) (k i : Nat) (w : Traffic) (host : HostLines := []) : List Byte × Bool × State :=
  match s.bufOf k with
  | some b =>
    if b.mask.getLsbD i then ((b.line i).1, (b.line i).2, s)
    else let (raw, q, s1) := s.storedCask k w host; ((raw.drop (64 * i)).take 64, q.getLsbD i, s1)
  | none => let (raw, q, s1) := s.storedCask k w host; ((raw.drop (64 * i)).take 64, q.getLsbD i, s1)

/-! ### Freeing -/

/-- The reason a quarantined cask was found damaged for (R103). -/
def State.reasonOf (s : State) (k : Nat) : Nat := sget 0 s.prs.qReason k - 1

/-- The quarantined sectors of a cask are detached from its map entry: held in the quarantine log until popped, or freed at once when the log is full (R103). -/
def State.detach (s : State) (k : Nat) : State :=
  let e := s.cask k
  let hit := s.prs.qlog.any (fun x => decide (x.cask = k) && !x.detached)
  let s0 := { s with prs := { s.prs with qReason := sset 0 s.prs.qReason k 0 } }
  if hit then
    { s0 with prs := { s0.prs with qlog := s.prs.qlog.map (fun x => if x.cask = k ∧ x.detached = false then
        { x with detached := true, package := e.package, sector := e.sector, length := e.length, table := e.table } else x) } }
  else
    let (s1, pushed) := s0.pushQlog ⟨e.package, k, s.reasonOf k, true, e.package, e.sector, e.length, e.table⟩
    if pushed then s1 else (s1.markSectors e.package e.sector e.length false).dropRef e.table

/-- Free what a cask holds: its sectors and its table reference, or its quarantine entry. The map entry is left to the caller. -/
def State.freeCask (s : State) (k : Nat) : State :=
  let e := s.cask k
  if e.quarantined then s.detach k
  else (s.markSectors e.package e.sector e.length false).dropRef e.table

/-- Free the backing of a tile: its slot, or its casks with their buffers and cache entries, or its window space; the cask-map entries become zero. HOME is left to the caller. -/
def State.freeBacking (s : State) (t : Nat) : State :=
  if s.home t = 1 then s.freeSlot (s.loc t)
  else if s.home t = 2 then
    ([0, 1, 2, 3].foldl (fun u c => ((u.freeCask (4 * t + c)).dropBuf (4 * t + c)).cacheDrop (4 * t + c)) s).clearCasks t
  else if s.home t = 3 then s.clearCasks t
  else s

/-- A line of a slot as its cells hold it, the map reserve's lines among them. -/
def State.cellLine (s : State) (slot line : Nat) : List Byte × Bool :=
  if slot < s.mapSlots then (s.reserveLine slot line, false) else s.vatLine slot line

/-! ### Exhaustion -/

/-- A write for which no backing was found is dropped: the tile takes HOME 4, its earlier backing is freed, its address is logged (R78, R79). -/
def State.capDrop (s : State) (t : Nat) (atSeal : Bool) : State :=
  let s1 := ((s.dropMove t).freeBacking t).setHome t 4 0
  let s2 := (s1.pushExh t atSeal).setField 0x018 0x11C 4 1 1
  ((s2.err 0x018 11).count 0x019 3).settleUsage

/-! ### Homes -/

/-- A tile returns to HOME 0 when its four casks have LENGTH 0, no buffer of them is open and no move of it is in flight (R46). -/
def State.zeroTest (s : State) (t : Nat) : State :=
  if s.home t = 2 ∧ !(s.moving t) ∧ [0, 1, 2, 3].all (fun c => decide ((s.cask (4 * t + c)).length = 0) && (s.bufOf (4 * t + c)).isNone) then
    (([0, 1, 2, 3].foldl (fun (u : State) c => u.cacheDrop (4 * t + c)) s).clearCasks t).setHome t 0 0
  else s

/-- Poison every line of a slot, for someone. -/
def State.poisonSlot (s : State) (slot : Nat) (w : Traffic) : State :=
  (List.range 256).foldl (fun u i => (u.putVatLine slot i (List.replicate 64 0#8, true)).dramVat slot i true w) s

/-- Make a cellar tile a vat tile in the slot given, with all its content, and free its casks (R78 step 2). -/
def State.toVat (s : State) (t slot : Nat) (w : Traffic) (host : HostLines := []) : State :=
  let s1 := [0, 1, 2, 3].foldl (fun (u : State) c =>
    let (raw, q, u1) := u.caskContent (4 * t + c) w host
    (List.range 64).foldl (fun v i => (v.putVatLine slot (64 * c + i)
      (if q.getLsbD i then List.replicate 64 0#8 else (raw.drop (64 * i)).take 64, q.getLsbD i)).dramVat slot (64 * c + i) true w) u1) s
  ((s1.dropMove t).freeBacking t).setHome t 1 slot

/-- A seal found no cellar sectors: the tile takes a slot of the pool, or after exhaustion one of the emergency reserve, or the write is dropped (R78). -/
def State.sealToVat (s : State) (t : Nat) (w : Traffic) (host : HostLines := []) : State :=
  match s.takePool .tile with
  | some (slot, s1) => (s1.toVat t slot w host).settleUsage
  | none =>
    let s0 := s.exhausted
    match s0.takeEmergency with
    | some (slot, s1) => (s1.toVat t slot w host).settleUsage
    | none => s0.capDrop t true

/-- A cask of a region is sealed with a method that counts (R96): it joins the casks so sealed since the region was created, and the seal starts a training pass where TRAIN_CASKS of them are there and the region has no table. A region of COMP_HINT 4 is counted and not trained. -/
def State.trainCount (s : State) (g k : Nat) : State :=
  let r := s.region g
  let had := sget [] s.prs.trainCasks g
  let now := if had.contains k ∨ 255 ≤ had.length then had else had ++ [k]
  let s1 := { s with prs := { s.prs with trainCasks := sset [] s.prs.trainCasks g now } }
  if r.curTable = 0 ∧ r.hint ≠ 4 ∧ s.field 0x020 0x180 0 8 ≤ now.length ∧ !(s.prs.training.contains g) ∧ !(s.prs.trainPending.contains g) then
    { s1 with prs := { s1.prs with training := s1.prs.training ++ [g] } }
  else s1

/-- Write an encoded cask into sectors already allocated, with its map entry (R52, R84). -/
def State.storeCask (s : State) (k package sector : Nat) (c : StoredCask) : State :=
  (s.putSectors package sector c.bytes).setCask k
    { sector := if c.length = 0 then 0 else sector, package := package, length := c.length, method := c.method, table := c.table,
      poisonAny := decide (c.poison ≠ 0#64) }

/-! ### Relocation by the cooper -/

/-- n sectors of a package are copied to another place, errors and all, as class-3 work (R260, R348). -/
def State.copySectors (s : State) (p x q y n : Nat) : State :=
  let s1 := (s.dramCellar p x n false background).putSectors q y (s.getSectors p x n).1
  let bad := (List.range n).filter (fun i => sget false s.mem.cellarBad (sectorKey p (x + i)))
  let s2 := s1.dramCellar q y n true background
  { s2 with mem := { s2.mem with
      cellarBad := bad.foldl (fun m i => sset false m (sectorKey q (y + i)) true) s1.mem.cellarBad } }

/-- Cask k moves to free sectors: only its map entry changes, and its cache entry goes (R104, R348). -/
def State.moveCask (s : State) (k q y : Nat) : State :=
  let e := s.cask k
  let s1 := (s.copySectors e.package e.sector q y e.length).markSectors q y e.length true
  let s2 := { s1 with igr := { s1.igr with copies := s1.igr.copies + 1 } }
  ((s2.markSectors e.package e.sector e.length false).setCask k { e with package := q, sector := y }).cacheDrop k

/-- The package that holds the vat bitmap: that of the last copy, else the lowest-numbered in service (R58). -/
def State.bitmapPackage (s : State) : Option Nat :=
  match s.mem.bitmapAt with
  | some p => some p
  | none => (List.range 48).find? s.packageCounts

/-- Sectors of the vat bitmap, 4 MiB, and where it stands in an allocation area: behind the bits of the package's own sectors, a place R58 does not state (DESIGN CHOICE, log entry 151). -/
def bitmapSectors : Nat := 65536
def bitmapFirst : Nat := caskSectors + 1747627

/-- Package p begins evacuation: the vat bitmap, where p holds it, is copied first to the allocation area of the next package in service (R58). The bits themselves are the allocation state that MemState holds. -/
def State.copyBitmap (s : State) (p : Nat) : State :=
  if s.bitmapPackage = some p then
    match ((List.range 48).map (fun i => (p + 1 + i) % 48)).find? (fun q => s.packageTakes q && decide (q ≠ p)) with
    | some q =>
      let s1 := (s.dramCellar p bitmapFirst bitmapSectors false background).dramCellar q bitmapFirst bitmapSectors true background
      { s1 with mem := { s1.mem with bitmapAt := some q } }
    | none => s
  else s

/-- Free sectors of the relocation areas of the column of cask c of tile t in region g, in R59's order (R349). -/
def State.findRelocation (s : State) (t c g n : Nat) : Option (Nat × Nat) × State :=
  ((List.range (s.order.packages / 4)).map (fun i => s.columnPackage t c g i)).foldl (fun acc p =>
    match acc.1 with
    | some _ => acc
    | none =>
      if acc.2.packageTakes p then
        let (r, u) := acc.2.findRun p relocFirst relocSectors n
        (r.map (fun x => (p, x)), u)
      else acc) (none, s)

/-- A cooper's copy reads a stored cask: one that cannot be read, for whatever reason its check finds, is quarantined (R103, R338, R349). -/
def State.copyFinds (s : State) (k : Nat) (host : HostLines) : State :=
  let e := s.cask k
  let (bytes, ue, u) := s.readSectors k host
  if e.quarantined then s
  else match decodeCask (some (e.method, e.table, e.poisonAny)) e.length bytes ue s.tableLens with
    | .ok _ _ _ => u
    | .damaged code => u.quarantine k code 3 (s.firstBad k host)

/-- Cask k of an evacuating package moves to the package of its column that R59's search gives: ordinary sectors first, then a relocation area; it stays where none has room. One that cannot be read is quarantined, and a quarantined one moves like the others (R349). -/
def State.evacuateCask (s : State) (k : Nat) (host : HostLines) : State :=
  let e := s.cask k
  let t := k / 4
  match s.tileRegion t with
  | none => s
  | some (g, _) =>
    if e.length = 0 then
      match ((List.range (s.order.packages / 4)).map (fun i => s.columnPackage t (k % 4) g i)).find? s.packageTakes with
      | some p => (s.setCask k { e with package := p }).cacheDrop k
      | none => s
    else
    let s := s.copyFinds k host
    match s.findColumn t (k % 4) g e.length with
      | (some (p, x), u) => u.moveCask k p x
      | (none, u) => match u.findRelocation t (k % 4) g e.length with
        | (some (p, x), v) => v.moveCask k p x
        | (none, v) => v

/-- An evacuating package that holds no cask any more is retired (R349). -/
def State.retirePackage (s : State) (p : Nat) : State :=
  let holds := s.mem.sectorUse.any (fun e => decide (e.1 / 2 ^ 30 = p))
    || s.mem.caskMap.any (fun e => decide (s.home (e.1 / 4) = 2) && decide ((s.cask e.1).package = p))
  if s.mem.evacuating.getLsbD p && !holds then
    let b := BitVec.ofNat 48 (2 ^ p)
    (({ s with mem := { s.mem with evacuating := s.mem.evacuating &&& ~~~b, retired := s.mem.retired ||| b } }).repaired).settleUsage
  else s

/-- The sectors of a cellar DRAM row, by their data or their check bytes (R319, R348). -/
def rowSectors (c rank bank row : Nat) : List Nat :=
  let base := row * 65536 + rank * 32768 + bank * 2048
  let inRow (b : Nat) : Bool := decide (base ≤ b) && decide (b < base + 2048)
  let groups := (List.range ((base + 2047) / 576 - base / 576 + 1)).map (fun i => base / 576 + i)
  (groups.flatMap (fun g => ((List.range 8).filter (fun i => inRow (576 * g + 64 * i) || inRow (576 * g + 512 + 8 * i))).map
    (fun i => 4 * (8 * g + i) + c))).filter (fun x => decide (x < 954437120))

/-- Withhold the sectors of a row, or allow them again (R348, R354). -/
def State.withholdRow (s : State) (p c rank bank row : Nat) (on : Bool) : State :=
  { s with mem := { s.mem with
      withheld := (rowSectors c rank bank row).foldl (fun m x => sset false m (sectorKey p x) on) s.mem.withheld } }

/-- A cask has a sector in a cellar row. -/
def caskInRow (e : CaskEntry) : RepairUnit → Bool
  | .cellarRow p c rank bank row => decide (e.package = p) && (List.range e.length).any (fun i => (rowSectors c rank bank row).contains (e.sector + i))
  | _ => false

/-- The casks of the cellar with a sector in a row. -/
def State.rowCasks (s : State) (u : RepairUnit) : List Nat :=
  (s.mem.caskMap.map (fun e => e.1)).filter (fun k => decide (s.home (k / 4) = 2) && caskInRow (s.cask k) u)

/-- A row being retired that holds no cask any more: its sectors are withheld from allocation, and the retirement is done (R12, R348). -/
def State.rowsEmptied (s : State) : State :=
  s.igr.rowsLeaving.foldl (fun (v : State) u =>
    match u with
    | .cellarRow p c rank bank row =>
      if v.rowCasks u = [] then
        let w := v.withholdRow p c rank bank row true
        ({ w with igr := { w.igr with rowsLeaving := w.igr.rowsLeaving.filter (fun x => decide (x ≠ u)) } }).repaired
      else v
    | _ => v) s

/-- Room for n sectors in the relocation area of a package, outside the rows being retired (R58, R348). -/
def State.findReloc (s : State) (p n : Nat) : Option Nat × State :=
  let kept := s.mem.withheld
  let out := s.igr.rowsLeaving.foldl (fun (v : State) u => match u with
    | .cellarRow q c rank bank row => v.withholdRow q c rank bank row true
    | _ => v) s
  let (r, v) := out.findRun p relocFirst relocSectors n
  (r, { v with mem := { v.mem with withheld := kept } })

/-- The cooper may move cask k: it is in the cellar, its tile does not move, no seal of it runs, and no buffer of it is open where its press would change (R72, R108, R349). -/
def State.caskStill (s : State) (k : Nat) (samePress : Bool) : Bool :=
  decide (s.home (k / 4) = 2) && !(s.moving (k / 4)) &&
    (match s.bufOf k with
     | none => true
     | some b => samePress && !b.sealing)

/-- A cask in a DRAM row being retired, a quarantined one too, moves to the relocation area of its package, and a row that has come to hold no cask is withheld; one in an evacuating package leaves it (R348, R349). -/
def State.settleCask (s0 : State) (k : Nat) (host : HostLines := []) : State :=
  let s := s0.findCask k background (upsetAt host (4096 * k) isCaskMap)
  let e := s.cask k
  if s.mem.evacuating.getLsbD e.package then
    if s.caskStill k false then (s.evacuateCask k host).retirePackage e.package else s
  else if s.igr.rowsLeaving = [] then s
  else if s.caskStill k true && s.igr.rowsLeaving.any (caskInRow e) then
    match s.findReloc e.package e.length with
    | (some x, u) => (u.moveCask k e.package x).rowsEmptied
    | (none, u) => u
  else s.rowsEmptied

/-! ### Seals -/

/-- The seal of a cask's buffer completes (R107): merge, encode, write in place or to new sectors, free what is no longer held, move the table reference; with no room the tile becomes a vat tile (R78), which counts as a seal (EVT_CNT1) and, where the seal was forced, as no forced one (EVT_CNT5; R107 does not say: DESIGN CHOICE, log entry 177). host brings the wrong bits of the cells that the merge reads (R337, R338). -/
def State.sealCask (s0 : State) (k : Nat) (host : HostLines := []) : State :=
  let t := k / 4
  match s0.bufOf k, s0.tileRegion t with
  | some b, some (g, r) =>
    let w : Traffic := ⟨r.cls, 6⟩
    let s := (s0.findTile t w (upsetAt host (4096 * k) isTileMap)).findCask k w (upsetAt host (4096 * k) isCaskMap)
    if s.home t ≠ 2 then s.dropBuf k
    else
      let (raw, poison, s1) := s.caskContent k w host
      let old := s1.cask k
      let enc := encodeCask r.hint (s1.curTable r) raw poison
      let p := old.package
      let done1 (u : State) : State :=
        let u1 := (u.count (prsPage p) 1)
        let u2 := if enc.method = 0 then u1.count (prsPage p) 2 else u1
        let u3 := if b.forced then u2.count (prsPage p) 5 else u2
        let u4 := if (u3.cached k).isSome then u3.cachePut k (blankPoison raw poison) poison else u3
        let u5 := if enc.method = 0 ∨ enc.method = 3 ∨ enc.method = 4 ∨ enc.method = 5 then u4.trainCount g k else u4
        (((u5.dropBuf k).zeroTest t).settleCask k).settleUsage
      if enc.length ≤ old.length ∧ !old.quarantined then
        let u := (s1.addRef enc.table).storeCask k p old.sector enc
        let u := u.dramCellar p old.sector enc.length true w
        done1 ((u.markSectors p (old.sector + enc.length) (old.length - enc.length) false).dropRef old.table)
      else if enc.length = 0 then
        let u := s1.freeCask k
        done1 (u.setCask k { package := p, method := 1 })
      else
        match s1.takeSectors t (k % 4) g enc.length with
        | some (np, nx, u) =>
          let u := (u.addRef enc.table).dramCellar np nx enc.length true w
          let u := u.freeCask k
          done1 (u.storeCask k np nx enc)
        | none => ((s1.count (prsPage p) 1).sealToVat t w host).dropBuf k
  | _, _ => s0.dropBuf k

/-- The buffer that a full press seals: the oldest last write among those not sealing (R106). -/
def State.oldestBuf (s : State) (p : Nat) : Option Nat :=
  ((s.prs.bufs.filter (fun b => decide ((s.cask b.cask).package = p) && !b.sealing)).foldl (fun (best : Option AsmBuf) b =>
    match best with
    | none => some b
    | some x => if b.lastWrite < x.lastWrite then some b else some x) none).map (fun b => b.cask)

/-- Writes that wait for a buffer of a press (R106). -/
def State.bufferWaiters (s : State) (press : Nat) : Nat :=
  (s.dir.waiting.filter (fun w => match w.1 with | .buffer p => decide (p = press) | _ => false)).length

/-- Why a write to a cellar cask must wait: a seal of it runs (R108), or its press has no buffer that writes before it do not wait for (R106). -/
def State.cellarBlocked (s : State) (k : Nat) : Option WaitWhy :=
  let p := (s.cask k).package
  match s.bufOf k with
  | some b => if b.sealing then some (.sealing k) else none
  | none => if 64 ≤ s.openBufs p + s.bufferWaiters p then some (.buffer p) else none

/-- Mark a buffer as sealing. -/
def State.beginSeal (s : State) (k : Nat) (forced flush : Bool) : State :=
  { s with prs := { s.prs with bufs := s.prs.bufs.map (fun b => if b.cask = k then
      { b with sealing := true, forced := b.forced || forced, flush := b.flush || flush } else b) } }

/-- A full press begins a forced seal, while fewer of those run than writes wait for a buffer (R106). -/
def State.forceSeal (s : State) (p waiters : Nat) : State :=
  let running := (s.prs.bufs.filter (fun b => decide ((s.cask b.cask).package = p) && b.sealing && b.forced)).length
  if running < waiters then
    match s.oldestBuf p with
    | some k => s.beginSeal k true false
    | none => s
  else s

/-- Write a line of a cask into its buffer, opening one (R105). A partial write to a line not yet in the buffer takes the line from the stored cask first. -/
def State.writeBuf (s : State) (k i : Nat) (new : List Byte) (be : BitVec 64) (poison : Bool) (w : Traffic) (host : HostLines := []) : State :=
  let b0 := (s.bufOf k).getD { cask := k, openedAt := s.now, lastWrite := s.now, idleFrom := s.now }
  let whole := poison || decide (be = fullBe)
  let (old, s1) := if b0.mask.getLsbD i then (b0.line i, s)
    else if whole then ((List.replicate 64 0#8, false), s)
    else
      let decodes := !(s.cask k).quarantined && (s.cached k).isNone && decide ((s.cask k).length ≠ 0)
      let (raw, q, u) := s.storedCask k w host
      (((raw.drop (64 * i)).take 64, q.getLsbD i), if decodes then u.count (prsPage (s.cask k).package) 3 else u)
  let v := writeOver old new be poison
  let bit := BitVec.ofNat 64 (2 ^ i)
  let b1 : AsmBuf := { b0 with mask := b0.mask ||| bit, poison := if v.2 then b0.poison ||| bit else b0.poison &&& ~~~bit,
                                data := Memory.store b0.data (64 * i) (v.1.take 64), lastWrite := s.now, idleFrom := s.now }
  { s1 with prs := { s1.prs with bufs := s1.prs.bufs.filter (fun b => decide (b.cask ≠ k)) ++ [b1] } }

/-! ### Re-encoding -/

/-- New sectors for a cask: by R59's search, or while a buffer of the cask is open in its own package, whose press holds the buffer (R105, R106). -/
def State.takeFor (s : State) (k g n : Nat) : Option (Nat × Nat × State) :=
  if (s.bufOf k).isSome then
    let p := (s.cask k).package
    match s.findRun p 0 caskSectors n with
    | (some x, u) => some (p, x, u.markSectors p x n true)
    | (none, _) => none
  else s.takeSectors (k / 4) (k % 4) g n

/-- A re-encode ends (R81): the cask is decoded, encoded again, written to new sectors and its entry updated; with no room it stays as it is. -/
def State.reencodeDone (s : State) (k : Nat) (host : HostLines := []) : State :=
  if s.rck.reencodes.contains k then
    let s1 := { s with rck := { s.rck with reencodes := s.rck.reencodes.filter (fun x => decide (x ≠ k)) } }
    match s1.tileRegion (k / 4) with
    | none => s1
    | some (g, r) =>
      if s1.home (k / 4) ≠ 2 ∨ (s1.cask k).quarantined then s1
      else
        let (raw, poison, s2) := s1.storedCask k background host
        if (s2.cask k).quarantined then s2
        else
          let enc := encodeCask r.hint (s2.curTable r) raw poison
          if enc.length = 0 then
            let u := (s2.freeCask k).setCask k { package := (s2.cask k).package, method := 1 }
            (((u.cacheDrop k).count 0x019 4).zeroTest (k / 4)).settleUsage
          else match s2.takeFor k g enc.length with
            | none => s2
            | some (p, x, u) =>
              let u := ((u.addRef enc.table).freeCask k).storeCask k p x enc
              let u := u.dramCellar p x enc.length true background
              ((u.cacheDrop k).count 0x019 4).settleUsage
  else s

/-- A seal of a cask ends within a step: a re-encode of the cask that runs ends before it (R108). -/
def State.finishSeal (s : State) (k : Nat) : State := (s.reencodeDone k).sealCask k

/-- Seals of a press end within a step until it has a buffer that no waiting write takes: of those that run the one listed first, else that of the buffer with the oldest last write (R106). fuel bounds the seals. -/
def State.freeBuffer (s : State) (p : Nat) : Nat → State
  | 0 => s
  | fuel + 1 =>
    if s.openBufs p + s.bufferWaiters p < 64 then s
    else match (s.prs.bufs.find? (fun b => decide ((s.cask b.cask).package = p) && b.sealing)).map (fun b => b.cask) with
      | some k => (s.finishSeal k).freeBuffer p fuel
      | none => match s.oldestBuf p with
        | some k => ((s.beginSeal k true false).finishSeal k).freeBuffer p fuel
        | none => s

/-! ### Writes -/

/-- A write to a cellar cask within one step, for someone: a seal of it that runs ends first (R108), and a write that needs a buffer waits, behind the writes that wait already, for the seals that free one (R106). -/
def State.writeCask (s : State) (k i : Nat) (new : List Byte) (be : BitVec 64) (poison : Bool) (w : Traffic) (host : HostLines := []) : State :=
  let s1 := match s.cellarBlocked k with
    | none => s
    | some (.buffer p) => s.freeBuffer p 65
    | some _ => s.finishSeal k
  if s1.home (k / 4) = 2 then s1.writeBuf k i new be poison w host
  else if s1.home (k / 4) = 1 then (s1.mergeVat (s1.loc (k / 4)) (64 * (k % 4) + i) (4096 * k + 64 * i) new be poison (upsetAt host (4096 * k + 64 * i) isHit)).dramVat (s1.loc (k / 4)) (64 * (k % 4) + i) true w
  else s1

/-- A tile gets its first home in the cellar: four casks of LENGTH 0 in the packages of R59's first choice (R45, R46); their map entries are looked up in the class of the request (R20). -/
def State.cellarHome (s : State) (t g : Nat) (poisoned : Bool) (w : Traffic) : State :=
  let s1 := [0, 1, 2, 3].foldl (fun (u : State) c =>
    let pkg := ((List.range (u.order.packages / 4)).map (fun k => u.columnPackage t c g k)).find? u.packageTakes
    (u.lookCask (4 * t + c) w).setCask (4 * t + c) { package := pkg.getD (u.columnPackage t c g 0), method := 1 }) (s.setHome t 2 0)
  if poisoned then
    (List.range 256).foldl (fun u i => u.writeCask (4 * t + i / 64) (i % 64) [] fullBe true w) s1
  else s1

/-- A tile gets its first home in a slot. -/
def State.vatHome (s : State) (t slot : Nat) (poisoned : Bool) (w : Traffic) : State :=
  let s1 := s.setHome t 1 slot
  if poisoned then s1.poisonSlot slot w else s1

/-- The column of a cask of the tile has room for one sector at least, so that a first home in the cellar finds room (R78; DEDUCED, log entry 24). -/
def State.columnRoom (s : State) (t g : Nat) : Bool :=
  [0, 1, 2, 3].all (fun c => (s.findColumn t c g 1).1.isSome)

/-- The first write to a tile of HOME 0, or of HOME 4, gives it a home by its region's TIER_POLICY (R45, R79); exhaustion draws on the emergency reserve or drops the write (R78). -/
def State.firstHome (s : State) (t : Nat) (w : Traffic) : State :=
  match s.tileRegion t with
  | none => s
  | some (g, r) =>
    let poisoned := decide (s.home t = 4)
    let spare (s : State) : State :=
      match s.takePool .tile with
      | some (slot, s1) => (s1.vatHome t slot poisoned w).settleUsage
      | none =>
        let s0 := s.exhausted
        match s0.takeEmergency with
        | some (slot, s1) => (s1.vatHome t slot poisoned w).settleUsage
        | none => s0.capDrop t false
    let cellar (s : State) : State := if s.columnRoom t g then s.cellarHome t g poisoned w else spare s
    if r.policy = 1 then
      match s.takeSlot .pin with
      | some (slot, s1) => s1.vatHome t slot poisoned w
      | none => cellar s
    else if r.policy = 2 then cellar s
    else if 65536 * s.field 0x018 0x10C 0 8 < s.poolFree then
      match s.takePool .tile with
      | some (slot, s1) => ((s1.vatHome t slot poisoned w).settleUsage).demoteIfLow
      | none => cellar s
    else (cellar s).demoteIfLow

/-! ### Host-tier lines -/

/-- The port and window offset of a host-tier tile (R51), and the host address of a byte of it (R73). -/
def State.hostPort (s : State) (t : Nat) : Nat := bits (s.loc t) 29 3
def State.windowAddr (s : State) (p o : Nat) : Nat := s.word64 0x018 (0x140 + 0x10 * p) / 16384 * 16384 + 16384 * o
def State.hostAddr (s : State) (t off : Nat) : Nat := s.windowAddr (s.hostPort t) (bits (s.loc t) 0 29) + off

/-- The poison bit of a host-tier line lies in the tile's cask-map mask (R53). -/
def State.hostPoison (s : State) (t i : Nat) : Bool := (s.cmap (4 * t + i / 64)).testBit (i % 64)
def State.setHostPoison (s : State) (t i : Nat) (b : Bool) : State :=
  s.setCmap (4 * t + i / 64) (setBits (s.cmap (4 * t + i / 64)) (i % 64) 1 (if b then 1 else 0))

/-- The runs of enabled bytes of a line: first byte and bytes. -/
def enabledRuns (data : List Byte) (be : BitVec 64) : List (Nat × List Byte) :=
  (List.range 64).foldl (fun acc i =>
    if be.getLsbD i then
      match acc.getLast? with
      | some (o, l) => if o + l.length = i then acc.dropLast ++ [(o, l ++ [data.getD i 0#8])] else acc ++ [(i, [data.getD i 0#8])]
      | none => [(i, [data.getD i 0#8])]
    else acc) []

/-- A DMA write to a host-tier window; one of a function in D3hot, which issues no request, waits for D0 (R234). -/
def State.dmaOut (s : State) (p haddr : Nat) (data : List Byte) (cls : Nat) : State :=
  match portOf p with
  | some q => if (s.port q).d3hot then s.modPort q (fun x => { x with heldWrites := x.heldWrites ++ [(haddr, data, cls)] })
    else s.emit (.dmaWrite p haddr data false cls)
  | none => s

/-- Send the enabled bytes of a line to host memory as DMA writes, in a class (R20). -/
def State.dmaLine (s : State) (p haddr : Nat) (data : List Byte) (be : BitVec 64) (cls : Nat) : State :=
  (enabledRuns data be).foldl (fun u r => u.dmaOut p (haddr + r.1) r.2 cls) s

/-- A write to a host-tier line (R53, R74): dropped with its poison bit set while the window is offline; a poisoned line is written as zeros. -/
def State.writeHost (s : State) (t i : Nat) (new : List Byte) (be : BitVec 64) (poison : Bool) (cls : Nat) : State :=
  let p := s.hostPort t
  if !(s.windowOnline p) then s.setHostPoison t i true
  else if poison then (s.setHostPoison t i true).dmaLine p (s.hostAddr t (64 * i)) (List.replicate 64 0#8) fullBe cls
  else if be = fullBe then (s.setHostPoison t i false).dmaLine p (s.hostAddr t (64 * i)) new be cls
  else if s.hostPoison t i then s
  else s.dmaLine p (s.hostAddr t (64 * i)) new be cls

/-- The class of a host-tier access (R20, R73, R261): that of the line's region, but class 3 for the racking engine and other background work. -/
def State.hostClass (s : State) (a : Nat) (w : Traffic) : Nat := if w = background then 3 else s.classOf a

/-- A line of a host-tier tile within one step, for someone: poisoned by mask or while the window is offline, else the partner's answer, else it timed out, which sets HOST_TIMEOUT (R44, R74, R75). The read goes out under a tag (R278). -/
def State.readHost (s : State) (t i : Nat) (host : HostLines) (w : Traffic) : List Byte × Bool × State :=
  let zero := List.replicate 64 0#8
  match portOf (s.hostPort t) with
  | none => (zero, true, s)
  | some p =>
    let ask (answered : Bool) : Bool × State :=
      if s.canMaster p then s.readWithin p (s.hostAddr t (64 * i)) 64 (s.hostClass (16384 * t + 64 * i) w) answered else (false, s)
    if !(s.windowOnline p.val) ∨ s.hostPoison t i then (zero, true, s)
    else match answerAt host (16384 * t + 64 * i) with
      | some h =>
        (match ask true with
         | (true, u) => if h.ep then (zero, true, (u.err (prtPage p) 15).aer p 1) else ((padTo 64 h.data).take 64, false, u)
         | (false, u) => (zero, true, u.err 0x018 14))
      | none => (zero, true, (ask false).2.err 0x018 14)

/-! ### A line of a tile, wherever it lives -/

/-- Read a line of a tile from its home within one step, for someone (R19, R20, R44), with the wrong bits that its cells and its map entries hold (R50, R337, R338): data, poison, and whether a line of the vat was found uncorrectable. -/
def State.readTileEcc (s0 : State) (t i : Nat) (host : HostLines) (w : Traffic) : List Byte × Bool × Bool × State :=
  let a := 16384 * t + 64 * i
  let s := s0.findTile t w (upsetAt host a isTileMap)
  match s.home t with
  | 0 => (List.replicate 64 0#8, false, false, s)
  | 1 => let (v, ue, u) := s.readVatEcc (s.loc t) i a (upsetAt host a isHit) 0; (v.1, v.2, ue, u.dramVat (s.loc t) i false w)
  | 2 =>
    let u := s.findCask (4 * t + i / 64) w (upsetAt host a isCaskMap)
    if u.home t = 2 then (let (d, q, v) := u.caskLine (4 * t + i / 64) (i % 64) w host; (d, q, false, v)) else (List.replicate 64 0#8, true, false, u)
  | 3 =>
    let u := s.findCask (4 * t + i / 64) w (upsetAt host a isCaskMap)
    if u.home t = 3 then (let (d, q, v) := u.readHost t i host w; (d, q, false, v)) else (List.replicate 64 0#8, true, false, u)
  | _ => (List.replicate 64 0#8, true, false, s)

/-- The same without saying which error made the line poisoned. -/
def State.readTile (s : State) (t i : Nat) (host : HostLines) (w : Traffic) : List Byte × Bool × State :=
  let (d, q, _, u) := s.readTileEcc t i host w
  (d, q, u)

/-- A write marks its line in the mask of a move that is copying (R68). -/
def State.markMove (s : State) (t i : Nat) : State :=
  s.modMove t (fun m => if m.phase = .copy ∨ m.phase = .recopy then { m with mask := m.mask ||| BitVec.ofNat 256 (2 ^ i) } else m)

/-- Write a line of a tile into its home within one step, for someone, giving it a home first where it has none (R19, R45, R68, R79). -/
def State.writeTile (s0 : State) (t i : Nat) (new : List Byte) (be : BitVec 64) (poison : Bool) (w : Traffic) (host : HostLines := []) : State :=
  let a := 16384 * t + 64 * i
  let s' := s0.findTile t w (upsetAt host a isTileMap)
  let s := if s'.home t = 2 ∨ s'.home t = 3 then s'.findCask (4 * t + i / 64) w (upsetAt host a isCaskMap) else s'
  let s1 := if s.home t = 0 ∨ s.home t = 4 then s.firstHome t w else s
  let s2 := match s1.home t with
    | 1 => (s1.mergeVat (s1.loc t) i a new be poison (upsetAt host a isHit)).dramVat (s1.loc t) i true w
    | 2 => s1.writeCask (4 * t + i / 64) (i % 64) new be poison w host
    | 3 => s1.writeHost t i new be poison (s1.hostClass a w)
    | _ => s1
  s2.markMove t i

end Sys2Proof.Machine
end

