-- ==== Sys2Proof/Machine/Racking.lean ====
section
/-! DEFINITION. The racking engine's moves (R67 to R75), heat walking (R63), host-tier windows (R73, R74), the exhaustion log, and background re-encoding (R81). -/

namespace Sys2Proof.Machine

/-! ### The end of a move -/

/-- The timers of the buffers of a tile's casks restart; the moment of the last write stays what it was (R106, R108). -/
def State.restartTimers (s : State) (t : Nat) : State :=
  { s with prs := { s.prs with bufs := s.prs.bufs.map (fun b =>
      if b.cask / 4 = t then { b with openedAt := s.now, idleFrom := s.now } else b) } }

/-- A promotion that waited for a move of the tile is decided again (R64, R72): a tile of a vat-pinned region that is not in the vat is promoted, any other by its heat in its home. -/
def State.promoteAgain (s : State) (t : Nat) : State :=
  if s.rck.promoteWait.contains t then
    let s1 := { s with rck := { s.rck with promoteWait := s.rck.promoteWait.filter (fun x => decide (x ≠ t)) } }
    if s1.tilePolicy t = some 1 then (if s1.home t = 2 ∨ s1.home t = 3 then s1.acceptMove t .promotion else s1)
    else s1.promoteIfDue t
  else s

/-- After a move of a tile: one left in the cellar is tested for HOME 0 (R46), relocations that waited for the move are done (R72, R348, R349), and a promotion that waited is decided. -/
def State.afterMove (s : State) (t : Nat) : State :=
  ([0, 1, 2, 3].foldl (fun (u : State) c => u.settleCask (4 * t + c)) (s.zeroTest t)).promoteAgain t

/-- A move is abandoned (R67, R69, R70): its destination is freed, the tile keeps its source home, MOVING clears. The abandonment of a promotion, and any at the deadline, writes the decayed heat in the current epoch and sets HOLD. A promotion into the vat-pinned policy is tried again in the next epoch (R64). -/
def State.abandonMove (s : State) (t page evt : Nat) (atDeadline : Bool) : State :=
  match s.moveOf t with
  | none => s
  | some m =>
    let s1 := ((s.dropMove t).restartTimers t).count page evt
    let s2 := if m.kind = .promotion ∨ atDeadline then
        (let u := s1.writeHeat t (s1.decayed t); u.setTmap t (setBits (u.tmap t) 4 1 1)) else s1
    let s3 := if m.kind = .promotion ∧ s2.tilePolicy t = some 1 then
        { s2 with rck := { s2.rck with pinRetry := s2.rck.pinRetry ++ [t] } } else s2
    (s3.settleUsage).afterMove t

/-- Take a finished move out of flight; MOVING clears. -/
def State.closeMove (s : State) (t : Nat) : State :=
  let s1 := s.setMoving t false
  { s1 with rck := { s1.rck with moves := s1.rck.moves.filter (fun m => decide (m.tile ≠ t)) } }

/-- The four casks of a moved tile are encoded under the hint the move began with into the sectors held for them; what they do not need is freed, and no decoded cask of the tile stays in a cache (R67, R72, R94, R104). -/
def State.encodeTile (s : State) (t : Nat) (m : Move) (places : List (Nat × Nat)) (r : Region) : State :=
  (places.zipIdx).foldl (fun (u : State) e =>
    let c := e.2
    let (pkg, x) := e.1
    let poison := m.bufPoison.extractLsb' (64 * c) 64
    let enc := encodeCask m.hint (u.curTable r) (Memory.bytes m.buf (4096 * c) 4096) poison
    let u1 := ((u.addRef enc.table).storeCask (4 * t + c) pkg x enc).markSectors pkg (x + enc.length) (65 - enc.length) false
    (u1.dramCellar pkg x enc.length true background).cacheDrop (4 * t + c)) s

/-- A slot that a committed move brings a tile into belongs to the part of the vat that the tile's region has a claim on now (R38, R54, R72). -/
def State.claimSlot (s : State) (t slot : Nat) : State := s.setUse slot (if s.tilePolicy t = some 1 then .pin else .tile)

/-- COMMIT (R67, R71): the source is freed and HOME and LOC are written in one update. -/
def State.commitMove (s : State) (t : Nat) : State :=
  match s.moveOf t, s.tileRegion t with
  | some m, some (_, r) =>
    match m.dest with
    | .slot x =>
      let s1 := (s.putTile x m.buf m.bufPoison).freeBacking t
      (((((s1.setHome t 1 x).claimSlot t x).closeMove t).count 0x018 0).settleUsage).afterMove t
    | .casks places =>
      let evt := if m.kind = .recall then 3 else 1
      let s1 := (s.freeBacking t).closeMove t
      let s2 := (s1.setHome t 2 0).encodeTile t m places r
      ((s2.count 0x018 evt).settleUsage).afterMove t
    | .window p o =>
      let s1 := (s.freeBacking t).setHome t 3 (p * 2 ^ 29 + o)
      let s2 := [0, 1, 2, 3].foldl (fun (u : State) c => u.setCmap (4 * t + c) (m.bufPoison.extractLsb' (64 * c) 64).toNat) s1
      (((s2.closeMove t).count 0x018 2).settleUsage).afterMove t
    | .none => s
  | _, _ => s

/-! ### Destinations and copies -/

/-- A port whose window has room, the first from a place that is the Izxaca's choice (log entry 8). -/
def State.pickWindow (s : State) : Option Nat × State :=
  let (d, s1) := s.draw
  (firstFrom s.windowRoom 6 6 (Config.freePlace d % 6), s1)

/-- A free offset of a port's window. -/
def State.pickOffset (s : State) (p : Nat) : Option Nat × State :=
  let (d, s1) := s.draw
  let n := s.field 0x018 (0x148 + 0x10 * p) 0 29
  let taken := s.windowTaken p
  (if n = 0 then none else firstFrom (fun o => !(taken.contains o)) n n (Config.freePlace d % n), s1)

/-- Hold 65 sectors, the most a cask takes, for each of a tile's four casks (R59, R95; log entry 23). -/
def State.holdCasks (s : State) (t g : Nat) : Option (List (Nat × Nat) × State) :=
  [0, 1, 2, 3].foldl (fun (acc : Option (List (Nat × Nat) × State)) c =>
    match acc with
    | none => none
    | some (l, u) => match u.takeSectors t c g 65 with
      | some (p, x, u1) => some (l ++ [(p, x)], u1)
      | none => none) (some ([], s))

/-- A copy from the host tier issues its reads in class 3, none larger than Max Read Request Size, as far as the lending port may read and tags are free; the rest follow when tags are freed (R73, R232, R234, R278). fuel bounds the reads. -/
def State.pumpMove (s : State) (t : Nat) : Nat → State
  | 0 => s
  | fuel + 1 =>
    match s.moveOf t, portOf (s.hostPort t) with
    | some m, some p =>
      if m.phase = .copy ∧ s.home t = 3 ∧ m.asked < 16384 ∧ s.canMaster p then
        let n := min (16384 - m.asked) (max 64 (s.port p).mrrs)
        match s.issueRead p (s.hostAddr t m.asked) n 3 (.move t m.asked) with
        | none => s
        | some s1 => (s1.modMove t (fun m => { m with asked := m.asked + n })).pumpMove t fuel
      else s
    | _, _ => s

/-- The copies from a port's window go on issuing reads. -/
def State.pumpMoves (s : State) (p : Port) : State :=
  (s.rck.moves.filter (fun m => decide (m.phase = .copy) && decide (s.home m.tile = 3) && decide (s.hostPort m.tile = p.val))).foldl
    (fun u m => u.pumpMove m.tile 256) s

/-- The move enters COPY with its destination held (R67); a copy from the host tier issues its reads (R73, R278). -/
def State.beginCopy (s : State) (t : Nat) (d : MoveDest) : State :=
  ((s.modMove t (fun m => { m with phase := .copy, dest := d, mask := 0 })).pumpMove t 256).settleUsage

/-- A move in ALLOC takes its destination, where one is to be had (R65, R67): a promotion of a vat-pinned tile from the pin reservation, which no longer has a slot for it once its region is unpinned (R38, R54). -/
def State.holdDest (s : State) (t : Nat) : State :=
  match s.moveOf t, s.tileRegion t with
  | some m, some (g, _) =>
    if m.phase ≠ .alloc then s
    else match m.kind with
      | .promotion =>
        let u := if m.policy = 1 ∧ s.tilePolicy t = some 1 then s.takeSlot .pin else s.takePool .tile
        match u with
        | some (x, s1) => (s1.beginCopy t (.slot x)).demoteIfLow
        | none => s.demoteIfLow
      | .spill =>
        match s.pickWindow with
        | (some p, s1) => match s1.pickOffset p with
          | (some o, s2) => s2.beginCopy t (.window p o)
          | (none, _) => s
        | (none, _) => s
      | _ =>
        match s.holdCasks t g with
        | some (l, s1) => s1.beginCopy t (.casks l)
        | none => s
  | _, _ => s

/-- A line of a move's source now, read in class 3: with the wrong bits its cells hold (R337, R338); from the partner's answers for a host-tier source, none where it was not answered (R70). -/
def State.sourceLine (s : State) (t i : Nat) (host : HostLines) : Option (List Byte × Bool) × State :=
  if s.home t = 3 then
    if s.hostPoison t i then (some (List.replicate 64 0#8, true), s)
    else match answerAt host (16384 * t + 64 * i) with
      | some _ => let (d, q, u) := s.readTile t i host background; (some (d, q), u)
      | none => let (_, _, u) := s.readHost t i [] background; (none, u)
  else
    let (d, q, u) := s.readTile t i host background
    (some (d, q), u)

/-- Copy the lines of a set into a move's buffer; a slot is written as they come, and for a spill they are sent to host memory, poisoned ones as zeros (R53). The Bool says that every line was read. -/
def State.copyLines (s : State) (t : Nat) (lines : BitVec 256) (host : HostLines) : State × Bool :=
  (List.range 256).foldl (fun (acc : State × Bool) i =>
    if lines.getLsbD i && acc.2 then
      match acc.1.sourceLine t i host with
      | (none, u) => (u, false)
      | (some (d, q), u) =>
        let bit := BitVec.ofNat 256 (2 ^ i)
        let data := if q then List.replicate 64 0#8 else d
        let u1 := u.modMove t (fun m => { m with
          buf := Memory.store m.buf (64 * i) data, bufPoison := if q then m.bufPoison ||| bit else m.bufPoison &&& ~~~bit })
        match ((u1.moveOf t).map (fun (m : Move) => m.dest) : Option MoveDest) with
        | some (.window p o) => (u1.dmaLine p (u1.windowAddr p o + 64 * i) data fullBe 3, true)
        | some (.slot x) => (u1.dramVat x i true background, true)
        | _ => (u1, true)
    else acc) (s, true)

/-- After a copy or a round: COMMIT with an empty mask, a further round while fewer than two were used, else the move is abandoned (R67). -/
def State.nextRound (s : State) (t : Nat) : State :=
  match s.moveOf t with
  | none => s
  | some m =>
    if m.mask = 0 then s.commitMove t
    else if m.rounds < 2 then s.modMove t (fun m => { m with phase := .recopy, todo := m.mask, mask := 0, rounds := m.rounds + 1 })
    else s.abandonMove t 0x018 5 false

/-- Reads of a move are still outstanding. -/
def State.movePending (s : State) (t : Nat) : Bool :=
  allPorts.any (fun p => (s.port p).tags.any (fun g => !g.quarantined && (match g.consumer with | .move u _ => decide (u = t) | _ => false)))

/-- A copy or re-copy round of a move ends (R67, R70, R71). -/
def State.copyEnd (s : State) (t : Nat) (host : HostLines) (writeFails : Bool) : State :=
  match s.moveOf t with
  | none => s
  | some m =>
    if m.phase = .copy ∨ m.phase = .recopy then
      if writeFails then s.abandonMove t 0x019 2 false
      else if m.phase = .copy ∧ s.home t = 3 then
        if m.asked < 16384 then s.pumpMove t 256
        else if s.movePending t then s
        else
          let poison := (List.range 256).foldl (fun (b : BitVec 256) i => if s.hostPoison t i then b ||| BitVec.ofNat 256 (2 ^ i) else b) m.bufPoison
          (s.modMove t (fun m => { m with bufPoison := poison })).nextRound t
      else
        let lines := if m.phase = .copy then BitVec.allOnes 256 else m.todo
        match s.copyLines t lines host with
        | (u, true) => u.nextRound t
        | (u, false) => u.abandonMove t 0x019 2 false
    else s

/-- A move's data from a DMA read: bytes of the tile from an offset, with the lines that carried EP (R71, R243); each goes into the slot of its destination in class 3 (R19). -/
def State.moveData (s : State) (t off : Nat) (g : Tag) : State :=
  let poison := (List.range ((g.bytes + 63) / 64)).foldl (fun (b : BitVec 256) i =>
    if sget false g.ep i then b ||| BitVec.ofNat 256 (2 ^ (off / 64 + i)) else b) 0
  let s1 := s.modMove t (fun m => { m with buf := Memory.store m.buf off (Memory.bytes g.data 0 g.bytes), bufPoison := m.bufPoison ||| poison })
  match ((s1.moveOf t).map (fun (m : Move) => m.dest) : Option MoveDest) with
  | some (.slot x) => (List.range ((g.bytes + 63) / 64)).foldl (fun u i => u.dramVat x (off / 64 + i) true background) s1
  | _ => s1

/-- Abandon the moves of a region's tiles, or of one tile, for a cause of R70. -/
def State.abandonWhere (s : State) (p : Move → Bool) : State :=
  (s.rck.moves.filter p).foldl (fun u m => u.abandonMove m.tile 0x019 2 false) s

/-! ### Commands without a requester -/

/-- MOVE_DEQUEUE (R67): the oldest queued move enters ALLOC while fewer than MAX_MOVES are active. -/
def execMoveDequeue (s : State) : Result :=
  if s.activeMoves < s.field 0x018 0x114 0 11 then
    match s.rck.moves.find? (fun m => decide (m.phase = .queued)) with
    | some m => done (s.modMove m.tile (fun m => { m with phase := .alloc, allocAt := s.now }))
    | none => done s
  else done s

/-- MOVE_DEST_HELD (R67): a move in ALLOC takes its destination. -/
def execMoveDestHeld (tile : Nat) (s : State) : Result := done (s.holdDest tile)

/-- MOVE_COPY_END (R67): a copy or re-copy round ends. -/
def State.moveCopyEnd (s : State) (tile : Nat) (host : HostLines) (writeFails : Bool) : State := s.copyEnd tile host writeFails

/-- MOVE_DEADLINE (R69): a move not committed MOVE_DEADLINE_US after ALLOC is abandoned, and HOLD is set. -/
def State.moveDeadline (s : State) (tile : Nat) : State :=
  match s.moveOf tile with
  | some m =>
    if m.phase = .queued then s
    else (s.until (m.allocAt + us * s.field 0x018 0x110 0 16)).abandonMove tile 0x018 4 true
  | none => s

/-- HEAT_WALK (R63): the walker rewrites HEAT and STAMP of an entry to the decayed value, and gathers demotion candidates. Reading the entry meets the errors of its place (R50). -/
def execHeatWalk (tile : Nat) (s : State) (upset : Upset := .none) : Result :=
  let u := s.findTile tile background upset
  if u.heat tile = 0 then done u else done ((u.writeHeat tile (u.decayed tile)).demoteIfLow)

/-- A heat epoch begins (R62, R64): promotions into vat-pinned regions that were abandoned are tried again, behind a move of the tile that runs. -/
def State.newEpoch (s : State) : State :=
  let s1 := s.until ((s.epoch + 1) * (1000 * s.field 0x018 0x108 16 16))
  let retry := s1.rck.pinRetry
  let s2 := { s1 with rck := { s1.rck with pinRetry := [], epoch := s1.epoch } }
  retry.foldl (fun u t =>
    if u.tilePolicy t = some 1 ∧ (u.home t = 2 ∨ u.home t = 3) then
      (match u.moveOf t with
       | none => u.acceptMove t .promotion
       | some m => if m.kind = .promotion ∨ u.rck.promoteWait.contains t then u
         else { u with rck := { u.rck with promoteWait := u.rck.promoteWait ++ [t] } })
    else u) s2

/-- Pop the exhaustion log and clear OVF; with the log empty, no effect (RCK_EXH_POP). -/
def State.exhPop (s : State) : State :=
  match s.rck.exhLog with
  | [] => s
  | _ :: rest => { s with rck := { s.rck with exhLog := rest, exhOvf := 0 } }

/-! ### Host windows -/

/-- The DMA writes of a window that wait for D0 are dropped, as writes to a window that is offline are, with the poison bits of their lines set (R74, R234). -/
def State.dropHeld (s : State) (p : Port) : State :=
  let s1 := s.modPort p (fun x => { x with heldWrites := [] })
  (s.port p).heldWrites.foldl (fun (u : State) h =>
    (s.hostTiles p.val).foldl (fun (v : State) t =>
      if s.hostAddr t 0 ≤ h.1 ∧ h.1 < s.hostAddr t 0 + 16384 then v.setHostPoison t ((h.1 - s.hostAddr t 0) / 64) true else v) u) s1

/-- The function returns to D0: the DMA writes that waited go out, in order (R234). -/
def State.sendHeld (s : State) (p : Port) : State :=
  (s.port p).heldWrites.foldl (fun u h => u.emit (.dmaWrite p.val h.1 h.2.1 false h.2.2)) (s.modPort p (fun x => { x with heldWrites := [] }))

/-- A window goes offline (R74): HOST_OFFLINE, and the moves from or to it are abandoned (R70). -/
def State.windowOff (s : State) (p : Port) : State :=
  if s.windowOnline p.val then
    let s1 := ((s.setField 0x018 (0x14C + 0x10 * p.val) 1 1 0).err 0x018 12).dropHeld p
    s1.abandonWhere (fun m => (decide (s1.home m.tile = 3) && decide (s1.hostPort m.tile = p.val))
      || (match m.dest with | .window q _ => decide (q = p.val) | _ => false))
  else s

/-- The conditions of R74 other than RESUME: ENABLE, link up, not contained, Bus Master Enable. -/
def State.windowMay (s : State) (p : Port) : Bool :=
  decide (s.field 0x018 (0x14C + 0x10 * p.val) 0 1 = 1) && decide (s.field (prtPage p) 0x100 0 1 = 1) && !(s.contained p) && (s.port p).bme

/-- RESUME (R74): the window comes online where its other conditions hold. -/
def State.windowResume (s : State) (p : Port) : State :=
  if s.windowMay p then s.setField 0x018 (0x14C + 0x10 * p.val) 1 1 1 else s

/-- DISCARD (R74): every tile homed in an offline window takes HOME 4, and the window's space is freed. -/
def State.windowDiscard (s : State) (p : Port) : State :=
  if s.windowOnline p.val then s
  else ((s.hostTiles p.val).foldl (fun u t => ((u.dropMove t).clearCasks t).setHome t 4 0) s).settleUsage

/-! ### Background re-encoding -/

/-- REENCODE (R81): a cask with STALE_TABLE is sent to its press, within the rate, unless its tile moves (R72) or its buffer is open. -/
def execReencode (cask : Nat) (s : State) : Result :=
  let m := s.now / ms
  let sent := if s.rck.reencodeMs.1 = m then s.rck.reencodeMs.2 else 0
  if s.field 0x018 0x100 2 1 = 1 ∧ sent < s.field 0x018 0x118 0 16 ∧ s.home (cask / 4) = 2 ∧ (s.cask cask).stale
      ∧ !(s.cask cask).quarantined ∧ !(s.moving (cask / 4)) ∧ (s.bufOf cask).isNone ∧ !(s.rck.reencodes.contains cask) then
    done { s with rck := { s.rck with reencodes := s.rck.reencodes ++ [cask], reencodeMs := (m, sent + 1) } }
  else done s

end Sys2Proof.Machine
end

