-- ==== Sys2Proof/Machine/Access.lean ====
section
/-! DEFINITION. Lines of the unified range as an actor sees them: the drafts and publications of published regions (R128 to R131, R135), and the reads and writes of queue work, jobs, data engines, services and cores, with the rights check of R42. -/

namespace Sys2Proof.Machine

/-! ### Drafts and publications -/

/-- A writer's draft of a region (R128). -/
def State.draftOf (s : State) (g w : Nat) : Option Draft := s.edn.drafts.find? (fun d => decide (d.region = g ∧ d.writer = w))

/-- Draft tiles in use, those of publications not yet folded among them (EDN_DRAFT_USED). -/
def State.draftsUsed (s : State) : Nat :=
  (s.edn.drafts.map (fun d => d.tiles.length)).sum + (s.edn.pubs.map (fun d => d.tiles.length)).sum

/-- Replace a writer's draft of a region. -/
def State.putDraft (s : State) (d : Draft) : State :=
  { s with edn := { s.edn with drafts := s.edn.drafts.filter (fun x => !(decide (x.region = d.region ∧ x.writer = d.writer))) ++ [d] } }

/-- Free the slots of draft tiles. -/
def State.freeDraftTiles (s : State) (l : List DraftTile) : State := l.foldl (fun u d => u.freeSlot d.slot) s

/-- Discard a writer's draft of a region: its tiles are freed. -/
def State.discardDraft (s : State) (g w : Nat) : State :=
  match s.draftOf g w with
  | none => s
  | some d =>
    ({ (s.freeDraftTiles d.tiles) with edn := { s.edn with drafts := s.edn.drafts.filter (fun x => !(decide (x.region = g ∧ x.writer = w))) } }).settleUsage

/-- A line of a draft tile's slot: one in a channel out of service reads as poisoned (R350). -/
def State.draftCell (s : State) (slot i : Nat) : List Byte × Bool :=
  if s.lineOut slot i then (List.replicate 64 0#8, true) else s.vatLine slot i

/-- A line of a tile among draft tiles, where it is marked written. -/
def State.draftLineIn (s : State) (l : List DraftTile) (t i : Nat) : Option (List Byte × Bool) :=
  match l.find? (fun d => decide (d.tile = t)) with
  | some d => if d.mask.getLsbD i then some (s.draftCell d.slot i) else none
  | none => none

/-- A line as published: the newest accepted publication that marks it (R130). -/
def State.publishedLine (s : State) (g t i : Nat) : Option (List Byte × Bool) :=
  s.edn.pubs.reverse.findSome? (fun p => if p.region = g then s.draftLineIn p.tiles t i else none)

/-- A line as a reader of a published region sees it, where the tile's home does not decide it (R130). -/
def State.viewLine (s : State) (g w t i : Nat) : Option (List Byte × Bool) :=
  match (s.draftOf g w).bind (fun d => s.draftLineIn d.tiles t i) with
  | some v => some v
  | none => s.publishedLine g t i

/-- The slot of a writer's draft that marks a line written, and of the publication that a reader sees it in (R130). -/
def slotIn (l : List DraftTile) (t i : Nat) : Option Nat :=
  match l.find? (fun d => decide (d.tile = t)) with
  | some d => if d.mask.getLsbD i then some d.slot else none
  | none => none
def State.draftSlot (s : State) (g w t i : Nat) : Option Nat := (s.draftOf g w).bind (fun d => slotIn d.tiles t i)
def State.publishedSlot (s : State) (g t i : Nat) : Nat :=
  (s.edn.pubs.reverse.findSome? (fun p => if p.region = g then slotIn p.tiles t i else none)).getD 0

/-- A write to a published region needs the line of the tile's home first: it is partial, and neither the draft nor a publication holds the line (R129). -/
def State.draftNeedsHome (s : State) (g w t i : Nat) (be : BitVec 64) (poison : Bool) : Bool :=
  !poison && decide (be ≠ fullBe) && (s.viewLine g w t i).isNone

/-- A draft is marked broken (R131). -/
def State.breakDraft (s : State) (d : Draft) : State :=
  ((s.putDraft { d with broken := true }).count 0x011 4).err 0x011 8

/-- The line that a write to a draft is merged with, as the writer sees it: one of some of its bytes meets the wrong bits of the cells it reads (R129, R337, R338). -/
def State.viewMerged (s : State) (g w t i : Nat) (be : BitVec 64) (poison : Bool) (upset : Upset) : Option (List Byte × Bool) × State :=
  match s.viewLine g w t i with
  | none => (none, s)
  | some v =>
    if poison ∨ be = fullBe ∨ !(isHit upset) then (some v, s)
    else
      let (x, _, u) := s.readVatEcc ((s.draftSlot g w t i).getD (s.publishedSlot g t i)) i (16384 * t + 64 * i) upset 0
      (some x, u)

/-- A write to a line of a writer's draft, over the line old (R128, R129, R131). The Bool says that the write was dropped. -/
def State.writeDraft (s : State) (g w t i : Nat) (old : List Byte × Bool) (new : List Byte) (be : BitVec 64) (poison : Bool) (by' : Traffic) (upset : Upset := .none) : Bool × State :=
  let d := (s.draftOf g w).getD { region := g, writer := w }
  if d.broken then (true, s)
  else
    let put (u0 : State) (e : DraftTile) : State :=
      let (seen, u) := u0.viewMerged g w t i be poison upset
      let v := writeOver (seen.getD old) new be poison
      let e1 := { e with mask := e.mask ||| BitVec.ofNat 256 (2 ^ i) }
      (u.putDraft { d with tiles := d.tiles.filter (fun x => decide (x.tile ≠ t)) ++ [e1] }).putVatLine e.slot i v |>.dramVat e.slot i true by'
    match d.tiles.find? (fun x => decide (x.tile = t)) with
    | some e => (false, put s e)
    | none =>
      if s.field 0x011 0x104 0 21 ≤ s.draftsUsed then (true, s.breakDraft d)
      else match s.takePool .draft with
        | some (slot, u) => (false, (put u { tile := t, slot := slot }).settleUsage)
        | none => (true, s.breakDraft d)

/-! ### Access by queue work, engines, services and cores -/

/-- A line that an actor has read. -/
structure LineIn where
  data : List Byte
  poison : Bool
  refused : Bool := false
  /-- The line's address, where the read found it uncorrectable, as distinct from marked poisoned (R214, R338). -/
  ue : Option Nat := none
deriving DecidableEq, Repr, Inhabited

/-- A poisoned line. -/
def LineIn.bad (refused : Bool) : LineIn := { data := List.replicate 64 0#8, poison := true, refused := refused }

/-- For whom the work of an actor accesses memory: its class, and its port as the source (R261, R321). -/
def workTraffic (actor cls : Nat) : Traffic := ⟨cls, min actor 6⟩

/-- An access of queue work passed its rights check under an entry that has changed since (R37, R39). -/
def State.passedAs (s : State) (actor line : Nat) (write : Bool) : Bool :=
  s.dir.passed.any (fun e => decide (e.actor = actor ∧ e.line = line) && (e.write || !write))

/-- A write of queue work passed its rights check in a region that has ended: it is dropped, whatever region covers its line now (R39). -/
def State.writeEnded (s : State) (actor line : Nat) : Bool :=
  s.dir.passed.any (fun e => decide (e.actor = actor ∧ e.line = line) && e.write && e.ended)

/-- Why an access of queue work is refused, where it is (R30, R37, R42). -/
def State.workRefusal (s : State) (actor : Nat) (write : Bool) (a : Nat) : Option Nat :=
  if s.passedAs actor (a / 64) write then none else s.refusal actor write false a

/-- A line of a draft or a publication is read from its slot, with the wrong bits its cells hold (R337, R338). -/
def State.readDraft (s : State) (slot i a : Nat) (host : HostLines) (w : Traffic) : LineIn × State :=
  let (v, ue, u) := s.readVatEcc slot i a (upsetAt host a isHit) 0
  ({ data := v.1, poison := v.2, ue := if ue then some a else none }, u.dramVat slot i false w)

/-- The next line that an actor's work reads comes from a flit whose data is bad (R316). -/
def State.meshPoisons (s : State) (actor : Nat) : Bool × State :=
  if s.dir.meshData.contains actor then (true, { s with dir := { s.dir with meshData := s.dir.meshData.erase actor } }) else (false, s)

/-- Read the line at unified address a, as an actor of class cls (R30, R42, R44, R130). heat says that the access counts under R62; a line read from a draft counts none (R131). at is the address a refusal records. A read that was checked before its region ended takes the line from the tile's home (R37). -/
def State.engRead (s' : State) (actor cls : Nat) (a at' : Nat) (host : HostLines) (heat : Bool) : LineIn × State :=
  let (hit, s) := s'.meshPoisons actor
  let marked (x : LineIn × State) : LineIn × State := if hit then (LineIn.bad x.1.refused, x.2) else x
  marked <| match s.workRefusal actor false a with
  | some reason => (LineIn.bad true, s.recordRefusal actor false at' reason)
  | none =>
    let t := tileOf a
    let i := lineOf a
    let w := workTraffic actor cls
    let counted (u : State) : State := if heat then u.heatAccess t u.engineInc else u
    let home (u : State) : LineIn × State := let (d, q, ue, v) := u.readTileEcc t i host w; ({ data := d, poison := q, ue := if ue then some a else none }, v)
    let s1 := s.findTile t w (upsetAt host a isTileMap)
    match s1.findRegion a with
    | some (g, r) =>
      if r.kind ≠ 2 then home (counted s1)
      else match s1.draftSlot g actor t i with
        | some slot => s1.readDraft slot i a host w
        | none =>
          if (s1.publishedLine g t i).isSome then (counted s1).readDraft (s1.publishedSlot g t i) i a host w else home (counted s1)
    | none => home s1

/-- The answer of a partner's memory to a read that a command cannot bring with it: a line the spec says nothing of (a free value, log entry 173). -/
def State.freeLine (s : State) (a : Nat) : HostLine × State :=
  (⟨a, (List.range 64).map (fun i => Config.freeByte (s.freeCtr + i)), false, .none⟩, { s with freeCtr := s.freeCtr + 64 })

/-- What the partner's memory answers where a completion entry written to a draft needs the line of a host-tier home (R129): the line, the line with EP, or nothing in time, whichever the spec leaves open (free values, log entry 173). -/
def State.hostFor (s : State) (actor a : Nat) (be : BitVec 64) : HostLines × State :=
  match s.findRegion a with
  | some (g, r) =>
    if r.kind = 2 ∧ s.draftNeedsHome g actor (tileOf a) (lineOf a) be false ∧ s.home (tileOf a) = 3 then
      let (l, u) := s.freeLine (a / 64 * 64)
      let (d, v) := u.draw
      (if Config.freePlace d % 3 = 0 then [] else [{ l with ep := decide (Config.freePlace d % 3 = 1) }], v)
    else ([], s)
  | none => ([], s)

/-- Write bytes of the line at unified address a, as an actor of class cls. The Bool says that the write was refused or dropped (R42, R131). A write to a tile of HOME 0 or 4 counts no heat (R62). One that was checked before its region ended is dropped, and is no refusal (R39). -/
def State.engWrite (s : State) (actor cls : Nat) (a at' : Nat) (new : List Byte) (be : BitVec 64) (poison : Bool) (host : HostLines) (heat : Bool) : Bool × State :=
  if s.writeEnded actor (a / 64) then (false, s)
  else match s.workRefusal actor true a with
  | some reason => (true, s.recordRefusal actor true at' reason)
  | none =>
    let t := tileOf a
    let i := lineOf a
    let w := workTraffic actor cls
    match s.findRegion a with
    | none => (false, s)
    | some (g, r) =>
      if r.kind = 2 then
        let (old, s1) := if s.draftNeedsHome g actor t i be poison then
            (let (d, q, u) := s.readTile t i host w; ((d, q), u)) else ((List.replicate 64 0#8, false), s)
        s1.writeDraft g actor t i old new be poison w (upsetAt host (a / 64 * 64) isHit)
      else
        let counts := heat && decide (s.home t ≠ 0) && decide (s.home t ≠ 4)
        let s1 := s.writeTile t i new be poison w host
        (false, if counts then s1.heatAccess t s1.engineInc else s1)

/-- Byte enables of n bytes from byte o of a line. -/
def beOf (o n : Nat) : BitVec 64 := BitVec.ofNat 64 ((2 ^ n - 1) * 2 ^ o)

/-- Bytes read from unified address a upward, n of them, whatever lines they lie in: data, poison anywhere, refusal anywhere. The address a refusal records is that of the first byte of the access in the refused line (R42 says the address of the access, and does not speak of one over several lines: DESIGN CHOICE, log entry 152). -/
def State.engBytes (s : State) (actor cls : Nat) (a n : Nat) (host : HostLines) (heat : Bool) : LineIn × State :=
  let first := a / 64
  let lines := if n = 0 then 0 else (a + n - 1) / 64 - first + 1
  let (acc, u) := (List.range lines).foldl (fun (x : LineIn × State) k =>
    let (l, v) := x.2.engRead actor cls (64 * (first + k)) (max a (64 * (first + k))) host heat
    ({ data := x.1.data ++ l.data, poison := x.1.poison || l.poison, refused := x.1.refused || l.refused, ue := x.1.ue <|> l.ue }, v))
    ({ data := [], poison := false }, s)
  ({ acc with data := (acc.data.drop (a % 64)).take n }, u)

/-- Bytes written from unified address a upward, whatever lines they lie in. The Bool says that a write was refused or dropped. Fuel bounds the lines. A refusal records the address of the first byte written in the refused line (log entry 152). -/
def State.engStore (s : State) (actor cls : Nat) (host : HostLines) (heat : Bool) : Nat → Nat → List Byte → Bool × State
  | 0, _, _ => (false, s)
  | fuel + 1, a, l =>
    if l = [] then (false, s)
    else
      let n := min l.length (64 - a % 64)
      let (r, s1) := s.engWrite actor cls (a / 64 * 64) a (List.replicate (a % 64) 0#8 ++ l.take n) (beOf (a % 64) n) false host heat
      let (r2, s2) := s1.engStore actor cls host heat fuel (a + n) (l.drop n)
      (r || r2, s2)

/-- Bytes written from unified address a upward. -/
def State.engPut (s : State) (actor cls a : Nat) (l : List Byte) (host : HostLines) (heat : Bool) : Bool × State :=
  s.engStore actor cls host heat (l.length + 1) a l

end Sys2Proof.Machine
end

