-- ==== Sys2Proof/Machine/Directory.lean ====
section
/-! DEFINITION. The directory of coherent lines (R115 to R127, R426): entries, back-invalidate snoops, the lost-line log, the settling of a lost holder, and the snoops that queue work issues (R118). -/

namespace Sys2Proof.Machine

/-- Sets and ways of the directory (R115). -/
def dirSets : Nat := 524288
def dirWays : Nat := 16

/-- The entry of a line, by line number (unified address div 64); an empty entry stands for none (R115, R116). -/
def State.dirEntry (s : State) (line : Nat) : DirEntry := sget {} s.dir.entries line

/-- The ports that an entry holds. -/
def DirEntry.holders (e : DirEntry) : List Nat :=
  match e.owner with
  | some p => [p]
  | none => (List.range 6).filter (fun p => e.sharers.getLsbD p)

/-- Set an entry; one with no holder is removed. A new entry takes the next allocation stamp. -/
def State.setDir (s : State) (line : Nat) (e : DirEntry) : State :=
  if e.holders = [] then { s with dir := { s.dir with entries := sdel s.dir.entries line } }
  else if (s.dirEntry line).holders = [] then
    { s with dir := { s.dir with next := s.dir.next + 1, entries := sput s.dir.entries line { e with stamp := s.dir.next } } }
  else { s with dir := { s.dir with entries := sput s.dir.entries line { e with stamp := (s.dirEntry line).stamp } } }

/-- One holder fewer. -/
def DirEntry.without (e : DirEntry) (p : Nat) : DirEntry :=
  { e with sharers := e.sharers &&& ~~~(BitVec.ofNat 6 (2 ^ p)), owner := if e.owner = some p then none else e.owner }

/-- An entry in state S, and one in state A. -/
def sharedBy (ports : List Nat) : DirEntry := { sharers := ports.foldl (fun b p => b ||| BitVec.ofNat 6 (2 ^ p)) 0 }
def ownedBy (p : Nat) : DirEntry := { owner := some p }

/-- A snoop for the line is in flight: the entry is pending (R116). -/
def State.dirPending (s : State) (line : Nat) : Bool := s.dir.snoops.any (fun n => decide (n.line = line))

/-- The lost-owner walk of a port runs (R126). -/
def State.walking (s : State) (p : Nat) : Bool := s.dir.walks.getLsbD p

/-! ### Losing a holder -/

/-- Poison a line in its home, for someone (R125, R126); a tile of HOME 4 needs nothing. -/
def State.poisonLine (s0 : State) (line : Nat) (w : Traffic) : State :=
  let t := line / 256
  let i := line % 256
  let s1 := s0.findTile t w .none
  let s := if s1.home t = 2 ∨ s1.home t = 3 then s1.findCask (4 * t + i / 64) w .none else s1
  if s.home t = 4 then s
  else if s.home t = 3 then (s.setHostPoison t i true).markMove t i
  else s.writeTile t i [] fullBe true w

/-- Push a lost line into the log of 4,096, or count it in OVF (R127). -/
def State.logLost (s : State) (line p cause : Nat) : State :=
  let s1 := (s.count 0x010 2).err 0x010 8
  if s1.dir.lostLog.length < 4096 then { s1 with dir := { s1.dir with lostLog := s1.dir.lostLog ++ [⟨64 * line, p, cause⟩] } }
  else (({ s1 with dir := { s1.dir with lostOvf := min 65535 (s1.dir.lostOvf + 1) } }).count 0x010 5).err 0x010 9

/-- Settle one holder of one line (R124): a sharer is dropped; an owner's line is poisoned, in the class given, and logged. -/
def State.settleHolder (s : State) (line p cause : Nat) (w : Traffic) : State :=
  let e := s.dirEntry line
  if e.owner = some p then ((s.poisonLine line w).setDir line (e.without p)).logLost line p cause
  else if e.sharers.getLsbD p then (s.setDir line (e.without p)).count 0x010 4
  else s

/-- Settle, for a line a request meets, every holder whose walk still runs, in the class of the request (R126). -/
def State.settleWalkers (s : State) (line : Nat) (w : Traffic) : State :=
  ((s.dirEntry line).holders.filter s.walking).foldl (fun u p => u.settleHolder line p (sget 0 u.dir.walkCause p) w) s

/-- Settle every entry in which port p appears, in class 3 (R124, R126). -/
def State.settlePort (s : State) (p : Nat) (cause : Nat) : State :=
  ((s.dir.entries.filter (fun e => e.2.holders.contains p)).map (fun e => e.1)).foldl (fun u line => u.settleHolder line p cause background) s

/-- For whom a line is settled that a request waits for: the class of that request, or class 3 where none waits (R126). -/
def State.waiterOf (s : State) (line : Nat) : Traffic :=
  match s.dir.waiting.find? (fun w => match w.1 with
    | .snoop l => decide (l = line)
    | .way v => decide (v = line)
    | .work l _ => decide (l = line)
    | .cpl l _ => decide (l = line)
    | _ => false) with
  | some (.work _ _, r) => workTraffic r.haddr r.tag
  | some (.cpl _ _, r) => workTraffic r.haddr r.tag
  | some (_, r) => ⟨s.classOf r.addr, r.port⟩
  | none => background

/-- The lost-owner rule begins for a port (R123, R124, R126): its walk runs, and the snoops to it count as answered with no data. -/
def State.lostOwner (s : State) (p cause : Nat) : State :=
  if s.walking p then s
  else
    let s1 := { s with dir := { s.dir with
      walks := s.dir.walks ||| BitVec.ofNat 6 (2 ^ p), walkCause := sset 0 s.dir.walkCause p cause
      snoops := s.dir.snoops.filter (fun n => decide (n.port ≠ p)) } }
    (s.dir.snoops.filter (fun n => decide (n.port = p))).foldl (fun u n => u.settleHolder n.line p cause (u.waiterOf n.line)) s1



/-- The host address that the lowest-numbered committed HDM-DB decoder of a port gives for a line (R27, R426). -/
def State.hostOf (s : State) (p : Port) (line : Nat) : Option Nat :=
  let a := 64 * line
  ((s.port p).decoders.toList.find? (fun d => d.committed && !d.hdmH && decide (d.offset ≤ a) && decide (a < d.offset + d.size))).map
    (fun d => a - d.offset + d.base)

/-- Send a snoop of a kind to a holder (R117, R118), or settle the holder at once, in the class of who asks, where its walk runs (R126) or no decoder of it maps the line (R426). -/
def State.snoop (s : State) (q line kind : Nat) (w : Traffic) : State :=
  if s.walking q then s.settleHolder line q (sget 0 s.dir.walkCause q) w
  else match portOf q with
    | none => s
    | some p =>
      match s.hostOf p line with
      | none => s.settleHolder line q 5 w
      | some h =>
        let n : Snoop := { port := q, line := line, kind := kind, biId := (s.port p).biId, biTag := s.dir.next, issuedAt := s.now }
        (({ s with dir := { s.dir with next := s.dir.next + 1, snoops := s.dir.snoops ++ [n] } }).count 0x010 0).emit
          (.biSnp q kind h n.biId n.biTag)

/-- The holders that must be snooped, and the snoop, for a read or a write by port p, or by queue work where p is none (R117, R118). Kinds: 0 BISnpCur, 1 BISnpData, 2 BISnpInv. -/
def snoopsFor (e : DirEntry) (p : Option Nat) (write : Bool) (mv : MetaValue) : List Nat × Nat :=
  let others := e.holders.filter (fun q => decide (some q ≠ p))
  if write then (others, 2)
  else match mv with
    | .A => (others, 2)
    | .S => (if e.owner.isSome then others else [], 1)
    | .I => (if e.owner.isSome then others else [], 0)

/-! ### Queue work -/

/-- Queue work that meets coherent lines: whose rights and class it acts with, and the command that carries it out, or else the queue whose completion entry it writes. -/
structure Worker where
  actor : Nat
  cls : Nat
  cmd : Option Instr := none
  queue : Nat := 0
deriving DecidableEq, Repr, Inhabited

/-- The line a waiting request waits for or has been promised (R116). -/
def waitedLine : WaitWhy × MemReq → Option Nat
  | (.snoop l, _) => some l
  | (.way _, r) => some (r.addr / 64)
  | (.work l _, _) => some l
  | (.cpl l _, _) => some l
  | _ => none

/-- A place that the command took. -/
def placeOf (c : Instr) (w : WaitWhy × MemReq) : Bool := match w.1 with | .work _ c' => decide (c' = c) | _ => false

/-- A place that the completion entries of a queue took. -/
def cplPlace (q : Nat) (w : WaitWhy × MemReq) : Bool := match w.1 with | .cpl _ q' => decide (q' = q) | _ => false

/-- A place that some queue work took. -/
def Worker.owns (k : Worker) (w : WaitWhy × MemReq) : Bool := match k.cmd with | some c => placeOf c w | none => cplPlace k.queue w

/-- The waiting requests for a line that stand before the place of some queue work: all of them where it took none (R116). -/
def State.waitersBefore (s : State) (line : Nat) (k : Worker) : List (WaitWhy × MemReq) :=
  (s.dir.waiting.takeWhile (fun w => !(k.owns w))).filter (fun w => decide (waitedLine w = some line))

/-- Queue work takes its place in the order of those that wait for a line; a further line of the same work stands where the work stands, so that no two wait for each other (R116). -/
def State.takePlace (s : State) (line : Nat) (write : Bool) (k : Worker) : State :=
  let why : WaitWhy := match k.cmd with | some c => .work line c | none => .cpl line k.queue
  let l := s.dir.waiting
  let op := if write then 5 else 4
  if l.any (fun w => decide (w.1 = why)) then
    { s with dir := { s.dir with waiting := l.map (fun w => if w.1 = why then (why, { w.2 with op := max w.2.op op }) else w) } }
  else
    let mine : WaitWhy × MemReq := (why, { port := internal, tag := k.cls, haddr := k.actor, addr := 64 * line, op := op, mv := .I })
    let before := l.takeWhile (fun w => !(k.owns w))
    { s with dir := { s.dir with waiting := before ++ mine :: l.drop before.length } }

/-- Queue work gives up the places it took (R116). -/
def State.leavePlaces (s : State) (k : Worker) : State :=
  { s with dir := { s.dir with waiting := s.dir.waiting.filter (fun w => !(k.owns w)) } }

/-- The work that took a place waits still. -/
def State.stillWaits (s : State) (why : WaitWhy) : Bool :=
  s.dir.waiting.any (fun w => match why, w.1 with
    | .work _ c, .work _ c' => decide (c = c')
    | .cpl _ q, .cpl _ q' => decide (q = q')
    | _, _ => false)

/-- Queue work goes on: it gives up its places, and what other work that waits no more was let pass, or itself where it did not wait, is over (R37, R39). -/
def State.goOn (s : State) (k : Worker) : State :=
  let waited := s.dir.waiting.any k.owns
  let u := s.leavePlaces k
  { u with dir := { u.dir with passed := u.dir.passed.filter (fun e => u.stillWaits e.why || (waited && k.owns (e.why, default))) } }

/-- Queue work meets a coherent line it may access (R42, R116, R118): behind those that wait for the line, the holders are snooped, a read by BISnpData to an owner, a write by BISnpInv to every holder. The Bool says that the access must wait. -/
def State.engHold (s : State) (k : Worker) (line : Nat) (write : Bool) : Bool × State :=
  if (s.workRefusal k.actor write (64 * line)).isSome then (false, s)
  else if s.dirPending line ∨ s.waitersBefore line k ≠ [] then (true, s.takePlace line write k)
  else if (s.dirEntry line).holders = [] then (false, s)
  else
    let w := workTraffic k.actor k.cls
    let s1 := s.settleWalkers line w
    let (qs, kind) := snoopsFor (s1.dirEntry line) none write .S
    let s2 := qs.foldl (fun u q => u.snoop q line kind w) s1
    if s2.dirPending line then (true, s2.takePlace line write k) else (false, s2)

/-- Queue work meets lines, each with whether it is written; the work goes on once none of them makes it wait. -/
def State.holdLines (s : State) (k : Worker) (lines : List (Nat × Bool)) : Bool × State :=
  let (wait, u) := lines.foldl (fun (acc : Bool × State) l => let (w, u) := acc.2.engHold k l.1 l.2; (acc.1 || w, u)) (false, s)
  (wait, if wait then u else u.goOn k)

/-- The lines with an entry, a snoop or a waiting request that lie in the run of n bytes from address a. -/
def State.heldIn (s : State) (a n : Nat) : List Nat :=
  if n = 0 then []
  else
    let lo := a / 64
    let hi := (a + n - 1) / 64
    let held := (s.dir.entries.map (fun e => e.1)) ++ (s.dir.snoops.map (fun n => n.line)) ++ s.dir.waiting.filterMap waitedLine
    (held.filter (fun l => decide (lo ≤ l) && decide (l ≤ hi))).dedup

/-- Queue work meets several runs: start, bytes, whether they are written. -/
def State.engHoldAll (s : State) (k : Worker) (runs : List (Nat × Nat × Bool)) : Bool × State :=
  s.holdLines k (runs.flatMap (fun r => (s.heldIn r.1 r.2.1).map (fun l => (l, r.2.2))))

/-- Work of several owners meets runs, for one command: actor, class, start, bytes, whether they are written. -/
def State.holdWork (s : State) (cmd : Instr) (runs : List (Nat × Nat × Nat × Nat × Bool)) : Bool × State :=
  let (wait, u) := runs.foldl (fun (acc : Bool × State) r =>
    (s.heldIn r.2.2.1 r.2.2.2.1).foldl (fun (a : Bool × State) l =>
      let (w, v) := a.2.engHold ⟨r.1, r.2.1, some cmd, 0⟩ l r.2.2.2.2
      (a.1 || w, v)) acc) (false, s)
  (wait, if wait then u else u.goOn ⟨internal, 0, some cmd, 0⟩)

/-- Queue work meets the lines from address a to a + n - 1. -/
def State.engHoldRun (s : State) (k : Worker) (a n : Nat) (write : Bool) : Bool × State := s.engHoldAll k [(a, n, write)]

/-! ### Answers -/

/-- The answer to a snoop is one its kind permits (R426). -/
def rspPermitted (kind : Nat) : BIRspKind → Bool
  | .invalid => true
  | .shared => decide (kind ≤ 1)
  | .exclusive => decide (kind = 0)
  | .block => false

/-- A snoop is answered: the holder's part of the entry becomes what the answer says (R117). -/
def State.snoopAnswer (s : State) (n : Snoop) (rsp : BIRspKind) : State :=
  let s1 := { s with dir := { s.dir with snoops := s.dir.snoops.filter (fun x => !(decide (x.port = n.port ∧ x.biTag = n.biTag))) } }
  let e := s1.dirEntry n.line
  match rsp with
  | .invalid => s1.setDir n.line (e.without n.port)
  | .shared => if e.owner = some n.port then s1.setDir n.line (sharedBy [n.port]) else s1
  | _ => s1

end Sys2Proof.Machine
end

