-- ==== Sys2Proof/Machine/QueueOps.lean ====
section
/-! DEFINITION. The queue manager's shared operations (R260 to R282): a queue's fields, signals (R280), halts (R275), the writing and holding of completion entries (R265, R273, R276, R277), and the end of an entry. -/

namespace Sys2Proof.Machine

/-! ### A queue's fields -/

/-- The record of queue q. -/
def State.queue (s : State) (q : Nat) : Queue := sget {} s.qmg.queues q

/-- Change the record of queue q. -/
def State.modQueue (s : State) (q : Nat) (f : Queue → Queue) : State :=
  { s with qmg := { s.qmg with queues := sset {} s.qmg.queues q (f (s.queue q)) } }

/-- Ring depth (R262). -/
def Queue.depth (k : Queue) : Nat := 2 ^ bits k.cfg.toNat 0 5
/-- CLASS (R261). -/
def Queue.cls (k : Queue) : Nat := bits k.cfg.toNat 5 2
/-- SQ_HOST and CQ_HOST. -/
def Queue.sqHost (k : Queue) : Bool := k.cfg.toNat.testBit 7
def Queue.cqHost (k : Queue) : Bool := k.cfg.toNat.testBit 8
/-- INT_EN and VECTOR (R280). -/
def Queue.intEn (k : Queue) : Bool := k.cfg.toNat.testBit 9
def Queue.vector (k : Queue) : Nat := bits k.cfg.toNat 10 12
/-- AGG_COUNT, AGG_US and MAX_INFLIGHT. -/
def Queue.aggCount (k : Queue) : Nat := bits k.agg.toNat 0 8
def Queue.aggUs (k : Queue) : Nat := bits k.agg.toNat 8 10
def Queue.maxInflight (k : Queue) : Nat := bits k.agg.toNat 18 9

/-- The port whose function owns the queue, where one does. -/
def Queue.port (k : Queue) : Option Port := if k.ownKind = 1 then portOf k.ownId else none

/-- The rights its work acts with (R30). -/
def Queue.actor (k : Queue) : Nat := if k.ownKind = 1 then k.ownId else internal

/-- Entries of a queue in flight, and whether its ring address of slot i lies where. -/
def State.entriesOf (s : State) (q : Nat) : List Entry := s.qmg.entries.filter (fun e => decide (e.queue = q))

/-- The entry of a queue with a sequence number. -/
def State.entry (s : State) (q seq : Nat) : Option Entry := s.qmg.entries.find? (fun e => decide (e.queue = q ∧ e.seq = seq))

/-- Change an entry. -/
def State.modEntry (s : State) (q seq : Nat) (f : Entry → Entry) : State :=
  { s with qmg := { s.qmg with entries := s.qmg.entries.map (fun e => if e.queue = q ∧ e.seq = seq then f e else e) } }

/-- Completions posted and not yet released by the head (R263). -/
def Queue.posted (k : Queue) : Nat := (k.cqTail + k.depth - k.cqHead) % k.depth

/-- Free completion slots (R264). -/
def Queue.freeSlots (k : Queue) : Nat := k.depth - 1 - k.posted

/-- The queues owned by the function of a port. -/
def State.queuesOf (s : State) (p : Port) : List Nat :=
  (s.qmg.queues.filter (fun e => decide (e.2.ownKind = 1 ∧ e.2.ownId = p.val))).map (fun e => e.1)

/-! ### Signals -/

/-- The signal of a queue (R280). -/
def State.signal (s : State) (q : Nat) : State :=
  let k := s.queue q
  let s1 := s.modQueue q (fun k => { k with unsignalled := 0, firstUnsig := none })
  if k.intEn then
    (match k.ownKind, k.port with
     | 1, some p => s1.sendMsix p k.vector
     | 2, _ => s1.raise k.vector
     | _, _ => s1)
  else s1

/-- A completion has been written: it counts towards a signal, or is signalled at once (R280). -/
def State.countSignal (s : State) (q status : Nat) (noInt : Bool) : State :=
  let k := s.queue q
  if !k.intEn then s
  else if status ≠ 0 then s.signal q
  else if noInt then s
  else if max k.aggCount 1 ≤ k.unsignalled + 1 then s.signal q
  else s.modQueue q (fun k => { k with unsignalled := k.unsignalled + 1, firstUnsig := some (k.firstUnsig.getD s.now) })

/-! ### Halts -/

/-- A running queue halts with a status (R275); one that is halted, disabling or disabled does not. -/
def State.haltQueue (s : State) (q status : Nat) : State :=
  if (s.queue q).state = 1 then
    let s1 := s.modQueue q (fun k => { k with state := 2, haltStatus := status, pendHalt := none })
    ((s1.setWord 0x0B0 0x118 (q + status * 2 ^ 16)).errCount 0x0B0 8 1).signal q
  else s

/-- The statuses that halt their queue (R274). -/
def haltsOn (status : Nat) : Bool := decide (status = 4 ∨ status = 5 ∨ status = 6 ∨ status = 7)

/-! ### Completion entries -/

/-- The 32 bytes of a completion entry (R273). -/
def cplBytes (c : Cpl) (sqHead : Nat) (phase : Bool) : List Byte :=
  leBytes 4 (c.cid + sqHead % 65536 * 2 ^ 16)
    ++ leBytes 4 (c.src + c.status * 2 ^ 16 + (if c.watch then 2 ^ 24 else 0) + (if phase then 2 ^ 31 else 0))
    ++ leBytes 4 c.v0 ++ leBytes 4 c.v1 ++ leBytes 8 c.v2 ++ leBytes 8 c.time

/-- Completion entries of a queue can be written now: its ring lies in the unified range, or its port may issue (R246, R276); a halted queue one of whose completions was refused waits for RESTART (R277). -/
def State.mayPost (s : State) (k : Queue) : Bool :=
  if k.refusedCpl ∧ k.state = 2 then false
  else if k.cqHost then (match k.port with | some p => s.canMaster p | none => false) else true

/-- Write one completion entry at CQ_TAIL (R265, R273); an internal engine reads its ring at once, and the slot is free again (R260). None is written where the ring's write is refused (R277) or waits for snoops (R118). -/
def State.writeCpl (s : State) (q : Nat) (c : Cpl) : Bool × State :=
  let k := s.queue q
  let a := k.cqBase + 32 * k.cqTail
  let bytes := cplBytes c k.sqHead k.phase
  let wrote : Bool × State :=
    if k.cqHost then
      (match k.port with | some p => (true, s.emit (.dmaWrite p.val a bytes false k.cls)) | none => (true, s))
    else
      let (wait, s1) := s.engHoldRun ⟨k.actor, k.cls, none, q⟩ a 32 true
      if wait then (false, s1)
      else
        let (host, s2) := s1.hostFor k.actor a (beOf (a % 64) 32)
        let (refused, s2) := s2.engPut k.actor k.cls a bytes host true
        if refused then (false, (s2.haltQueue q 1).modQueue q (fun k => { k with refusedCpl := true })) else (true, s2)
  match wrote with
  | (false, u) => (false, u)
  | (true, u) =>
    let wraps := decide (k.cqTail + 1 = k.depth)
    let next := if wraps then 0 else k.cqTail + 1
    let u1 := u.modQueue q (fun k => { k with cqTail := next, phase := if wraps then !k.phase else k.phase, cqHead := if k.ownKind = 3 then next else k.cqHead })
    (true, (u1.count 0x0B0 0).countSignal q c.status c.noInt)

/-- Write the completions held for a queue, in order, as far as they can be (R276, R277). -/
def State.flushHeld (s : State) (q : Nat) : State :=
  (s.queue q).held.foldl (fun (u : State) c =>
    match (u.queue q).held with
    | [] => u
    | c' :: rest =>
      if c' = c ∧ u.mayPost (u.queue q) then
        (match u.writeCpl q c with
         | (true, v) => v.modQueue q (fun k => { k with held := rest })
         | (false, v) => v)
      else u) s


/-! ### Internal engines -/

/-- The queues that owners of a kind have, whose ids are among some (R260). -/
def State.ownQueues (s : State) (kind : Nat) (ids : Nat → Bool) : List Nat :=
  (s.qmg.queues.filter (fun e => decide (e.2.ownKind = kind) && ids e.2.ownId)).map (fun e => e.1)

/-- A queue takes an entry from inside the part: it runs, and its submission ring is not full (R263). -/
def Queue.hasRoom (k : Queue) : Bool := decide (k.state = 1) && decide ((k.sqTail + 1) % k.depth ≠ k.sqHead)

/-- One of some queues that take an entry, which of them being the engine's choice (a free value, log entry 165). -/
def State.pickQueue (s : State) (l : List Nat) : Option Nat × State :=
  let m := l.filter (fun q => (s.queue q).hasRoom)
  if m = [] then (none, s)
  else let (d, s1) := s.draw; (m[Config.freePlace d % m.length]?, s1)

/-- An entry is put into the submission ring of a queue from inside the part, under a CID of its own (R260, R261): once the holders of its line are snooped (R118); a refused write halts the queue (R277). -/
def State.submit (s : State) (cmd : Option Instr) (q : Nat) (entry : Nat → List Byte) : Option Nat × State :=
  let k := s.queue q
  let a := k.sqBase + 64 * k.sqTail
  let cid := (k.nextSeq + (k.sqTail + k.depth - k.sqHead) % k.depth) % 65536
  let (wait, s1) := s.engHoldRun ⟨k.actor, k.cls, cmd, q⟩ a 64 true
  if wait then (none, s1)
  else
    let (refused, u) := s1.engPut k.actor k.cls a (entry cid) [] true
    if refused then (none, u.haltQueue q 1)
    else (some cid, u.modQueue q (fun k => { k with sqTail := (k.sqTail + 1) % k.depth, doorbell := BitVec.ofNat 64 (setBits k.doorbell.toNat 0 32 ((k.sqTail + 1) % k.depth)) }))

/-- An entry that does nothing, under its CID: OPCODE 0 and every other field zero (R268, R269). -/
def nopEntry (cid : Nat) : List Byte := leBytes 4 (cid * 2 ^ 16) ++ List.replicate 60 0#8

/-- The relocation copies that the cooper has made pass through its queues (R260), each as an entry that does nothing more, since the spec gives them no opcode (DESIGN CHOICE, log entry 165); while none of its queues takes one they wait, and where it has no queue there is none. One whose line's holders are being snooped keeps its queue and its place there (R116). -/
def State.cooperEntries (s : State) : State :=
  (List.range s.igr.copies).foldl (fun (u : State) _ =>
    let l := u.ownQueues 3 (fun i => decide (i = 1))
    let less (v : State) : State := { v with igr := { v.igr with copies := v.igr.copies - 1, copyAt := none } }
    let (pick, v) := match u.igr.copyAt with
      | some q => if l.contains q && (u.queue q).hasRoom then (some q, u) else u.pickQueue l
      | none => u.pickQueue l
    if l = [] then less u
    else match pick with
      | none => v
      | some q => match v.submit none q nopEntry with
        | (some _, x) => less x
        | (none, x) => { x with igr := { x.igr with copyAt := some q } }) s

/-- The completions that waited for the holders of their line to be snooped are written where they now can be (R118, R273), and the cooper's copies pass through its queues. -/
def State.flushCompletions (s : State) : State :=
  ((s.qmg.queues.filter (fun e => decide (e.2.held ≠ []) && !e.2.cqHost)).map (fun e => e.1)).foldl State.flushHeld s.cooperEntries

/-- Post a completion: after those already held, and held itself while it cannot be written. -/
def State.post (s : State) (q : Nat) (c : Cpl) : State :=
  (s.modQueue q (fun k => { k with held := k.held ++ [c] })).flushHeld q

/-- A fetch of the queue is outstanding in host memory. -/
def State.fetching (s : State) (q : Nat) : Bool :=
  allPorts.any (fun p => (s.port p).tags.any (fun t => !t.quarantined && (match t.consumer with | .ring x _ => decide (x = q) | _ => false)))

/-- Watch completions take free slots (R281): none that an entry in flight, or one being fetched, needs (R264). -/
def State.flushWatch (s : State) (q : Nat) : State :=
  (s.queue q).watch.foldl (fun (u : State) c =>
    let k := u.queue q
    if (u.entriesOf q).length + k.held.length + (if u.fetching q then 1 else 0) < k.freeSlots then
      (u.modQueue q (fun k => { k with watch := k.watch.drop 1 })).post q c
    else u) s

/-- Watch copies that wait in the queue manager, and those it can hold (R281). -/
def State.watchCount (s : State) : Nat := (s.qmg.queues.map (fun e => e.2.watch.length)).sum
def watchPlaces : Nat := 1280

/-- A watch copy goes to its queue where that is enabled, else it is dropped (R281); one that finds no place to wait is dropped too (DESIGN CHOICE, log entry 172). -/
def State.postWatch (s : State) (q : Nat) (c : Cpl) : State :=
  if (s.queue q).state = 0 ∨ watchPlaces ≤ s.watchCount then s.errCount 0x0B0 12 5
  else (s.modQueue q (fun k => { k with watch := k.watch ++ [c] })).flushWatch q

/-- Units go without having run: the engines that they waited for are idle from now on (R362). -/
def State.dropUnits (s : State) (gone : UnitRef → Bool) : State :=
  let engines := (s.den.units.filter gone).filterMap (fun u => u.engine)
  { s with
    den := { s.den with units := s.den.units.filter (fun u => !(gone u)) }
    pwr := { s.pwr with denIdleAt := engines.foldl (fun v e => v.set! e s.now) s.pwr.denIdleAt } }

/-! ### The end of an entry -/

/-- An operation ends: the entry awaits its completion (R273). -/
def State.endEntry (s : State) (q seq status : Nat) (v0 v1 v2 : Nat := 0) : State :=
  s.modEntry q seq (fun e => if e.stage = 3 then e else
    { e with stage := 3, status := status, v0 := v0 % 2 ^ 32, v1 := v1 % 2 ^ 32, v2 := v2 % 2 ^ 64, endedAt := s.now })

/-- The containment halt of a queue, once nothing of it is in flight (R246). -/
def State.pendingHalt (s : State) (q : Nat) : State :=
  match (s.queue q).pendHalt with
  | some st => if s.entriesOf q = [] then (s.modQueue q (fun k => { k with pendHalt := none })).haltQueue q st else s
  | none => s

/-- The completion of an ended entry is written, or held; a halting status halts the queue (R273, R275, R276). -/
def State.completeEntry (s : State) (e : Entry) : State :=
  let q := e.queue
  let s1 := { s with qmg := { s.qmg with entries := s.qmg.entries.filter (fun x => !(decide (x.queue = q ∧ x.seq = e.seq))) } }
  let c : Cpl := { cid := e.cid, src := q, status := e.status, watch := false, v0 := e.v0, v1 := e.v1, v2 := e.v2, time := e.endedAt, noInt := e.noInt }
  let s2 := s1.post q c
  let s3 := if haltsOn e.status then s2.haltQueue q e.status else s2
  (s3.pendingHalt q).flushWatch q

end Sys2Proof.Machine
end

