-- ==== Sys2Proof/Machine/Rounds.lean ====
section
/-! DEFINITION. The end of a service call (R215, R217) and the bookkeeping of the gradient rounds (R223, R224): which contributions form the open round, which wait for a later one, and how a round ends. -/

namespace Sys2Proof.Machine

/-- A service call ends: its entry completes with the result and the value (R215, R217, R273). -/
def State.endCall (s : State) (q seq result value : Nat) : State :=
  ({ s with svc := { s.svc with calls := s.svc.calls.filter (fun c => !(decide (c.queue = q ∧ c.seq = seq))) } }).endEntry q seq 0 result value 0

/-- A gradient group. -/
def State.group (s : State) (g : Nat) : Group := sget {} s.svc.groups g
def State.setGroup (s : State) (g : Nat) (x : Group) : State := { s with svc := { s.svc with groups := sset {} s.svc.groups g x } }

/-- Edition e is older than edition cur, as R134 orders them. -/
def olderEdition (cur e : Nat) : Bool := decide (2 ^ 31 < (e + 2 ^ 32 - cur) % 2 ^ 32)

/-- Every port of the mask has contributed to the open round (R223). -/
def Group.full (x : Group) : Bool :=
  x.round.isSome && (List.range 6).all (fun p => !(x.mask.getLsbD p) || x.parts.any (fun c => decide (c.port = p)))

/-- What becomes of a contribution that arrives or has waited (R223, R224): it opens or joins the round; DUPLICATE; STALE; or it waits. The number is the result of one that ends, with none for one that stays. -/
def Group.take (x : Group) (now : Nat) (c : Contribution) : Group × Option Nat :=
  match x.round with
  | none => ({ x with round := some c.edition, openedAt := now, parts := [c] }, none)
  | some e =>
    if c.edition = e then
      (if x.parts.any (fun d => decide (d.port = c.port)) then (x, some 12) else ({ x with parts := x.parts ++ [c] }, none))
    else if olderEdition e c.edition then (x, some 10)
    else ({ x with later := x.later ++ [c] }, none)

/-- A contribution meets its group (R223, R224). -/
def State.contributeTo (s : State) (g : Nat) (c : Contribution) : State :=
  match (s.group g).take s.now c with
  | (x, none) => s.setGroup g x
  | (x, some r) => (s.setGroup g x).endCall c.queue c.seq r 0

/-- The contributions that waited meet the group again, in order of arrival; fuel is their number. -/
def State.drainLater (s : State) (g : Nat) : State :=
  let x := s.group g
  x.later.foldl (fun u c => u.contributeTo g c) (s.setGroup g { x with later := [] })

/-- The open round of a group ends: every contributor completes with the result (R223, R224). -/
def State.endRound (s : State) (g result : Nat) : State :=
  let x := s.group g
  let s1 := s.setGroup g { x with round := none, parts := [] }
  (x.parts.foldl (fun u c => u.endCall c.queue c.seq result 0) s1).drainLater g

/-- A member port meets a lost-owner event: every open round it is a member of ends (R224); one that has closed, its contributions all there, goes on (R223). -/
def State.loseMember (s : State) (p : Nat) : State :=
  (s.svc.groups.filter (fun e => e.2.isOpen && e.2.mask.getLsbD p && e.2.round.isSome && !e.2.full)).foldl (fun u e => u.endRound e.1 8) s

end Sys2Proof.Machine
end

