-- ==== Sys2Proof/Machine/Contain.lean ====
section
/-! DEFINITION. The answers to a port's requests, the end of a DMA read that will bring no more data, and containment of a port (R243, R245, R246, R278). -/

namespace Sys2Proof.Machine

/-! ### Responses -/

/-- A line lies in a coherent region. -/
def State.coherent (s : State) (a : Nat) : Bool := match s.findRegion a with | some (_, r) => decide (r.kind = 1) | none => false

/-- The port to which a request is still answered: one that takes requests (R246, R250). -/
def State.answers (s : State) (r : MemReq) : Option Port :=
  match portOf r.port with
  | some p => if s.portTakes p then some p else none
  | none => none

/-- The data response to a read, with the NDR of a coherent line (R230, R243); poisoned too where a mesh flit of the read was hit (R316). A poisoned line sent is counted. -/
def State.respondRead (s : State) (r : MemReq) (data : List Byte) (poison : Bool) : State :=
  match s.answers r with
  | none => s
  | some p =>
    let bad := poison || (decide (r.op = 0) && r.poison)
    let s1 := if bad then s.count (prtPage p) 5 else s
    let s2 := if s1.coherent r.addr then s1.emit (.cmp p.val r.tag r.mv) else s1
    s2.emit (.memData p.val r.tag (if bad then List.replicate 64 0#8 else data) bad)

/-- The completion of a write, an invalidation or a clean-eviction notice (R230). -/
def State.respondCmp (s : State) (r : MemReq) (granted : MetaValue) : State :=
  match s.answers r with
  | none => s
  | some p => s.emit (.cmp p.val r.tag granted)

/-- A write to a line of a published region that waited for the line of its home ends (R129, R131). -/
def State.endDraftWrite (s : State) (r : MemReq) (old : List Byte × Bool) (upset : Upset := .none) : State :=
  match s.findRegion r.addr with
  | some (g, k) =>
    if k.kind = 2 ∧ r.port < 6 then
      ((s.writeDraft g r.port (tileOf r.addr) (lineOf r.addr) old r.data r.be r.poison ⟨k.cls, r.port⟩ upset).2).respondCmp r .I
    else s.respondCmp r .I
  | none => s.respondCmp r .I

/-- The data of a host-tier line reaches the request that waits for it (R75, R129). -/
def State.endDemand (s : State) (r : MemReq) (data : List Byte) (poison : Bool) : State :=
  if r.op = 2 then s.endDraftWrite r (if poison then List.replicate 64 0#8 else data, poison)
  else s.respondRead r data poison

/-- A DMA read brings no more data: what its consumer sees (R70, R75, R277, R278). status is what a waiting entry completes with, and what a ring fetch halts its queue with. -/
def State.failRead (s : State) (c : Consumer) (status : Nat) : State :=
  match c with
  | .demand r => (if status = 7 then s.err 0x018 14 else s).endDemand r (List.replicate 64 0#8) true
  | .move t _ => s.abandonMove t 0x019 2 false
  | .entry q seq _ => s.endEntry q seq status 0 0 (match s.entry q seq with | some e => e.v2 | none => 0)
  | .ring q _ => if status = 7 then s.haltQueue q 7 else s
  | .gone => s

/-! ### Containment -/

/-- Responses of a port not yet sent are discarded, and so are its requests that have not taken effect (R246); at a port reset the writes it has accepted still take effect (R250). -/
def State.dropRequests (s : State) (p : Port) (reset : Bool) : State :=
  let dead (r : MemReq) : MemReq := if r.port = p.val then { r with port := 6 } else r
  let keep (w : WaitWhy × MemReq) : Bool := reset && decide (w.2.op = 2)
    && (match w.1 with | .behind _ => false | .bucket _ => false | _ => true)
  let orphan (w : WaitWhy × MemReq) : WaitWhy × MemReq := if w.2.port = p.val then (w.1, { dead w.2 with mv := .I }) else w
  let deadRead (c : CaskRead) : CaskRead := { c with reqs := c.reqs.map dead }
  let s1 := { s with
    dir := { s.dir with waiting := (s.dir.waiting.filter (fun (w : WaitWhy × MemReq) => decide (w.2.port ≠ p.val) || keep w)).map orphan }
    prs := { s.prs with reads := s.prs.reads.map deadRead } }
  let deadTag (t : Tag) : Tag := match t.consumer with
    | .demand r => { t with consumer := .demand (dead r) }
    | _ => t
  let deadPort (q : PortState) : PortState := { q with tags := q.tags.map deadTag }
  { s1 with ports := s1.ports.map deadPort }

/-- Every unpublished draft of a port is discarded (R139). -/
def State.loseDrafts (s : State) (p : Port) : State :=
  let mine := s.edn.drafts.filter (fun d => decide (d.writer = p.val))
  if mine = [] then s else (mine.foldl (fun u d => u.discardDraft d.region d.writer) s).err 0x011 9

/-- The trust core's fetch of an object from the memory behind a port fails, while it lasts: at 2 GB/s, the least that R377 allows, from the GO on (R377, R389). -/
def State.loseFetch (s : State) (p : Port) : State :=
  match s.tru.rcv with
  | some c =>
    if c.req = .port p ∧ s.now < c.goAt + c.len / 2 then
      { s with tru := { s.tru with rcv := some { c with object := { c.object with fetchOk := false } } } }
    else s
  | none => s

/-- The DMA reads of a port bring no more data, and their tags are quarantined (R246, R249). -/
def State.loseReads (s : State) (p : Port) : State :=
  let open' := (s.port p).tags.filter (fun t => !t.quarantined)
  (open'.foldl (fun u t => u.failRead t.consumer 6) (s.quarantineAll p)).loseFetch p

/-- A queue of a contained port halts with CONTAINED once its running entries end (R246). -/
def State.containQueue (s : State) (q : Nat) : State :=
  if (s.queue q).state = 1 then (s.modQueue q (fun k => { k with pendHalt := some (k.pendHalt.getD 6) })).pendingHalt q else s

/-- What containment, a link down and a port reset have in common (R123, R139, R224, R246, R250). -/
def State.losePort (s : State) (p : Port) (cause : Nat) (reset : Bool) : State :=
  (((((s.dropRequests p reset).lostOwner p.val cause).loseMember p.val).loseDrafts p).windowOff p).loseReads p

/-- The AER event of a fatal cause (R245): 1 the link, 2 a malformed TLP or CXL.mem protocol error, 3 IDE, 4 and 5 the port itself. -/
def fatalEvent (cause : Nat) : Nat := match cause with | 1 => 4 | 2 => 6 | 3 => 7 | _ => 0

/-- A second cause meets a port in the cycle in which it was contained: CAUSE records the lower code (R259). One cycle is one value of the time base (DESIGN CHOICE, log entry 153). -/
def State.lowerCause (s : State) (p : Port) (cause : Nat) : State :=
  if s.word64 (prtPage p) 0x110 = s.now ∧ cause < s.field (prtPage p) 0x108 1 4 then
    (if cause ≤ 5 then s.aer p (fatalEvent cause) else s).setField (prtPage p) 0x108 1 4 cause
  else s

/-- A port enters containment (R245, R246). A later cause before release changes nothing. -/
def State.contain (s : State) (p : Port) (cause : Nat) : State :=
  if s.contained p then s.lowerCause p cause
  else
    let page := prtPage p
    let s0 := if cause ≤ 5 then s.aer p (fatalEvent cause) else s
    let s1 := (s0.setWord page 0x108 (1 + cause * 2)).setWord64 page 0x110 s.now
    let s2 := (s1.errCount page 8 0).losePort p (if cause = 4 then 4 else 0) false
    (s2.queuesOf p).foldl (fun u q => u.containQueue q) s2

/-- A TLP or flit of a port arrives: a stream that was sent to another key set is secure under that set from its first one on (R253, log entry 140). -/
def State.ideArrive (s : State) (p : Port) (mem : Bool) : State :=
  let k := if mem then 1 else 0
  match sget none (s.port p).ideGo k with
  | none => s
  | some n => s.modPort p (fun q => { q with
      ideGo := sset none q.ideGo k none, ideKeys := setBits q.ideKeys (4 * k + 2) 1 n
      ideMem := if mem then true else q.ideMem, ideIo := if mem then q.ideIo else true })

/-- A request outside a secure stream while REQUIRE is set (R254). -/
def State.ideRefuses (s : State) (p : Port) (mem : Bool) : Bool :=
  decide (s.field (prtPage p) 0x124 0 1 = 1) && !(if mem then (s.port p).ideMem else (s.port p).ideIo)
    && (sget none (s.port p).ideGo (if mem then 1 else 0)).isNone

/-- An IDE failure contains the port with cause 3 and sets IDE_FAIL (R254). -/
def State.ideFail (s : State) (p : Port) : State := (s.err (prtPage p) 13).contain p 3

end Sys2Proof.Machine
end

