-- ==== Sys2Proof/Machine/Cxl.lean ====
section
/-! DEFINITION. CXL.mem service (R15, R16, R27 to R29, R42, R116, R117, R120, R121, R126, R230, R231, R241, R242, R257, R426): admission in port order, decoding and checking, the directory, the service of reads and writes from a tile's home, and the answers to snoops. -/

namespace Sys2Proof.Machine

/-! ### Decoding -/

/-- The committed decoder that maps a host address, the lowest-numbered first, and the unified address (R27, R28); none at STAGE 9 (R394). -/
def State.decodeHost (s : State) (p : Port) (h : Nat) : Option (Decoder × Nat) :=
  if s.field 0x003 0x100 0 4 = 9 then none
  else ((s.port p).decoders.toList.find? (fun d => d.committed && decide (d.base ≤ h) && decide (h < d.base + d.size))).map
    (fun d => (d, h - d.base + d.offset))

/-! ### What a request brings -/

/-- What a request brings when it is looked at: the wrong bits of the cells it reads; that the BISnpCur it waited for was answered with BIRspE; that the way it waited for is free (R120); that it may go with its class-0 bucket short (R257); and the waiting requests that stand behind it. -/
structure Turn where
  upset : Upset := .none
  answered : Bool := false
  way : Bool := false
  grant : Bool := false
  behind : List (WaitWhy × MemReq) := []
deriving DecidableEq, Repr, Inhabited

/-- For whom a request accesses memory: its region's class, and its port (R20, R321). -/
def State.traffic (s : State) (r : MemReq) : Traffic := ⟨s.classOf r.addr, min r.port 6⟩

/-- The region of an address, where it is a published one. -/
def State.publishedAt (s : State) (a : Nat) : Option Nat :=
  match s.findRegion a with
  | some (g, k) => if k.kind = 2 then some g else none
  | none => none

/-! ### Service from a tile's home -/

/-- The request waits, at the end of the list (R116). -/
def State.waitFor (s : State) (why : WaitWhy) (r : MemReq) : State :=
  { s with dir := { s.dir with waiting := s.dir.waiting ++ [(why, r)] } }

/-- Ask the lending port for a host-tier line, in the class of the request (R73); a request that finds no tag free waits (R44, R278). -/
def State.askHost (s : State) (r : MemReq) : State :=
  let t := tileOf r.addr
  match portOf (s.hostPort t) with
  | none => s
  | some p =>
    match (if s.canMaster p then s.issueRead p (s.hostAddr t (64 * lineOf r.addr)) 64 (s.classOf r.addr) (.demand r) else none) with
    | some u => u
    | none => s.waitFor (.tag p.val) r

/-- Queue a cask read for a request, with the line as the cask holds it now (R100). -/
def State.askCask (s : State) (k : Nat) (r : MemReq) : State :=
  let w := s.traffic r
  let (raw, q, _) := s.storedCask k w
  let i := lineOf r.addr % 64
  let r1 := { r with data := (raw.drop (64 * i)).take 64, poison := r.poison || q.getLsbD i }
  if s.prs.reads.any (fun c => decide (c.cask = k)) then
    let more (c : CaskRead) : CaskRead := if c.cask = k then { c with reqs := c.reqs ++ [r1] } else c
    { s with prs := { s.prs with reads := s.prs.reads.map more } }
  else
    let e := s.cask k
    ({ s with prs := { s.prs with reads := s.prs.reads ++ [(⟨k, [r1]⟩ : CaskRead)] } }).dramCellar e.package e.sector e.length false w

/-- A read of a line of a cellar tile: from its buffer where written, from the cask cache, or by a cask read (R103 to R105). -/
def State.readCellar (s : State) (r : MemReq) : State :=
  let k := caskOf r.addr
  let i := lineOf r.addr % 64
  let here := (match s.bufOf k with | some b => b.mask.getLsbD i | none => false)
    || (s.cask k).quarantined || (s.cached k).isSome || decide ((s.cask k).length = 0)
  if here then
    let (d, q, u) := s.caskLine k i (s.traffic r)
    u.respondRead r d q
  else s.askCask k r

/-- Serve a checked read from the tile's home (R44); the tile's map entries are looked up first (R49, R50). -/
def State.serveHome (s0 : State) (r : MemReq) (upset : Upset) : State :=
  let t := tileOf r.addr
  let i := lineOf r.addr
  let w := s0.traffic r
  let s := if s0.home t = 2 ∨ s0.home t = 3 then s0.findCask (caskOf r.addr) w upset else s0
  match s.home t with
  | 0 => s.respondRead r (List.replicate 64 0#8) false
  | 1 =>
    let (v, _, u) := s.readVatEcc (s.loc t) i r.addr upset 0
    (u.dramVat (s.loc t) i false w).respondRead r v.1 v.2
  | 2 => s.readCellar r
  | 3 =>
    if !(s.windowOnline (s.hostPort t)) ∨ s.hostPoison t i then s.respondRead r [] true
    else s.askHost r
  | _ => s.respondRead r [] true

/-- A read is answered with a line of a draft tile's slot, with the wrong bits its cells hold (R130, R337, R338). -/
def State.drawLine (s : State) (slot : Nat) (r : MemReq) (upset : Upset) : State :=
  let (v, _, u) := s.readVatEcc slot (lineOf r.addr) r.addr upset 0
  (u.dramVat slot (lineOf r.addr) false (s.traffic r)).respondRead r v.1 v.2

/-- Serve a checked read (R44, R62, R130): from the port's own draft, which adds no heat (R131), from a publication, or from the tile's home. -/
def State.serveRead (s0 : State) (r : MemReq) (upset : Upset) : State :=
  let t := tileOf r.addr
  let i := lineOf r.addr
  let w := s0.traffic r
  let s := s0.findTile t w upset
  let s1 := if r.heated then s else s.heatAccess t s.readInc
  match s.publishedAt r.addr with
  | none => s1.serveHome { r with heated := true } upset
  | some g =>
    match s.draftSlot g r.port t i, s.viewLine g r.port t i with
    | some slot, some _ => s.drawLine slot r upset
    | none, some _ => s1.drawLine (s1.publishedSlot g t i) r upset
    | _, none => s1.serveHome { r with heated := true } upset

/-- The wrong bits that a request meets in the cells of its line. -/
def hitLine (r : MemReq) (upset : Upset) : HostLines := if isHit upset then [⟨r.addr / 64 * 64, [], false, upset⟩] else []

/-- Serve a checked write to a published region: into the writer's draft (R128, R129). -/
def State.servePublished (s0 : State) (r : MemReq) (g : Nat) (upset : Upset) : State :=
  let t := tileOf r.addr
  let i := lineOf r.addr
  let w := s0.traffic r
  let s := s0.findTile t w upset
  if s.draftNeedsHome g r.port t i r.be r.poison then
    if s.home t = 3 ∧ s.windowOnline (s.hostPort t) ∧ !(s.hostPoison t i) then s.askHost r
    else let (d, q, u) := s.readTile t i (hitLine r upset) w; u.endDraftWrite r (d, q)
  else s.endDraftWrite r (List.replicate 64 0#8, false) upset

/-- Put a checked write into the tile's home; the Bool says that it must wait, and has joined the list (R16, R45, R49, R50, R105, R106, R108). A write to a tile of HOME 0 or 4 counts no heat (R62), and one that finds no backing is dropped (R78). A write whose region has ended is dropped (R39). -/
def State.putWrite (s0 : State) (r0 : MemReq) (upset : Upset) : Bool × State :=
  let t := tileOf r0.addr
  match s0.findRegion r0.addr with
  | none => (false, s0)
  | some _ =>
    let w := s0.traffic r0
    let s := s0.findTile t w upset
    let s1 := if s.home t = 2 ∨ s.home t = 3 then s.findCask (caskOf r0.addr) w upset else s
    let bare := decide (s1.home t = 0) || decide (s1.home t = 4)
    let s2 := if bare then s1.firstHome t w else s1
    let r := if bare then { r0 with heated := true } else r0
    if bare && (decide (s2.home t = 0) || decide (s2.home t = 4)) then (false, s2)
    else match (if s2.home t = 2 then s2.cellarBlocked (caskOf r.addr) else none) with
    | some (.buffer p) =>
      let s3 := s2.waitFor (.buffer p) r
      (true, s3.forceSeal p (s3.bufferWaiters p))
    | some why => (true, s2.waitFor why r)
    | none =>
      let s3 := s2.writeTile t (lineOf r.addr) r.data r.be r.poison w (hitLine r upset)
      (false, if r.heated then s3 else s3.heatAccess t s3.writeInc)

/-! ### The directory's decision -/

/-- The entry after a request of port p has been served (R117). -/
def entryAfter (e : DirEntry) (p op : Nat) (mv : MetaValue) : DirEntry :=
  if op = 2 then
    match mv with
    | .I => {}
    | .S => sharedBy [p]
    | .A => ownedBy p
  else match mv with
    | .I => e
    | .S => sharedBy (p :: e.holders)
    | .A => ownedBy p

/-- Lines of one set of the directory (R115). -/
def sameSet (a b : Nat) : Bool := decide (a % dirSets = b % dirSets)

/-- Ways of a line's set that are free and promised to requests that waited for them (R120). -/
def State.waysPromised (s : State) (line : Nat) (behind : List (WaitWhy × MemReq)) : Nat :=
  ((s.dir.waiting ++ behind).filter (fun x => match x.1 with
    | .way v => sameSet v line && !(s.dirPending v)
    | _ => false)).length

/-- A way for a new entry: where the set is full, its oldest entry with no snoop pending is evicted (R120). What the request must wait for, if it must. -/
def State.makeWay (s : State) (line : Nat) (w : Traffic) (behind : List (WaitWhy × MemReq)) : Option WaitWhy × State :=
  let set := s.dir.entries.filter (fun e => sameSet e.1 line)
  if set.length + s.waysPromised line behind < dirWays then (none, s)
  else
    let free := set.filter (fun e => !(s.dirPending e.1))
    match free.foldl (fun (b : Option (Nat × DirEntry)) e => match b with
      | none => some e
      | some x => if e.2.stamp < x.2.stamp then some e else some x) none with
    | none => (some (.snoop line), s)
    | some (victim, e) =>
      let s1 := e.holders.foldl (fun u q => u.snoop q victim 2 w) (s.count 0x010 1)
      if s1.dirPending victim then (some (.way victim), s1) else (none, s1)

/-- A port that owns a line has a snoop for it in flight and has not answered it: only an owner can have dirty data to bring (R116, R117). -/
def State.snooped (s : State) (p line : Nat) : Bool :=
  decide ((s.dirEntry line).owner = some p) && s.dir.snoops.any (fun n => decide (n.port = p ∧ n.line = line) && n.answer.isNone)

/-- A write that carries a holder's data ahead of its BIRsp (R117). -/
def State.carriesBack (s : State) (r : MemReq) : Bool := decide (r.op = 2) && (r.back || s.snooped r.port (r.addr / 64))

/-- Serve a checked request to a coherent line (R117): a holder's write ahead of its BIRsp leaves the entry that its MetaValue says; a clean-eviction notice snoops no one (R230). A request that meets a pending line, or one that others wait for, waits behind them (R116). -/
def State.serveCoherent (s : State) (r : MemReq) (x : Turn) : State :=
  let line := r.addr / 64
  let w := s.traffic r
  if s.carriesBack r then
    match s.putWrite r x.upset with
    | (true, u) => u
    | (false, u) =>
      let e := u.dirEntry line
      (if e.owner = some r.port then u.setDir line (entryAfter e r.port 2 r.mv) else u).respondCmp r .I
  else if !x.way && (s.dirPending line || s.dir.waiting.any (fun e => decide (waitedLine e = some line))) then s.waitFor (.snoop line) r
  else
    let s1 := s.settleWalkers line w
    let (qs, kind) := if r.op = 3 then ([], 0) else snoopsFor (s1.dirEntry line) (some r.port) (decide (r.op = 2)) r.mv
    let s2 := (if x.answered && decide (kind = 0) then [] else qs).foldl (fun u q => u.snoop q line kind w) s1
    if s2.dirPending line then s2.waitFor (.snoop line) r
    else
      let e := s2.dirEntry line
      let after := if r.op = 3 then e.without r.port else entryAfter e r.port r.op r.mv
      let (wait, s3) := if e.holders = [] ∧ after.holders ≠ [] ∧ !x.way then s2.makeWay line w x.behind else (none, s2)
      match wait with
      | some why => s3.waitFor why r
      | none =>
        if r.op = 2 then
          match s3.putWrite r x.upset with
          | (true, u) => u
          | (false, u) => (u.setDir line after).respondCmp r .I
        else if r.op = 0 then (s3.setDir line after).serveRead r x.upset
        else (s3.setDir line after).respondCmp r (if r.op = 1 then r.mv else .I)

/-- Serve a request whose rights were checked. -/
def State.serve (s : State) (r : MemReq) (x : Turn) : State :=
  match s.findRegion r.addr with
  | some (g, k) =>
    if k.kind = 1 then s.serveCoherent r x
    else if r.op = 0 then s.serveRead r x.upset
    else if r.op = 2 then
      (if k.kind = 2 then s.servePublished r g x.upset
       else match s.putWrite r x.upset with
         | (true, u) => u
         | (false, u) => u.respondCmp r .I)
    else s.respondCmp r .I
  | none => if r.op = 0 then s.serveRead r x.upset else s.respondCmp r .I

/-! ### Admission -/

/-- A request is decoded when it arrives: a later commit does not change its mapping (R27, R240). A write to a line that its port is snooped for and has not answered carries the holder's data (R117). -/
def State.arrive (s : State) (p : Port) (r : MemReq) : MemReq :=
  match s.decodeHost p r.haddr with
  | none => { r with addr := 2 ^ 64, decoded := false }
  | some (d, a) => { r with addr := a, decoded := true, hdmH := d.hdmH, back := decide (r.op = 2) && s.snooped p.val (a / 64) }

/-- A request to an address in no committed decoder (R241). -/
def State.undecoded (s : State) (p : Port) (r : MemReq) : State :=
  let page := prtPage p
  let s1 := (s.setWord64 page 0x130 (r.haddr % 2 ^ 64)).errCount page 9 3
  if r.op = 0 then s1.respondRead r [] true else s1.respondCmp r .I

/-- Check and serve a request that its port admits (R27, R29, R42, R241). A clean-eviction notice is checked for no right (R230). -/
def State.takeReq (s : State) (p : Port) (r : MemReq) (x : Turn) : State :=
  if !r.decoded then s.undecoded p r
  else if r.op = 3 then s.serve r x
  else match s.refusal p.val (decide (r.op = 2)) (r.hdmH || !(s.port p).biEnable) r.addr with
    | some reason =>
      let s1 := s.recordRefusal p.val (decide (r.op = 2)) r.addr reason
      if r.op = 0 then s1.respondRead r [] true else s1.respondCmp r .I
    | none => s.serve r x

/-- A class-0 allowance of a port in GB/s, that is bytes a nanosecond (R228, R257). -/
def State.allowance (s : State) (p : Port) (write : Bool) : Nat :=
  let v := s.field (prtPage p) 0x118 (if write then 8 else 0) 8
  if s.field (prtPage p) 0x100 4 2 = 1 then min v 64 else v

/-- Fill both class-0 buckets of a port up to now (R257). -/
def State.fillBuckets (s : State) (p : Port) : State :=
  let depth := 1024 * s.field (prtPage p) 0x11C 0 11
  s.modPort p (fun q => { q with
    rdBucket := min depth (q.rdBucket + s.allowance p false * (s.now - q.bucketAt))
    wrBucket := min depth (q.wrBucket + s.allowance p true * (s.now - q.bucketAt))
    bucketAt := s.now })

/-- A request costs a class-0 bucket 64 bytes: a read or a write of a class-0 region (R257). -/
def State.regulated (s : State) (r : MemReq) : Bool :=
  (decide (r.op = 0) || decide (r.op = 2)) && r.decoded
    && (match s.findRegion r.addr with | some (_, k) => decide (k.cls = 0) | none => false)

/-- Take 64 bytes from a bucket, where it holds them. -/
def State.payBucket (s : State) (p : Port) (write : Bool) : Bool × State :=
  let s1 := s.fillBuckets p
  let have' := if write then (s1.port p).wrBucket else (s1.port p).rdBucket
  if 64 ≤ have' then
    (true, s1.modPort p (fun q => if write then { q with wrBucket := q.wrBucket - 64 } else { q with rdBucket := q.rdBucket - 64 }))
  else (false, s1)

/-- Admit the request at the front of its port's order: held where its class-0 bucket is short (R257), else taken. -/
def State.letIn (s : State) (p : Port) (r : MemReq) (x : Turn) : State :=
  if s.regulated r then
    match s.payBucket p (decide (r.op = 2)) with
    | (true, u) => u.takeReq p r x
    | (false, u) => (u.count (prtPage p) 4).waitFor (.bucket p.val) r
  else s.takeReq p r x

/-- A request stands behind a waiting one of its port (R242, R257). A write that carries a holder's data passes the port's other waiting requests, but for one that its bucket holds and for writes that carry data themselves (R15, R22; log entry 31). -/
def State.standsBehind (s : State) (r : MemReq) (w : WaitWhy × MemReq) : Bool :=
  decide (w.2.port = r.port) && (!(s.carriesBack r) || decide (w.1 = .bucket r.port) || s.carriesBack w.2)

/-- A partial write of the port to a published region waits for the line of its home: its draft does not hold it yet, and what the port asks for later stands behind it (R15, R129, R242). -/
def State.draftPending (s : State) (p : Nat) : Bool :=
  s.ports.toList.any (fun q => q.tags.any (fun t => !t.quarantined && (match t.consumer with | .demand r => decide (r.op = 2 ∧ r.port = p) | _ => false)))

/-- A request stands behind something of its port that has not taken effect (R242). -/
def State.standsBack (s : State) (r : MemReq) : Bool :=
  s.dir.waiting.any (s.standsBehind r) || (s.draftPending r.port && !(s.carriesBack r))

/-- The mesh error that a request of a port meets, if it meets one (R316): whether it is of a header. -/
def State.meshTake (s : State) (p : Port) (tag : Nat) : Option Bool × State :=
  match s.dir.meshHits.find? (fun e => decide (e.1 = p.val ∧ e.2.1 = tag)) with
  | some e => (some e.2.2, { s with dir := { s.dir with meshHits := s.dir.meshHits.erase e } })
  | none => (none, s)

/-- A request arrives at a port (R242): a port that takes no requests discards it; one behind a waiting request of the same port waits. -/
def State.request (s : State) (p : Port) (r0 : MemReq) (upset : Upset) : State :=
  if !(s.portTakes p) then s
  else if s.ideRefuses p true then s.ideFail p
  else
    let s1 := s.ideArrive p true
    let (hit, s2) := s1.meshTake p r0.tag
    let r := s2.arrive p (if hit.isSome then { r0 with poison := true } else r0)
    if hit = some true ∧ r.op = 2 then s2.respondCmp r .I
    else if s2.standsBack r then s2.waitFor (.behind p.val) r
    else s2.letIn p r { upset := upset }

/-! ### Waiting requests -/

/-- One waiting request is looked at again. -/
def State.retry (s : State) (why : WaitWhy) (r : MemReq) (x : Turn) : State :=
  match why, portOf r.port with
  | .work _ _, _ => s.waitFor why r
  | .io _, _ => s.waitFor why r
  | .turn _, _ => s.waitFor why r
  | .cpl l q, _ =>
    if s.dirPending l || s.dir.waiting.any (fun w => decide (waitedLine w = some l)) then s.waitFor why r
    else (let u := s.flushHeld q; if u.igr.copyAt = some q then u.cooperEntries else u)
  | .behind _, some p =>
    if !(s.portTakes p) then s
    else if s.standsBack r then s.waitFor why r else s.letIn p r x
  | .bucket _, some p =>
    if !(s.portTakes p) then s
    else if s.standsBack r then s.waitFor why r
    else if x.grant then s.takeReq p r x
    else match s.payBucket p (decide (r.op = 2)) with
      | (true, u) => u.takeReq p r x
      | (false, u) => u.waitFor why r
  | .way v, _ => if s.dirPending v then s.waitFor why r else s.serve r { x with way := true }
  | .tag _, _ =>
    if r.op = 2 then
      match s.publishedAt r.addr with
      | some g => s.servePublished r g .none
      | none => s.respondCmp r .I
    else s.serveHome r .none
  | _, _ => s.serve r x

/-- The waiting requests of a list are looked at in order. ans are the lines whose BISnpCur was answered with BIRspE, for their first waiter; grant is a port whose first held class-0 request goes. -/
def settleFrom : List (WaitWhy × MemReq) → List Nat → Option Nat → State → State
  | [], _, _, s => s
  | w :: rest, ans, grant, s =>
    match w.1 with
    | .snoop l => settleFrom rest (ans.filter (fun a => decide (a ≠ l))) grant (s.retry w.1 w.2 { answered := ans.contains l, behind := rest })
    | .bucket p => settleFrom rest ans (if grant = some p then none else grant) (s.retry w.1 w.2 { grant := decide (grant = some p), behind := rest })
    | _ => settleFrom rest ans grant (s.retry w.1 w.2 { behind := rest })

/-- An answer that has arrived is due: no write that came ahead of it still waits (R15, R117). -/
def State.answerDue (s : State) (n : Snoop) : Bool :=
  n.answer.isSome && !(s.dir.waiting.any (fun w => w.2.back && decide (w.2.port = n.port ∧ w.2.op = 2 ∧ w.2.addr / 64 = n.line)))

/-- The answers that are due take effect; the lines of those that keep state A at their holder. -/
def State.takeAnswers (s : State) : List Nat × State :=
  (s.dir.snoops.filter s.answerDue).foldl (fun acc n => match n.answer with
    | some k => (if k = .exclusive then acc.1 ++ [n.line] else acc.1, acc.2.snoopAnswer n k)
    | none => acc) ([], s)

/-- Answers take effect and waiting requests are looked at again, for as long as one lets the other go on; fuel bounds the answers. -/
def State.settleFuel (s : State) (grant : Option Nat) : Nat → State
  | 0 => s
  | fuel + 1 =>
    let (ans, s1) := s.takeAnswers
    let s2 := settleFrom s1.dir.waiting ans grant { s1 with dir := { s1.dir with waiting := [] } }
    if s2.dir.snoops.any s2.answerDue then s2.settleFuel none fuel else s2

/-- The waiting requests are looked at again in arrival order; each is served or goes on waiting (R106, R108, R116, R242). -/
def State.settle (s : State) : State := s.settleFuel none (s.dir.snoops.length + 1)

/-- After a snoop has ended, the requests and then the completion entries that waited for it go on (R116, R273). -/
def State.settleSnoops (s : State) : State := s.settle.flushCompletions

/-! ### Commands that wait -/

/-- A request of a port over CXL.io takes effect in the port's order, over CXL.mem and CXL.io together (R242): behind a waiting request of the port it waits, with the command c that carries it out, until its turn has come (log entry 149). -/
def State.io (s : State) (p : Port) (c : Instr) (f : State → State) : State :=
  let mine (w : WaitWhy × MemReq) : Bool := decide (w.1 = .turn c ∧ w.2.port = p.val)
  if s.dir.waiting.any mine then f { s with dir := { s.dir with waiting := s.dir.waiting.eraseP mine } }
  else if s.dir.waiting.any (fun w => decide (w.2.port = p.val)) || s.draftPending p.val then
    s.waitFor (.io c) { port := p.val, tag := 0, haddr := 0, addr := 0, op := 4, mv := .I }
  else f s

/-- Queue work that waits may go on: every line it waits for is free for it (R116). -/
def State.workDue (s : State) (c : Instr) : Bool :=
  (s.dir.waiting.filter (placeOf c)).all (fun w => match waitedLine w with
    | some l => !(s.dirPending l) && (s.waitersBefore l ⟨internal, 0, some c, 0⟩).isEmpty
    | none => true)

/-- The first waiting command whose turn has come: a request over CXL.io with no waiting request of its port before it, or queue work whose lines are free (R116, R242). -/
def State.nextDue (s : State) : Option Instr :=
  s.dir.waiting.zipIdx.findSome? (fun e => match e.1.1 with
    | .io c => if (s.dir.waiting.take e.2).any (fun w => decide (w.2.port = e.1.2.port)) || s.draftPending e.1.2.port then none else some c
    | .work _ c => if s.workDue c then some c else none
    | _ => none)

/-- The state in which a command whose turn has come is carried out: of a request over CXL.io, its place says so. -/
def State.takeDue (s : State) (c : Instr) : State :=
  let l := s.dir.waiting
  match l.findIdx? (fun (w : WaitWhy × MemReq) => decide (w.1 = .io c)) with
  | some i => { s with dir := { s.dir with waiting := (l.zipIdx).map (fun e => if e.2 = i then (.turn c, e.1.2) else e.1) } }
  | none => s

/-- After it has been carried out: places it did not need are given up, what it was allowed under an entry that has changed has been done, and what waited behind it goes on. -/
def State.afterDue (s : State) (c : Instr) : State :=
  let s1 := { s with dir := { s.dir with waiting := s.dir.waiting.filter (fun w => !(decide (w.1 = WaitWhy.turn c))) } }
  let s2 := if s1.workDue c then s1.leavePlaces ⟨internal, 0, some c, 0⟩ else s1
  { s2 with dir := { s2.dir with passed := s2.dir.passed.filter (fun e => s2.stillWaits e.why) } }.settleSnoops

/-! ### Commands -/

/-- A memory request of a port that no one has decoded yet. -/
def memReq (p : Port) (tag haddr op : Nat) (mv : MetaValue) : MemReq := { port := p.val, tag := tag, haddr := haddr, addr := 0, op := op, mv := mv }

/-- MEM_RD (R117): a MemRd or MemRdData. -/
def execMemRd (p : Port) (tag haddr : Nat) (mv : MetaValue) (upset : Upset) (s : State) : Result :=
  done (s.request p (memReq p tag haddr 0 mv) upset)

/-- MEM_WR (R117): a MemWr or MemWrPtl; a poisoned one poisons the whole line (R243). -/
def execMemWr (p : Port) (tag haddr : Nat) (mv : MetaValue) (data : List Byte) (be : BitVec 64) (poison : Bool) (s : State) (upset : Upset := .none) : Result :=
  done (s.request p { memReq p tag haddr 2 mv with data := (padTo 64 data).take 64, be := be, poison := poison } upset)

/-- MEM_INV (R230): MemInv or MemInvNT acts on the directory as a read and returns no data. -/
def execMemInv (p : Port) (tag haddr : Nat) (mv : MetaValue) (s : State) : Result := done (s.request p (memReq p tag haddr 1 mv) .none)

/-- MEM_CLN_EVCT (R230): the port leaves the line's entry. -/
def execMemClnEvct (p : Port) (tag haddr : Nat) (s : State) : Result := done (s.request p (memReq p tag haddr 3 .I) .none)

/-- MEM_SPEC_RD (R230): accepted and ignored; outside a secure stream under REQUIRE it is an IDE failure like any other request (R254). -/
def execMemSpecRd (p : Port) (_haddr : Nat) (s : State) : Result :=
  done (if !(s.portTakes p) then s else if s.ideRefuses p true then (s.ideFail p).settle else s.ideArrive p true)

/-- UNSUPPORTED_M2S_REQUEST (R231). -/
def execUnsupportedM2sRequest (p : Port) (tag : Nat) (readLike : Bool) (s : State) : Result :=
  if !(s.portTakes p) then done s
  else if s.ideRefuses p true then done (s.ideFail p).settle
  else done (s.io p (.unsupportedM2sRequest p tag readLike) (fun u =>
    let s1 := (u.ideArrive p true).err (prtPage p) 14
    if readLike then ((s1.count (prtPage p) 5).emit (.memData p.val tag (List.replicate 64 0#8) true)).emit (.cmp p.val tag .I)
    else s1.emit (.cmp p.val tag .I)))

/-- The answer to a snoop arrives: the port's writes to the line that still wait have come before it (R117, R242). -/
def State.answerSnoop (s : State) (n : Snoop) (kind : BIRspKind) : State :=
  let hit (x : Snoop) : Bool := decide (x.port = n.port ∧ x.biTag = n.biTag)
  let before (w : WaitWhy × MemReq) : WaitWhy × MemReq :=
    if w.2.port = n.port ∧ w.2.op = 2 ∧ w.2.addr / 64 = n.line ∧ (s.dirEntry n.line).owner = some n.port then (w.1, { w.2 with back := true }) else w
  { s with dir := { s.dir with
      snoops := s.dir.snoops.map (fun x => if hit x then { x with answer := some kind } else x)
      waiting := s.dir.waiting.map before } }

/-- A port is contained for an answer it did not give, or a wrong one: every line it holds is settled before the request that waited is served (R121, R426). -/
def State.containHolder (s : State) (p : Port) (cause : Nat) : State :=
  let s1 := s.contain p cause
  (s1.settlePort p.val (sget 0 s1.dir.walkCause p.val)).settleSnoops

/-- BIRSP (R426): an answer to a snoop in flight, matched by BI-ID and BITag; any other is a protocol error with cause 2 (R231). -/
def execBirsp (p : Port) (biId biTag : Nat) (kind : BIRspKind) (s : State) : Result :=
  if !(s.portTakes p) then done s
  else match s.dir.snoops.find? (fun n => decide (n.port = p.val ∧ n.biId = biId ∧ n.biTag = biTag) && n.answer.isNone) with
    | some n => if rspPermitted n.kind kind then done (s.answerSnoop n kind).settleSnoops else done (s.containHolder p 2)
    | none => done (s.containHolder p 2)

/-- BI_TIMEOUT (R121): a snoop in flight was not answered in time; the port is contained with cause 4. -/
def execBiTimeout (p : Port) (biTag : Nat) (s : State) : Result :=
  match s.dir.snoops.find? (fun n => decide (n.port = p.val ∧ n.biTag = biTag) && n.answer.isNone) with
  | some n =>
    let s1 := s.until (n.issuedAt + us * s.field 0x010 0x100 0 14)
    done (((s1.errCount 0x010 10 3).lostOwner p.val 4).containHolder p 4)
  | none => done s

/-- The lost-owner walk of a port ends (R124, R126): each entry that names it is settled. -/
def State.endWalk (s : State) (p : Nat) : State :=
  let s1 := s.settlePort p (sget 0 s.dir.walkCause p)
  { s1 with dir := { s1.dir with walks := s1.dir.walks &&& ~~~(BitVec.ofNat 6 (2 ^ p)), walkCause := sset 0 s1.dir.walkCause p 0 } }

/-- LOST_OWNER_WALK (R126): the walk of a port reaches every entry that holds it and ends. -/
def execLostOwnerWalk (p : Port) (s : State) : Result :=
  if s.walking p.val then done (s.endWalk p.val).settleSnoops else done s

/-- CASK_READ_RETURN (R100, R102, R103): the press decodes the cask, checks it, and delivers the lines asked for; its sectors come with the wrong bits of their cells, and a codeword corrected wrongly is caught by the cask's CRC (R334). -/
def execCaskReadReturn (cask : Nat) (badSector : Bool) (s : State) (host : HostLines := []) : Result :=
  match s.prs.reads.find? (fun c => decide (c.cask = cask)) with
  | none => done s
  | some c =>
    let s1 := { s with prs := { s.prs with reads := s.prs.reads.filter (fun x => decide (x.cask ≠ cask)) } }
    let stored := decide (s1.home (cask / 4) = 2) && decide ((s1.cask cask).length ≠ 0) && !(s1.cask cask).quarantined
    let s2 := if stored then (s1.decodeRead cask badSector host).2.2 else s1
    let damaged := stored && (s2.cask cask).quarantined
    done (c.reqs.foldl (fun u r => u.respondRead r r.data (r.poison || damaged)) s2)

/-- C0_HELD_RELEASE (R257): time has passed until the port's held request may go; with an allowance of 0 one is released a microsecond. -/
def execC0HeldRelease (p : Port) (s : State) : Result :=
  match s.dir.waiting.find? (fun w => decide (w.1 = .bucket p.val)) with
  | none => done s
  | some w =>
    let write := decide (w.2.op = 2)
    let rate := s.allowance p write
    let level := if write then (s.port p).wrBucket else (s.port p).rdBucket
    if rate = 0 then
      let s1 := (s.until ((s.port p).bucketAt + us)).fillBuckets p
      done (if level < 64 then s1.settleFuel (some p.val) (s1.dir.snoops.length + 1) else s1.settle)
    else done ((s.until ((s.port p).bucketAt + (64 - level + rate - 1) / rate)).settle)

end Sys2Proof.Machine
end

