-- ==== Sys2Proof/Machine/Operands.lean ====
section
/-! DEFINITION. The operands every register command carries, a requester with a page and an offset: whether the requester is there to act, and whether it reaches the register (R254, R258, R375, R388, R394, R402, R410, R411). -/

namespace Sys2Proof.Machine

/-- The current vintage slot's first word (R379, R380). -/
def State.vintageWord (s : State) : Nat :=
  leNat (((s.tru.slots.toList).getD s.tru.current []).take 4)

/-- The management port (R258, R379). -/
def State.mgmtPort (s : State) : Nat := bits s.vintageWord 8 3

/-- DEBUG_ALLOW of the current vintage (R388). -/
def State.debugAllow (s : State) : Bool := s.vintageWord.testBit 11

/-- The private debug instructions are open (R382, R388). -/
def State.debugOpen (s : State) : Bool :=
  decide (s.tru.lcNow = 0) || decide (s.tru.lcNow = 2) || (decide (s.tru.lcNow = 1) && decide (s.field 0x003 0x104 3 1 = 1))

/-- STAGE of TRU_BOOT_STATUS (R372). -/
def State.stage (s : State) : Nat := s.field 0x003 0x100 0 4

/-- The registers of the TRU page that port 0 always sees (R375, R411). -/
def truPart (off : Nat) : Bool :=
  (decide (0x100 ≤ off) && decide (off < 0x104)) || (decide (0x140 ≤ off) && decide (off < 0x160)) || (decide (0x160 ≤ off) && decide (off < 0x174))

/-- A requester belongs to the full set (R410). -/
def State.fullSet (s : State) : Requester → Bool
  | .port p => decide (p.val = s.mgmtPort) && decide (s.stage ≠ 9)
  | .core _ => true
  | .trust => true
  | .debug => s.debugOpen

/-- The register at an offset of a page is visible to a requester (R402, R410, R411). -/
def State.sees (s : State) (req : Requester) (page off : Nat) : Bool :=
  pageExists s.order page &&
  (s.fullSet req ||
   (match req with
    | .port p =>
      (decide (p.val = 0) && decide (page = 0x003) && truPart off)
        || (decide (s.stage ≠ 9) && (decide (page = prtPage p) || decide (page = 0x0B1)))
    | _ => false))

/-- The requester is there to act: a port that takes requests, an active core that runs (R246, R250, R288). -/
def State.present (s : State) : Requester → Bool
  | .port p => s.portTakes p
  | .core l => s.released && s.active l.val && decide ((s.core (s.physOf l.val)).state = 1)
  | .trust => true
  | .debug => s.debugOpen

/-- What a requester asks for takes effect in its port's order (R242), inside a secure stream where one is required (R254); c is the command that asks. A requester that is not there asks for nothing. -/
def State.inOrder (s : State) (c : Instr) (req : Requester) (f : State → State) : State :=
  match req with
  | .port p =>
    if !(s.portTakes p) then s
    else if s.ideRefuses p false then (s.ideFail p).settle
    else s.io p c (fun u => f (u.ideArrive p false))
  | _ => if s.present req then f s else s

/-- A requester's request is refused because its port's IDE stream is not secure where REQUIRE asks for one (R254). -/
def State.reqIdeRefused (s : State) : Requester → Bool
  | .port p => s.ideRefuses p false
  | _ => false

/-- Nothing stands before what a requester asks for: no waiting request of its port (R242), no first TLP under another key set (R253). -/
def State.atTurn (s : State) : Requester → Bool
  | .port p => !(s.dir.waiting.any (fun w => decide (w.2.port = p.val))) && !(s.draftPending p.val) && (sget none (s.port p).ideGo 0).isNone
  | _ => true

/-- A register access by a requester has the effect f where the requester is there and sees the register; else it has none, or is an IDE failure. -/
def State.access (s : State) (c : Instr) (req : Requester) (page off : Nat) (f : State → State) : State :=
  s.inOrder c req (fun u => if u.sees req page off then f u else u)

/-- The outcome of a register access. -/
def State.viaReg (s : State) (c : Instr) (req : Requester) (page off : Nat) (f : State → State) : Result := done (s.access c req page off f)

/-- A width and an offset make an access that R8 takes: 32 or 64 bits, naturally aligned. -/
def goodAccess (off width : Nat) : Bool := decide (width = 4 ∨ width = 8) && decide (off % width = 0)

/-! ### The module's state as its management interface sees it (R417, R418) -/

/-- STATE of the byte map. -/
def State.modState (s : State) : Nat :=
  if s.pwr.off ∨ !s.pwr.input then 0
  else if s.tru.lcNow = 3 then 6
  else if s.pwr.starting = 2 then 3
  else if s.stage = 9 then 5
  else if s.stage = 8 then 4
  else if s.released then 2 else 1

/-- TRIP and TRIP_STACK of the byte map: PWR_TRIP's record, which is held on VSTBY. -/
def State.modTrip (s : State) : Nat := s.pwr.tripCause + s.pwr.tripStack * 2 ^ 4

/-- FLAGS of the byte map: LEAK, TAMPERED, DEGRADED, REF_LOST. -/
def State.modFlags (s : State) : Nat :=
  (if s.mod.leak then 1 else 0) + 2 * s.field 0x003 0x108 0 1 + 4 * s.field 0x0E0 0x018 13 1 + 8 * s.field 0x002 0x10C 1 1

/-- STATE, TRIP or FLAGS changed: an in-band interrupt, where enabled (R417). -/
def State.watch (s : State) : State :=
  let v := (s.modState, s.modTrip, s.modFlags)
  if v = s.mod.seen then s
  else
    let s1 := { s with mod := { s.mod with seen := v } }
    if s1.mod.ibiEn then s1.emit .ibi else s1

end Sys2Proof.Machine
end

