-- ==== Sys2Proof/Machine/RegionCmds.lean ====
section
/-! DEFINITION. The region operations and their background work (R33 to R41, R64, R93, R98, R122, R138, R139, R328, R341). -/

namespace Sys2Proof.Machine

/-! ### What ends with a region -/

/-- A tile lies in a run of the range. -/
def tileIn (base size t : Nat) : Bool := decide (base ≤ 16384 * t) && decide (16384 * t < base + size)

/-- Directory entries of a run: their lines. -/
def State.dirLines (s : State) (base size : Nat) : List Nat :=
  (s.dir.entries.map (fun e => e.1)).filter (fun l => decide (base ≤ 64 * l) && decide (64 * l < base + size))

/-- A BISnpInv for the line is in flight to the port. -/
def State.invalidating (s : State) (q line : Nat) : Bool := s.dir.snoops.any (fun n => decide (n.port = q ∧ n.line = line ∧ n.kind = 2))

/-- Every entry of a run is back-invalidated, whatever other snoop of its line is in flight, and removed (R122). -/
def State.dropCoherent (s : State) (base size : Nat) : State :=
  (s.dirLines base size).foldl (fun u l =>
    (((u.dirEntry l).holders.filter (fun q => !(u.invalidating q l))).foldl (fun v q => v.snoop q l 2 background) u).setDir l {}) s

/-- Writes to a run that were checked and have not reached their home are dropped, and complete on the link (R39). -/
def State.dropWrites (s : State) (base size : Nat) : State :=
  let mine (r : MemReq) : Bool := decide (r.op = 2 ∧ base ≤ r.addr ∧ r.addr < base + size)
  let waits (w : WaitWhy × MemReq) : Bool := mine w.2 && (match w.1 with
    | .snoop _ | .way _ | .buffer _ | .sealing _ | .tag _ => true
    | _ => false)
  let reads (t : Tag) : Option MemReq := match t.consumer with | .demand r => if mine r then some r else none | _ => none
  let dead := (s.dir.waiting.filter waits).map (fun w => w.2) ++ s.ports.toList.flatMap (fun q => q.tags.filterMap reads)
  let s1 := { s with
    dir := { s.dir with waiting := s.dir.waiting.filter (fun w => !(waits w)) }
    ports := s.ports.map (fun q => { q with tags := q.tags.map (fun t => if (reads t).isSome then { t with consumer := .gone } else t) }) }
  dead.foldl (fun u r => u.respondCmp r .I) s1

/-- Drafts and unfolded publications of a region are discarded (R139). -/
def State.dropEditions (s : State) (g : Nat) : State :=
  let mine := (s.edn.drafts.filter (fun d => decide (d.region = g))).flatMap (fun d => d.tiles)
    ++ (s.edn.pubs.filter (fun d => decide (d.region = g))).flatMap (fun d => d.tiles)
  { (s.freeDraftTiles mine) with edn := { s.edn with
      drafts := s.edn.drafts.filter (fun d => decide (d.region ≠ g)), pubs := s.edn.pubs.filter (fun d => decide (d.region ≠ g)) } }

/-- The EDITION_WAIT entries of a region complete with NOT_VALID (R138). -/
def State.failWaits (s : State) (g : Nat) : State :=
  let r := s.region g
  (s.qmg.entries.filter (fun e => decide (e.opcode = 0x43 ∧ e.stage = 2 ∧ e.a0 = g))).foldl
    (fun u e => u.endEntry e.queue e.seq 24 r.edition r.editionPort 0) s

/-- The CUR reference of a region's table ends; the table is retiring (R98). -/
def State.dropCurTable (s : State) (r : Region) : State :=
  if r.curTable < 16 ∨ (s.table r.curTable).lens = [] then s
  else (s.setTable r.curTable { s.table r.curTable with retiring := true }).dropRef r.curTable

/-- Self-refresh ends in a tier that a valid region now inhibits (R328). -/
def State.inhibitNow (s : State) : State := s.leaveSelfRefresh

/-! ### Slots that change part -/

/-- The slots that promotions of a region's tiles hold leave the pin reservation with it (R38, R54, R76). -/
def State.unpinDests (s : State) (r : Region) : State :=
  (s.rck.moves.filter (fun m => tileIn r.base r.size m.tile)).foldl (fun u m => match m.dest with
    | .slot x => if u.useOf x = .pin then u.setUse x .tile else u
    | _ => u) s

/-- The slots of a region's vat tiles change between the pool and the pin reservation (R38, R54). R38 names the slots of the tile pool; a slot of the emergency reserve that such a tile holds changes with them, and goes to the pool with them later (DESIGN CHOICE, log entry 154). -/
def State.repin (s : State) (r : Region) (pin : Bool) : State :=
  let s1 := (s.tilesWhere (fun t => tileIn r.base r.size t && decide (s.home t = 1))).foldl
    (fun u t => u.setUse (u.loc t) (if pin then .pin else .tile)) s
  if pin then s1 else s1.unpinDests r

/-- The slots of the pin reservation that tiles of an ended region still hold, until they are freed, belong to the pool: the reservation no longer counts the region (R39, R54, R76). -/
def State.unpinHeld (s : State) (r : Region) : State :=
  (s.tilesWhere (fun t => tileIn r.base r.size t && decide (s.home t = 1))).foldl
    (fun u t => if u.useOf (u.loc t) = .pin then u.setUse (u.loc t) .tile else u) s

/-! ### The end of a region -/

/-- Waiting queue work whose accesses to a run passed their rights check finishes under the entry as it was (R37, R39). -/
def State.passWork (s : State) (base size : Nat) (ended : Bool) : State :=
  let mine := s.dir.waiting.filterMap (fun w => match w.1 with
    | .work l _ => if base ≤ 64 * l ∧ 64 * l < base + size then some (⟨w.1, w.2.haddr, l, decide (w.2.op = 5), ended⟩ : Passed) else none
    | .cpl l _ => if base ≤ 64 * l ∧ 64 * l < base + size then some (⟨w.1, w.2.haddr, l, decide (w.2.op = 5), ended⟩ : Passed) else none
    | _ => none)
  { s with dir := { s.dir with passed := s.dir.passed ++ mine.filter (fun e => !(s.dir.passed.contains e)) } }

/-- A region ends at once (R39, R70, R108, R122, R138, R139). -/
def State.endRegion (s : State) (g : Nat) : State :=
  let r := s.region g
  let s0 := (s.passWork r.base r.size true).unpinHeld r
  let s1 := s0.setRegion g { r with valid := false }
  let s2 := { s1 with
    rgn := { s1.rgn with freeing := s1.rgn.freeing ++ [(⟨g, r.base, r.size⟩ : Freeing)] }
    prs := { s1.prs with
      bufs := s1.prs.bufs.filter (fun b => !(tileIn r.base r.size (b.cask / 4)))
      training := s1.prs.training.filter (fun x => decide (x ≠ g))
      trainPending := s1.prs.trainPending.filter (fun x => decide (x ≠ g)) }
    rck := { s1.rck with
      promoteWait := s1.rck.promoteWait.filter (fun t => !(tileIn r.base r.size t))
      pinRetry := s1.rck.pinRetry.filter (fun t => !(tileIn r.base r.size t)) } }
  let s2 := { s2 with svc := { s2.svc with kv := sset none s2.svc.kv g none } }
  let s2 := s2.slotFreed
  let s3 := (s2.rck.moves.filter (fun m => tileIn r.base r.size m.tile)).foldl (fun u m => (u.dropMove m.tile).count 0x019 2) s2
  let s4 := ((s3.dropEditions g).failWaits g).dropCurTable r
  let s5 := if r.kind = 1 then s4.dropCoherent r.base r.size else s4
  (((s5.dropWrites r.base r.size).flushChecks).inhibitNow).settleUsage

/-- The freeing of a region's backing ends (R39): every tile of the run has no home. -/
def State.freeRun (s : State) (base size : Nat) : State :=
  ((s.tilesWhere (tileIn base size)).foldl (fun u t => ((u.dropMove t).freeBacking t).setTmap t 0) s).settleUsage

/-! ### What a change of a region does -/

/-- Every tile of a region that is not in the vat, or is leaving it, is promoted (R64, R72). -/
def State.promoteAll (s : State) (r : Region) : State :=
  (s.tilesWhere (fun t => tileIn r.base r.size t && (decide (s.home t = 2) || decide (s.home t = 3) || (decide (s.home t = 1) && s.leaving t)))).foldl
    (fun u t => if u.moving t then { u with rck := { u.rck with promoteWait := u.rck.promoteWait ++ [t] } } else u.acceptMove t .promotion) s

/-- Ports that lose read right in a coherent region are back-invalidated there (R37). -/
def State.recall (s : State) (r : Region) (lost : BitVec 6) : State :=
  (s.dirLines r.base r.size).foldl (fun u l =>
    if u.dirPending l then u
    else ((u.dirEntry l).holders.filter (fun p => lost.getLsbD p)).foldl (fun v q => v.snoop q l 2 background) u) s

/-- Lines of a region that a port without read right still holds, or that are pending. -/
def State.recallOpen (s : State) (r : Region) : Bool :=
  (s.dirLines r.base r.size).any (fun l => s.dirPending l || (s.dirEntry l).holders.any (fun p => !(r.readMask.getLsbD p)))

/-- An accepted write to an entry takes effect (R36 to R38, R40, R54, R64, R65, R77, R96, R328, R341). While the back-invalidates of R37 run, BUSY of RGN_OP_STATUS is 1, and the slots of the region's tiles change part when the operation completes (R38). -/
def State.writeRegion (s : State) (i : Nat) (r0 : Region) : State :=
  let old := s.region i
  let r := mergedEntry old r0
  let s1 := (if old.valid then s.passWork old.base old.size false else s).setRegion i r
  if !r.valid then s1.opDone i 0
  else if !old.valid then
    let s2 := { s1 with
      igr := { s1.igr with level := sset 0 s1.igr.level (bucketKey 0 i) 0 }
      prs := { s1.prs with trainCasks := sset [] s1.prs.trainCasks i [] } }
    (s2.inhibitNow.settleUsage).opDone i 0
  else
    let change := decide ((r.policy = 1) ≠ (old.policy = 1))
    let lost := old.readMask &&& ~~~r.readMask
    if r.kind = 1 ∧ lost ≠ 0#6 then
      let s2 := if change && decide (r.policy = 1) then s1.promoteAll r else s1
      let s4 := (s2.inhibitNow.settleUsage).recall r lost
      { (s4.setField 0x012 0x118 0 1 1) with rgn := { s4.rgn with pending := some i, repin := change } }
    else
      let s2 := if change then s1.repin r (decide (r.policy = 1)) else s1
      let s3 := if change && decide (r.policy = 1) then s2.promoteAll r else s2
      (s3.inhibitNow.settleUsage).opDone i 0

/-! ### Commands -/

/-- A write of RGN_OP; while an operation runs it has no effect and records an access error. -/
def State.regionOp (s : State) (c : Instr) (req : Requester) (f : State → State) : Result :=
  s.viaReg c req 0x012 0x114 (fun u => if u.rgn.pending.isSome then u.errInfo 0x012 1 0x114 (reqCode req) else f u)

/-- WRITE_ENTRY (R36). -/
def execWriteEntry (req : Requester) (index : Fin 4096) (s : State) : Result :=
  s.regionOp (.writeEntry req index) req (fun u =>
    let w := u.entryData req
    let result := u.entryResult index.val w
    if result = 0 then u.writeRegion index.val (Region.ofWords w) else u.opDone index.val result)

/-- READ_ENTRY (R35, R40): the entry goes to the requester's own data registers. -/
def execReadEntry (req : Requester) (index : Fin 4096) (s : State) : Result :=
  s.regionOp (.readEntry req index) req (fun u =>
    let w := (u.region index.val).words
    ((List.range 8).foldl (fun v i =>
      (v.setSel req 0x012 (0x140 + 8 * i) (w.getD i 0 % 2 ^ 32)).setSel req 0x012 (0x144 + 8 * i) (w.getD i 0 / 2 ^ 32)) u).opDone index.val 0)

/-- INVALIDATE (R39). -/
def execInvalidate (req : Requester) (index : Fin 4096) (s : State) : Result :=
  s.regionOp (.invalidate req index) req (fun u =>
    if (u.region index.val).valid then ((u.endRegion index.val).opDone index.val 0).settle else u.opDone index.val 7)

/-- RENEW_LEASE (R41). -/
def execRenewLease (req : Requester) (index : Fin 4096) (s : State) : Result :=
  s.regionOp (.renewLease req index) req (fun u =>
    let r := u.region index.val
    let e := (u.entryData req).getD 3 0
    if !r.valid then u.opDone index.val 7
    else if u.now < r.leaseEnd ∧ u.now < e then (u.setRegion index.val { r with leaseEnd := e }).opDone index.val 0
    else u.opDone index.val 9)

/-- REGION_OP_COMPLETE (R37): the operation reports completion once no port without read right holds a line of the region, and slots that change between the pool and the pin reservation do so then (R38). -/
def execRegionOpComplete (s : State) : Result :=
  match s.rgn.pending with
  | none => done s
  | some i =>
    let r := s.region i
    let s1 := if r.valid then s.recall r (~~~r.readMask) else s
    if r.valid && s1.recallOpen r then done s1
    else
      let s2 := { s1 with rgn := { s1.rgn with pending := none, repin := false } }
      done ((if s.rgn.repin && r.valid then (s2.repin r (decide (r.policy = 1))).settleUsage else s2).opDone i 0)

/-- LEASE_EXPIRY (R41): the time base has reached the region's LEASE_END. -/
def execLeaseExpiry (index : Fin 4096) (s : State) : Result :=
  let r := s.region index.val
  if r.valid ∧ r.leaseEnd ≠ 0 then
    let s1 := ((s.until r.leaseEnd).endRegion index.val).count 0x012 2
    let s2 := if s1.rgn.leaseLog.length < 64 then { s1 with rgn := { s1.rgn with leaseLog := s1.rgn.leaseLog ++ [index.val] } }
      else ({ s1 with rgn := { s1.rgn with leaseOvf := min 255 (s1.rgn.leaseOvf + 1) } }).errCount 0x012 11 5
    done ((s2.err 0x012 10).settle)
  else done s

/-- REGION_FREEING_END (R39): what the ended region held is free; a DRAM row being retired that holds no cask any more is withheld (R348). -/
def execRegionFreeingEnd (index : Fin 4096) (s : State) : Result :=
  let mine := s.rgn.freeing.filter (fun f => decide (f.index = index.val))
  let s1 := mine.foldl (fun u f => u.freeRun f.base f.size) s
  done (({ s1 with rgn := { s1.rgn with freeing := s1.rgn.freeing.filter (fun f => decide (f.index ≠ index.val)) } }).rowsEmptied.settle)

/-- LEASE_POP (R41). -/
def execLeasePop (req : Requester) (s : State) : Result :=
  s.viaReg (.leasePop req) req 0x012 0x194 (fun u => { u with rgn := { u.rgn with
    leaseLog := u.rgn.leaseLog.drop 1, leaseOvf := if u.rgn.leaseLog = [] then u.rgn.leaseOvf else 0 } })

end Sys2Proof.Machine
end

