-- ==== Sys2Proof/Machine/PlaceCmds.lean ====
section
/-! DEFINITION. The commands of the racking engine that a requester or a waiting request depends on (R67 to R81), of the presses (R96 to R99, R103, R106 to R108), and the lost-line log (R127). -/

namespace Sys2Proof.Machine

/-! ### Racking -/

/-- MOVE_COPY_END (R67). -/
def execMoveCopyEnd (tile : Nat) (host : HostLines) (writeFails : Bool) (s : State) : Result :=
  done ((s.moveCopyEnd tile host writeFails).settleSnoops)

/-- MOVE_DEADLINE (R69). -/
def execMoveDeadline (tile : Nat) (s : State) : Result := done ((s.moveDeadline tile).settleSnoops)

/-- EXH_POP (R78). -/
def execExhPop (req : Requester) (s : State) : Result := s.viaReg (.exhPop req) req 0x019 0x114 State.exhPop

/-- RESUME (R74). -/
def execResume (req : Requester) (p : Port) (s : State) : Result :=
  s.viaReg (.resume req p) req 0x018 (0x14C + 0x10 * p.val) (fun u => (u.windowResume p).settle)

/-- DISCARD (R74). -/
def execDiscard (req : Requester) (p : Port) (s : State) : Result :=
  s.viaReg (.discard req p) req 0x018 (0x14C + 0x10 * p.val) (fun u => (u.windowDiscard p).settle)

/-- REENCODE_END (R81). -/
def execReencodeEnd (cask : Nat) (s : State) (host : HostLines := []) : Result := done ((s.reencodeDone cask host).settleSnoops)

/-! ### Seals -/

/-- SEAL_TIMEOUT of a cask's press, in nanoseconds. -/
def State.sealTime (s : State) (k : Nat) : Nat := us * s.field (prsPage (s.cask k).package) 0x104 0 14

/-- A buffer may be sealed by a timer: it is not sealing, and no promotion or spill of its tile is in flight (R108). -/
def State.timerSeals (s : State) (b : AsmBuf) : Bool :=
  !b.sealing && (match s.moveOf (b.cask / 4) with
    | some m => decide (m.kind ≠ .promotion ∧ m.kind ≠ .spill)
    | none => true)

/-- SEAL_TIMEOUT (R106). -/
def execSealTimeout (cask : Nat) (s : State) : Result :=
  match s.bufOf cask with
  | some b => if s.timerSeals b then done ((s.until (b.idleFrom + s.sealTime cask)).beginSeal cask false false) else done s
  | none => done s

/-- SEAL_AGE_LIMIT (R106). -/
def execSealAgeLimit (cask : Nat) (s : State) : Result :=
  match s.bufOf cask with
  | some b => if s.timerSeals b then done ((s.until (b.openedAt + 16 * s.sealTime cask)).beginSeal cask false false) else done s
  | none => done s

/-- FLUSH (R106). -/
def execFlush (req : Requester) (press : Fin 48) (s : State) : Result :=
  s.viaReg (.flush req press) req (prsPage press.val) 0x100 (fun u =>
    let mine := (u.prs.bufs.filter (fun b => decide ((u.cask b.cask).package = press.val))).map (fun b => b.cask)
    if mine = [] then u
    else
      let v := mine.foldl (fun w k => w.beginSeal k false true) u
      { v with prs := { v.prs with flushing := v.prs.flushing ||| BitVec.ofNat 48 (2 ^ press.val) } })

/-- SEAL_END (R107): a running seal completes; it waits for a re-encode of its cask (R108). -/
def execSealEnd (cask : Nat) (s : State) (host : HostLines := []) : Result :=
  match s.bufOf cask with
  | some b =>
    if b.sealing ∧ !(s.rck.reencodes.contains cask) then done ((s.sealCask cask host).settleSnoops)
    else done s
  | none => done s

/-! ### Tables -/

/-- TRAIN_REQ (R96): a request for an invalid region, or one of COMP_HINT 4, is ignored; a region that waits for a slot trains at once and waits no longer (R99). One for a region whose training pass runs starts no other, which R96 does not say (DESIGN CHOICE, log entry 172). -/
def execTrainReq (req : Requester) (region : Fin 4096) (s : State) : Result :=
  s.viaReg (.trainReq req region) req 0x020 0x184 (fun u =>
    let r := u.region region.val
    if r.valid ∧ r.hint ≠ 4 ∧ !(u.prs.training.contains region.val) then
      { u with prs := { u.prs with training := u.prs.training ++ [region.val], trainPending := u.prs.trainPending.filter (fun g => decide (g ≠ region.val)) } }
    else u)

/-- The content of a cask in the vat or the cellar, read in class 3, poisoned lines as zero; a cask found damaged is quarantined (R96, R103). -/
def State.sampleCask (s : State) (k : Nat) : List Byte × State :=
  let t := k / 4
  if s.home t = 1 then
    (List.range 64).foldl (fun (acc : List Byte × State) i =>
      let l := 64 * (k % 4) + i
      let (d, q, u) := acc.2.readTile t l [] background
      (acc.1 ++ (if q then List.replicate 64 0#8 else d), u)) ([], s)
  else
    let (raw, q, u) := s.caskContent k background
    (blankPoison raw q, u)

/-- A cask counts in a sample: neither METHOD 1 nor METHOD 2 (R96). -/
def sampleCounts (raw : List Byte) : Bool :=
  raw.any (fun b => decide (b ≠ 0)) && (raw.zipIdx).any (fun e => decide (e.1 ≠ raw.getD (e.2 % 8) 0))

/-- The sample of a region: its first TRAIN_CASKS casks that count, in cask-number order (R96). -/
def State.sample (s : State) (r : Region) : List (List Byte) × State :=
  let tiles := s.tilesWhere (fun t => tileIn r.base r.size t && (decide (s.home t = 1) || decide (s.home t = 2)))
  (tiles.flatMap (fun t => [4 * t, 4 * t + 1, 4 * t + 2, 4 * t + 3])).foldl (fun (acc : List (List Byte) × State) k =>
    if s.field 0x020 0x180 0 8 ≤ acc.1.length then acc
    else
      let (raw, u) := acc.2.sampleCask k
      (if sampleCounts raw then acc.1 ++ [raw] else acc.1, u)) ([], s)

/-- A free slot of the table store; which one is the presses' choice (log entry 8). -/
def State.freeTable (s : State) : Option Nat × State :=
  let (d, s1) := s.draw
  ((firstFrom (fun k => decide ((s1.table (16 + k)).lens = [])) 4080 (1 + s.prs.tables.length) (Config.freePlace d % 4080)).map (fun k => 16 + k), s1)

/-- STALE_TABLE is set on every cask of a region that names a retiring table (R98). -/
def State.markStale (s : State) (r : Region) (id : Nat) : State :=
  (s.tilesWhere (fun t => tileIn r.base r.size t && decide (s.home t = 2))).foldl (fun u t =>
    [0, 1, 2, 3].foldl (fun v c =>
      let e := v.cask (4 * t + c)
      if e.table = id ∧ e.length ≠ 0 then v.setCask (4 * t + c) { e with stale := true } else v) u) s

/-- A trained table is installed as a region's CUR_TABLE (R98). -/
def State.installTable (s : State) (g id : Nat) (lens : List Nat) (shape : Nat) : State :=
  let r := s.region g
  let s1 := s.setTable id { lens := lens, shape := shape, refs := 1, region := g }
  let s2 := (s1.setRegion g { r with curTable := id }).setField 0x020 0x188 16 12 id
  if r.curTable < 16 then s2 else (s2.markStale r r.curTable).dropCurTable r

/-- TRAIN_PASS_END (R96, R99): a pass that takes no slot leaves it to the regions that wait for one. -/
def execTrainPassEnd (region : Fin 4096) (s : State) : Result :=
  let g := region.val
  if s.prs.training.contains g then
    let s1 := { s with prs := { s.prs with training := s.prs.training.filter (fun x => decide (x ≠ g)) } }
    let r := s1.region g
    if !r.valid then done s1.slotFreed
    else
      let (casks, s2) := s1.sample r
      match trainTable r.hint casks with
      | none => done s2.slotFreed
      | some (lens, shape) =>
        match s2.freeTable with
        | (some id, u) => done (u.installTable g id lens shape)
        | (none, u) => done (({ u with prs := { u.prs with trainPending := u.prs.trainPending ++ [g] } }).err 0x020 10)
  else done s

/-- RESULT of PRS_TBL_RESULT. -/
def State.tblResult (s : State) (v : Nat) : State := s.setField 0x020 0x198 0 4 v

/-- LOAD of the requester's staged lengths (R89, R93): a table with a software hold, or a RESULT that says why not. -/
def State.loadTable (s : State) (req : Requester) : State :=
  let bytes := (List.range 32).flatMap (fun n => leBytes 4 (s.sel req 0x020 (0x1C0 + 4 * n)))
  let lens := lensOfBytes bytes
  let shape := bits (s.sel req 0x020 0x190) 16 4
  if !(tableOk lens) then (s.tblResult 2).err 0x020 11
  else match s.freeTable with
    | (some id, u) => ((u.setTable id { lens := lens, shape := shape, refs := 1, held := true }).tblResult 0).setField 0x020 0x198 16 12 id
    | (none, u) => (u.tblResult 1).err 0x020 11

/-- LOAD (R93). -/
def execLoad (req : Requester) (s : State) : Result := s.viaReg (.load req) req 0x020 0x194 (fun u => u.loadTable req)

/-- TBL_RELEASE (R93): RELEASE of the selected table, then LOAD where the write asks for both and the RELEASE did not fail. -/
def execTblRelease (req : Requester) (andLoad : Bool) (s : State) : Result :=
  s.viaReg (.tblRelease req andLoad) req 0x020 0x194 (fun u =>
    let id := bits (u.sel req 0x020 0x190) 0 12
    if 16 ≤ id ∧ (u.table id).held then
      let v := ((u.setTable id { u.table id with held := false }).dropRef id).tblResult 0
      if andLoad then v.loadTable req else v
    else u.tblResult 3)

/-! ### Logs -/

/-- QLOG_POP (R103): the oldest entry of a press is removed, and its sectors are freed if it is detached. -/
def execQlogPop (req : Requester) (press : Fin 48) (s : State) : Result :=
  s.viaReg (.qlogPop req press) req (prsPage press.val) 0x11C (fun u =>
    match u.prs.qlog.find? (fun e => decide (e.press = press.val)) with
    | none => u
    | some e =>
      let v := { u with prs := { u.prs with qlog := u.prs.qlog.eraseP (fun x => decide (x.press = press.val)), qlogOvf := sset 0 u.prs.qlogOvf press.val 0 } }
      if e.detached then ((v.markSectors e.package e.sector e.length false).dropRef e.table).settleUsage else v)

/-- LOST_POP (R127). -/
def execLostPop (req : Requester) (s : State) : Result :=
  s.viaReg (.lostPop req) req 0x010 0x11C (fun u => { u with dir := { u.dir with
    lostLog := u.dir.lostLog.drop 1, lostOvf := if u.dir.lostLog = [] then u.dir.lostOvf else 0 } })

end Sys2Proof.Machine
end

