-- ==== Sys2Proof/Machine/QueueCmds.lean ====
section
/-! DEFINITION. The queue manager's commands (R260 to R282): doorbells, enable, disable, restart, ownership, fetching and starting entries, NOP, HOST_READ and HOST_WRITE, completions, and the DMA reads of every consumer. -/

namespace Sys2Proof.Machine

/-! ### Doorbells -/

/-- The requester owns the queue (R267). -/
def Queue.ownedBy (k : Queue) : Requester → Bool
  | .port p => decide (k.ownKind = 1 ∧ k.ownId = p.val)
  | .core l => decide (k.ownKind = 2 ∧ k.ownId = l.val)
  | _ => false

/-- Take a tail (R267). The Bool says that the value was bad. -/
def Queue.takeTail (k : Queue) (v : Nat) : Bool × Queue :=
  if k.depth ≤ v then (true, k) else (false, { k with sqTail := v, doorbell := BitVec.ofNat 64 (setBits k.doorbell.toNat 0 32 v) })

/-- Take a head: within the completions posted and not yet released (R267). -/
def Queue.takeHead (k : Queue) (v : Nat) : Bool × Queue :=
  if k.depth ≤ v ∨ k.posted < (v + k.depth - k.cqHead) % k.depth then (true, k)
  else (false, { k with cqHead := v, doorbell := BitVec.ofNat 64 (setBits k.doorbell.toNat 32 32 v) })

/-- Apply what is given. -/
def applyOpt (f : Queue → Nat → Bool × Queue) (k : Queue) : Option Nat → Bool × Queue
  | none => (false, k)
  | some v => f k v

/-- A doorbell write is refused (R267, R287): a port that does not own the queue; a core where a port's function does. -/
def Queue.refusesBell (k : Queue) (req : Requester) : Bool :=
  match req with
  | .core _ => decide (k.ownKind = 1)
  | _ => !(k.ownedBy req)

/-- DOORBELL_WRITE (R242, R267, R287): a port's takes effect in the port's order. A queue that is disabling takes tail and head like an enabled one (R267 does not list it: DESIGN CHOICE, log entry 177). -/
def execDoorbellWrite (req : Requester) (queue : Nat) (tail head : Option Nat) (s : State) : Result :=
  done (s.inOrder (.doorbellWrite req queue tail head) req (fun u =>
    let q := queue % 65536
    let k := u.queue q
    if k.refusesBell req then u.errCount 0x0B0 9 4
    else if k.state = 0 then u
    else
      let (b1, k1) := applyOpt Queue.takeTail k tail
      let (b2, k2) := applyOpt Queue.takeHead k1 head
      let v := (u.modQueue q (fun _ => k2)).flushWatch q
      if b1 || b2 then v.haltQueue q 26 else v))

/-- The doorbell word of a queue, or the half of it at a byte offset, as last written (R266). -/
def State.bellWord (s : State) (q off width : Nat) : Nat :=
  let v := (s.queue q).doorbell.toNat
  if width = 8 then v else bits v (8 * off) 32

/-- BAR2_BAD_ACCESS (R266, R412): an access of a wrong width or place reads zero and is recorded. A well-formed read returns the words last written, for a queue the port's function owns; a well-formed write is DOORBELL_WRITE. -/
def execBar2BadAccess (p : Port) (offset width : Nat) (write : Bool) (s : State) : Result :=
  done (s.inOrder (.bar2BadAccess p offset width write) (.port p) (fun u =>
    let q := offset / 8 % 65536
    if goodAccess (offset % 8) width then
      if write then u
      else u.emit (.readData (.port p) (BitVec.ofNat 64 (if (u.queue q).ownedBy (.port p) then u.bellWord q (offset % 8) width else 0)))
    else
      let v := u.errInfo 0x0B0 1 (offset % 4096) p.val
      if write then v else v.emit (.readData (.port p) 0#64)))

/-! ### The queue window -/

/-- A write of QMG_Q_CMD for the queue the requester selects; one it may not reach records an access error in page 0x0B0. -/
def State.queueCmd (s : State) (c : Instr) (req : Requester) (f : Nat → State → State) : Result :=
  s.viaReg c req 0x0B1 0x120 (fun u =>
    let q := bits (u.sel req 0x0B1 0x100) 0 16
    if u.fullSet req || (u.queue q).ownedBy req then f q u else u.errInfo 0x0B0 1 0x120 (reqCode req))

/-- The key under which a half of a queue base register is held (R408). -/
def baseHalfKey (q off : Nat) : Nat := 2 ^ 24 * (q + 1) + (4096 * 0x0B1 + off)

/-- Entries that the layer streamer and Shombe had put into a ring that starts anew, and that were not fetched, go out again (R260, R265). -/
def State.loseRing (s : State) (q : Nat) : State :=
  let mine (e : Option (Nat × Nat)) : Bool := match e with | some (x, _) => decide (x = q) | none => false
  { s with
    lst := { s.lst with jobs := s.lst.jobs.map (fun j => if mine j.chainEntry then { j with chainEntry := none } else j) }
    svc := { s.svc with models := s.svc.models.map (fun e => if mine e.2.entry then (e.1, { e.2 with entry := some (65536, 0) }) else e) } }

/-- ENABLE (R262, R265). -/
def State.enableQueue (s : State) (req : Requester) (q : Nat) : State :=
  let k := s.queue q
  if k.state ≠ 0 ∨ k.ownKind = 0 then s.errInfo 0x0B0 1 0x120 (reqCode req)
  else if ((k.sqHost || k.cqHost) && decide (k.ownKind ≠ 1)) || (decide (k.ownKind = 1) && decide (2048 ≤ k.vector)) then
    s.errInfo 0x0B0 0 0x120 (reqCode req)
  else
    let s1 := if s.reg.half.any (fun h => decide (h.1 = baseHalfKey q 0x110 ∨ h.1 = baseHalfKey q 0x118)) then
        s.errInfo 0x0B0 2 0x120 (reqCode req) else s
    let s2 := s1.loseRing q
    s2.modQueue q (fun k => { k with state := 1, haltStatus := 0, sqHead := 0, sqTail := 0, cqTail := 0, cqHead := 0, phase := true,
                                     unsignalled := 0, firstUnsig := none, refusedCpl := false, pendHalt := none })

/-- ENABLE (R265). -/
def execEnable (req : Requester) (s : State) : Result := s.queueCmd (.enable req) req (fun q u => u.enableQueue req q)

/-- Free the sectors of a staged cask, and its reference to its table (R93, R112). -/
def State.freeStaged (s : State) (c : Staged) : State :=
  (s.markSectors c.package c.sector ((c.bytes.length + 63) / 64) false).dropRef (readHead c.bytes).table

/-- Free what an import session staged (R111, R112). -/
def State.dropStaged (s : State) (x : Session) : State := ((x.staged.drop x.committed).foldl State.freeStaged s).settleUsage

/-- The import session of a queue (R272). -/
def State.sessionOf (s : State) (q : Nat) : Option Session := s.prs.sessions.find? (fun x => decide (x.queue = q))

/-- An import session ends without a commit: its CASK_IMPORT entry completes with the status (R112, R272). -/
def State.endSession (s : State) (q status : Nat) : State :=
  match s.sessionOf q with
  | none => s
  | some x =>
    let s1 := (s.dropStaged x).endEntry q x.seq status 0 (if status = 17 then 0 else x.staged.length) 0
    { s1 with prs := { s1.prs with sessions := s1.prs.sessions.filter (fun y => decide (y.queue ≠ q)) } }

/-- The reads of a queue's ring that are outstanding bring their data to nobody (R276). -/
def State.dropFetches (s : State) (q : Nat) : State :=
  let mine (t : Tag) : Bool := match t.consumer with | .ring x _ => decide (x = q) | _ => false
  { s with ports := s.ports.map (fun x => { x with tags := x.tags.map (fun t => if mine t then { t with consumer := .gone } else t) }) }

/-- DISABLE (R276): fetching stops, an outstanding fetch too; every EDITION_WAIT that was fetched completes with TIMEOUT, and an import session ends with TRUNCATED; one whose commit has begun runs to its end, since a session that fails leaves the range unchanged (R112; DEDUCED, log entry 172). A completion refused before is written again (R277). -/
def State.disableQueue (s : State) (q : Nat) : State :=
  let k := s.queue q
  if k.state = 0 ∨ k.state = 3 then s
  else
    let s1 := (s.modQueue q (fun k => { k with state := 3, haltStatus := 0, pendHalt := none, refusedCpl := false })).dropFetches q
    let waits := (s1.entriesOf q).filter (fun e => decide (e.opcode = 0x43 ∧ e.stage ≤ 2))
    let s2 := waits.foldl (fun u e =>
      let r := u.region e.a0
      u.endEntry q e.seq 25 r.edition r.editionPort 0) s1
    let begun : Bool := match s2.sessionOf q with | some x => decide (0 < x.committed) | none => false
    (if begun then s2 else s2.endSession q 11).flushHeld q

/-- DISABLE (R276). -/
def execDisable (req : Requester) (s : State) : Result := s.queueCmd (.disable req) req (fun q u => u.disableQueue q)

/-- RESTART (R275, R277). -/
def State.restartQueue (s : State) (req : Requester) (q : Nat) : State :=
  let k := s.queue q
  let blocked : Bool := match k.port with | some p => s.contained p | none => false
  if k.state ≠ 2 ∨ blocked then s.errInfo 0x0B0 1 0x120 (reqCode req)
  else ((s.modQueue q (fun k => { k with state := 1, haltStatus := 0, refusedCpl := false })).flushHeld q).flushWatch q

/-- RESTART (R275). -/
def execRestart (req : Requester) (s : State) : Result := s.queueCmd (.restart req) req (fun q u => u.restartQueue req q)

/-- DISABLE_DONE (R276): once the last completion is written, the watch copies that wait for a slot among them (DESIGN CHOICE, log entry 172). -/
def execDisableDone (queue : Nat) (s : State) : Result :=
  let q := queue % 65536
  let k := s.queue q
  if k.state = 3 ∧ s.entriesOf q = [] ∧ k.held = [] ∧ k.watch = [] then done (s.modQueue q (fun k => { k with state := 0 })) else done s

/-- A KIND and ID that R260 reserves. -/
def ownReserved (kind id : Nat) : Bool :=
  (decide (kind = 0) && decide (id ≠ 0)) || (decide (kind = 1) && decide (6 ≤ id)) || (decide (kind = 2) && decide (16 ≤ id))
    || (decide (kind = 3) && decide (2 ≤ id))

/-- OWNER_WRITE (R260): only the management port and the control cores reach QMG_OWN. -/
def execOwnerWrite (req : Requester) (kind id : Nat) (s : State) : Result :=
  s.viaReg (.ownerWrite req kind id) req 0x0B0 0x114 (fun u =>
    let q := bits (u.sel req 0x0B0 0x110) 0 16
    let reaches := match req with | .port _ => true | .core _ => true | _ => false
    if !reaches then u
    else if (u.queue q).state ≠ 0 ∨ ownReserved (kind % 4) (id % 256) then u.errInfo 0x0B0 0 0x114 (reqCode req)
    else u.modQueue q (fun k => { k with ownKind := kind % 4, ownId := id % 256 }))

/-! ### Fetching -/

/-- An entry read from its 64 bytes (R268). -/
def entryOf (q seq : Nat) (l : List Byte) : Entry :=
  let w := leNat (l.take 4)
  { queue := q, seq := seq, opcode := bits w 0 8, fence := w.testBit 8, noInt := w.testBit 9, host0 := w.testBit 10, host1 := w.testBit 11,
    final := w.testBit 12, cid := bits w 16 16, dw1 := leNat ((l.drop 4).take 4), a0 := leNat ((l.drop 8).take 8),
    a1 := leNat ((l.drop 16).take 8), a2 := leNat ((l.drop 24).take 8),
    bad := decide (bits w 13 3 ≠ 0) || (l.drop 32).any (fun b => decide (b ≠ 0)) }

/-- A read of the queue's ring can go out, or halts the queue: one in host memory needs a port that may issue, and a free tag (R234, R277, R278). -/
def State.fetchReady (s : State) (k : Queue) : Bool :=
  !k.sqHost || (match k.port with
    | none => true
    | some p => s.contained p || !(s.port p).bme || (s.canMaster p && (nextTagOf (s.port p)).isSome))

/-- A queue has fetchable work (R263, R264, R281, R282). -/
def State.fetchable (s : State) (q : Nat) : Bool :=
  let k := s.queue q
  decide (s.field 0x0B0 0x100 0 1 = 1) && decide (k.state = 1) && k.pendHalt.isNone && decide (k.sqHead ≠ k.sqTail) && decide (k.watch = [])
    && decide ((s.entriesOf q).length + k.held.length + k.watch.length < k.freeSlots) && !(s.fetching q)
    && s.fetchReady k

/-- The queue whose turn it is: the first fetchable one after the queue served last (R271). -/
def State.fetchTurn (s : State) : Option Nat :=
  let l := (s.qmg.queues.map (fun e => e.1)).filter s.fetchable
  match l.find? (fun q => decide (s.qmg.lastFetch < q)) with
  | some q => some q
  | none => l.head?

/-- The layer streamer holds 1,024 QUEUED jobs and takes no more (R177). -/
def State.submitsFull (s : State) : Bool := decide (1024 ≤ (s.lst.jobs.filter (fun j => decide (j.state = 0))).length)

/-- A fetched entry joins the entries in flight, and SQ_HEAD advances; a JOB_SUBMIT that the layer streamer has no place for stays on its ring (R177). -/
def State.takeEntry (s : State) (q : Nat) (l : List Byte) : State :=
  let k := s.queue q
  if s.submitsFull ∧ (entryOf q k.nextSeq l).opcode = 0x20 then s
  else
    let s1 := s.modQueue q (fun k => { k with sqHead := (k.sqHead + 1) % k.depth, nextSeq := k.nextSeq + 1 })
    { s1 with qmg := { s1.qmg with entries := s1.qmg.entries ++ [entryOf q k.nextSeq l] } }

/-- Fetch the entry at SQ_HEAD of a queue (R262, R277), by command c. -/
def State.fetchEntry (s0 : State) (c : Instr) (q : Nat) (host : HostLines) : State :=
  let s := { s0 with qmg := { s0.qmg with lastFetch := q } }
  let k := s.queue q
  let a := k.sqBase + 64 * k.sqHead
  if k.sqHost then
    match k.port with
    | none => s
    | some p =>
      if s.contained p then s.haltQueue q 6
      else if !(s.port p).bme then (s.err (prtPage p) 12).haltQueue q 5
      else if !(s.canMaster p) then s0
      else (s.issueRead p a 64 k.cls (.ring q k.sqHead)).getD s0
  else
    let (wait, s1) := s.engHoldRun ⟨k.actor, k.cls, some c, 0⟩ a 64 false
    if wait then s1
    else
      let (l, s2) := s1.engRead k.actor k.cls (a / 64 * 64) a host true
      if l.refused then s2.haltQueue q 1
      else if l.poison then s2.haltQueue q 27
      else s2.takeEntry q l.data

/-- SQ_FETCH (R264, R271): the queue whose turn it is fetches one entry; a fetch that waited for its line's holders had its turn (R118). -/
def execSqFetch (queue : Nat) (host : HostLines) (s : State) : Result :=
  let q := queue % 65536
  let c : Instr := .sqFetch queue host
  if s.fetchTurn = some q ∨ (s.fetchable q ∧ s.dir.waiting.any (placeOf c)) then done (s.fetchEntry c q host) else done s

/-! ### Starting -/

/-- An entry breaks the table of opcodes (R269). -/
def entryBad (k : Queue) (e : Entry) : Bool :=
  let noHost := !e.host0 && !e.host1
  let aligned (v n : Nat) : Bool := decide (v % n = 0)
  let zero (v : Nat) : Bool := decide (v = 0)
  let ok : Bool :=
    match e.opcode with
    | 0x00 => noHost && zero e.dw1 && zero e.a0 && zero e.a1 && zero e.a2
    | 0x01 => e.host0 && !e.host1 && zero e.dw1 && aligned e.a0 64 && aligned e.a1 64 && aligned e.a2 64 && decide (64 ≤ e.a2) && decide (e.a2 ≤ 2 ^ 32)
    | 0x02 => !e.host0 && e.host1 && zero e.dw1 && aligned e.a0 64 && aligned e.a1 64 && aligned e.a2 64 && decide (64 ≤ e.a2) && decide (e.a2 ≤ 2 ^ 32)
    | 0x10 => noHost && decide (1 ≤ e.dw1) && decide (e.dw1 ≤ 4096) && aligned e.a0 64 && zero e.a1 && zero e.a2
    | 0x20 => noHost && aligned e.a0 128 && zero e.a1 && zero e.a2
        && (zero e.dw1 || (decide (k.ownKind = 2) && decide (bits e.dw1 16 16 = 1)))
    | 0x21 => noHost && zero e.dw1 && aligned e.a0 128 && zero e.a1 && zero e.a2
    | 0x30 => !e.host0 && decide (1 ≤ e.dw1) && decide (e.dw1 ≤ 4096) && aligned e.a0 4096 && aligned e.a1 64
    | 0x31 => !e.host0 && decide (1 ≤ e.dw1) && decide (e.dw1 ≤ 4096) && aligned e.a0 4096 && aligned e.a1 64 && aligned e.a2 64
    | 0x32 => !e.host0 && zero e.dw1 && zero e.a0 && aligned e.a1 64 && aligned e.a2 64
    | 0x40 => noHost && decide (e.a0 < 4096) && zero e.a1 && zero e.a2
    | 0x41 => noHost && zero e.dw1 && decide (e.a0 < 4096) && zero e.a1 && zero e.a2
    | 0x42 => noHost && zero e.dw1 && decide (e.a0 < 4096) && zero e.a1 && zero e.a2
    | 0x43 => noHost && decide (e.a0 < 4096) && decide (e.a1 < 2 ^ 32) && zero e.a2
    | 0x50 => noHost && decide (e.dw1 < 65536) && aligned e.a0 64 && zero e.a1 && zero e.a2
    | _ => false
  !ok || e.bad || (e.final && decide (e.opcode ≠ 0x31 ∧ e.opcode ≠ 0x32)) || (!noHost && k.port.isNone)

/-- FW_READY (R395). -/
def State.fwReady (s : State) : Bool := decide (s.field 0x000 0x104 7 1 = 1)

/-- An entry of a proxy JOB_SUBMIT names a queue owned by a port (R269). -/
def State.proxyBad (s : State) (e : Entry) : Bool :=
  decide (e.opcode = 0x20) && decide (e.dw1 ≠ 0) && (s.queue (bits e.dw1 0 16)).port.isNone

/-- What holds an entry unstarted beyond its place in the ring (R177, R271, R395). -/
def State.startHeld (s : State) (e : Entry) : Bool :=
  (decide (e.opcode = 0x50) && !s.fwReady)
    || (decide (e.opcode = 0x20) && s.submitsFull)

/-- ENTRY_START (R271): the oldest unstarted entry of the queue starts; one that breaks R269 ends at once with BAD_ENTRY. -/
def execEntryStart (queue : Nat) (s : State) : Result :=
  let q := queue % 65536
  let k := s.queue q
  let mine := s.entriesOf q
  match mine.find? (fun e => decide (e.stage = 0)) with
  | none => done s
  | some e =>
    let running := (mine.filter (fun x => decide (x.stage ≠ 0))).length
    let first := decide (mine.head?.map (fun x => x.seq) = some e.seq)
    if (e.fence && !first) || decide (k.maxInflight ≤ running) || s.startHeld e then done s
    else
      let s1 := s.modEntry q e.seq (fun x => { x with stage := 1, startedAt := s.now })
      done (if entryBad k e || s.proxyBad e then s1.endEntry q e.seq 2 else s1)

/-! ### Running -/

/-- Run an operation on a started entry of the right opcode; any other command of the kind has no effect. -/
def State.runEntry (s : State) (q seq opcode : Nat) (f : Queue → Entry → State) : State :=
  match s.entry q seq with
  | some e => if e.stage = 1 ∧ e.opcode = opcode then f (s.queue q) e else s
  | none => s

/-- An entry ends before its work is done: it reports what it had written or checked (R273). -/
def State.endShort (s : State) (q seq status : Nat) : State :=
  let x := s.entry q seq
  let checked := match x, s.sessionOf q with | some e, some y => if e.opcode = 0x32 then y.staged.length else 0 | _, _ => 0
  s.endEntry q seq status checked 0 (match x with | some e => e.v2 | none => 0)

/-- An operation that needs a request on the owner's port: CONTAINED or MASTER_OFF where the port may not issue (R244, R246, R274); it waits in D3hot (R234). -/
def State.needPort (s : State) (k : Queue) (q seq : Nat) (f : Port → State) : State :=
  match k.port with
  | none => s.endEntry q seq 2
  | some p =>
    if s.contained p then s.endShort q seq 6
    else if !(s.port p).bme then (s.err (prtPage p) 12).endShort q seq 5
    else if !(s.canMaster p) then s
    else f p

/-- NOP (R269). -/
def execNop (queue seq : Nat) (s : State) : Result := done (s.runEntry queue seq 0x00 (fun _ _ => s.endEntry queue seq 0))

/-- Issue further reads of a HOST_READ, as far as tags are free. fuel bounds the reads. -/
def State.pumpEntry (s : State) (p : Port) (q seq : Nat) : Nat → State
  | 0 => s
  | fuel + 1 =>
    match s.entry q seq with
    | some e =>
      if e.stage = 2 ∧ e.opcode = 0x01 ∧ e.issued < e.a2 then
        let n := min (e.a2 - e.issued) (max 64 (s.port p).mrrs)
        match s.issueRead p (e.a0 + e.issued) n (s.queue q).cls (.entry q seq e.issued) with
        | some u => (u.modEntry q seq (fun x => { x with issued := x.issued + n })).pumpEntry p q seq fuel
        | none => s
      else s
    | none => s

/-- A read of an entry is outstanding at a port. -/
def State.reading (s : State) (p : Port) (q seq : Nat) : Bool :=
  (s.port p).tags.any (fun t => !t.quarantined && (match t.consumer with | .entry x y _ => decide (x = q ∧ y = seq) | _ => false))

/-- Every HOST_READ of a port issues further reads (R278); while the port may not issue, it ends with MASTER_OFF or CONTAINED, once the reads already issued have brought their data (R244, R246). -/
def State.pumpPort (s : State) (p : Port) : State :=
  (s.qmg.entries.filter (fun e => decide (e.stage = 2 ∧ e.opcode = 0x01 ∧ e.issued < e.a2) && decide ((s.queue e.queue).port = some p))).foldl
    (fun u e =>
      if !(u.port p).bme && u.reading p e.queue e.seq then u
      else u.needPort (u.queue e.queue) e.queue e.seq (fun p => u.pumpEntry p e.queue e.seq tagLimit)) s

/-- HOST_READ (R270): the reads are issued; lines are written as they arrive. Holders of the destination's lines are snooped first (R118). -/
def execHostRead (queue seq : Nat) (s : State) : Result :=
  done (s.runEntry queue seq 0x01 (fun k e =>
    s.needPort k queue seq (fun p =>
      let (wait, s1) := s.engHoldRun ⟨k.actor, k.cls, some (.hostRead queue seq), 0⟩ e.a1 e.a2 true
      if wait then s1
      else (s1.modEntry queue seq (fun x => { x with stage := 2 })).pumpEntry p queue seq tagLimit)))

/-- Send lines of the unified range to host memory, with EP on the poisoned ones (R243, R270). The Bool says that a read was refused. -/
def State.sendLines (s : State) (p : Port) (k : Queue) (src dst : Nat) (host : HostLines) (lines : Nat) : Bool × State :=
  (List.range lines).foldl (fun (acc : Bool × State) i =>
    let (l, u) := acc.2.engRead k.actor k.cls (src + 64 * i) (src + 64 * i) host true
    (acc.1 || l.refused, u.emit (.dmaWrite p.val (dst + 64 * i) l.data l.poison k.cls))) (false, s)

/-- HOST_WRITE (R270). -/
def execHostWrite (queue seq : Nat) (host : HostLines) (s : State) : Result :=
  done (s.runEntry queue seq 0x02 (fun k e =>
    s.needPort k queue seq (fun p =>
      let (wait, s1) := s.engHoldRun ⟨k.actor, k.cls, some (.hostWrite queue seq host), 0⟩ e.a0 e.a2 false
      if wait then s1
      else
        let (refused, s2) := s1.sendLines p k e.a0 e.a1 host (e.a2 / 64)
        s2.endEntry queue seq (if refused then 1 else 0) 0 0 e.a2)))

/-- A CASK_IMPORT entry that has ended completes last: after the CASK_IMPORT_DATA entries of its session that have ended (R272). -/
def State.importBefore (s : State) (e : Entry) : Bool :=
  decide (e.opcode = 0x31) && (s.entriesOf e.queue).any (fun x => decide (x.opcode = 0x32 ∧ x.stage = 3 ∧ x.session = some e.seq))

/-- ENTRY_COMPLETE (R273): the completion of an ended entry is written, or held. -/
def execEntryComplete (queue seq : Nat) (s : State) : Result :=
  match s.entry queue seq with
  | some e => if e.stage = 3 ∧ !(s.importBefore e) then done (s.completeEntry e) else done s
  | none => done s

/-- AGG_TIMEOUT (R280). -/
def execAggTimeout (queue : Nat) (s : State) : Result :=
  let k := s.queue queue
  match k.firstUnsig with
  | some t => if k.aggUs = 0 then done s else done ((s.until (t + us * k.aggUs)).signal queue)
  | none => done s

/-! ### DMA reads -/

/-- The lines of a read that have become whole, counted from its start. -/
def newLines (old new : Tag) : List Nat :=
  let whole (t : Tag) (i : Nat) : Bool := (List.range 64).all (fun b => sget false t.got (64 * i + b))
  (List.range (new.bytes / 64)).filter (fun i => whole new i && !(whole old i))

/-- Lines of a HOST_READ that have become whole are written (R270). -/
def State.hostReadLines (s : State) (q seq off : Nat) (old new : Tag) : State :=
  (newLines old new).foldl (fun (u : State) i =>
    match u.entry q seq with
    | some e =>
      if e.stage = 2 then
        let k := u.queue q
        let (d, ep) := new.line i
        let a := e.a1 + off + 64 * i
        let (refused, u1) := u.engWrite k.actor k.cls a a d fullBe ep [] true
        u1.modEntry q seq (fun x => { x with came := x.came + 64, refused := x.refused || refused, v2 := if refused then x.v2 else x.v2 + 64 })
      else u
    | none => u) s

/-- The data of a completion meets the holders of the lines it would write (R118): command c waits until they are snooped. -/
def State.holdArrival (s : State) (c : Instr) (old new : Tag) : Bool × State :=
  match new.consumer with
  | .entry q seq off =>
    match s.entry q seq with
    | some e =>
      let k := s.queue q
      if e.stage = 2 then s.holdLines ⟨k.actor, k.cls, some c, 0⟩ ((newLines old new).map (fun i => ((e.a1 + off + 64 * i) / 64, true)))
      else (false, s)
    | none => (false, s)
  | _ => (false, s)

/-- A HOST_READ all of whose bytes have come ends (R270, R274). -/
def State.hostReadEnd (s : State) (q seq : Nat) : State :=
  match s.entry q seq with
  | some e => if e.stage = 2 ∧ e.opcode = 0x01 ∧ e.a2 ≤ e.came then s.endEntry q seq (if e.refused then 1 else 0) 0 0 e.v2 else s
  | none => s

/-- A ring entry has come from host memory (R277). -/
def State.ringData (s : State) (q : Nat) (t : Tag) : State :=
  if (s.queue q).state ≠ 1 then s
  else
    let (d, ep) := t.line 0
    if ep then s.haltQueue q 27 else s.takeEntry q d

/-- Data has come for a read: old and new are its record before and after (R278). -/
def State.deliverRead (s : State) (old new : Tag) : State :=
  match new.consumer with
  | .entry q seq off => (s.hostReadLines q seq off old new).hostReadEnd q seq
  | .demand r => if new.complete then (let (d, ep) := new.line 0; s.endDemand r d ep) else s
  | .move t off => if new.complete then s.moveData t off new else s
  | .ring q _ => if new.complete then s.ringData q new else s
  | .gone => s

/-- A tag is free: reads of the port that waited for one go out (R73, R278). -/
def State.pumpTags (s : State) (p : Port) : State := ((s.pumpPort p).pumpMoves p).settle

/-- DMA_COMPLETION (R243, R278, R279): a poisoned one is recorded, whatever its tag; one for a free tag is counted and recorded as unexpected, with no LATE_CPL (R279 speaks of tags in quarantine: DESIGN CHOICE, log entry 177); data that would be written waits for the holders of its lines (R118). -/
def execDmaCompletion (p : Port) (tag offset : Nat) (data : List Byte) (ep : Bool) (s : State) : Result :=
  let poisoned (u : State) : State := if ep then (u.err (prtPage p) 15).aer p 1 else u
  match s.tagOf p tag with
  | none => done ((poisoned s).lateCompletion p false)
  | some old =>
    let (new, extra) := old.take offset data ep
    if old.quarantined then
      let s1 := (poisoned s).lateCompletion p true
      done ((if new.complete then s1.freeTag p tag else s1.modTag p tag (fun _ => new)).pumpTags p)
    else
      match s.holdArrival (.dmaCompletion p tag offset data ep) old new with
      | (true, u) => done u
      | (false, u) =>
        let s1 := if extra then (poisoned u).lateCompletion p false else poisoned u
        let s2 := if new.complete then s1.freeTag p tag else s1.modTag p tag (fun _ => new)
        done ((s2.deliverRead old new).pumpTags p)

/-- The bytes of a read that have come and wait for the holders of their lines, taken into it; and the lines they wait for (R118, R278). -/
def State.arrived (s : State) (p : Port) (t : Tag) : Tag × List (Nat × MemReq) :=
  s.dir.waiting.foldl (fun (acc : Tag × List (Nat × MemReq)) w =>
    match w.1 with
    | .work line (.dmaCompletion q tag offset data ep) => if q = p ∧ tag = t.tag then ((acc.1.take offset data ep).1, (line, w.2) :: acc.2) else acc
    | _ => acc) (t, [])

/-- DMA_READ_TIMEOUT (R278): the tag is quarantined and the consumer sees what R278 says. A read all of whose bytes have come does not time out; bytes that have come and wait for snoops are delivered first. -/
def execDmaReadTimeout (p : Port) (tag : Nat) (s : State) : Result :=
  match s.tagOf p tag with
  | none => done s
  | some t =>
    if t.quarantined then done s
    else match s.arrived p t with
    | (x, (line, r) :: _) =>
      done (if x.complete then s else s.takePlace line true ⟨r.haddr, r.tag, some (.dmaReadTimeout p tag), 0⟩)
    | (_, []) => done ((((s.until (t.issuedAt + us * t.timeoutUs)).readTimedOut p tag).failRead t.consumer 7).settle)

/-- TAG_QUARANTINE_END (R279). -/
def execTagQuarantineEnd (p : Port) (tag : Nat) (s : State) : Result :=
  match s.tagOf p tag with
  | some t =>
    if t.quarantined then done (((s.until (t.issuedAt + 2 * us * t.timeoutUs)).freeTag p tag).pumpTags p) else done s
  | none => done s

end Sys2Proof.Machine
end

