-- ==== Sys2Proof/Machine/EditionCmds.lean ====
section
/-! DEFINITION. The edition engine's operations (R131, R133 to R139): PUBLISH, DRAFT_DISCARD, EDITION_QUERY, EDITION_WAIT and the folding of publications. -/

namespace Sys2Proof.Machine

/-- End an edition operation, with EDITION and EDITION_PORT of the region (R273). -/
def State.endEdition (s : State) (q seq g status : Nat) : State :=
  let r := s.region g
  s.endEntry q seq status r.edition r.editionPort 0

/-- The checks of PUBLISH and DRAFT_DISCARD, in order: NOT_VALID, NOT_PUBLISHED, REFUSED (R133, R136). -/
def State.editionCheck (s : State) (g w : Nat) : Option Nat :=
  let r := s.region g
  if !r.valid then some 24
  else if r.kind ≠ 2 then some 18
  else if w < 6 ∧ !(r.writeMask.getLsbD w) then some 1
  else none

/-- Record a rejected PUBLISH (R136). -/
def State.recordRejection (s : State) (g w reason e : Nat) : State :=
  (s.setWord 0x011 0x110 (g + w * 2 ^ 12 + reason * 2 ^ 16)).setWord 0x011 0x114 e

/-- The waits of a region that its edition now satisfies complete (R138). -/
def State.wakeWaits (s : State) (g : Nat) : State :=
  let ed := (s.region g).edition
  (s.qmg.entries.filter (fun e => decide (e.opcode = 0x43 ∧ e.stage = 2 ∧ e.a0 = g) && decide ((ed + 2 ^ 32 - e.dw1) % 2 ^ 32 < 2 ^ 31))).foldl
    (fun u e => u.endEdition e.queue e.seq g 0) s

/-- An accepted PUBLISH (R135): EDITION and EDITION_PORT are written, the draft is frozen, and an empty draft begins. -/
def State.acceptEdition (s : State) (g w e : Nat) : State :=
  let r := s.region g
  let tiles := (match s.draftOf g w with | some d => d.tiles | none => [])
  let s1 := s.setRegion g { r with edition := e, editionPort := w }
  let s2 := { s1 with edn := {
      drafts := s1.edn.drafts.filter (fun d => !(decide (d.region = g ∧ d.writer = w)))
      pubs := s1.edn.pubs ++ [({ region := g, edition := e, writer := w, tiles := tiles } : Publication)] } }
  (s2.count 0x011 0).wakeWaits g

/-- The decision on a proposed edition e (R134): 0 accepted, else the status of R274. -/
def editionStatus (cur port w e maxJump : Nat) : Nat :=
  let d := (e + 2 ^ 32 - cur) % 2 ^ 32
  if d = 0 then (if w = port then 22 else 19)
  else if d ≤ maxJump then 0
  else if d ≤ 2 ^ 31 then 21
  else 20

/-- PUBLISH by a writer of an edition of a region, once it may be executed (R131, R134 to R136): the status and the state. -/
def State.publish (s : State) (g w e : Nat) : Nat × State :=
  match s.editionCheck g w with
  | some st => (st, s)
  | none =>
    if (match s.draftOf g w with | some d => d.broken | none => false) then
      (23, (s.discardDraft g w).recordRejection g w 4 e)
    else
      let r := s.region g
      let st := editionStatus r.edition r.editionPort w e (s.word 0x011 0x100)
      if st = 0 then (0, s.acceptEdition g w e)
      else if st = 19 then (19, (s.recordRejection g w 0 e).count 0x011 1)
      else if st = 20 then (20, (s.recordRejection g w 1 e).count 0x011 2)
      else if st = 21 then (21, (s.recordRejection g w 2 e).count 0x011 3)
      else (22, s.recordRejection g w 3 e)

/-- A region has two publications not yet folded: a PUBLISH of it waits (R137). -/
def State.publishWaits (s : State) (g : Nat) : Bool :=
  (s.region g).valid && decide (2 ≤ (s.edn.pubs.filter (fun p => decide (p.region = g))).length)

/-- PUBLISH (R134). -/
def execPublish (queue seq : Nat) (s : State) : Result :=
  done (s.runEntry queue seq 0x40 (fun k e =>
    if s.publishWaits e.a0 ∧ (s.editionCheck e.a0 k.actor).isNone then s
    else
      let (st, u) := s.publish e.a0 k.actor e.dw1
      u.endEdition queue seq e.a0 st))

/-- DRAFT_DISCARD (R136). -/
def execDraftDiscard (queue seq : Nat) (s : State) : Result :=
  done (s.runEntry queue seq 0x41 (fun k e =>
    match s.editionCheck e.a0 k.actor with
    | some st => s.endEntry queue seq st
    | none =>
      let n := (match s.draftOf e.a0 k.actor with | some d => d.tiles.length | none => 0)
      (s.discardDraft e.a0 k.actor).endEntry queue seq 0 0 0 n))

/-- EDITION_QUERY (R138). -/
def execEditionQuery (queue seq : Nat) (s : State) : Result :=
  done (s.runEntry queue seq 0x42 (fun _ e => s.endEdition queue seq e.a0 (if (s.region e.a0).valid then 0 else 24)))

/-- EDITION_WAIT (R138): it completes at once where the edition is the target or newer, else it waits. -/
def execEditionWait (queue seq : Nat) (s : State) : Result :=
  done (s.runEntry queue seq 0x43 (fun _ e =>
    let r := s.region e.a0
    if !r.valid then s.endEdition queue seq e.a0 24
    else if (r.edition + 2 ^ 32 - e.dw1) % 2 ^ 32 < 2 ^ 31 then s.endEdition queue seq e.a0 0
    else s.modEntry queue seq (fun x => { x with stage := 2 })))

/-- EDITION_WAIT_TIMEOUT (R274): the limit in microseconds of a waiting EDITION_WAIT has passed. -/
def execEditionWaitTimeout (queue seq : Nat) (s : State) : Result :=
  match s.entry queue seq with
  | some e =>
    if e.opcode = 0x43 ∧ e.stage = 2 ∧ e.a1 ≠ 0 then
      done ((s.until (e.startedAt + us * e.a1)).endEdition queue seq e.a0 25)
    else done s
  | none => done s

/-- One tile of a publication is folded in class 3: each marked line goes to the tile's home with its poison mark (R137). -/
def State.foldTile (s : State) (d : DraftTile) : State :=
  let s1 := (List.range 256).foldl (fun (u : State) i =>
    if d.mask.getLsbD i then
      let v := u.draftCell d.slot i
      (u.dramVat d.slot i false background).writeTile d.tile i v.1 fullBe v.2 background
    else u) s
  s1.count 0x011 5

/-- Publications are folded from the front of the order in which they were accepted, up to the first of a region; the draft tiles of each are freed when its last line is written (R137). -/
def foldThrough (g : Nat) : List Publication → State → State
  | [], s => s
  | p :: rest, s =>
    let s1 := ((p.tiles.foldl State.foldTile { s with edn := { s.edn with pubs := rest } }).freeDraftTiles p.tiles).settleUsage
    if p.region = g then s1 else foldThrough g rest s1

/-- PUBLICATION_FOLD (R137): the oldest publication of a region has been folded into the homes and its draft tiles are freed, those accepted before it first. -/
def execPublicationFold (region : Fin 4096) (s : State) : Result :=
  if s.edn.pubs.any (fun p => decide (p.region = region.val)) then done (foldThrough region.val s.edn.pubs s).settle else done s

end Sys2Proof.Machine
end

