-- ==== Sys2Proof/Machine/CaskCmds.lean ====
section
/-! DEFINITION. Cask export and import (R109 to R114, R272): CASK_EXPORT, CASK_IMPORT, CASK_IMPORT_DATA, IMPORT_TIMEOUT and IMPORT_COMMIT. -/

namespace Sys2Proof.Machine

/-! ### Export -/

/-- The image of an encoded cask in a stream: a zero cask without poison is one sector with a method-1 header (R109). -/
def imageOf (c : StoredCask) : List Byte :=
  if c.length = 0 then padTo 64 (caskHeader 1 0 0 0 (crc32c (List.replicate 4096 0#8)) 0#64 0) else c.bytes

/-- The image of 64 poisoned lines. -/
def poisonImage : List Byte := imageOf (encodeCask 0 none [] (BitVec.allOnes 64))

/-- A read of a host-tier line is not answered in time (R74, R75, R278). -/
def State.lineLate (s : State) (a : Nat) (host : HostLines) : Bool :=
  decide (s.home (tileOf a) = 3) && s.windowOnline (s.hostPort (tileOf a)) && !(s.hostPoison (tileOf a) (lineOf a)) && (answerAt host (a / 64 * 64)).isNone

/-- The content of a cask encoded for export, with no change to storage (R94, R110); none where a read of its host-tier home timed out (R278). viewed says which lines a draft or a publication holds. -/
def State.encodeLines (s : State) (k : Queue) (r : Region) (a : Nat) (host : HostLines) (viewed : Nat → Bool) : Option (List Byte) × State :=
  let (raw, poison, late, u) := (List.range 64).foldl (fun (acc : List Byte × BitVec 64 × Bool × State) i =>
    if acc.2.2.1 then acc
    else
      let (l, v) := acc.2.2.2.engRead k.actor k.cls (a + 64 * i) (a + 64 * i) host (decide (i = 0))
      (acc.1 ++ l.data, if l.poison then acc.2.1 ||| BitVec.ofNat 64 (2 ^ i) else acc.2.1, !(viewed i) && acc.2.2.2.lineLate (a + 64 * i) host, v)) ([], 0#64, false, s)
  (if late then none else some (imageOf (encodeCask r.hint (u.curTable r) raw poison)), u)

/-- The image of the cask at address a, or the status that its export ends with: DAMAGED where it is quarantined, READ_TIMEOUT where a read of its host-tier home timed out; and whether its read was refused (R110, R278). -/
def State.exportImage (s0 : State) (k : Queue) (a : Nat) (host : HostLines) : Sum Nat (List Byte) × Bool × State :=
  let c := a / 4096
  match s0.refusal k.actor false false a with
  | some reason => (.inr poisonImage, true, s0.recordRefusal k.actor false a reason)
  | none =>
    match s0.findRegion a with
    | none => (.inr poisonImage, true, s0)
    | some (g, r) =>
      let w := workTraffic k.actor k.cls
      let s := s0.findTile (tileOf a) w (upsetAt host a isTileMap)
      let line (i : Nat) : Bool := decide (r.kind = 2) && (s.viewLine g k.actor (tileOf a) (lineOf (a + 64 * i))).isSome
      let viewed := (List.range 64).any line
      if s.home (tileOf a) = 2 ∧ (s.cask c).quarantined then (.inl 9, false, s)
      else if s.home (tileOf a) = 2 ∧ (s.bufOf c).isNone ∧ !viewed then
        let s1 := s.findCask c w (upsetAt host a isCaskMap)
        let e := s1.cask c
        let (bytes, ue, s2) := s1.readSectors c host
        let u := s2.dramCellar e.package e.sector e.length false w
        if u.home (tileOf a) ≠ 2 then (.inr poisonImage, false, u)
        else if ue then (.inl 9, false, u.quarantine c 6 0 (s1.firstBad c host))
        else (.inr (if e.length = 0 then imageOf ⟨1, 0, 0, 0#64, []⟩ else bytes), false, u.heatAccess (tileOf a) u.engineInc)
      else if s.home (tileOf a) = 4 ∧ !viewed then (.inr poisonImage, false, s)
      else
        let (image, u) := s.encodeLines k r a host line
        match image with
        | none => (.inl 7, false, u)
        | some l => if u.home (tileOf a) = 2 ∧ (u.cask c).quarantined then (.inl 9, false, u) else (.inr l, false, u)

/-- Send bytes to host memory, a line at a time. -/
def State.dmaBytes (s : State) (p haddr cls : Nat) (l : List Byte) : State :=
  ((chunks 64 (l.length / 64) l).zipIdx).foldl (fun u e => u.emit (.dmaWrite p (haddr + 64 * e.2) e.1 false cls)) s

/-- Put an image into the export's buffer: host memory of port p, or the unified range. The Bool says that a write was refused. -/
def State.putImage (s : State) (k : Queue) (p : Option Port) (a : Nat) (l : List Byte) (host : HostLines) : Bool × State :=
  match p with
  | some p => (false, s.dmaBytes p.val a k.cls l)
  | none => s.engPut k.actor k.cls a l host true

/-- Export casks from address a into what is left of the buffer: the status, the casks and bytes written, whether an access was refused (R110). left counts the casks still to export. -/
def State.exportRun (s : State) (k : Queue) (p : Option Port) (host : HostLines) : Nat → Nat → Nat → Nat → Nat → Nat → Bool → Nat × Nat × Nat × State
  | 0, _, _, _, casks, bytes, refused => (if refused then 1 else 0, casks, bytes, s)
  | left + 1, a, buf, room, casks, bytes, refused =>
    match s.exportImage k a host with
    | (.inl st, _, u) => (st, casks, bytes, u)
    | (.inr image, r, u) =>
      if room < image.length then (10, casks, bytes, s)
      else
        let (w, v) := u.putImage k p buf image host
        v.exportRun k p host left (a + 4096) (buf + image.length) (room - image.length) (casks + 1) (bytes + image.length) (refused || r || w)

/-- CASK_EXPORT (R109, R110, R118): the lines that it will read and write, as far as it will come, are taken from their holders first. -/
def execCaskExport (queue seq : Nat) (host : HostLines) (s : State) : Result :=
  done (s.runEntry queue seq 0x30 (fun k e =>
    let run (p : Option Port) : State :=
      let (st, reads, writes, _) := s.exportRun k p host e.dw1 e.a0 e.a1 e.a2 0 0 false
      let (wait, s1) := s.engHoldAll ⟨k.actor, k.cls, some (.caskExport queue seq host), 0⟩
        ((e.a0, 4096 * (reads + if st = 10 then 1 else 0), false) :: (if e.host1 then [] else [(e.a1, writes, true)]))
      if wait then s1
      else
        let (status, casks, bytes, u) := s1.exportRun k p host e.dw1 e.a0 e.a1 e.a2 0 0 false
        u.endEntry queue seq status casks 0 bytes
    if e.host1 then s.needPort k queue seq (fun p => run (some p)) else run none))

/-! ### Import -/

/-- The local table id of a table named in an imported stream (R114). -/
def State.importTable (s : State) (id : Nat) : Nat :=
  if id < 16 then id
  else match (List.range 64).find? (fun n => let w := (sget 0#32 s.prs.imap n).toNat; w.testBit 31 && decide (bits w 0 12 = id)) with
    | some n => bits (sget 0#32 s.prs.imap n).toNat 16 12
    | none => id

/-- An image with its header's TABLE_ID mapped (R114). An entry of the import map whose LOCAL_ID was never written holds 0; R114 does not speak of it, and the image then names table 0 and ends with FORMAT (DESIGN CHOICE, log entry 160). -/
def State.mapImage (s : State) (l : List Byte) : List Byte :=
  let w1 := leNat ((l.drop 4).take 4)
  l.take 4 ++ leBytes 4 (setBits w1 0 12 (s.importTable (bits w1 0 12))) ++ l.drop 8

/-- Sectors of an image, from its header. -/
def CaskHead.sectors (h : CaskHead) : Nat :=
  match h.method with
  | 0 => 65
  | 1 => 1
  | 2 => 1
  | _ => (32 + h.payload + 63) / 64

/-- The status of a damage code of R101 in an import (R112). -/
def importStatus (code : Nat) : Nat :=
  match code with
  | 0 => 12
  | 4 => 13
  | 7 => 13
  | 5 => 14
  | _ => 15

/-- Check the next whole image of a session and stage it (R111); of several failures the one that stands first in the list of R112: none while no image is whole, else the failure status, 0 where it passed, and the session with the cask staged. -/
def State.importNext (s : State) (x : Session) : Option (Nat × Session × State) :=
  if x.tail.length < 64 ∨ x.count ≤ x.staged.length then none
  else
    let h := readHead x.tail
    if !h.wellFormed || !h.valuesOk then some (12, x, s)
    else
      let n := h.sectors
      if x.tail.length < 64 * n then none
      else
        let image := s.mapImage (x.tail.take (64 * n))
        match decodeCask none n image false s.tableLens with
        | .damaged code =>
          some (if (code = 3 ∨ code = 5) ∧ imageMisfit image s.tableLens then 13 else importStatus code, x, s)
        | .ok _ _ excess =>
          if excess then some (13, x, s)
          else
            let c := x.dest + x.staged.length
            let g := match s.tileRegion (c / 4) with | some (g, _) => g | none => 0
            match s.takeSectors (c / 4) (c % 4) g n with
            | none => some (16, x, s)
            | some (package, sector, u) =>
              let u1 := ((u.putSectors package sector image).dramCellar package sector n true (workTraffic (u.queue x.queue).actor (u.queue x.queue).cls)).addRef (readHead image).table
              some (0, { x with tail := x.tail.drop (64 * n), staged := x.staged ++ [({ package := package, sector := sector, bytes := image } : Staged)] }, u1)

/-- Check and stage every whole image of a session, up to a failure; fuel bounds the images. -/
def State.importRun (s : State) (x : Session) : Nat → Nat × Session × State
  | 0 => (0, x, s)
  | fuel + 1 =>
    match s.importNext x with
    | none => (0, x, s)
    | some (st, y, u) => if st = 0 then u.importRun y fuel else (st, y, u)

/-- Replace a session. -/
def State.putSession (s : State) (x : Session) : State :=
  { s with prs := { s.prs with sessions := s.prs.sessions.filter (fun y => decide (y.queue ≠ x.queue)) ++ [x] } }

/-- A segment's bytes join a session, which is open: the status that the segment reveals, 0 where none (R111, R112). An image is checked as soon as it is complete; a final segment that holds a complete image that fails and then ends mid-image reveals the failure of that image (DESIGN CHOICE, log entry 157). -/
def State.addSegment (s : State) (x : Session) (bytes : List Byte) (final : Bool) : Nat × State :=
  let x1 := { x with tail := x.tail ++ bytes, lastAt := s.now, final := x.final || final }
  let (st, y, u) := s.importRun x1 (x.count + 1)
  let u1 := (u.putSession y).settleUsage
  if st ≠ 0 then (st, u1)
  else if final ∧ y.tail ≠ [] ∧ y.staged.length < y.count then (11, u1) else (0, u1)

/-- The partner's answers for the host-tier lines of a segment in the unified range: the segment's bytes at their places. -/
def segmentHost (a : Nat) (l : List Byte) (ep : List Nat) : HostLines :=
  (List.range ((l.length + 63) / 64)).map (fun i => { addr := a + 64 * i, data := (l.drop (64 * i)).take 64, ep := ep.contains i })

/-- The lines of a segment that came poisoned hold no data (R243): their bytes read as zero, and the image that they lie in is checked as such (DESIGN CHOICE, log entry 177). -/
def wipeLines (l : List Byte) (ep : List Nat) : List Byte := (l.zipIdx).map (fun e => if ep.contains (e.2 / 64) then 0#8 else e.1)

/-- DMA reads of n bytes of host memory within one step, each within the Max Read Request Size; given bytes of them come, and the first read that is not fully answered times out (R278). The Bool says that all came. -/
def State.readRun (s : State) (p : Port) (haddr n cls given : Nat) : Bool × State :=
  let size := max 64 (s.port p).mrrs
  (List.range ((n + size - 1) / size)).foldl (fun (acc : Bool × State) i =>
    if acc.1 then
      let m := min size (n - size * i)
      let answered := decide (size * i + m ≤ given)
      acc.2.readWithin p (haddr + size * i) m cls answered
    else acc) (true, s)

/-- Run an import entry on its segment: read from host memory, as it came with the command, once the port may issue and has a tag free, or from the unified range, once the holders of its lines are snooped (R118, R269, R278). A read that is not fully answered ends the entry with READ_TIMEOUT. ep names the lines of the segment that came with EP set, which is recorded (R243). c is the command. -/
def State.withSegment (s : State) (c : Instr) (k : Queue) (e : Entry) (segment : Option (List Byte)) (ep : List Nat) (f : List Byte → Bool → State → State) (timeout : State → State) : State :=
  let l := segment.getD []
  if e.host1 then
    s.needPort k e.queue e.seq (fun p =>
      if (nextTagOf (s.port p)).isNone ∧ e.a2 ≠ 0 then s
      else match s.readRun p e.a1 e.a2 k.cls l.length with
        | (true, u) => f ((wipeLines l ep).take e.a2) false (if ep.any (fun i => decide (64 * i < e.a2)) then (u.err (prtPage p) 15).aer p 1 else u)
        | (false, u) => timeout (u.endShort e.queue e.seq 7))
  else
    let (wait, s1) := s.engHoldRun ⟨k.actor, k.cls, some c, 0⟩ e.a1 e.a2 false
    if wait then s1
    else
      let (d, u) := s1.engBytes k.actor k.cls e.a1 e.a2 (segmentHost e.a1 l ep) true
      f d.data d.refused u

/-- CASK_IMPORT (R111, R272). -/
def execCaskImport (queue seq : Nat) (segment : Option (List Byte)) (s : State) (ep : List Nat := []) : Result :=
  done (s.runEntry queue seq 0x31 (fun k e =>
    if (s.sessionOf queue).isSome then s.endEntry queue seq 17
    else if 16 ≤ s.prs.sessions.length then s.endEntry queue seq 16
    else s.withSegment (.caskImport queue seq segment ep) k e segment ep (fun l refused u =>
      if refused then u.endEntry queue seq 1
      else
        let x : Session := { queue := queue, seq := seq, dest := e.a0 / 4096, count := e.dw1, lastAt := u.now }
        let u1 := (u.putSession x).modEntry queue seq (fun y => { y with stage := 2 })
        let (st, u2) := u1.addSegment x l e.final
        if st = 0 then u2 else u2.endSession queue st) (fun u => u)))

/-- CASK_IMPORT_DATA (R111, R272). -/
def execCaskImportData (queue seq : Nat) (segment : Option (List Byte)) (s : State) (ep : List Nat := []) : Result :=
  done (s.runEntry queue seq 0x32 (fun k e =>
    match s.sessionOf queue with
    | none => s.endEntry queue seq 17
    | some x => (s.modEntry queue seq (fun y => { y with session := some x.seq })).withSegment (.caskImportData queue seq segment ep) k e segment ep (fun l refused u =>
        if refused then u.endShort queue seq 1
        else
          let (st, u1) := u.addSegment x l e.final
          let checked := match u1.sessionOf queue with | some y => y.staged.length | none => 0
          let u2 := u1.endEntry queue seq st checked
          if st = 0 then u2 else u2.endSession queue st) (fun u => u.endSession queue 11)))

/-- Every cask of a session is checked and its last segment has come. -/
def Session.complete (x : Session) : Bool := x.final && decide (x.count ≤ x.staged.length)

/-- IMPORT_TIMEOUT (R112, R272): no further segment came while the session is incomplete. -/
def execImportTimeout (queue : Nat) (s : State) : Result :=
  match s.sessionOf queue with
  | some x =>
    if x.complete then done s
    else done ((s.until (x.lastAt + us * s.field 0x020 0x240 0 20)).endSession queue 11)
  | none => done s

/-- Write the decoded lines of a staged cask, which is read from its sectors, as full lines, and free its sectors (R113, R261). The Bool says that a write was dropped. -/
def State.commitLines (s0 : State) (k : Queue) (n : Nat) (c : Staged) : Bool × State :=
  let s := s0.dramCellar c.package c.sector ((c.bytes.length + 63) / 64) false (workTraffic k.actor k.cls)
  match decodeCask none (c.bytes.length / 64) c.bytes false s.tableLens with
  | .damaged _ => (false, s.freeStaged c)
  | .ok raw poison _ =>
    let (w, u) := (List.range 64).foldl (fun (acc : Bool × State) i =>
      let (d, v) := acc.2.engWrite k.actor k.cls (4096 * n + 64 * i) (4096 * n + 64 * i) ((raw.drop (64 * i)).take 64) fullBe (poison.getLsbD i) [] (decide (i = 0))
      (acc.1 || d, v)) (false, s)
    (w, u.freeStaged c)

/-- The staged cask becomes the stored cask with one cask-map update; a zero cask keeps no sectors (R82, R113). -/
def State.commitCask (s : State) (n : Nat) (c : Staged) : State :=
  let h := readHead c.bytes
  let zero := decide (h.method = 1) && decide (h.poison = 0#64)
  let s1 := ((s.freeCask n).dropBuf n).cacheDrop n
  let s2 := if zero then (s1.freeStaged c).setCask n { package := c.package, method := 1 }
    else s1.setCask n { sector := c.sector, package := c.package, length := c.bytes.length / 64, method := h.method, table := h.table, poisonAny := decide (h.poison ≠ 0#64) }
  ((s2.heatAccess (n / 4) s2.engineInc).zeroTest (n / 4)).settleUsage

/-- Commit one cask as a full-cask write (R108, R113): a running seal of it, and a re-encode that seal waits for, end first, and its open buffer is discarded. -/
def State.commitOne (s0 : State) (k : Queue) (n : Nat) (c : Staged) : Bool × State :=
  match s0.findRegion (4096 * n) with
  | none => (false, s0.freeStaged c)
  | some (_, r) =>
    let w := workTraffic k.actor k.cls
    let s := (s0.findTile (n / 4) w .none).findCask n w .none
    if r.kind = 2 then s.commitLines k n c
    else
      let s1 := if s.home (n / 4) = 0 ∨ s.home (n / 4) = 4 then s.firstHome (n / 4) w else s
      let s2 := match s1.bufOf n with
        | some b => if b.sealing then s1.finishSeal n else s1
        | none => s1
      if s2.home (n / 4) = 2 then (false, s2.commitCask n c)
      else if s2.home (n / 4) = 0 then
        let s3 := s2.firstHome (n / 4) w
        if s3.home (n / 4) = 2 then (false, s3.commitCask n c) else s3.commitLines k n c
      else s2.commitLines k n c

/-- Commit the casks of a session in order; one whose tile moves makes the rest wait (R113). fuel bounds the casks. -/
def State.commitRun (s : State) (k : Queue) (x : Session) : Nat → Session × State
  | 0 => (x, s)
  | fuel + 1 =>
    let n := x.dest + x.committed
    match x.staged[x.committed]? with
    | none => (x, s)
    | some c =>
      if s.moving (n / 4) then (x, s)
      else
        let (d, u) := s.commitOne k n c
        u.commitRun k { x with committed := x.committed + 1, dropped := x.dropped || d } fuel

/-- The commit of a session goes on, and ends with its last cask (R113). -/
def State.commitSession (s : State) (k : Queue) (x : Session) : State :=
  let (y, u) := s.commitRun k x x.count
  if y.committed < x.count then u.putSession y
  else
    let u1 := { u with prs := { u.prs with sessions := u.prs.sessions.filter (fun z => decide (z.queue ≠ x.queue)) } }
    (u1.endEntry x.queue x.seq (if y.dropped then 1 else 0) (if y.dropped then 0 else x.count) 0 0).flushChecks

/-- IMPORT_COMMIT (R112, R113): rights are checked for every cask when the commit begins; a tile that moves, or holders to be snooped, make it wait, and the next IMPORT_COMMIT goes on with the casks that are left. -/
def execImportCommit (queue : Nat) (s : State) : Result :=
  match s.sessionOf queue with
  | none => done s
  | some x =>
    let k := s.queue queue
    let casks := (List.range (x.count - x.committed)).map (fun i => x.dest + x.committed + i)
    if !x.complete || casks.head?.any (fun c => s.moving (c / 4)) then done s
    else match (if x.committed = 0 then casks.find? (fun c => (s.refusal k.actor true false (4096 * c)).isSome) else none) with
      | some c =>
        let s1 := s.recordRefusal k.actor true (4096 * c) ((s.refusal k.actor true false (4096 * c)).getD 0)
        let s2 := (s1.dropStaged x).endEntry queue x.seq 1 0 (c - x.dest) 0
        done { s2 with prs := { s2.prs with sessions := s2.prs.sessions.filter (fun y => decide (y.queue ≠ queue)) } }
      | none =>
        let (wait, s1) := s.engHoldRun ⟨k.actor, k.cls, some (.importCommit queue), 0⟩ (4096 * (x.dest + x.committed)) (4096 * casks.length) true
        if wait then done s1 else done ((s1.commitSession k x).settle)

end Sys2Proof.Machine
end

