-- ==== Sys2Proof/Machine/Float.lean ====
section
/-! DEFINITION. Exact arithmetic on the number formats of R143 to R145 and on FP64 and INT64: values as sign, integer and power of two, exact sums and products, one rounding to nearest with ties to even, and the conversions of R159 and R210. -/

namespace Sys2Proof.Machine

/-- A number: NaN, an infinity, or ±m × 2^e. -/
inductive Num where
  | nan
  | inf (neg : Bool)
  | fin (neg : Bool) (m : Nat) (e : Int)
deriving DecidableEq, Repr, Inhabited

/-- A binary floating-point format (R144): exponent and mantissa bits, bias, and how it treats specials: 0 none, 1 NaN at all ones only (E4M3), 2 IEEE style. -/
structure Fmt where
  eb : Nat
  mb : Nat
  bias : Nat
  specials : Nat
deriving DecidableEq, Repr, Inhabited

def fmtE2M1 : Fmt := ⟨2, 1, 1, 0⟩
def fmtE2M3 : Fmt := ⟨2, 3, 1, 0⟩
def fmtE3M2 : Fmt := ⟨3, 2, 3, 0⟩
def fmtE4M3 : Fmt := ⟨4, 3, 7, 1⟩
def fmtE5M2 : Fmt := ⟨5, 2, 15, 2⟩
def fmtBF16 : Fmt := ⟨8, 7, 127, 2⟩
def fmtFP16 : Fmt := ⟨5, 10, 15, 2⟩
def fmtFP32 : Fmt := ⟨8, 23, 127, 2⟩
def fmtFP64 : Fmt := ⟨11, 52, 1023, 2⟩

/-- The value of a bit pattern (R144). -/
def Fmt.value (f : Fmt) (v : Nat) : Num :=
  let m := bits v 0 f.mb
  let e := bits v f.mb f.eb
  let neg := v.testBit (f.mb + f.eb)
  if f.specials = 2 ∧ e = 2 ^ f.eb - 1 then (if m = 0 then .inf neg else .nan)
  else if f.specials = 1 ∧ e = 2 ^ f.eb - 1 ∧ m = 2 ^ f.mb - 1 then .nan
  else if e = 0 then .fin neg m (1 - (f.bias : Int) - f.mb)
  else .fin neg (m + 2 ^ f.mb) ((e : Int) - f.bias - f.mb)

/-- The positive canonical NaN (R145): all ones for E4M3, else the quiet NaN. -/
def Fmt.nan (f : Fmt) : Nat :=
  if f.specials = 1 then 2 ^ (f.eb + f.mb) - 1 else (2 ^ f.eb - 1) * 2 ^ f.mb + 2 ^ (f.mb - 1)

/-- The pattern of the largest finite value. -/
def Fmt.top (f : Fmt) : Nat :=
  match f.specials with
  | 0 => 2 ^ (f.eb + f.mb) - 1
  | 1 => 2 ^ (f.eb + f.mb) - 2
  | _ => (2 ^ f.eb - 1) * 2 ^ f.mb - 1

/-- What stands for an infinity where values beyond the range are not saturated (R159): NaN for E4M3, which has none. -/
def Fmt.infinity (f : Fmt) (neg : Bool) : Nat :=
  if f.specials = 2 then (2 ^ f.eb - 1) * 2 ^ f.mb + (if neg then 2 ^ (f.eb + f.mb) else 0) else f.nan

/-- m × 2^d rounded to an integer, to nearest with ties to even. -/
def roundInt (m : Nat) (d : Int) : Nat :=
  if 0 ≤ d then m * 2 ^ d.toNat
  else
    let k := (-d).toNat
    let q := m / 2 ^ k
    let r := m % 2 ^ k
    if 2 * r < 2 ^ k then q else if 2 ^ k < 2 * r then q + 1 else q + q % 2

/-- The bit pattern of a number in a format, rounded to nearest with ties to even (R145, R154, R159); sat takes values beyond the range, infinities among them, to the largest finite value. -/
def Fmt.pattern (f : Fmt) (sat : Bool) (x : Num) : Nat :=
  let sign (neg : Bool) : Nat := if neg then 2 ^ (f.eb + f.mb) else 0
  let beyond (neg : Bool) : Nat := if sat then f.top + sign neg else f.infinity neg
  match x with
  | .nan => f.nan
  | .inf neg => beyond neg
  | .fin neg m e =>
    if m = 0 then sign neg
    else
      let qmin : Int := 1 - (f.bias : Int) - f.mb
      let q : Int := max qmin ((Nat.log2 m : Int) + e - f.mb)
      let code := (q - qmin).toNat * 2 ^ f.mb + roundInt m (e - q)
      if f.top < code then beyond neg else code + sign neg

/-- The signed integer m of ±m. -/
def signed (neg : Bool) (m : Nat) : Int := if neg then -(m : Int) else m

/-- The product of two numbers, exact (R158). -/
def Num.mul : Num → Num → Num
  | .nan, _ => .nan
  | _, .nan => .nan
  | .inf a, .inf b => .inf (a != b)
  | .inf a, .fin b m _ => if m = 0 then .nan else .inf (a != b)
  | .fin a m _, .inf b => if m = 0 then .nan else .inf (a != b)
  | .fin a m d, .fin b n e => .fin (a != b) (m * n) (d + e)

/-- The sum of two numbers, exact; an exact zero from unlike signs is +0 (IEEE 754, R158). -/
def Num.add : Num → Num → Num
  | .nan, _ => .nan
  | _, .nan => .nan
  | .inf a, .inf b => if a = b then .inf a else .nan
  | .inf a, .fin _ _ _ => .inf a
  | .fin _ _ _, .inf b => .inf b
  | .fin a m d, .fin b n e =>
    let k := min d e
    let v := signed a (m * 2 ^ (d - k).toNat) + signed b (n * 2 ^ (e - k).toNat)
    if v = 0 then .fin (a && b) 0 k else .fin (decide (v < 0)) v.natAbs k

/-- +0. -/
def Num.zero : Num := .fin false 0 0

/-- The exact sum of a list (R154 step 1, R158). -/
def Num.sum (l : List Num) : Num := l.foldl Num.add Num.zero

/-- The value of an E8M0 scale (R144). -/
def scaleValue (v : Nat) : Num := if v = 255 then .nan else .fin false 1 ((v : Int) - 127)

/-- Order of two numbers for MIN and MAX, −0 below +0 (R210). NaN is not compared here. -/
def Num.below : Num → Num → Bool
  | .inf true, .inf true => false
  | .inf true, _ => true
  | _, .inf true => false
  | .inf false, _ => false
  | _, .inf false => true
  | .fin a m d, .fin b n e =>
    let k := min d e
    let x := signed a (m * 2 ^ (d - k).toNat)
    let y := signed b (n * 2 ^ (e - k).toNat)
    decide (x < y) || (decide (x = y) && a && !b)
  | _, _ => false

/-- The sum of two patterns of a format, rounded once. -/
def Fmt.addP (f : Fmt) (a b : Nat) : Nat := f.pattern false ((f.value a).add (f.value b))

/-- The product of two patterns of a format, rounded once. -/
def Fmt.mulP (f : Fmt) (a b : Nat) : Nat := f.pattern false ((f.value a).mul (f.value b))

/-- FP32 additions (R155). -/
def addF32 (a b : Nat) : Nat := fmtFP32.addP a b

/-- Two's complement of w bits. -/
def toInt (w v : Nat) : Int := if v.testBit (w - 1) then (bits v 0 w : Int) - 2 ^ w else bits v 0 w
def ofInt (w : Nat) (v : Int) : Nat := (v % 2 ^ w).toNat

/-- A value held within w-bit two's complement, and whether it saturated (R157, R210). -/
def satInt (w : Nat) (v : Int) : Int × Bool :=
  if v < -(2 ^ (w - 1)) then (-(2 ^ (w - 1)), true)
  else if 2 ^ (w - 1) - 1 < v then (2 ^ (w - 1) - 1, true)
  else (v, false)

/-- An integer multiplied exactly by a number and rounded to an integer (R210): NaN gives 0, an infinity saturates by the product's sign. The Bool says that it saturated. -/
def scaleInt (w : Nat) (v : Int) (x : Num) : Int × Bool :=
  match x with
  | .nan => (0, false)
  | .inf neg => if v = 0 then (0, false) else satInt w (if (decide (v < 0)) != neg then -(2 ^ w) else 2 ^ w)
  | .fin neg m e =>
    let n := roundInt (v.natAbs * m) e
    satInt w (signed ((decide (v < 0)) != neg) n)

/-- The quotient of two numbers in FP32, to nearest with ties to even (IEEE 754): integer division to enough places, with a sticky bit. -/
def divF32 (a b : Nat) : Nat :=
  match fmtFP32.value a, fmtFP32.value b with
  | .nan, _ => fmtFP32.nan
  | _, .nan => fmtFP32.nan
  | .inf _, .inf _ => fmtFP32.nan
  | .inf x, .fin y _ _ => fmtFP32.infinity (x != y)
  | .fin x _ _, .inf y => fmtFP32.pattern false (.fin (x != y) 0 0)
  | .fin x m d, .fin y n e =>
    if n = 0 then (if m = 0 then fmtFP32.nan else fmtFP32.infinity (x != y))
    else
      let k : Nat := 80
      let q := m * 2 ^ k / n
      let sticky := if m * 2 ^ k % n = 0 then 0 else 1
      fmtFP32.pattern false (.fin (x != y) (2 * q + sticky) (d - e - k - 1))

end Sys2Proof.Machine
end

