-- ==== Sys2Proof/Machine/Spares.lean ====
section
/-! DEFINITION. Rows, clusters and engines as the jobs and the cooper see them: clock levels and their steps (R358, R363, R364, R367), which job holds a row (R182), the clusters of a row (R140 to R142), and the substitution of clusters and column groups between jobs (R11, R170, R346). -/

namespace Sys2Proof.Machine

/-! ### Levels -/

/-- Page of tensor row r, and of cluster c of it. -/
def tnsPage (r : Nat) : Nat := 0x100 + r
def clsPage (r c : Nat) : Nat := 0x200 + 64 * r + c

/-- Page of data engine e. -/
def denPage (e : Nat) : Nat := 0x0A0 + e

/-- An element of a vector of sixteen. -/
def nth16 (v : Vector Nat 16) (r : Nat) : Nat := v.toList.getD r 0

/-- Heat level of a stack, and the power level (R358, R363). -/
def State.heatLevel (s : State) (r : Nat) : Nat := s.field 0x001 (0x120 + 4 * r) 8 3
def State.powerLevel (s : State) : Nat := s.field 0x001 0x10C 16 3

/-- Requested level of a row (R364). -/
def State.requested (s : State) (r : Nat) : Nat := max (s.heatLevel r) s.powerLevel

/-- The level a row runs at. -/
def State.level (s : State) (r : Nat) : Nat := nth16 s.tns.level r

/-- The clock of a level in MHz (R363). -/
def levelMhz (l : Nat) : Nat := 700 - 70 * l

/-- A row takes a level: a change is counted and shown (R167, R364). -/
def State.setLevel (s : State) (r l : Nat) : State :=
  if s.level r = l then s
  else
    let s1 := { s with tns := { s.tns with level := s.tns.level.set! r l } }
    (s1.setField (tnsPage r) 0x104 22 10 (levelMhz l)).count (tnsPage r) 2

/-- A row runs a layer. -/
def State.rowBusy (s : State) (r : Nat) : Bool := decide (nth16 s.tns.runBy r ≠ 0)

/-- Every row that runs no layer takes its requested level at once (R364, R367). -/
def State.settleLevels (s : State) : State :=
  (List.range 16).foldl (fun u r => if u.rowBusy r then u else u.setLevel r (u.requested r)) s

/-- A data engine takes its row's requested level at a unit boundary (R204, R364). -/
def State.denLevel (s : State) (e : Nat) : State := s.setField (denPage e) 0x104 16 10 (levelMhz (s.requested e))

/-- A row is held by heat, or every row by power (R358, R365). -/
def State.rowHeld (s : State) (r : Nat) : Bool := s.pwr.heatHold.getLsbD r || s.pwr.powerHold

/-- A row's island, and an engine's, is dormant (R362). -/
def State.rowDormant (s : State) (r : Nat) : Bool := (s.word 0x001 0x11C).testBit r
def State.denDormant (s : State) (e : Nat) : Bool := (s.word 0x001 0x11C).testBit (16 + e)

/-- The idle time of an island begins anew: row i, or engine i - 16 (R362). -/
def State.dozeLater (s : State) (i : Nat) : State := { s with pwr := { s.pwr with dozeFrom := s.pwr.dozeFrom.set! i s.now } }

/-- A dormant row or engine wakes, to run its first cycle 2.0 µs later (R362). -/
def State.wakeRow (s : State) (r : Nat) : State :=
  if s.rowDormant r then
    let s1 := (s.setField 0x001 0x11C r 1 0).count 0x001 5
    { s1 with pwr := { s1.pwr with rowWakeAt := s1.pwr.rowWakeAt.set! r (s1.now + 2000) } }
  else s
def State.wakeDen (s : State) (e : Nat) : State :=
  if s.denDormant e then
    let s1 := (s.setField 0x001 0x11C (16 + e) 1 0).count 0x001 5
    { s1 with pwr := { s1.pwr with denWakeAt := s1.pwr.denWakeAt.set! e (s1.now + 2000) } }
  else s

/-! ### Clusters -/

/-- Some job holds a row (R182). -/
def State.jobHolds (s : State) (r : Nat) : Bool := s.lst.jobs.any (fun j => j.rows.getLsbD r)

/-- STATE and LOGICAL of a physical cluster (CLS_STATUS). -/
def State.clusterState (s : State) (r c : Nat) : Nat := s.field (clsPage r c) 0x100 0 2
def State.clusterLogical (s : State) (r c : Nat) : Nat := s.field (clsPage r c) 0x100 8 5

/-- The physical clusters of a row that are active, in ascending order, and those that are idle spares. -/
def State.activeClusters (s : State) (r : Nat) : List Nat := (List.range 34).filter (fun c => decide (s.clusterState r c = 0))
def State.spareClusters (s : State) (r : Nat) : List Nat := (List.range 34).filter (fun c => decide (s.clusterState r c = 1))

/-- ACTIVE of a row (R142). -/
def State.activeCount (s : State) (r : Nat) : Nat := (s.activeClusters r).length

/-- Physical cluster of logical number l of a row. -/
def State.physCluster (s : State) (r l : Nat) : Option Nat := (s.activeClusters r).find? (fun c => decide (s.clusterLogical r c = l))

/-- Write TNS_MAP, TNS_STATUS and TNS_SPARES of a row from its clusters' states. -/
def State.showRow (s : State) (r : Nat) : State :=
  let entry (u : State) (l : Nat) : Nat := match u.physCluster r l with | some c => c + 2 ^ 7 | none => 0
  let s1 := (List.range 8).foldl (fun (u : State) n =>
    u.setWord (tnsPage r) (0x110 + 4 * n) (entry s (4 * n) + entry s (4 * n + 1) * 2 ^ 8 + entry s (4 * n + 2) * 2 ^ 16 + entry s (4 * n + 3) * 2 ^ 24)) s
  let a := s.activeCount r
  ((s1.setField (tnsPage r) 0x104 0 6 a).setField (tnsPage r) 0x104 7 1 (if a < 32 then 1 else 0)).setField (tnsPage r) 0x108 0 2 (s.spareClusters r).length

/-- Set STATE and LOGICAL of a cluster. -/
def State.setCluster (s : State) (r c state logical : Nat) : State :=
  (s.setField (clsPage r c) 0x100 0 2 state).setField (clsPage r c) 0x100 8 5 logical

/-- The idle spare that takes a retired cluster's place: which one is the cooper's choice (log entry 8). -/
def State.spareChoice (s : State) (r : Nat) : Option Nat :=
  let l := s.spareClusters r
  l[Config.shombeChoice (r + 16 * l.length) % max 1 l.length]?

/-- UNIT of a cluster in the repair log (R352). -/
def unitCluster (r c : Nat) : Nat := r + c * 2 ^ 4

/-- The spare that takes a retired cluster's place: what its entry in the repair log says, so that a replay gives the same map (R11, R352): the spare it names, or none where it says that the row becomes short. With no entry, the cooper's choice; none where the row has no spare. -/
def State.spareFor (s : State) (r c : Nat) : Option Nat :=
  match (s.igr.log.filter (fun e => decide (e.action = 7 ∧ e.unit = unitCluster r c))).getLast? with
  | some e => if e.detail < 34 ∧ s.clusterState r e.detail = 1 then some e.detail else none
  | none => s.spareChoice r

/-- Share in percent of the spares of R10 that are countable (4 banks of each of 128 vat dies, 4 lanes of each of 1,024 channels, 4 column groups of each of 544 clusters, 2 clusters a row, 2 cores, 2 lanes of each of 48 presses) brought in (IGR_SPARES, R237); rounded down. -/
def State.usedPct (s : State) : Nat :=
  100 * ((List.range 6).map (fun k => sget 0 s.igr.sparesUsed k)).sum / (512 + 4096 + 2176 + 32 + 2 + 96)

/-- Physical cluster c of row r leaves the row's map (R142): its logical number passes to spare sp, or with none the remaining clusters renumber. Where the start-up replay makes a row short, TNS_STATUS alone shows it, not ERR_STATUS, which R142 does not settle (DESIGN CHOICE, log entry 172). -/
def State.swapCluster (s : State) (r c : Nat) (sp : Option Nat) : State :=
  if s.clusterState r c = 1 then ((s.setCluster r c 2 0).useSpare 3).showRow r
  else match sp with
    | some x => (((s.setCluster r c 2 0).setCluster r x 0 (s.clusterLogical r c)).useSpare 3).showRow r
    | none =>
      let s1 := s.setCluster r c 2 0
      (((s1.activeClusters r).zipIdx).foldl (fun u e => u.setCluster r e.1 0 e.2) s1).showRow r

/-- Retire a cluster (R142, R170): an active one's number passes to a spare, or the row becomes short and renumbers; a spare is retired; a retired one stays so. RETIRE_REQ clears. -/
def State.retireCluster (s : State) (r c : Nat) : State :=
  let s0 := s.setField (clsPage r c) 0x104 0 1 0
  if s.clusterState r c = 2 ∨ 34 ≤ c then s0
  else if s.clusterState r c = 1 then (s0.swapCluster r c none).repaired
  else match s0.spareFor r c with
    | some x => ((s0.swapCluster r c (some x)).count (tnsPage r) 5).repaired
    | none => (((s0.swapCluster r c none).err (tnsPage r) 9).spareLow).repaired

/-- Retired column groups of a cluster, and spare groups brought in. -/
def State.groupRetired (s : State) (r c g : Nat) : Bool := (s.word (clsPage r c) (0x110 + 4 * (g / 32))).testBit (g % 32)
def State.laneSpares (s : State) (r c : Nat) : Nat := s.field (clsPage r c) 0x100 16 3

/-- A spare column group takes the place of group g of a cluster (R141). -/
def State.swapGroup (s : State) (r c g : Nat) : State :=
  let s1 := s.setField (clsPage r c) (0x110 + 4 * (g / 32)) (g % 32) 1 1
  (s1.setField (clsPage r c) 0x100 16 3 (s.laneSpares r c + 1)).useSpare 2

/-- Retire a column group of a cluster: a spare group takes its place (R141); with none left the cluster is retired (R345). -/
def State.retireGroup (s : State) (r c g : Nat) : State :=
  if s.groupRetired r c g ∨ 260 ≤ g then s
  else if 4 ≤ s.laneSpares r c then s.retireCluster r c
  else (s.swapGroup r c g).repaired

/-- Bring in a substitution that takes effect between jobs. -/
def State.substitute (s : State) : RepairUnit → State
  | .columnGroup r c g => s.retireGroup r c g
  | .cluster r c => s.retireCluster r c
  | _ => s

/-- The row of a substitution that takes effect between jobs. -/
def substRow : RepairUnit → Option Nat
  | .columnGroup r _ _ => some r
  | .cluster r _ => some r
  | _ => none

/-- SUBST_PENDING of a row (R170, R346). -/
def State.substPending (s : State) (r : Nat) : Bool := s.igr.heldSubst.any (fun u => decide (substRow u = some r))

/-- A substitution of a row waits for flash to acknowledge its entry (R346): no job is admitted to the row before it is in (R11, R400). -/
def State.substAwaited (s : State) (r : Nat) : Bool := s.igr.waiting.any (fun e => decide (substRow e.1 = some r))

/-- Substitutions held for a row that no job holds take effect (R11, R346). -/
def State.settleSubst (s : State) : State :=
  let free (u : RepairUnit) : Bool := match substRow u with | some r => !(s.jobHolds r) | none => true
  let ready := s.igr.heldSubst.filter free
  ready.foldl State.substitute { s with igr := { s.igr with heldSubst := s.igr.heldSubst.filter (fun u => !(free u)) } }

end Sys2Proof.Machine
end

