-- ==== Sys2Proof/Machine/Tensor.lean ====
section
/-! DEFINITION. What a layer is and computes: chain records (R172, R173), tile sets (R147 to R152, R174), the pairings of R146, the split-pass plan (R192), the dealing of blocks to clusters (R163, R164), and the sums of R153 to R160 and R195. -/

namespace Sys2Proof.Machine

/-! ### Records -/

/-- A chain record's fields (R173), with the bits it must hold zero. -/
structure LayerRec where
  kind : Nat
  wf : Nat
  af : Nat
  oF : Nat
  sat : Bool
  act : Nat
  split : Nat
  lockBase : Nat
  lockLog : Nat
  policy : Nat
  pin : Bool
  fbCount : Nat
  fbFirst : Nat
  deadline : Nat
  maxWait : Nat
  m : Nat
  k : Nat
  n : Nat
  cbTiles : Nat
  denCount : Nat
  aAddr : Nat
  wAddr : Nat
  aux0 : Nat
  aux1 : Nat
  out : Nat
  den : Nat
  tag : Nat
  /-- A reserved bit is set. -/
  stray : Bool
deriving DecidableEq, Repr, Inhabited

/-- Little-endian number of n bytes of a memory. -/
def memNat (m : Memory) (a n : Nat) : Nat := leNat (Memory.bytes m a n)

/-- Record i of a chain held from byte 0 (R173). -/
def recOf (c : Memory) (i : Nat) : LayerRec :=
  let b := 128 * i
  let w0 := memNat c b 4
  let w1 := memNat c (b + 4) 4
  let w7 := memNat c (b + 0x1C) 4
  { kind := bits w0 0 4, wf := bits w0 4 4, af := bits w0 8 4, oF := bits w0 12 4, sat := w0.testBit 16, act := bits w0 17 2,
    split := bits w0 19 2, lockBase := bits w0 24 4, lockLog := bits w0 28 3, policy := bits w1 0 2, pin := w1.testBit 2,
    fbCount := bits w1 8 3, fbFirst := bits w1 16 14, deadline := memNat c (b + 8) 4, maxWait := memNat c (b + 0xC) 4,
    m := memNat c (b + 0x10) 4, k := memNat c (b + 0x14) 4, n := memNat c (b + 0x18) 4, cbTiles := bits w7 0 8, denCount := bits w7 8 8,
    aAddr := memNat c (b + 0x20) 8, wAddr := memNat c (b + 0x28) 8, aux0 := memNat c (b + 0x30) 8, aux1 := memNat c (b + 0x38) 8,
    out := memNat c (b + 0x40) 8, den := memNat c (b + 0x48) 8, tag := memNat c (b + 0x50) 4,
    stray := decide (bits w0 21 3 ≠ 0) || w0.testBit 31 || decide (bits w1 3 5 ≠ 0) || decide (bits w1 11 5 ≠ 0) || decide (bits w1 30 2 ≠ 0)
      || decide (bits w7 16 16 ≠ 0) || (Memory.bytes c (b + 0x54) 44).any (fun x => decide (x ≠ 0)) }

/-- The header's fields (R172). -/
structure ChainHead where
  kind : Nat
  prefetch : Nat
  watchEn : Bool
  windowMib : Nat
  count : Nat
  watchQueue : Nat
  report : Nat
  tag : Nat
  stray : Bool
deriving DecidableEq, Repr, Inhabited

/-- The header of a chain (R172). -/
def headOf (c : Memory) : ChainHead :=
  let w0 := memNat c 0 4
  let w2 := memNat c 8 4
  let w3 := memNat c 0xC 4
  { kind := bits w0 0 4, prefetch := bits w0 4 4, watchEn := w0.testBit 8, windowMib := memNat c 4 4, count := bits w2 0 14,
    watchQueue := bits w3 0 16, report := memNat c 0x10 8, tag := memNat c 0x18 4,
    stray := decide (w0 / 2 ^ 9 ≠ 0) || decide (w2 / 2 ^ 14 ≠ 0) || decide (w3 / 2 ^ 16 ≠ 0)
      || (Memory.bytes c 0x1C 100).any (fun x => decide (x ≠ 0)) }

/-- A header obeys R172: no reserved value or bit. -/
def ChainHead.ok (h : ChainHead) : Bool :=
  !h.stray && decide (h.kind = 0) && decide (1 ≤ h.prefetch) && decide (h.prefetch ≤ 8)
    && decide (h.windowMib % 16 = 0) && decide (16 ≤ h.windowMib) && decide (h.windowMib ≤ 262144) && decide (1 ≤ h.count) && decide (h.report % 64 = 0)

/-! ### Formats and pairings -/

/-- Element width in bits of a format code (R143); the low plane's for MXFP6. -/
def elemBits (f : Nat) : Nat :=
  match f with
  | 0 => 4 | 1 => 4 | 2 => 4 | 3 => 4 | 4 => 8 | 5 => 8 | 6 => 8 | 7 => 16 | 8 => 16 | _ => 32

/-- The floating-point format of a code, where it is one. -/
def codeFmt (f : Nat) : Fmt :=
  match f with
  | 1 => fmtE2M1 | 2 => fmtE2M3 | 3 => fmtE3M2 | 4 => fmtE4M3 | 5 => fmtE5M2 | 7 => fmtBF16 | 8 => fmtFP16 | _ => fmtFP32

/-- The pairings of R146: weights, activations, outputs. -/
def pairingOk (w a o : Nat) : Bool :=
  if w ≤ 5 then decide (a = 4 ∨ a = 5) && (decide (o = 9) || decide (o = 7) || decide (o = 8) || decide (o = 4) || decide (o = 5))
  else match w with
    | 6 => decide (a = 6 ∧ o = 10)
    | 7 => decide (a = 7) && (decide (o = 9) || decide (o = 7))
    | 8 => decide (a = 8) && (decide (o = 9) || decide (o = 8))
    | 9 => decide (a = 9 ∧ o = 9)
    | _ => false

/-- Cycles per activation row per block (R146), load cycles of a block (R162) and its bytes. -/
def rowCycles (w : Nat) : Nat := match w with | 0 => 1 | 1 => 1 | 7 => 4 | 8 => 4 | 9 => 32 | _ => 2
def loadCycles (w : Nat) : Nat := match w with | 0 => 256 | 1 => 256 | 2 => 384 | 3 => 384 | 7 => 1024 | 8 => 1024 | 9 => 2048 | _ => 512
def blockBytes (w : Nat) : Nat := 128 * loadCycles w

/-- Depth positions of a fused group (R154). -/
def groupSize (w : Nat) : Nat := if w = 9 then 8 else 32

/-! ### Tile sets -/

/-- ceil(a / b). -/
def ceilDiv (a b : Nat) : Nat := (a + b - 1) / b

/-- Tiles of a set of depth d and width v whose elements are b bits wide (R148). -/
def setTiles (b d v : Nat) : Nat := ceilDiv v 256 * ceilDiv d (512 / b)

/-- The address of the line that holds element (k, w) of a set (R147, R148). -/
def setLineAt (base b d k w : Nat) : Nat :=
  let h := 512 / b
  base + 16384 * ((w / 256) * ceilDiv d h + k / h) + 64 * (w % 256)

/-- Element (k, w) of a set, its bytes read through rd. -/
def setElem (rd : Nat → Nat) (base b d k w : Nat) : Nat :=
  let bit := b * (k % (512 / b))
  let a := setLineAt base b d k w + bit / 8
  let raw := match b with
    | 16 => rd a + 2 ^ 8 * rd (a + 1)
    | 32 => rd a + 2 ^ 8 * rd (a + 1) + 2 ^ 16 * rd (a + 2) + 2 ^ 24 * rd (a + 3)
    | _ => rd a
  bits raw (bit % 8) b

/-- Tiles of the weight set itself. -/
def LayerRec.wTiles (r : LayerRec) : Nat := setTiles (elemBits r.wf) r.k r.n

/-- The layer has E8M0 scales; it is MXFP6 (R151). -/
def LayerRec.scaled (r : LayerRec) : Bool := decide (1 ≤ r.wf ∧ r.wf ≤ 3)
def LayerRec.six (r : LayerRec) : Bool := decide (r.wf = 2 ∨ r.wf = 3)

/-- The weight sets of a record: address and tiles (R174). -/
def LayerRec.weightSets (r : LayerRec) : List (Nat × Nat) :=
  [(r.wAddr, r.wTiles)]
    ++ (if r.scaled then [(r.aux0, setTiles 8 (ceilDiv r.k 32) r.n)] else [])
    ++ (if r.six then [(r.aux1, setTiles 2 r.k r.n)] else [])
    ++ (if r.wf = 0 then [(r.aux0, ceilDiv (8 * r.wTiles) 16384), (r.aux1, r.cbTiles)] else [])

/-- Tiles of all weight sets of a record. -/
def LayerRec.weightTiles (r : LayerRec) : Nat := ((r.weightSets).map (fun e => e.2)).sum

/-- Slabs of 256 columns. -/
def LayerRec.slabs (r : LayerRec) : Nat := ceilDiv r.n 256

/-- Tiles of the activation set, and of the result set (R149). -/
def LayerRec.actTiles (r : LayerRec) : Nat := setTiles (elemBits r.af) r.k r.m
def LayerRec.outTiles (r : LayerRec) : Nat := setTiles (elemBits r.oF) r.n r.m

/-- Selector tiles that hold any of slab x's codebook numbers (R192). -/
def LayerRec.selTiles (r : LayerRec) (x : Nat) : List Nat :=
  let t := ceilDiv r.k 128
  if r.wf = 0 then (List.range (ceilDiv (8 * r.wTiles) 16384)).filter (fun i => decide (4 * t * x / 8192 ≤ i ∧ i ≤ (4 * t * (x + 1) - 1) / 8192)) else []

/-- u of R192: the tiles that one slab takes, for the slab that takes most. -/
def LayerRec.slabTiles (r : LayerRec) : Nat :=
  let fixed := ceilDiv r.k (512 / elemBits r.wf) + (if r.scaled then ceilDiv (ceilDiv r.k 32) 64 else 0) + (if r.six then ceilDiv r.k 256 else 0)
  (List.range r.slabs).foldl (fun a x => max a (fixed + (r.selTiles x).length)) fixed

/-! ### Plan -/

/-- Members of the lock group: first row and rows (R164). -/
def LayerRec.groupRows (r : LayerRec) : Nat := 2 ^ r.lockLog
def LayerRec.members (r : LayerRec) : List Nat := (List.range r.groupRows).map (fun x => r.lockBase + x)

/-- Column slabs or depth blocks that member x of g takes of a total (R164). -/
def shareOf (total g x : Nat) : Nat × Nat := (x * total / g, (x + 1) * total / g)

/-- Largest number of slabs in a pass for which every cluster's blocks fit 1.5 MiB (R184, R192), and one where not even one slab's do, for which the procedure gives 0 (DESIGN CHOICE, log entry 177); active gives a row's active clusters. -/
def LayerRec.passLimit (r : LayerRec) (active : Nat → Nat) : Nat :=
  let fits := 3 * 2 ^ 19 / blockBytes r.wf
  let depth := ceilDiv r.k 256
  let ok (q : Nat) : Bool := ((r.members).zipIdx).all (fun e =>
    let (lo, hi) := if r.split = 0 then shareOf q r.groupRows e.2 else shareOf depth r.groupRows e.2
    let blocks := if r.split = 0 then (hi - lo) * depth else (hi - lo) * q
    decide (ceilDiv blocks (max 1 (active e.1)) ≤ fits))
  max 1 (((List.range (r.slabs + 1)).filter ok).foldl max 0)

/-- A plan: slabs a pass, tiles of the first-pass buffer, whether the buffer holds the whole set (R192). -/
structure Plan where
  q : Nat
  buffer : Nat
  whole : Bool
deriving DecidableEq, Repr, Inhabited

/-- plan(layer) of R192 for a streaming part of f tiles. -/
def LayerRec.planFor (r : LayerRec) (active : Nat → Nat) (f : Nat) : Plan :=
  let limit := r.passLimit active
  if r.weightTiles ≤ f then { q := min r.slabs limit, buffer := r.weightTiles, whole := true }
  else
    let c := if r.wf = 0 then r.cbTiles else 0
    let u := max 1 r.slabTiles
    let q2 := (f / 2 - c) / u
    let q1 := (f - c) / u
    if 1 ≤ q2 then { q := min q2 limit, buffer := f, whole := false }
    else if 1 ≤ q1 then { q := min q1 limit, buffer := f, whole := false }
    else { q := 1, buffer := 0, whole := false }

/-- Passes of a plan. -/
def LayerRec.passes (r : LayerRec) (p : Plan) : Nat := ceilDiv r.slabs p.q

/-- The activation need of the row that needs most, in bytes (R194). -/
def LayerRec.actNeed (r : LayerRec) : Nat :=
  if r.split = 0 then 16384 * r.actTiles
  else
    let depth := ceilDiv r.k 256
    let most := (List.range r.groupRows).foldl (fun a x => let (lo, hi) := shareOf depth r.groupRows x; max a (min (256 * hi) r.k - 256 * lo)) 0
    16384 * setTiles (elemBits r.af) most r.m

/-- The plan in force, and the tiles that the activation spill takes (R192, R194): a layer of several passes whose need does not fit the activation area spills where the streaming part holds the spill. -/
def LayerRec.plan (r : LayerRec) (active : Nat → Nat) (f actArea : Nat) : Plan × Nat :=
  let p := r.planFor active f
  if r.passes p ≤ 1 ∨ r.actNeed ≤ actArea ∨ f < r.actTiles then (p, 0)
  else (r.planFor active (f - r.actTiles), r.actTiles)

/-- The tiles that a pass takes its own slabs from, by address: the slabs' tiles of each weight set, all codebooks, and the slabs' selectors (R192, R193). -/
def LayerRec.passTiles (r : LayerRec) (p : Plan) (pass : Nat) : List Nat :=
  let slabs := (List.range p.q).map (fun i => pass * p.q + i) |>.filter (fun x => decide (x < r.slabs))
  let plane (base per : Nat) : List Nat := slabs.flatMap (fun x => (List.range per).map (fun i => base + 16384 * (x * per + i)))
  plane r.wAddr (ceilDiv r.k (512 / elemBits r.wf))
    ++ (if r.scaled then plane r.aux0 (ceilDiv (ceilDiv r.k 32) 64) else [])
    ++ (if r.six then plane r.aux1 (ceilDiv r.k 256) else [])
    ++ (if r.wf = 0 then (slabs.flatMap r.selTiles).eraseDups.map (fun i => r.aux0 + 16384 * i) ++ (List.range r.cbTiles).map (fun i => r.aux1 + 16384 * i) else [])

/-- The tiles of a pass's slice, by address: the whole set where the buffer holds it, else the pass's own (R192). -/
def LayerRec.sliceTiles (r : LayerRec) (p : Plan) (pass : Nat) : List Nat :=
  if p.whole then (r.weightSets).flatMap (fun e => (List.range e.2).map (fun i => e.1 + 16384 * i)) else r.passTiles p pass

/-! ### Values -/

/-- Global slab number, and the address of the codebook number, of a CB4 weight (R152). -/
def LayerRec.selAddr (r : LayerRec) (k n : Nat) : Nat :=
  let g := 4 * ((n / 256) * ceilDiv r.k 128 + k / 128) + k % 128 / 32
  r.aux0 + 16384 * (g / 8192) + 2 * (g % 8192)

/-- The codebook number of a CB4 weight. -/
def LayerRec.codebook (r : LayerRec) (rd : Nat → Nat) (k n : Nat) : Nat := rd (r.selAddr k n) + 2 ^ 8 * rd (r.selAddr k n + 1)

/-- The address of a CB4 weight's codebook. -/
def LayerRec.cbAddr (r : LayerRec) (rd : Nat → Nat) (k n : Nat) : Nat :=
  let x := r.codebook rd k n
  r.aux1 + 16384 * (x / 512) + 32 * (x % 512)

/-- The weight (k, n) as a number (R144, R151, R152). -/
def LayerRec.weight (r : LayerRec) (rd : Nat → Nat) (k n : Nat) : Num :=
  let e := setElem rd r.wAddr (elemBits r.wf) r.k k n
  if r.wf = 0 then
    let a := r.cbAddr rd k n + 2 * e
    fmtBF16.value (rd a + 2 ^ 8 * rd (a + 1))
  else if r.six then (codeFmt r.wf).value (e + 16 * setElem rd r.aux1 2 r.k k n)
  else (codeFmt r.wf).value e

/-- The lines that weight (k, n) is read from. -/
def LayerRec.weightLines (r : LayerRec) (rd : Nat → Nat) (k n : Nat) : List Nat :=
  [setLineAt r.wAddr (elemBits r.wf) r.k k n / 64]
    ++ (if r.scaled then [setLineAt r.aux0 8 (ceilDiv r.k 32) (k / 32) n / 64] else [])
    ++ (if r.six then [setLineAt r.aux1 2 r.k k n / 64] else [])
    ++ (if r.wf = 0 then [r.selAddr k n / 64, r.cbAddr rd k n / 64] else [])

/-- The value of one fused group from depth k0 of output (m, n), as an FP32 pattern (R154, R158); wr reads weights, ar activations. -/
def LayerRec.groupValue (r : LayerRec) (wr ar : Nat → Nat) (m n k0 : Nat) : Nat :=
  let ks := (List.range (groupSize r.wf)).map (fun i => k0 + i) |>.filter (fun k => decide (k < r.k))
  let sum := Num.sum (ks.map (fun k => (r.weight wr k n).mul ((codeFmt r.af).value (setElem ar r.aAddr (elemBits r.af) r.k k m))))
  let scaled := if r.scaled then sum.mul (scaleValue (setElem wr r.aux0 8 (ceilDiv r.k 32) (k0 / 32) n)) else sum
  fmtFP32.pattern false scaled

/-- The exact sum of one fused group of an INT8 layer (R157). -/
def LayerRec.groupInt (r : LayerRec) (wr ar : Nat → Nat) (m n k0 : Nat) : Int :=
  ((List.range 32).map (fun i => k0 + i) |>.filter (fun k => decide (k < r.k))).foldl (fun a k =>
    a + toInt 8 (setElem wr r.wAddr 8 r.k k n) * toInt 8 (setElem ar r.aAddr 8 r.k k m)) 0

/-- An accumulator: an FP32 pattern, or an INT32 value with its saturations (R155, R157). -/
structure Acc32 where
  f : Nat := 0
  i : Int := 0
  sats : Nat := 0
deriving DecidableEq, Repr, Inhabited

/-- Add two accumulators, rounding or saturating (R155 to R157). -/
def Acc32.add (int : Bool) (a b : Acc32) : Acc32 :=
  if int then
    let (v, sat) := satInt 32 (a.i + b.i)
    { i := v, sats := a.sats + b.sats + (if sat then 1 else 0) }
  else { f := addF32 a.f b.f }

/-- A cluster's partial sum over depth blocks, in ascending order (R155). -/
def LayerRec.clusterSum (r : LayerRec) (wr ar : Nat → Nat) (m n : Nat) (blocks : List Nat) : Acc32 :=
  let gs := groupSize r.wf
  let int := decide (r.wf = 6)
  (blocks.flatMap (fun b => (List.range (256 / gs)).map (fun i => 256 * b + gs * i) |>.filter (fun k => decide (k < r.k)))).foldl
    (fun a k0 => a.add int (if int then { i := r.groupInt wr ar m n k0 } else { f := r.groupValue wr ar m n k0 })) {}

/-- The reduction tree over positions lo to lo + size - 1 (R156): its shape is not stated (log entry 40), so each split is a free value. A position that holds no partial sum adds nothing: the other operand passes unchanged, where the spec does not say whether +0 is added (DESIGN CHOICE, log entry 163). fuel bounds the depth. -/
def treeSum (int : Bool) (leaf : Nat → Option Acc32) : Nat → Nat → Nat → Option Acc32
  | 0, lo, _ => leaf lo
  | fuel + 1, lo, size =>
    if size ≤ 1 then leaf lo
    else
      let cut := 1 + Config.treeSplit lo (lo + size) % (size - 1)
      match treeSum int leaf fuel lo cut, treeSum int leaf fuel (lo + cut) (size - cut) with
      | some a, some b => some (a.add int b)
      | some a, none => some a
      | none, x => x

/-- The logical cluster, of a, that block number b of a row's share of total blocks is dealt to: a row's choice (log entry 40), with at most ceil(total / a) blocks to each (R163). -/
def dealTo (row a total : Nat) : Nat → List Nat
  | 0 => []
  | b + 1 =>
    let earlier := dealTo row a total b
    let room (c : Nat) : Bool := decide ((earlier.filter (fun x => decide (x = c))).length < ceilDiv total a)
    earlier ++ [(firstFrom room a a (Config.dealBlock row b a % max 1 a)).getD 0]

/-- A row's share in a pass: its slabs and its depth blocks (R164, R193). -/
def LayerRec.rowShare (r : LayerRec) (p : Plan) (pass x : Nat) : List Nat × List Nat :=
  let first := pass * p.q
  let count := min p.q (r.slabs - first)
  let depth := ceilDiv r.k 256
  let run (lo hi : Nat) : List Nat := (List.range (hi - lo)).map (fun i => lo + i)
  if r.split = 0 then
    let (lo, hi) := shareOf count r.groupRows x
    (run (first + lo) (first + hi), run 0 depth)
  else
    let (lo, hi) := shareOf depth r.groupRows x
    (run first (first + count), run lo hi)

/-- A row's sum for output (m, n): its clusters' partial sums through the reduction network (R155, R156). phys gives the physical cluster of a logical number. -/
def LayerRec.rowSum (r : LayerRec) (wr ar : Nat → Nat) (row : Nat) (slabs depth : List Nat) (active : Nat) (phys : Nat → Option Nat) (m n : Nat) : Acc32 :=
  let total := slabs.length * depth.length
  let deal := dealTo row active total total
  let at' (c : Nat) : List Nat := (depth.zipIdx).filterMap (fun e =>
    let b := (n / 256 - slabs.headD 0) * depth.length + e.2
    if deal.getD b 0 = c then some e.1 else none)
  let leaf (position : Nat) : Option Acc32 :=
    ((List.range active).find? (fun c => decide (phys c = some position))).bind (fun c =>
      if at' c = [] then none else some (r.clusterSum wr ar m n (at' c)))
  (treeSum (decide (r.wf = 6)) leaf 34 0 34).getD {}

/-- The output element of a finished sum: ACT, then the conversion of R159 (R195). -/
def LayerRec.finish (r : LayerRec) (a : Acc32) : Nat :=
  if r.wf = 6 then ofInt 32 (if r.act = 1 then max a.i 0 else a.i)
  else
    let v := fmtFP32.value a.f
    let w : Num := if r.act = 1 then (match v with
      | .inf true => .fin false 0 0
      | .fin true _ _ => .fin false 0 0
      | x => x) else v
    (codeFmt r.oF).pattern r.sat w

/-- The little-endian bytes of elements b bits wide, 64 bytes in all. -/
def packLine (b : Nat) (l : List Nat) : List Byte := (padTo 64 (l.flatMap (fun v => leBytes (b / 8) v))).take 64

end Sys2Proof.Machine
end

