-- ==== Sys2Proof/Machine/JobOps.lean ====
section
/-! DEFINITION. The layer streamer's shared operations: jobs by identity, their windows (R180, R181), the admission checks (R175), rows taken and given back, the report and the end of a job (R197 to R201), aborts (R199), and the end of a surrogate call whose job has ended (R225). -/

namespace Sys2Proof.Machine

/-! ### Jobs -/

/-- Page of the layer streamer. -/
def lstPage : Nat := 0x090

/-- The queue number that stands for Shombe's own queue (R225). -/
def shombeQueue : Nat := 65536

/-- The job with an identity, unless it has ended but for its report. -/
def State.job (s : State) (id : Nat) : Option Job := s.lst.jobs.find? (fun j => decide (j.id = id) && j.ending.isNone)

/-- Change a job. -/
def State.modJob (s : State) (id : Nat) (f : Job → Job) : State :=
  { s with lst := { s.lst with jobs := s.lst.jobs.map (fun j => if j.id = id then f j else j) } }

/-- Jobs in ADMITTING, RUNNING or ABORTING; jobs in QUEUED (LST_JOBS); the oldest of these that was neither cancelled nor rejected. -/
def State.admitted (s : State) : List Job := s.lst.jobs.filter (fun j => decide (j.state ≠ 0))
def State.queued (s : State) : List Job := s.lst.jobs.filter (fun j => decide (j.state = 0))
def State.oldestQueued (s : State) : Option Job := s.queued.find? (fun j => j.ending.isNone)

/-- Header and records of a job's copy of its chain. -/
def Job.head (j : Job) : ChainHead := headOf j.chain
def Job.record (j : Job) (i : Nat) : LayerRec := recOf j.chain i

/-- The records of a chain with their numbers. -/
def Job.records (j : Job) : List (Nat × LayerRec) := (List.range j.head.count).map (fun i => (i + 1, j.record (i + 1)))

/-- The first layer record after a record number (R171). -/
def Job.nextLayer (j : Job) (i : Nat) : Option Nat := (j.records.find? (fun e => decide (i < e.1 ∧ e.2.kind = 1))).map (fun e => e.1)

/-- The layer record before the one running or waiting; 0 where none. -/
def Job.prevLayer (j : Job) : Nat := (j.records.filter (fun e => decide (e.1 < j.layer ∧ e.2.kind = 1))).foldl (fun a e => max a e.1) 0

/-- A fallback record runs, or waits for its rows (R189). -/
def Job.fallback (j : Job) : Bool := decide (j.recNo ≠ j.layer)

/-- Tiles of the pinned part, of the window and of the streaming part (R181). -/
def Job.pinnedTiles (j : Job) : Nat :=
  ceilDiv (128 * (j.head.count + 1)) 16384 + ((j.records.filter (fun e => e.2.pin || decide (e.2.kind = 2))).map (fun e => e.2.weightTiles)).sum
def Job.windowTiles (j : Job) : Nat := 64 * j.head.windowMib
def Job.streamTiles (j : Job) : Nat := j.windowTiles - j.pinnedTiles

/-- MiB of windows held (LST_WINDOW_USED). -/
def State.windowMib (s : State) : Nat := (s.lst.jobs.map (fun j => j.slots.length / 64)).sum

/-- CEIL_MIB of RCK_WINDOW_CEIL (R55). -/
def State.windowCeil (s : State) : Nat :=
  min 393216 (524288 - (s.mapSlots + 63) / 64 - 1024 - 1024 * s.field 0x012 0x108 0 8 - 16384)

/-- The activation area in bytes (R184). -/
def State.actArea (s : State) : Nat := 2 ^ 20 * s.field lstPage 0x104 0 5

/-- A record's weights are pinned in the window (R181). -/
def LayerRec.pinned (r : LayerRec) : Bool := r.pin || decide (r.kind = 2)

/-- The plan of a record of a job: of a pinned one, in as few passes as the cluster stores allow. -/
def State.planOf (s : State) (j : Job) (r : LayerRec) : Plan × Nat :=
  if r.pinned then ({ q := min r.slabs (r.passLimit s.activeCount), buffer := 0, whole := true }, 0)
  else r.plan s.activeCount j.streamTiles s.actArea

/-- The fill of a record (R185). -/
def Job.fillOf (j : Job) (recNo : Nat) : Option Fill := j.fills.find? (fun f => decide (f.recNo = recNo))

/-- A record's weights are in place (R186). -/
def Job.inPlace (j : Job) (recNo : Nat) : Bool :=
  (j.record recNo).pinned || (match j.fillOf recNo with | some f => f.inPlace | none => false)

/-- The plan by which a record runs: its fill's. -/
def State.runPlan (s : State) (j : Job) (recNo : Nat) : Plan :=
  match j.fillOf recNo with
  | some f => { q := f.q, buffer := f.buffer, whole := f.whole }
  | none => (s.planOf j (j.record recNo)).1

/-! ### Copies -/

/-- Runs of tiles in ascending order with one more. -/
def insertRun (r : Nat × Nat) : List (Nat × Nat) → List (Nat × Nat)
  | [] => [r]
  | x :: l => if r.1 ≤ x.1 then r :: x :: l else x :: insertRun r l

/-- The runs of tiles between ascending runs, from tile lo to top. -/
def gapRuns (top : Nat) : Nat → List (Nat × Nat) → List (Nat × Nat)
  | lo, [] => [(lo, top - lo)]
  | lo, x :: l => (lo, x.1 - lo) :: gapRuns top (max lo (x.1 + x.2)) l

/-- The first n tiles of runs. -/
def takeRuns : Nat → List (Nat × Nat) → List (Nat × Nat)
  | _, [] => []
  | n, x :: l => if n = 0 then [] else (x.1, min n x.2) :: takeRuns (n - x.2) l

/-- Tile i of runs. -/
def tileAt : List (Nat × Nat) → Nat → Nat
  | [], i => i
  | x :: l, i => if i < x.2 then x.1 + i else tileAt l (i - x.2)

/-- The first n tiles of the streaming part that no fill and no spill holds (R181, R185). Where in the streaming part these lie the spec does not say (DESIGN CHOICE, log entry 172). -/
def Job.freeTiles (j : Job) (n : Nat) : List (Nat × Nat) :=
  takeRuns n (gapRuns j.streamTiles 0 ((j.fills.flatMap (fun f => f.place) ++ j.spillAt).foldl (fun l r => insertRun r l) []))

/-- Tile i of the window's pinned sets, which lie behind the chain area in record order (R181). -/
def Job.pinPlace (j : Job) (i : Nat) : Nat := ceilDiv (128 * (j.head.count + 1)) 16384 + i

/-- The tile of the window that tile i of a record's set lies in (R181). -/
def Job.setPlace (j : Job) (recNo i : Nat) : Nat :=
  if (j.record recNo).pinned then
    j.pinPlace (((j.records.filter (fun e => decide (e.1 < recNo) && e.2.pinned)).map (fun e => e.2.weightTiles)).sum + i)
  else j.pinnedTiles + tileAt (match j.fillOf recNo with | some f => f.place | none => []) i

/-- The request for line i of tile n of a job's window, in the job's class (R19, R20, R57). -/
def State.windowLine (s : State) (j : Job) (n i : Nat) (write : Bool) : State :=
  match j.slots[n % j.slots.length]? with
  | some slot => s.dramVat slot i write (workTraffic j.actor j.cls)
  | none => s

/-- The requests for the lines of some tiles of a job's window, from tile n on. -/
def State.windowTiles (s : State) (j : Job) (n tiles : Nat) (write : Bool) : State :=
  (List.range tiles).foldl (fun u k => (List.range 256).foldl (fun v i => v.windowLine j (n + k) i write) u) s

/-- Copy tiles of the unified range into the job's window, with the job's rights and class, counting no heat where a window is filled (R57, R62): their bytes by unified address, the poisoned lines, and whether a read was refused. place gives the tile of the window for each, none for tiles that go past it (R192). -/
def State.copyTiles (s : State) (j : Job) (tiles : List Nat) (place : Option (Nat → Nat)) (host : HostLines) (heat : Bool) : Memory × Sparse Bool × Bool × State :=
  tiles.zipIdx.foldl (fun (acc : Memory × Sparse Bool × Bool × State) t =>
    (List.range 256).foldl (fun (b : Memory × Sparse Bool × Bool × State) i =>
      let a := t.1 + 64 * i
      let (l, u) := b.2.2.2.engRead j.actor j.cls a a host heat
      (Memory.store b.1 a l.data, sset false b.2.1 (a / 64) l.poison, b.2.2.1 || l.refused, match place with | some at' => u.windowLine j (at' t.2) i true | none => u)) acc) ([], [], false, s)

/-- A job meets the lines of tiles that it reads, for the command given (R118). -/
def State.holdTiles (s : State) (j : Job) (cmd : Instr) (tiles : List Nat) : Bool × State :=
  s.engHoldAll ⟨j.actor, j.cls, some cmd, 0⟩ (tiles.map (fun t => (t, 16384, false)))

/-! ### Admission checks -/

/-- A reserved value or bit of a record (R7, R173). -/
def LayerRec.reserved (r : LayerRec) : Bool :=
  r.stray || !(decide (r.kind = 1) || decide (r.kind = 2)) || decide (2 ≤ r.act) || decide (2 ≤ r.split) || decide (5 ≤ r.lockLog) || decide (r.policy = 3)
    || decide (5 ≤ r.fbCount) || decide (2 ^ 31 ≤ r.deadline) || decide (2 ^ 31 ≤ r.maxWait)
    || decide (r.m = 0) || decide (2 ^ 24 < r.m) || decide (r.k = 0) || decide (2 ^ 24 < r.k) || decide (r.n = 0) || decide (2 ^ 24 < r.n)

/-- CB_TILES, AUX0_ADDR or AUX1_ADDR not as R173 requires. -/
def LayerRec.auxBad (r : LayerRec) : Bool :=
  (if r.wf = 0 then decide (r.cbTiles = 0 ∨ 128 < r.cbTiles) else decide (r.cbTiles ≠ 0))
    || (!(r.scaled || decide (r.wf = 0)) && decide (r.aux0 ≠ 0)) || (!(r.six || decide (r.wf = 0)) && decide (r.aux1 ≠ 0))

/-- A FORMAT failure of a record of a chain (R175). -/
def Job.recBad (j : Job) (r : LayerRec) : Bool :=
  let last := j.record (r.fbFirst + r.fbCount - 1)
  r.reserved || !(pairingOk r.wf r.af r.oF) || r.auxBad || decide (r.lockBase % r.groupRows ≠ 0)
    || (decide (r.policy = 1) && decide (r.fbCount = 0)) || (decide (r.kind = 2) && decide (r.fbCount ≠ 0))
    || (List.range r.fbCount).any (fun i => decide (r.fbFirst + i = 0 ∨ j.head.count < r.fbFirst + i) || decide ((j.record (r.fbFirst + i)).kind ≠ 2))
    || (decide (r.fbCount ≠ 0) && decide (last.out ≠ r.out ∨ last.n ≠ r.n ∨ last.m ≠ r.m ∨ last.oF ≠ r.oF))
    || (decide (r.kind = 2) && (decide (r.policy ≠ 0) || r.pin || decide (r.deadline ≠ 0) || decide (r.maxWait ≠ 0)))
    || ((r.aAddr, 0) :: (r.out, 0) :: r.weightSets).any (fun e => decide (e.1 % 16384 ≠ 0)) || (decide (r.denCount ≠ 0) && decide (r.den % 64 ≠ 0))

/-- Sets that a record reads, and those it writes: address and bytes. -/
def LayerRec.readRuns (r : LayerRec) : List (Nat × Nat) :=
  ((r.aAddr, r.actTiles) :: r.weightSets).map (fun e => (e.1, 16384 * e.2)) ++ (if r.denCount = 0 then [] else [(r.den, 64 * r.denCount)])
def LayerRec.writeRuns (r : LayerRec) : List (Nat × Nat) := [(r.out, 16384 * r.outTiles)]

/-- An access to some line of a run would be refused. -/
def State.runRefused (s : State) (actor : Nat) (write : Bool) (e : Nat × Nat) : Bool :=
  (List.range (ceilDiv (e.1 % 64 + e.2) 64)).any (fun i => (s.refusal actor write false (e.1 / 64 * 64 + 64 * i)).isSome)

/-- The cause of the first failing check of a chain (R175), none where it passes; readBad says that a line of the chain was read poisoned or refused. -/
def State.chainCause (s : State) (j : Job) (readBad : Bool) : Option Nat :=
  let rs := j.records.map (fun e => e.2)
  let reads := rs.flatMap LayerRec.readRuns
  let writes := rs.flatMap LayerRec.writeRuns ++ [(j.head.report, 128)]
  if readBad || !j.head.ok || !(rs.any (fun r => decide (r.kind = 1))) || rs.any j.recBad then some 1
  else if (reads ++ writes).any (fun e => decide (s.rangeBytes < e.1 + e.2)) then some 2
  else if reads.any (s.runRefused j.actor false) || writes.any (s.runRefused j.actor true) then some 4
  else if j.windowTiles < j.pinnedTiles then some 3
  else none

/-! ### Rows -/

/-- Rows given back at the end of a layer or at an abort: idle again, alone, each at its own requested level (R165, R367). -/
def State.freeRows (s : State) (id : Nat) : State :=
  let mine := (List.range 16).filter (fun r => decide (nth16 s.tns.runBy r = id + 1))
  let s1 := mine.foldl (fun (u : State) r =>
    let v := { u with tns := { u.tns with runBy := u.tns.runBy.set! r 0 }, pwr := { u.pwr with rowIdleAt := u.pwr.rowIdleAt.set! r u.now } }
    (((v.setField (tnsPage r) 0x104 6 1 0).setField (tnsPage r) 0x104 12 4 r).setField (tnsPage r) 0x104 16 5 1).setField (tnsPage r) 0x104 21 1 0) s
  (s1.modJob id (fun j => { j with running := 0#16 })).settleLevels

/-- Rows taken by a layer's lock group (R164, R165). -/
def State.takeRows (s : State) (id base size split : Nat) : State :=
  ((List.range size).map (fun x => base + x)).foldl (fun (u : State) r =>
    let v := { u with tns := { u.tns with runBy := u.tns.runBy.set! r (id + 1) } }
    (((v.setField (tnsPage r) 0x104 6 1 1).setField (tnsPage r) 0x104 12 4 base).setField (tnsPage r) 0x104 16 5 size).setField (tnsPage r) 0x104 21 1 split) s

/-- Every member of a group takes the highest requested level of any (R167, R367). -/
def State.groupLevel (s : State) (rows : List Nat) : State :=
  let top := rows.foldl (fun a r => max a (s.requested r)) 0
  rows.foldl (fun u r => u.setLevel r top) s

/-! ### The end of a job -/

/-- The 128 bytes of a job report (R197). -/
def reportBytes (j : Job) : List Byte :=
  padTo 128 (leBytes 4 (j.outcome + j.cause * 2 ^ 8 + (if j.refused then 2 ^ 16 else 0) + (if j.poisoned then 2 ^ 17 else 0))
    ++ leBytes 4 j.lastRecord ++ leBytes 4 j.degraded ++ leBytes 4 (j.firstDeg + j.lastDeg * 2 ^ 16) ++ leBytes 4 j.waited
    ++ leBytes 4 j.splitLayers ++ leBytes 4 j.extraPasses ++ leBytes 4 (j.faultPhys + j.faultCause * 2 ^ 6 + j.faultRow * 2 ^ 10)
    ++ leBytes 8 j.startTime ++ leBytes 8 j.endTime ++ leBytes 8 j.waitNs ++ leBytes 8 j.splitNs ++ leBytes 8 j.spillBytes
    ++ leBytes 8 (j.macs / 65536) ++ leBytes 4 j.head.tag)

/-- Write a job's report as two full lines; a refused or dropped line marks the job (R197). -/
def State.writeReport (s : State) (j : Job) : Bool × State :=
  let bytes := reportBytes j
  if j.head.report % 64 ≠ 0 then (true, s)
  else
    let (a, s1) := s.engWrite j.actor j.cls j.head.report j.head.report (bytes.take 64) fullBe false [] true
    let (b, s2) := s1.engWrite j.actor j.cls (j.head.report + 64) (j.head.report + 64) (bytes.drop 64) fullBe false [] true
    (a || b, s2)

/-- A job's window is freed (R180). -/
def State.freeWindow (s : State) (j : Job) : State := (j.slots.foldl State.freeSlot s).settleUsage

/-- A surrogate handle (R225). -/
def State.model (s : State) (h : Nat) : Model := sget {} s.svc.models h
def State.setModel (s : State) (h : Nat) (m : Model) : State := { s with svc := { s.svc with models := sset {} s.svc.models h m } }

/-- Accept a job into QUEUED (R176, R177). -/
def State.acceptJob (s : State) (j : Job) : State :=
  { s with lst := { jobs := s.lst.jobs ++ [{ j with id := s.lst.nextJob }], nextJob := s.lst.nextJob + 1 } }

/-- The next call waiting on a handle, once none runs: the unload that waits, else nothing (R225). A waiting call starts with its CALL command. -/
def State.nextCall (s : State) (h : Nat) : State :=
  let m := s.model h
  match m.running, m.unload with
  | none, some (q, seq) => (s.setModel h { m with loaded := false, unload := none }).endCall q seq 0 0
  | _, _ => s

/-- The job of a surrogate call has ended (R225): one that was aborted or rejected ends its call with ABORTED; on completion the CALL command copies the output. -/
def State.callDone (s : State) (j : Job) : State :=
  match (s.svc.models.find? (fun e => match e.2.running with | some (_, _, _, id) => decide (id = j.id ∧ e.2.entry = none) | none => false)) with
  | none => s
  | some (h, m) =>
    match m.running with
    | none => s
    | some (q, seq, _, _) =>
      if 2 ≤ j.outcome then ((s.setModel h { m with running := none }).endCall q seq 13 j.cause).nextCall h
      else s.setModel h { m with ended := some j }

/-- The completion of a job, and its watch copy (R201, R273, R281). Where Shombe has no queue of its own, its queue number and CID are free values in the copy (log entry 165). -/
def State.postJob (s : State) (j : Job) (refused : Bool) : State :=
  let status := if refused then 1 else 0
  let v0 := j.outcome + j.cause * 2 ^ 8
  let copy (cid src : Nat) : Cpl := { cid := cid, src := src, status := status, watch := true, v0 := v0, v1 := j.lastRecord, v2 := j.hdrAddr, time := s.now }
  if j.queue = shombeQueue then
    let s1 := s.callDone j
    if j.head.watchEn then
      let (a, s2) := s1.draw
      let (b, s3) := s2.draw
      s3.postWatch j.head.watchQueue (copy (Config.freePlace a % 65536) (Config.freePlace b % 65536))
    else s1
  else
    let s1 := (s.callDone j).endEntry j.queue j.seq status v0 j.lastRecord j.hdrAddr
    if j.head.watchEn then s1.postWatch j.head.watchQueue (copy j.cid j.queue) else s1

/-- The count of a job's outcome (EVT_CNT0 to EVT_CNT3 of page 0x090). -/
def State.countOutcome (s : State) (outcome : Nat) : State :=
  match outcome with
  | 0 => s.count lstPage 0
  | 1 => (s.count lstPage 0).count lstPage 1
  | 2 => s.count lstPage 2
  | _ => (s.count lstPage 3).err lstPage 10

/-- The report of a job that has ended is written, its completion posted, what it held released (R176, R180, R182, R197, R201). A report whose lines some port holds waits for the snoops (R118). -/
def State.reportJob (s : State) (id : Nat) : State :=
  match s.lst.jobs.find? (fun j => decide (j.id = id)) with
  | none => s
  | some j0 =>
    match j0.ending with
    | none => s
    | some (outcome, cause) =>
      let (wait, sh) := s.engHoldRun ⟨j0.actor, j0.cls, some (.jobAbortDone id), 0⟩ (j0.head.report / 64 * 64) 128 true
      if wait then sh
      else
        let j := { j0 with outcome := outcome, cause := cause }
        let s1 := { (sh.freeWindow j) with lst := { sh.lst with jobs := sh.lst.jobs.filter (fun x => decide (x.id ≠ id)) } }
        let (lost, s2) := ((List.range 16).foldl (fun u r => if j.rows.getLsbD r then u.dozeLater r else u) s1).writeReport j
        (((s2.countOutcome outcome).postJob j (j.refused || lost)).settleSubst).settleLevels

/-- A job ends (R176): the window of an aborted or rejected one is freed at once (R178, R199), and its report follows. END_TIME of a rejected job, which R197 does not give, is 0 (DESIGN CHOICE, log entry 172). -/
def State.finishJob (s : State) (id : Nat) (outcome cause : Nat) : State :=
  match s.job id with
  | none => s
  | some j =>
    let s1 := if 2 ≤ outcome then (s.freeWindow j).modJob id (fun j => { j with slots := [] }) else s
    (s1.modJob id (fun j => { j with ending := some (outcome, cause), phase := .none })).reportJob id

/-- The data-engine chains of a job end with it (R199): what they had refused marks its report (R197), and their entries end (R260), with a status that the spec does not name (a free value, log entry 165). -/
def State.dropChains (s : State) (id : Nat) : State :=
  let mine (c : Chain) : Bool := decide (c.job = some id)
  let l := s.den.chains.filter mine
  let refused := l.any (fun c => c.descs.any (fun d => d.refused))
  let s1 := s.dropUnits (fun u => l.any (fun c => decide (c.id = u.chain)))
  let s2 := { s1 with den := { s1.den with chains := s.den.chains.filter (fun c => !(mine c)) } }
  l.foldl (fun (u : State) c => match c.entry with
    | some (q, seq) =>
      let (d, v) := u.draw
      v.endEntry q seq (2 + Config.freePlace d % 24) ((c.descs.filter (fun d => decide (d.stage = 2 ∧ d.status ≤ 1))).length) 0 0
    | none => u) (s2.modJob id (fun j => { j with refused := j.refused || refused }))

/-- A job stops issuing (R199 steps 1 to 3): its rows return to idle, those that it waited for are wanted no more (R362), its fills and chains end; JOB_ABORT. A job in QUEUED ends at once (R200). -/
def State.abortJob (s : State) (id cause : Nat) : State :=
  match s.job id with
  | none => s
  | some j =>
    if j.state = 3 then s
    else
      let s0 := s.err lstPage 8
      if j.state = 0 then (s0.modJob id (fun j => { j with endTime := s.now })).finishJob id 2 cause
      else
        let waits := decide (j.phase = .waitWeights ∨ j.phase = .late)
        let s1 := s0.modJob id (fun j => { j with state := 3, phase := .none, outcome := 2, cause := cause, endTime := s.now, fills := [], keep := 0, spillHeld := 0, spillAt := [], chainDue := false, chainEntry := none,
                                                  waitNs := if waits then j.waitNs + (s.now - j.endedAt) else j.waitNs })
        let s2 := if j.phase = .waitRows then (j.record j.recNo).members.foldl State.dozeLater s1 else s1
        (s2.dropChains id).freeRows id

/-- A reset of the port that owns a queue aborts its jobs with PORT_RESET (R201). -/
def State.abortPortJobs (s : State) (p : Port) : State :=
  ((s.lst.jobs.filter (fun j => decide (j.ownKind = 1 ∧ j.ownId = p.val))).map (fun j => j.id)).foldl (fun u id => u.abortJob id 10) s

end Sys2Proof.Machine
end

