-- ==== Sys2Proof/Machine/Engines.lean ====
section
/-! DEFINITION. The data engines (R204 to R214, R427): descriptors, their checks and their units, FILL, COPY, COMPARE, REDUCE and CASK_COPY, and the end of descriptors and chains. -/

namespace Sys2Proof.Machine

/-! ### Descriptors -/

/-- Element bytes of a TYPE (R207). -/
def typeBytes (t : Nat) : Nat := match t with | 0 => 1 | 1 => 8 | 2 => 4 | 3 => 2 | _ => 8

/-- A descriptor from its 64 bytes; one that breaks R207's and R427's tables is bad. Overlaps and list sources are checked when it starts. -/
def descOf (l : List Byte) : Desc :=
  let w0 := leNat (l.take 4)
  let q (o : Nat) : Nat := leNat ((l.drop o).take 8)
  let op := bits w0 0 4
  let typ := bits w0 4 4
  let redOp := bits w0 8 2
  let scale := w0.testBit 10
  let less1 := bits w0 12 4
  let list := w0.testBit 16
  let len := q 0x08
  let size := if op = 4 then 4096 else typeBytes typ
  let noRed := decide (redOp = 0) && !scale && decide (less1 = 0) && !list
  let opOk : Bool := match op with
    | 0 => decide (typ = 0) && noRed && decide (q 0x18 = 0) && decide (q 0x20 = 0) && decide (q 0x30 = 0)
    | 1 => decide (typ = 0) && noRed && decide (q 0x20 = 0) && decide (q 0x28 = 0) && decide (q 0x30 = 0)
    | 4 => decide (typ = 0) && noRed && decide (q 0x20 = 0) && decide (q 0x28 = 0) && decide (q 0x30 = 0)
    | 2 => decide (typ = 0) && noRed && decide (q 0x20 = 0) && decide (q 0x28 = 0) && decide (q 0x30 % 64 = 0)
    | 3 => decide (1 ≤ typ ∧ typ ≤ 4) && decide (redOp ≤ 2) && decide (q 0x30 = 0) && (!list || decide (q 0x20 = 0)) && (scale || decide (q 0x28 = 0))
        && (if list then decide (q 0x18 % 64 = 0) else true)
    | _ => false
  let ok := opOk && decide (w0 / 2 ^ 17 = 0) && decide (q 0x38 = 0) && decide (1 ≤ len) && decide (len ≤ 2 ^ 40) && decide (len % size = 0)
    && decide (q 0x10 % size = 0) && (list || decide (q 0x18 % size = 0))
  { op := op, typ := typ, redOp := redOp, scale := scale, overlap := w0.testBit 11, srcLess1 := less1, list := list, tag := leNat ((l.drop 4).take 4),
    length := len, dst := q 0x10, src := q 0x18, stride := q 0x20, imm := q 0x28, result := q 0x30, bad := !ok }

/-- Two runs of bytes overlap. -/
def overlaps (a b n : Nat) : Bool := decide (a < b + n) && decide (b < a + n)

/-- A started descriptor whose sources break R207 or R208. -/
def Desc.badSources (d : Desc) : Bool :=
  (match d.op with
   | 1 => d.srcs.any (fun x => overlaps d.dst x d.length)
   | 3 => (d.srcs.zipIdx).any (fun e => overlaps d.dst e.1 d.length && !(decide (e.2 = 0) && decide (e.1 = d.dst)))
   | _ => false)
    || d.srcs.any (fun x => decide (x % (if d.op = 4 then 4096 else typeBytes d.typ) ≠ 0))

/-- Units of a descriptor: the tiles of its destination (R205). -/
def Desc.units (d : Desc) : Nat := (d.dst + d.length - 1) / 16384 - d.dst / 16384 + 1

/-! ### Chains -/

/-- A chain, and a descriptor of one. -/
def State.chain (s : State) (id : Nat) : Option Chain := s.den.chains.find? (fun c => decide (c.id = id))
def Chain.desc (c : Chain) (n : Nat) : Option Desc := c.descs[n]?

/-- Change a chain, or a descriptor. -/
def State.modChain (s : State) (id : Nat) (f : Chain → Chain) : State :=
  { s with den := { s.den with chains := s.den.chains.map (fun c => if c.id = id then f c else c) } }
def State.modDesc (s : State) (id n : Nat) (f : Desc → Desc) : State :=
  s.modChain id (fun c => { c with descs := (c.descs.zipIdx).map (fun e => if e.2 = n then f e.1 else e.1) })

/-- A chain starts: its descriptors are read whole (R208); a line read poisoned or refused makes its descriptor bad, and one found uncorrectable fails it as such. -/
def State.startChain (s : State) (entry : Option (Nat × Nat)) (job : Option Nat) (actor cls a count : Nat) (host : HostLines) : State :=
  let (ds, u) := (List.range count).foldl (fun (acc : List Desc × State) i =>
    let (l, v) := acc.2.engRead actor cls (a + 64 * i) (a + 64 * i) host true
    let d := descOf l.data
    (acc.1 ++ [if l.poison then { d with bad := true, refused := l.refused, ueAt := l.ue } else d], v)) ([], s)
  let c : Chain := { id := u.den.nextChain, entry := entry, job := job, actor := actor, cls := cls, descs := ds }
  { u with den := { u.den with chains := u.den.chains ++ [c], nextChain := u.den.nextChain + 1 } }

/-- Engine e admits units (DEN_CTRL). -/
def State.denAdmits (s : State) (e : Nat) : Bool := decide (s.field (denPage e) 0x100 0 1 = 1)

/-- The engine that R205 gives the unit of a destination tile: beside its stack, or tile number mod 16; the next admitting one, or none. -/
def State.engineFor (s : State) (t : Nat) : Option Nat :=
  let first := if s.home t = 1 then s.loc t % 16 else t % 16
  ((List.range 16).map (fun k => (first + k) % 16)).find? s.denAdmits

/-- The engine on whose page a descriptor's counts appear: that of its first destination tile (log entry 41). -/
def State.descEngine (s : State) (d : Desc) : Nat := (s.engineFor (d.dst / 16384)).getD (d.dst / 16384 % 16)

/-- The destination tile of a unit. -/
def State.unitTile (s : State) (u : UnitRef) : Nat :=
  match (s.chain u.chain).bind (fun c => c.desc u.desc) with | some d => d.dst / 16384 + u.unit | none => 0

/-- The unit that an engine runs: the first of those it has taken (R205). -/
def State.runningUnit (s : State) (e : Nat) : Option UnitRef := s.den.units.find? (fun u => decide (u.engine = some e))

/-- Units that wait for an engine that does not admit, or for none, are placed again; the unit that such an engine runs stays and finishes there (R205). -/
def State.placeUnits (s : State) : State :=
  let place (u : UnitRef) : UnitRef :=
    match u.engine with
    | some e => if s.denAdmits e || decide (s.runningUnit e = some u) then u else { u with engine := s.engineFor (s.unitTile u) }
    | none => { u with engine := s.engineFor (s.unitTile u) }
  let s1 := { s with den := { s.den with units := s.den.units.map place } }
  (s1.den.units.filterMap (fun u => u.engine)).foldl State.wakeDen s1

/-- A chain ends (R196, R208, R214, R260, R273): its entry completes, or its job goes on, or aborts with ENGINE_FAULT. -/
def State.endChain (s : State) (id status : Nat) (tag : Nat) : State :=
  match s.chain id with
  | none => s
  | some c =>
    let done' := (c.descs.filter (fun d => decide (d.stage = 2 ∧ d.status ≤ 1))).length
    let refused := c.descs.any (fun d => d.refused)
    let s0 := s.dropUnits (fun u => decide (u.chain = id))
    let s1 := { s0 with den := { s0.den with chains := s0.den.chains.filter (fun x => decide (x.id ≠ id)) } }
    let st := if 2 ≤ status then status else if refused then 1 else 0
    let s2 := match c.entry with | some (q, seq) => s1.endEntry q seq st done' (if 2 ≤ status then tag else 0) 0 | none => s1
    match c.job with
    | some j =>
      let s3 := s2.modJob j (fun x => { x with refused := x.refused || refused })
      if 2 ≤ status then s3.abortJob j 8 else s3
    | none => s2

/-- A descriptor ends in error, and its chain with it (R208). -/
def State.failDesc (s : State) (id n status : Nat) : State :=
  match (s.chain id).bind (fun c => c.desc n) with
  | none => s
  | some d => ((s.modDesc id n (fun d => { d with stage := 2, status := status })).count (denPage (s.descEngine d)) 1).endChain id status d.tag

/-- DEN_FAULT_ADDR and DEN_FAULT_INFO record an uncorrectable memory read (KIND 1) or an error of the engine's buffer (KIND 2) (R214). -/
def State.denNote (s : State) (e a kind : Nat) : State := ((s.setWord64 (denPage e) 0x110 a).setWord (denPage e) 0x118 kind).err (denPage e) 8

/-- An uncorrectable read at a unified address (R214, R338): its address is recorded, and a vat line rewritten as poisoned; elsewhere the engine's buffer failed (DEDUCED, log entry 72). -/
def State.denFault (s : State) (e a : Nat) : State :=
  let t := a / 16384
  let s1 := if s.home t = 1 then
      (s.recordUe 1 0 (16384 * s.loc t + a % 16384)).putVatLine (s.loc t) (a % 16384 / 64) (List.replicate 64 0#8, true)
    else s
  s1.denNote e a (if s.home t = 1 then 1 else 2)

/-- Every engine is in hold (R365). -/
def State.enginesHeld (s : State) : Bool := (List.range 16).all s.rowHeld

/-! ### Starting -/

/-- The job whose layer's chain an entry on a queue of the layer streamer stands for (R196, R260). -/
def State.chainJob (s : State) (q : Nat) (e : Entry) : Option Job :=
  s.lst.jobs.find? (fun j => j.chainDue && decide (j.chainEntry = some (q, e.cid)))

/-- DEN_CHAIN (R208, R269, R365): no engine in hold reads a chain. On a queue of the layer streamer it is the chain of a job's layer, with that job's rights and class (R260); one whose job has ended ends with a status that the spec does not name (a free value, log entry 165). -/
def execDenChain (queue seq : Nat) (host : HostLines) (s : State) : Result :=
  if s.enginesHeld then done s
  else done (s.runEntry queue seq 0x10 (fun k e =>
    let job := if k.ownKind = 3 then s.chainJob queue e else none
    if k.ownKind = 3 ∧ job = none then let (d, u) := s.draw; u.endEntry queue seq (2 + Config.freePlace d % 24) 0 0 0
    else
      let actor := match job with | some j => j.actor | none => k.actor
      let cls := match job with | some j => j.cls | none => k.cls
      let (wait, s1) := s.engHoldRun ⟨actor, cls, some (.denChain queue seq host), 0⟩ e.a0 (64 * e.dw1) false
      if wait then s1
      else
        let s2 := s1.modEntry queue seq (fun x => { x with stage := 2 })
        let s3 := match job with | some j => s2.modJob j.id (fun j => { j with chainDue := false, chainEntry := none }) | none => s2
        s3.startChain (some (queue, seq)) (job.map (fun j => j.id)) actor cls e.a0 e.dw1 host))

/-- The sources of a descriptor: its list, read now, or strided (R206, R210); with the list as it was read. -/
def State.descSources (s : State) (c : Chain) (d : Desc) (host : HostLines) : List Nat × LineIn × State :=
  let n := if d.op = 0 then 0 else d.srcLess1 + 1
  if d.list then
    let (l, u) := s.engBytes c.actor c.cls d.src (8 * n) host true
    ((chunks 8 n l.data).map leNat, l, u)
  else ((List.range n).map (fun i => (d.src + i * d.stride) % 2 ^ 64), { data := [], poison := false }, s)

/-- DESCRIPTOR_START (R208): the next descriptor of a chain starts once the one before has ended, or has OVERLAP set. An engine in hold starts none (R365). ue is the address of a line of the descriptor or of its list that was found uncorrectable; wrong bits of the cells that the chain or the list was read from tell it as well. -/
def execDescriptorStart (chain : Nat) (host : HostLines) (ue : Option Nat) (s : State) : Result :=
  match s.chain chain with
  | none => done s
  | some c =>
    match (c.descs.zipIdx).find? (fun e => decide (e.1.stage = 0)) with
    | none => done s
    | some (d, n) =>
      let ready : Bool := decide (n = 0) || (match c.desc (n - 1) with | some p => p.overlap || decide (p.stage = 2) | none => false)
      if !ready || s.rowHeld (s.descEngine d) then done s
      else
        let (wait, s1) := if d.list then s.engHoldRun ⟨c.actor, c.cls, some (.descriptorStart chain host ue), 0⟩ d.src (8 * (d.srcLess1 + 1)) false else (false, s)
        if wait then done s1
        else match ue with
          | some a => done ((s1.denFault (s1.descEngine d) a).failDesc chain n 4)
          | none => match d.ueAt with
          | some a => done ((s1.denNote (s1.descEngine d) a 1).failDesc chain n 4)
          | none =>
            if d.bad then done (s1.failDesc chain n 3)
            else
              let (srcs, l, s2) := s1.descSources c d host
              let d1 := { d with srcs := srcs, stage := 1, refused := d.refused || l.refused }
              let s3 := s2.modDesc chain n (fun _ => d1)
              match l.ue with
              | some a => done ((s3.denNote (s3.descEngine d) a 1).failDesc chain n 4)
              | none =>
              if l.poison ∨ d1.badSources then done (s3.failDesc chain n 3)
              else
                let us := (List.range d.units).map (fun u => ({ chain := chain, desc := n, unit := u, engine := none } : UnitRef))
                done ({ s3 with den := { s3.den with units := s3.den.units ++ us } }).placeUnits

/-! ### Units -/

/-- The lines of a unit's destination with the first byte and the number of bytes of each that the descriptor covers (R205). -/
def Desc.unitLines (d : Desc) (u : Nat) : List (Nat × Nat × Nat) :=
  let t := d.dst / 16384 + u
  (List.range 256).filterMap (fun i =>
    let a := 16384 * t + 64 * i
    let lo := max a d.dst
    let hi := min (a + 64) (d.dst + d.length)
    if lo < hi then some (a, lo - a, hi - lo) else none)

/-- The lines that a run of bytes lies in. -/
def runLines (a n : Nat) : List Nat := if n = 0 then [] else (List.range ((a + n - 1) / 64 - a / 64 + 1)).map (fun i => a / 64 + i)

/-- Coherent lines that a unit reads and writes, for the command given: holders are snooped first (R118). -/
def State.unitHold (s : State) (c : Chain) (d : Desc) (cmd : Instr) (lines : List (Nat × Nat × Nat)) : Bool × State :=
  let reads := lines.flatMap (fun e => d.srcs.flatMap (fun x => runLines (x + (e.1 + e.2.1 - d.dst)) e.2.2))
  s.holdLines ⟨c.actor, c.cls, some cmd, 0⟩ (reads.map (fun l => (l, false)) ++ lines.map (fun e => (e.1 / 64, decide (d.op ≠ 2))))

/-- A unit that may run now: its descriptor runs, and its engine, which is not in hold, admits units or had taken this one when it ceased to (R205, R365). A wake of 2.0 µs passes first (R362). -/
def State.unitReady (s : State) (chain n u op : Nat) : Option (Chain × Desc × Nat) :=
  match s.chain chain with
  | none => none
  | some c =>
    match c.desc n, s.den.units.find? (fun x => decide (x.chain = chain ∧ x.desc = n ∧ x.unit = u)) with
    | some d, some r =>
      (match r.engine with
       | some e => if d.op = op ∧ d.stage = 1 ∧ (s.denAdmits e ∨ s.runningUnit e = some r) ∧ !(s.rowHeld e) then some (c, d, e) else none
       | none => none)
    | _, _ => none

/-- A unit has run: it leaves the waiting units, and its engine meets a unit boundary (R364). -/
def State.unitDone (s : State) (chain n u e : Nat) : State :=
  let s1 := { s with den := { s.den with units := s.den.units.filter (fun x => !(decide (x.chain = chain ∧ x.desc = n ∧ x.unit = u))) } }
  let s2 := { s1 with pwr := { s1.pwr with denIdleAt := s1.pwr.denIdleAt.set! e s1.now } }
  (s2.modDesc chain n (fun d => { d with done := sset false d.done u true })).denLevel e

/-- A refused access of a descriptor is marked, in REFUSED of its engine's page (R214). -/
def State.markRefused (s : State) (chain n e : Nat) (refused : Bool) : State :=
  if refused then (s.modDesc chain n (fun d => { d with refused := true })).err (denPage e) 9 else s

/-- The uncorrectable read that a descriptor's engine has met (R214). -/
def State.descUe (s : State) (chain n : Nat) : Option Nat := ((s.chain chain).bind (fun c => c.desc n)).bind (fun d => d.ueAt)

/-- Write a line of a unit's destination: a poisoned one that is written is counted (R212). After an uncorrectable read nothing more is written (R214). -/
def State.unitWrite (s : State) (c : Chain) (chain n e a off len : Nat) (bytes : List Byte) (poison : Bool) (host : HostLines) : State :=
  if (s.descUe chain n).isSome then s
  else
  let (lost, s1) := s.engWrite c.actor c.cls a (a + off) (List.replicate off 0#8 ++ bytes) (beOf off len) poison host true
  let s2 := if poison && !lost then (s1.count (denPage e) 4).err (denPage e) 10 else s1
  s2.markRefused chain n e lost

/-- Read the bytes of a source that a destination line uses; an uncorrectable line of them is kept in mind (R214). -/
def State.unitRead (s : State) (c : Chain) (chain n e a len : Nat) (host : HostLines) : LineIn × State :=
  let (l, s1) := s.engBytes c.actor c.cls a len host true
  let s2 := (s1.add64 (denPage e) 0x128 len).markRefused chain n e l.refused
  (l, if l.ue.isSome then s2.modDesc chain n (fun d => { d with ueAt := d.ueAt <|> l.ue }) else s2)

/-- A unit has run, or has met an uncorrectable read, which ends its descriptor (R214). -/
def State.unitEnd (s : State) (chain n u e : Nat) : State :=
  match s.descUe chain n with
  | none => s.unitDone chain n u e
  | some a => ((s.denNote e a 1).unitDone chain n u e).failDesc chain n 4

/-- Run the lines of a unit, up to a failure: the lines issued before an uncorrectable read are the engine's choice (log entry 41). -/
def State.runUnit (s : State) (chain n u op : Nat) (cmd : Instr) (ue : Option Nat) (line : Chain → Desc → Nat → State → Nat × Nat × Nat → State) : State :=
  match s.unitReady chain n u op with
  | none => s
  | some (c, d, e) =>
    let lines := d.unitLines u
    let (wait, s0) := s.unitHold c d cmd lines
    if wait then s0
    else
      let s1 := s0.until (nth16 s0.pwr.denWakeAt e)
      match ue with
      | none => (lines.foldl (fun v l => if (v.descUe chain n).isSome then v else line c d e v l) s1).unitEnd chain n u e
      | some a =>
        let (draw, s2) := s1.draw
        ((((lines.take (Config.freePlace draw % (lines.length + 1))).foldl (line c d e) s2).denFault e a).unitDone chain n u e).failDesc chain n 4

/-- FILL of a unit (R209, R212). host answers for the lines of host-tier homes that its partial writes to a draft need (R129). -/
def execFill (chain desc unit : Nat) (s : State) (host : HostLines := []) : Result :=
  done ((s.runUnit chain desc unit 0 (.fill chain desc unit host) none (fun c d e v l =>
    let bytes := (List.range l.2.2).map (fun i => BitVec.ofNat 8 (bits d.imm (8 * ((l.1 + l.2.1 + i - d.dst) % 8)) 8))
    v.unitWrite c chain desc e l.1 l.2.1 l.2.2 bytes false host)).settle)

/-- Where a COPY reads the map reserve (R51): slot by slot from address 2^44, beyond the unified range (DESIGN CHOICE, log entry 97). -/
def reserveBase : Nat := 2 ^ 44

/-- The bytes of the map reserve that a COPY's source address names (R51). -/
def State.reserveRead (s : State) (a len : Nat) (w : Traffic) : LineIn × State :=
  let o := a - reserveBase
  let lines := runLines o len
  let bytes := lines.flatMap (fun l => s.reserveLine (l / 256) (l % 256))
  ({ data := (bytes.drop (o % 64)).take len, poison := false }, lines.foldl (fun u l => u.dramVat (l / 256) (l % 256) false w) s)

/-- The source address lies in the map reserve. -/
def State.inReserve (s : State) (a len : Nat) : Bool := decide (reserveBase ≤ a ∧ a - reserveBase + len ≤ 16384 * s.mapSlots)

/-- COPY a line of a unit (R51, R209, R212). -/
def State.copyLine (s : State) (c : Chain) (d : Desc) (chain n e : Nat) (host : HostLines) (l : Nat × Nat × Nat) : State :=
  let a := d.srcs.headD 0 + (l.1 + l.2.1 - d.dst)
  let (x, s1) := if s.inReserve a l.2.2 then
      (let (x, u) := s.reserveRead a l.2.2 (workTraffic c.actor c.cls); (x, u.add64 (denPage e) 0x128 l.2.2))
    else s.unitRead c chain n e a l.2.2 host
  s1.unitWrite c chain n e l.1 l.2.1 l.2.2 x.data x.poison host

/-- COPY of a unit. -/
def execCopy (chain desc unit : Nat) (host : HostLines) (ue : Option Nat) (s : State) : Result :=
  done ((s.runUnit chain desc unit 1 (.copy chain desc unit host ue) ue (fun c d e v l => v.copyLine c d chain desc e host l)).settle)

/-- The bytes of a source by line: data, and the mark of the line each byte lies in. -/
def State.readMarked (s : State) (c : Chain) (chain n e a len : Nat) (host : HostLines) : List (Byte × Bool) × State :=
  (runLines a len).foldl (fun (acc : List (Byte × Bool) × State) line =>
    let lo := max a (64 * line)
    let hi := min (a + len) (64 * line + 64)
    let (l, v) := acc.2.unitRead c chain n e lo (hi - lo) host
    (acc.1 ++ l.data.map (fun b => (b, l.poison)), v)) ([], s)

/-- COMPARE a line of the second operand (R209). -/
def State.compareLine (s : State) (c : Chain) (d : Desc) (chain n e : Nat) (host : HostLines) (l : Nat × Nat × Nat) : State :=
  let k0 := l.1 + l.2.1 - d.dst
  let (xs, s1) := s.readMarked c chain n e (d.srcs.headD 0 + k0) l.2.2 host
  let (ys, s2) := s1.readMarked c chain n e (l.1 + l.2.1) l.2.2 host
  let diffs := ((xs.zip ys).zipIdx).filter (fun p => p.1.1.2 || p.1.2.2 || decide (p.1.1.1 ≠ p.1.2.1))
  let poisoned := xs.any (fun p => p.2) || ys.any (fun p => p.2)
  s2.modDesc chain n (fun d =>
    match diffs with
    | [] => { d with cmpPoison := d.cmpPoison || poisoned }
    | p :: _ =>
      let k := k0 + p.2
      { d with cmpPoison := d.cmpPoison || poisoned, diffLines := d.diffLines ++ [l.1 / 64],
               firstDiff := some (match d.firstDiff with | some f => min f k | none => k) })

/-- COMPARE of a unit. -/
def execCompare (chain desc unit : Nat) (host : HostLines) (ue : Option Nat) (s : State) : Result :=
  done ((s.runUnit chain desc unit 2 (.compare chain desc unit host ue) ue (fun c d e v l => v.compareLine c d chain desc e host l)).settle)

/-! ### REDUCE -/

/-- Place of a source line in the order of arrival (R211). -/
def State.arrival (s : State) (a : Nat) : Nat := match s.home (a / 16384) with | 0 => 0 | 4 => 0 | 1 => 1 | 2 => 2 | _ => 3

/-- A list in order of a rank, stable. -/
def byRank {α : Type} (l : List (Nat × α)) : List α :=
  ([0, 1, 2, 3].flatMap (fun k => l.filter (fun e => decide (e.1 = k)))).map (fun e => e.2)

/-- Combine two floating-point patterns: 0 SUM, 1 MIN, 2 MAX (R210). -/
def combineF (f : Fmt) (op a b : Nat) : Nat :=
  let x := f.value a
  let y := f.value b
  if op = 0 then f.addP a b
  else if x = .nan ∨ y = .nan then f.nan
  else if op = 1 then (if y.below x then b else a)
  else (if x.below y then b else a)

/-- The reduction of the values of one element in order, under TYPE, RED_OP, SCALE and IMM: its pattern, and the INT64 saturations (R210). -/
def reduceElem (typ op : Nat) (scale : Bool) (imm : Nat) (vs : List Nat) : Nat × Nat :=
  if typ = 4 then
    let (v, sats) := match vs.map (toInt 64) with
      | [] => ((0 : Int), 0)
      | x :: rest => rest.foldl (fun (acc : Int × Nat) y =>
          if op = 0 then (let (r, b) := satInt 64 (acc.1 + y); (r, acc.2 + (if b then 1 else 0)))
          else if op = 1 then (min acc.1 y, acc.2) else (max acc.1 y, acc.2)) (x, 0)
    let (w, b) := if scale then scaleInt 64 v (fmtFP64.value imm) else (v, false)
    (ofInt 64 w, sats + (if b then 1 else 0))
  else
    let f := if typ = 1 then fmtFP64 else fmtFP32
    let widen (v : Nat) : Nat := if typ = 3 then fmtFP32.pattern false (fmtBF16.value v) else v
    let v := match vs.map widen with
      | [] => 0
      | x :: rest => rest.foldl (combineF f op) (if f.value x = .nan then f.nan else x)
    let w := if scale then f.pattern false ((f.value v).mul (fmtFP64.value imm)) else v
    (if typ = 3 then fmtBF16.pattern false (fmtFP32.value w) else w, 0)

/-- The bytes of a destination line from its sources' bytes, each with its address, whether it is poisoned, and the counts of the engine (R210 to R212). -/
def State.reduceBytes (s : State) (d : Desc) (e len : Nat) (srcs : List (Nat × LineIn)) : List Byte × Bool × State :=
  let b := typeBytes d.typ
  let elems := (List.range (len / b)).map (fun i =>
    reduceElem d.typ d.redOp d.scale d.imm (byRank (srcs.map (fun p => (s.arrival (p.1 + b * i), leNat ((p.2.data.drop (b * i)).take b))))))
  let sats := (elems.map (fun p => p.2)).sum
  let ops := (if d.redOp = 0 then d.srcs.length - 1 else 0) + (if d.scale then 1 else 0)
  let s2 := if d.typ = 1 then s.add64 (denPage e) 0x120 (ops * elems.length) else s
  (elems.flatMap (fun p => leBytes b p.1), srcs.any (fun p => p.2.poison), if sats = 0 then s2 else (s2.count (denPage e) 5 sats).err (denPage e) 11)

/-- REDUCE a line of a unit (R210 to R212). -/
def State.reduceLine (s : State) (c : Chain) (d : Desc) (chain n e : Nat) (host : HostLines) (l : Nat × Nat × Nat) : State :=
  let k0 := l.1 + l.2.1 - d.dst
  let (srcs, s1) := d.srcs.foldl (fun (acc : List (Nat × LineIn) × State) x =>
    let (li, v) := acc.2.unitRead c chain n e (x + k0) l.2.2 host
    (acc.1 ++ [(x + k0, li)], v)) ([], s)
  let (bytes, poison, s2) := s1.reduceBytes d e l.2.2 srcs
  s2.unitWrite c chain n e l.1 l.2.1 l.2.2 bytes poison host

/-- REDUCE of a unit. -/
def execReduce (chain desc unit : Nat) (host : HostLines) (ue : Option Nat) (s : State) : Result :=
  done ((s.runUnit chain desc unit 3 (.reduce chain desc unit host ue) ue (fun c d e v l => v.reduceLine c d chain desc e host l)).settle)

/-! ### CASK_COPY -/

/-- Both regions are private or read-shared and the actor has the rights it needs (R213). -/
def State.storable (s : State) (actor src dst : Nat) : Bool :=
  (s.refusal actor false false src).isNone && (s.refusal actor true false dst).isNone
    && (match s.findRegion src, s.findRegion dst with
        | some (_, a), some (_, b) => decide (a.kind ≠ 1 ∧ a.kind ≠ 2 ∧ b.kind ≠ 1 ∧ b.kind ≠ 2)
        | _, _ => false)

/-- Put a stored cask, already encoded, as cask k of a tile of HOME 0 or 2, whose running seal has ended: the later full-cask write (R46, R59, R213); the Bool says that no room was found. stale sets STALE_TABLE. -/
def State.putStored (s : State) (k g : Nat) (x : StoredCask) (stale : Bool) (w : Traffic) : Bool × State :=
  let t := k / 4
  let s2 := if s.home t = 0 then s.cellarHome t g false w else s
  if x.length = 0 then
    (false, ((((s2.freeCask k).dropBuf k).cacheDrop k).setCask k { package := (s2.cask k).package, method := 1 }).settleUsage)
  else match s2.takeSectors t (k % 4) g x.length with
    | none => (true, s2)
    | some (p, sector, u) =>
      let u1 := (((((u.addRef x.table).freeCask k).dropBuf k).cacheDrop k).storeCask k p sector x).dramCellar p sector x.length true w
      (false, (if stale then u1.setCask k { u1.cask k with stale := true } else u1).settleUsage)

/-- A copied cask that finds no cellar room (R78, R213): its tile takes a slot, where its content is written whole, or the write is dropped. -/
def State.putNoRoom (s : State) (k : Nat) (raw : List Byte) (poison : BitVec 64) (w : Traffic) : State :=
  let t := k / 4
  let u := (s.dropBuf k).sealToVat t w
  if u.home t = 1 then
    (List.range 64).foldl (fun (v : State) i => (v.writeVat (u.loc t) (64 * (k % 4) + i) ((raw.drop (64 * i)).take 64) fullBe (poison.getLsbD i)).dramVat (u.loc t) (64 * (k % 4) + i) true w) u
  else u

/-- Copy one cask by its lines (R213). -/
def State.copyCaskLines (s : State) (c : Chain) (d : Desc) (chain n e a : Nat) (host : HostLines) : State :=
  (List.range 64).foldl (fun u i => u.copyLine c d chain n e host (a + 64 * i, 0, 64)) s

/-- Copy the cask at destination address a (R213). Where R213 leaves open which of two rows governs, a quarantined source is copied as poisoned and not counted, whatever its destination; and a cask to be stored that finds no cellar room counts as it would have (DESIGN CHOICE, log entry 172). -/
def State.copyCask (s : State) (c : Chain) (d : Desc) (chain n e : Nat) (host : HostLines) (a : Nat) : State :=
  let src := d.srcs.headD 0 + (a - d.dst)
  let ks := src / 4096
  let kd := a / 4096
  let w := workTraffic c.actor c.cls
  let plain (s : State) : State := s.copyCaskLines c d chain n e a host
  let lines (s : State) : State := (plain s).count (denPage e) 3
  match s.storable c.actor src a, s.findRegion a with
  | true, some (g, r) =>
    let s0 := (s.findTile (src / 16384) w (upsetAt host (src / 64 * 64) isTileMap)).findTile (a / 16384) w (upsetAt host a isTileMap)
    if s0.home (src / 16384) ≠ 2 then lines s0
    else
      let s1 := (s0.findCask ks w (upsetAt host (src / 64 * 64) isCaskMap)).findCask kd w (upsetAt host a isCaskMap)
      if s1.home (src / 16384) ≠ 2 then lines s1
      else if (s1.cask ks).quarantined then plain s1
      else
        let s2 := match s1.bufOf kd with | some b => if b.sealing then s1.finishSeal kd else s1 | none => s1
        if !(decide (s2.home (a / 16384) = 0 ∨ s2.home (a / 16384) = 2) && decide (r.policy ≠ 1)) then lines s2
        else
          let x := s2.cask ks
          let put (u : State) (y : StoredCask) (stale : Bool) (counter : Nat) : State :=
            match u.putStored kd g y stale w with
            | (false, v) => v.count (denPage e) counter
            | (true, v) =>
              let (raw, poison, v1) := v.caskContent ks w
              (v1.putNoRoom kd raw poison w).count (denPage e) counter
          if (s2.bufOf ks).isSome then
            let (raw, poison, u) := s2.caskContent ks w
            put u (encodeCask r.hint (u.curTable r) raw poison) false 3
          else
            let (bytes, ue, s') := s2.readSectors ks host
            let s3 := s'.dramCellar x.package x.sector x.length false w
            if ue then plain (s3.quarantine ks 6 0 (s2.firstBad ks host))
            else
              let poison := BitVec.ofNat 64 (if x.length = 0 then 0 else (readHead bytes).poison.toNat)
              put s3 ⟨x.method, x.table, x.length, poison, bytes⟩ (decide (16 ≤ x.table) && decide (x.table ≠ r.curTable)) 2
  | _, _ => lines s

/-- CASK_COPY of a unit (R213): a cask either of whose tiles moves waits. -/
def execCaskCopy (chain desc unit : Nat) (host : HostLines) (ue : Option Nat) (s : State) : Result :=
  match s.unitReady chain desc unit 4 with
  | none => done s
  | some (c, d, e) =>
    let lines := d.unitLines unit
    let casks := ((lines.map (fun l => l.1 / 4096 * 4096)).eraseDups)
    let moves := casks.any (fun a => s.moving (a / 16384) || s.moving ((d.srcs.headD 0 + (a - d.dst)) / 16384))
    let (wait, s0) := s.unitHold c d (.caskCopy chain desc unit host ue) lines
    if moves then done s
    else if wait then done s0
    else
      let s1 := s0.until (nth16 s0.pwr.denWakeAt e)
      match ue with
      | none => done ((((casks.foldl (fun u a => if (u.descUe chain desc).isSome then u else u.copyCask c d chain desc e host a) s1).unitEnd chain desc unit e).flushChecks).settle)
      | some a =>
        let (draw, s2) := s1.draw
        let part := (casks.take (Config.freePlace draw % (casks.length + 1))).foldl (fun u a => u.copyCask c d chain desc e host a) s2
        done (((((part.denFault e a).unitDone chain desc unit e).failDesc chain desc 4).flushChecks).settle)

/-! ### The end of a descriptor -/

/-- The result line of a COMPARE (R209). -/
def compareResult (d : Desc) : List Byte :=
  padTo 64 (leBytes 8 (d.firstDiff.getD (2 ^ 64 - 1)) ++ leBytes 8 (d.diffLines.eraseDups.length) ++ [if d.cmpPoison then 1#8 else 0#8])

/-- DESCRIPTOR_END (R208, R365): every write of every unit is held; the last descriptor's end ends the chain. -/
def execDescriptorEnd (chain desc : Nat) (s : State) : Result :=
  match s.chain chain with
  | none => done s
  | some c =>
    match c.desc desc with
    | none => done s
    | some d =>
      if d.stage ≠ 1 ∨ d.done.length < d.units ∨ s.rowHeld (s.descEngine d) then done s
      else
        let (wait, s0) := if d.op = 2 then s.engHoldRun ⟨c.actor, c.cls, some (.descriptorEnd chain desc), 0⟩ d.result 64 true else (false, s)
        if wait then done s0
        else
          let e := s.descEngine d
          let s1 := if d.op = 2 then
              (let (lost, u) := s0.engWrite c.actor c.cls d.result d.result (compareResult d) fullBe false [] true
               u.markRefused chain desc e lost)
            else s0
          let s2 := (s1.modDesc chain desc (fun d => { d with stage := 2, status := if d.refused then 1 else 0 })).count (denPage e) 0
          match s2.chain chain with
          | some c2 => if c2.descs.all (fun x => decide (x.stage = 2)) then done (s2.endChain chain 0 0) else done s2
          | none => done s2

end Sys2Proof.Machine
end

