-- ==== Sys2Proof/Machine/JobCmds.lean ====
section
/-! DEFINITION. The layer streamer's commands (R171 to R203): submission, admission, fills, lock groups, chunks, passes, the end of a layer, late layers, faults and aborts. -/

namespace Sys2Proof.Machine

/-! ### Submission -/

/-- The streamer has the job of a surrogate call that Shombe submitted under a CID (R225). -/
def State.callAccepted (s : State) (q cid : Nat) : State :=
  { s with svc := { s.svc with models := s.svc.models.map (fun e =>
      if e.2.entry = some (q, cid) then (e.1, { e.2 with entry := none, running := e.2.running.map (fun r => (r.1, r.2.1, r.2.2.1, s.lst.nextJob)) }) else e) } }

/-- JOB_SUBMIT (R172, R176, R177, R179): the streamer reads the header and holds the job QUEUED, or rejects it; while it holds 1,024 of them the entry waits. A header read as poisoned gives no REPORT_ADDR, and the job's report goes to address 0 (DESIGN CHOICE, log entry 172). -/
def execJobSubmit (queue seq : Nat) (host : HostLines) (s : State) : Result :=
  done (s.runEntry queue seq 0x20 (fun k e =>
    let r := if e.dw1 = 0 then k else s.queue (bits e.dw1 0 16)
    let (wait, s0) := s.engHoldRun ⟨r.actor, r.cls, some (.jobSubmit queue seq host), 0⟩ e.a0 128 false
    if s.submitsFull then s
    else if wait then s0
    else
      let (l, s1) := s0.engBytes r.actor r.cls e.a0 128 host true
      let j : Job := { id := s1.lst.nextJob, queue := queue, seq := seq, cid := e.cid, actor := r.actor, cls := r.cls, ownKind := k.ownKind, ownId := k.ownId,
                       hdrAddr := e.a0, chain := if l.poison then [] else Memory.store [] 0 l.data, refused := l.refused }
      let s2 := ((s1.modEntry queue seq (fun x => { x with stage := 2 })).callAccepted queue e.cid).acceptJob j
      if j.head.ok then s2 else s2.finishJob j.id 3 1))

/-- The job that a JOB_ABORT names: in QUEUED, ADMITTING or RUNNING, from the same header address, by a queue of the same owner (R200); of several, the one accepted first (DESIGN CHOICE, log entry 172). -/
def State.jobToAbort (s : State) (k : Queue) (a : Nat) : Option Job :=
  s.lst.jobs.find? (fun j => decide (j.hdrAddr = a ∧ j.state ≠ 3 ∧ j.ending = none ∧ j.ownKind = k.ownKind ∧ j.ownId = k.ownId))

/-- JOB_ABORT (R200). -/
def execJobAbort (queue seq : Nat) (s : State) : Result :=
  done (s.runEntry queue seq 0x21 (fun k e =>
    match s.jobToAbort k e.a0 with
    | none => s.endEntry queue seq 8
    | some j => (s.abortJob j.id 11).endEntry queue seq 0))

/-! ### Admission -/

/-- Tile-pool slots are demoted until n of them are free (R56, R65). -/
def State.demoteFor (s : State) (n : Nat) : State :=
  let (d, s1) := s.draw
  ((s1.demotionVictims d).take (n - s1.poolFree - s1.demotionsInFlight)).foldl (fun t v => t.acceptMove v .demotion) s1

/-- Take the slots of a window. -/
def State.takeWindow (s : State) : Nat → List Nat × State
  | 0 => ([], s)
  | n + 1 =>
    match s.takePool .window with
    | some (slot, u) => let (l, v) := u.takeWindow n; (slot :: l, v)
    | none => ([], s)

/-- The window of a job may be held beside the others (R180). -/
def State.windowFits (s : State) (j : Job) : Bool :=
  decide (s.windowMib + j.head.windowMib ≤ min (s.field lstPage 0x108 0 19) s.windowCeil)

/-- The lowest job slot that is free (LST_JOB_SEL). -/
def State.freePlace (s : State) : Nat :=
  ((List.range 256).find? (fun n => !(s.admitted.any (fun j => decide (j.place = n))))).getD 0

/-- JOB_WINDOW_GRANTED (R56, R177, R178): the oldest QUEUED job takes its window, its chain is copied and checked. Where the header has changed since it was read, the window is that of the header read first, and the copy is what is checked and run (DESIGN CHOICE, log entry 172). Without free slots the racking engine demotes tiles, and the grant waits. Until FW_READY is set no job is admitted (R395, R396). -/
def execJobWindowGranted (job : Nat) (host : HostLines) (s : State) : Result :=
  match s.oldestQueued with
  | none => done s
  | some j =>
    if j.id ≠ job ∨ !s.fwReady ∨ s.field lstPage 0x100 0 1 = 0 ∨ 256 ≤ s.admitted.length ∨ !(s.windowFits j) then done s
    else if s.poolFree < j.windowTiles then done (s.demoteFor j.windowTiles)
    else
      let n := 128 * (j.head.count + 1)
      let (wait, s0) := s.engHoldRun ⟨j.actor, j.cls, some (.jobWindowGranted job host), 0⟩ j.hdrAddr n false
      if wait then done s0
      else
        let (slots, s1) := s0.takeWindow j.windowTiles
        let (l, s2) := s1.engBytes j.actor j.cls j.hdrAddr n host true
        let chain := Memory.store [] 0 l.data
        let s3 := ((s2.settleUsage).windowTiles { j with slots := slots } 0 (ceilDiv n 16384) true).modJob job (fun j => { j with state := 1, slots := slots, chain := chain, place := s2.freePlace, refused := j.refused || l.refused })
        match s3.job job with
        | none => done s3
        | some j1 =>
          match s3.chainCause j1 l.poison with
          | none => done s3.demoteIfLow
          | some cause => done (s3.finishJob job 3 cause)

/-! ### Layers asking for rows -/

/-- A job's current record asks for its rows: dormant ones wake (R182, R183, R362). -/
def State.askRows (s : State) (id : Nat) : State :=
  match s.job id with
  | none => s
  | some j => (j.record j.recNo).members.foldl State.wakeRow (s.modJob id (fun j => { j with phase := .waitRows, askedAt := s.now }))

/-- A record becomes the one that the job waits to run. -/
def State.setRecord (s : State) (id recNo : Nat) : State := s.modJob id (fun j => { j with recNo := recNo })

/-- Copy the slice of a pass into the fill of a record (R179, R185, R193): its reads are issued, and it is in place or not yet. A direct layer's goes past the window (R192). -/
def State.copySlice (s : State) (j : Job) (recNo pass : Nat) (inPlace : Bool) (host : HostLines) : State :=
  let r := j.record recNo
  let p := s.runPlan j recNo
  let (data, poison, refused, u) := s.copyTiles j (r.sliceTiles p pass) (if p.buffer = 0 then none else some (j.setPlace recNo)) host false
  u.modJob j.id (fun j => { j with refused := (j.refused || refused), fills := j.fills.map (fun (f : Fill) => if f.recNo = recNo then
    { f with inPlace := f.inPlace || inPlace, issued := true, data := data, poison := poison } else f) })

/-- Give a record its fill, with its plan (R185, R192). -/
def State.beginFill (s : State) (id recNo : Nat) : State :=
  match s.job id with
  | none => s
  | some j =>
    let (p, spill) := s.planOf j (j.record recNo)
    let place := j.freeTiles (p.buffer + spill)
    s.modJob id (fun j => { j with fills := j.fills ++ [({ recNo := recNo, q := p.q, buffer := p.buffer, whole := p.whole, spill := spill, place := place } : Fill)] })

/-- JOB_RUNNING (R176, R178): the pinned sets and the first layer's first pass are in the window. -/
def execJobRunning (job : Nat) (host : HostLines) (s : State) : Result :=
  match s.job job with
  | none => done s
  | some j =>
    if j.state ≠ 1 then done s
    else
      let pins := (j.records.filter (fun e => e.2.pinned)).flatMap (fun e => (e.2.weightSets).flatMap (fun w => (List.range w.2).map (fun i => w.1 + 16384 * i)))
      let first := (j.nextLayer 0).getD 1
      let slice := if (j.record first).pinned then [] else (j.record first).sliceTiles (s.planOf j (j.record first)).1 0
      let (wait, sh) := s.holdTiles j (.jobRunning job host) (pins ++ slice)
      if wait then done sh
      else
        let s0 := if (j.record first).pinned then sh else sh.beginFill job first
        let (data, poison, refused, s1) := s0.copyTiles j pins (some j.pinPlace) host false
        let begin' (j : Job) : Job :=
          { j with
            state := 2, pinned := data, pinPoison := poison, refused := j.refused || refused, startTime := s.now
            layer := first, startUs := s.now / 1000 % 2 ^ 32, layerAt := s.now, endedAt := s.now }
        let s2 := s1.modJob job begin'
        let s3 := match s2.job job with
          | some j2 => if (j2.record first).pinned then s2 else s2.copySlice j2 first 0 true host
          | none => s2
        done ((s3.setRecord job first).askRows job)

/-- The layer after which fills run: the running one, or the one before a layer that has not begun (R185). -/
def Job.fillBase (j : Job) : Nat :=
  if j.fallback then j.layer
  else match j.phase with
    | .waitWeights => j.prevLayer
    | .late => j.prevLayer
    | .waitRows => j.prevLayer
    | _ => j.layer

/-- Tiles of the streaming part that a job's fills hold: buffers, activation spills, and the spill of a running record that its fill does not count (R185, R194). -/
def Job.streamUsed (j : Job) : Nat := (j.fills.map (fun f => f.buffer + f.spill)).sum + j.spillHeld

/-- FILL_BEGIN (R185): the layer is among the next PREFETCH unpinned ones, every earlier fill has issued all its reads, and the streaming part has room for the first pass and its spill. The command says that the earlier fills have issued their reads: those not in place yet read their sets now, once the holders of those lines are snooped (R118; DEDUCED, log entry 166). -/
def execFillBegin (job recNo : Nat) (s : State) (host : HostLines := []) : Result :=
  match s.job job with
  | none => done s
  | some j =>
    let base := j.fillBase
    let ahead := ((j.records.filter (fun e => decide (base < e.1 ∧ e.2.kind = 1) && !e.2.pin)).map (fun e => e.1)).take j.head.prefetch
    let earlier := ahead.filter (fun i => decide (i < recNo))
    let (p, spill) := s.planOf j (j.record recNo)
    let unread := earlier.filter (fun i => match j.fillOf i with | some f => !f.issued && !f.inPlace | none => false)
    if j.state = 2 ∧ base ≠ 0 ∧ ahead.contains recNo ∧ (j.fillOf recNo).isNone ∧ earlier.all (fun i => (j.fillOf i).isSome) ∧ p.buffer + spill + j.streamUsed ≤ j.streamTiles then
      let (wait, s0) := if unread = [] then (false, s) else s.holdTiles j (.fillBegin job recNo host) (unread.flatMap (fun i => (j.record i).sliceTiles (s.runPlan j i) 0))
      if wait then done s0 else done ((unread.foldl (fun u i => u.copySlice j i 0 false host) s0).beginFill job recNo)
    else done s

/-- Weights came into place for the record a job waits for: it asks for its rows; under policy 0 a late layer counts as waited (R188). -/
def State.weightsCame (s : State) (id : Nat) : State :=
  match s.job id with
  | none => s
  | some j =>
    if j.phase = .waitWeights ∨ j.phase = .late then
      (s.modJob id (fun j => { j with waitNs := j.waitNs + (s.now - j.endedAt), waited := if j.phase = .late then j.waited + 1 else j.waited })).askRows id
    else s

/-- WEIGHTS_IN_PLACE (R57, R179, R186): a fill whose reads have been issued holds what they read. -/
def execWeightsInPlace (job recNo : Nat) (host : HostLines) (s : State) : Result :=
  match s.job job with
  | none => done s
  | some j =>
    match j.fillOf recNo with
    | none => done s
    | some f =>
      if f.inPlace ∨ j.state ≠ 2 then done s
      else
        let (wait, s0) := if f.issued then (false, s) else s.holdTiles j (.weightsInPlace job recNo host) ((j.record recNo).sliceTiles (s.runPlan j recNo) 0)
        if wait then done s0
        else
          let s1 := if f.issued then s0.modJob job (fun j => { j with fills := j.fills.map (fun (f : Fill) => if f.recNo = recNo then { f with inPlace := true } else f) })
            else s0.copySlice j recNo 0 true host
          done (if recNo = j.recNo then s1.weightsCame job else s1)

/-! ### Lock groups -/

/-- The rows of two records meet. -/
def rowsMeet (a b : LayerRec) : Bool := a.members.any (fun r => b.members.contains r)

/-- A member row keeps a layer waiting: ADMIT 0 or SUBST_PENDING while the job does not hold it (R183). -/
def State.rowShut (s : State) (j : Job) (r : Nat) : Bool :=
  !(j.rows.getLsbD r) && (decide (s.field (tnsPage r) 0x100 0 1 = 0) || s.substPending r || s.substAwaited r)

/-- A layer of several rows waits for the clock reference (R361, R370). -/
def State.refWaits (s : State) (r : LayerRec) : Bool := decide (1 < r.members.length) && decide (s.field 0x002 0x10C 1 1 = 1)

/-- Another layer has waited longer, or as long in an earlier job, for one of the rows (R183). One that a row's ADMIT 0 or SUBST_PENDING holds keeps no row from a later one (DESIGN CHOICE, log entry 177), nor one that waits for the clock reference (R361). -/
def State.outranked (s : State) (j : Job) : Bool :=
  s.lst.jobs.any (fun x => decide (x.id ≠ j.id ∧ x.phase = .waitRows) && rowsMeet (x.record x.recNo) (j.record j.recNo)
    && !((x.record x.recNo).members.any (s.rowShut x)) && !(s.refWaits (x.record x.recNo)) && decide (x.askedAt < j.askedAt ∨ (x.askedAt = j.askedAt ∧ x.id < j.id)))

/-- The group of a waiting layer may form now (R165, R183, R361, R370). -/
def State.groupReady (s : State) (j : Job) : Bool :=
  let rows := (j.record j.recNo).members
  decide (j.phase = .waitRows) && rows.all (fun r => !(s.rowBusy r) && !(s.rowShut j r) && !(s.rowHeld r) && !(s.rowDormant r))
    && !(s.outranked j) && !(s.refWaits (j.record j.recNo))

/-- The tick at which a group starts (R165, R182, R367): the first multiple of 64 ns, from now on, at least 256 ns after the asking, the rows' idleness and their waking. -/
def State.groupTick (s : State) (j : Job) : Nat :=
  let ready := (j.record j.recNo).members.foldl (fun a r => max a (max (nth16 s.pwr.rowIdleAt r) (nth16 s.pwr.rowWakeAt r))) j.askedAt
  (max (ready + 256) s.now + 63) / 64 * 64

/-- How a layer's rows will have its activations, and the tiles of the streaming part this holds beyond the fill (R184, R194, R203): one pass reads them chunk by chunk; several keep them in the activation area where that, as committed now, holds their need; else they spill, into the slots the plan took or into free ones; else each pass reads their homes. -/
def State.actsFor (s : State) (j : Job) : Nat × Nat :=
  let r := j.record j.recNo
  let planned : Bool := match j.fillOf j.recNo with | some f => decide (f.spill ≠ 0) | none => false
  if r.passes (s.runPlan j j.recNo) ≤ 1 then (0, 0)
  else if r.actNeed ≤ s.actArea then (1, 0)
  else if planned then (2, 0)
  else if j.streamUsed + r.actTiles ≤ j.streamTiles then (2, r.actTiles)
  else (0, 0)

/-- The tile of the window that tile i of the running record's spilled activations lies in: behind its fill's buffer where the plan took them, else in the tiles found for them (log entry 172). -/
def Job.spillPlace (j : Job) (i : Nat) : Nat :=
  j.pinnedTiles + (match j.fillOf j.recNo with
    | some f => if f.spill ≠ 0 then tileAt f.place (f.buffer + i) else tileAt j.spillAt i
    | none => tileAt j.spillAt i)

/-- The tiles of a record's activation set. -/
def LayerRec.actSet (r : LayerRec) : List Nat := (List.range r.actTiles).map (fun i => r.aAddr + 16384 * i)

/-- The lines of activation rows lo to hi - 1 over depth blocks (R148, R194). -/
def LayerRec.actLines (r : LayerRec) (lo hi : Nat) (depth : List Nat) : List Nat :=
  let h := 512 / elemBits r.af
  let tiles := (List.range (ceilDiv r.k h)).filter (fun t => depth.any (fun b => decide (t * h < 256 * (b + 1) ∧ 256 * b < (t + 1) * h)))
  (List.range (hi - lo)).flatMap (fun i => tiles.map (fun t => setLineAt r.aAddr (elemBits r.af) r.k (t * h) (lo + i) / 64))

/-- A chunk finds its activations kept or spilled: it reads no home (R194). -/
def Job.actsHeld (j : Job) : Bool := decide (j.keep = 2) || (decide (j.keep = 1) && decide (0 < j.pass))

/-- Where the activations that a row has loaded lie among the group's: each row of a column split has its own, a depth split's rows the group's (R194). -/
def Job.keepBase (j : Job) (row : Nat) : Nat :=
  if j.keep ≤ 1 then 2 ^ 48 * (if (j.record j.recNo).split = 0 then row else (j.record j.recNo).lockBase) else 0

/-- A row loads the activations of some lines: from those kept or spilled, or with the job's rights from their homes (R160, R194). -/
def State.readActs (s : State) (j : Job) (row : Nat) (lines : List Nat) (host : HostLines) : Memory × Sparse Bool × Bool × State :=
  let o := j.keepBase row
  let first := (j.record j.recNo).aAddr / 64
  if j.actsHeld then
    (j.acts, j.actPoison, false, if j.keep = 2 then lines.foldl (fun u l => u.windowLine j (j.spillPlace ((l - first) / 256)) (l % 256) false) s else s)
  else
    lines.foldl (fun (acc : Memory × Sparse Bool × Bool × State) l =>
      let (x, u) := acc.2.2.2.engRead j.actor j.cls (64 * l) (64 * l) host true
      (Memory.store acc.1 (64 * l + o) x.data, sset false acc.2.1 (l + o / 64) x.poison, acc.2.2.1 || x.refused, u)) (j.acts, j.actPoison, false, s)

/-- The lines of a chunk's activations (R163, R194). -/
def LayerRec.chunkLines (r : LayerRec) (c : Nat) : List Nat := r.actLines (256 * c) (min (256 * (c + 1)) r.m) (List.range (ceilDiv r.k 256))

/-- The lines that the rows load for a chunk from their homes: none behind the last chunk, none where they are kept or spilled (R194). -/
def Job.loadLines (j : Job) (c : Nat) : List Nat := if j.actsHeld then [] else (j.record j.recNo).chunkLines c

/-- The rows of a group load the activations of a chunk before it runs, and the next chunk's while one computes (R194): every row of a column split its own, the rows of a depth split the group's. -/
def State.loadChunk (s : State) (j : Job) (c : Nat) (host : HostLines) : State :=
  let r := j.record j.recNo
  let rows := if r.split = 0 then r.members else [r.lockBase]
  let (acts, poison, refused, u) := rows.foldl (fun (acc : Memory × Sparse Bool × Bool × State) x =>
    let (a, p, q, v) := acc.2.2.2.readActs { j with acts := acc.1, actPoison := acc.2.1 } x (r.chunkLines c) host
    (a, p, acc.2.2.1 || q, v)) (j.acts, j.actPoison, false, s)
  u.modJob j.id (fun j => { j with acts := acts, actPoison := poison, refused := j.refused || refused })

/-- A layer starts on its rows (R165, R182, R187, R197): its activations are copied where they spill, its rows run it at the level of the slowest, and load the first chunk's activations (R194). -/
def State.startLayer (s : State) (j : Job) (keep held : Nat) (host : HostLines) : State :=
  let r := j.record j.recNo
  let mask := r.members.foldl (fun (m : BitVec 16) x => m ||| BitVec.ofNat 16 (2 ^ x)) 0#16
  let again := j.fallback && decide (j.fbLeft + 1 < (j.record j.layer).fbCount)
  let place := j.freeTiles held
  let (acts, poison, refused, s1) := if keep = 2 then s.copyTiles { j with spillAt := place } r.actSet (some ({ j with spillAt := place } : Job).spillPlace) host true else ([], [], false, s)
  let s2 := s1.modJob j.id (fun j => { j with
    phase := .running, running := mask, rows := j.rows ||| mask, pass := 0, chunks := [], written := 0, acts := acts, actPoison := poison,
    keep := keep, spillHeld := held, spillAt := place, refused := j.refused || refused, lastRecord := j.recNo,
    spillBytes := if keep = 2 then j.spillBytes + 16384 * r.actTiles else j.spillBytes,
    layerAt := if again then j.layerAt else s.now, startUs := if again then j.startUs else s.now / 1000 % 2 ^ 32 })
  let s3 := (s2.takeRows j.id r.lockBase r.groupRows r.split).groupLevel r.members
  match s3.job j.id with
  | some x => s3.loadChunk x 0 host
  | none => s3

/-- LOCK_GROUP_START (R142, R164, R165, R182, R183, R367). A layer waits for the holders of the lines that it spills, or that its first chunk loads (R118). -/
def execLockGroupStart (job : Nat) (s : State) (host : HostLines := []) : Result :=
  match s.job job with
  | none => done s
  | some j =>
    if !(s.groupReady j) then done s
    else
      let r := j.record j.recNo
      let (keep, held) := s.actsFor j
      let (wait, s0) := if keep = 2 then s.holdTiles j (.lockGroupStart job host) r.actSet
        else s.holdLines ⟨j.actor, j.cls, some (.lockGroupStart job host), 0⟩ ((r.chunkLines 0).map (fun l => (l, false)))
      if wait then done s0
      else
        let s1 := s0.until (s0.groupTick j)
        if r.members.any (fun x => decide (s1.activeCount x = 0)) then done (s1.abortJob job 9)
        else done (s1.startLayer j keep held host)

/-! ### Chunks -/

/-- Weights of a record as its pass reads them: bytes and poisoned lines. -/
def Job.weightsOf (j : Job) (recNo : Nat) : Memory × Sparse Bool :=
  if (j.record recNo).pinned then (j.pinned, j.pinPoison)
  else match j.fillOf recNo with
    | some f => (f.data, f.poison)
    | none => ([], [])

/-- The rows of a group load the weights of a pass, its own slabs', from the window as its first chunk ends (R19, R163, R193); a direct layer's went past the window (R192). -/
def State.loadWeights (s : State) (j : Job) : State :=
  let r := j.record j.recNo
  let p := s.runPlan j j.recNo
  if j.chunks ≠ [] ∨ (!r.pinned && decide (p.buffer = 0)) then s
  else (r.passTiles p j.pass).foldl (fun u a => u.windowTiles j (j.setPlace j.recNo ((r.sliceTiles p j.pass).idxOf a)) 1 false) s

/-- Result lines of a run of columns for activation rows lo to hi - 1: address, first column, activation row (R148, R149). -/
def LayerRec.outLines (r : LayerRec) (lo hi : Nat) (slabs : List Nat) : List (Nat × Nat × Nat) :=
  let h := 512 / elemBits r.oF
  slabs.flatMap (fun x =>
    let n1 := min (256 * (x + 1)) r.n
    ((List.range (ceilDiv (n1 - 256 * x) h)).map (fun i => 256 * x + h * i)).flatMap (fun n0 =>
      (List.range (hi - lo)).map (fun i => (setLineAt r.out (elemBits r.oF) r.n n0 (lo + i), n0, lo + i))))

/-- The sums of the rows of a group, in ascending row order, and the saturations of each row: its own, and those of the addition that brings its sum in (R156, R157; which row counts such an addition is not stated: DESIGN CHOICE, log entry 167). -/
def addRows (int : Bool) : List (Nat × Acc32) → Acc32 × List (Nat × Nat)
  | [] => ({}, [])
  | (x, a) :: rest => rest.foldl (fun (acc : Acc32 × List (Nat × Nat)) e =>
      let t := Acc32.add int acc.1 e.2
      (t, acc.2 ++ [(e.1, t.sats - acc.1.sats)])) (a, [(x, a.sats)])

/-- What a layer's rows compute for output (m, n) in a pass, and the saturations of each: the row's own sum, or the rows' sums in ascending row order under a depth split (R156, R157, R164). -/
def State.layerSum (s : State) (r : LayerRec) (p : Plan) (pass : Nat) (wr ar : Nat → Nat) (row m n : Nat) : Acc32 × List (Nat × Nat) :=
  let one (x : Nat) : Nat × Acc32 :=
    let (slabs, depth) := r.rowShare p pass x
    (r.lockBase + x, r.rowSum wr ar (r.lockBase + x) slabs depth (s.activeCount (r.lockBase + x)) (s.physCluster (r.lockBase + x)) m n)
  addRows (decide (r.wf = 6)) (if r.split = 0 then [one (row - r.lockBase)] else (List.range r.groupRows).map one)

/-- A codebook number at or beyond the layer's codebook set, among the weights of a row's share: the physical cluster that met it (R152, R169). -/
def State.codebookFault (s : State) (j : Job) (row : Nat) : Option Nat :=
  let r := j.record j.recNo
  let (w, poison) := j.weightsOf j.recNo
  let rd (a : Nat) : Nat := (Memory.rd w a).toNat
  if r.wf ≠ 0 then none
  else
    let (slabs, depth) := r.rowShare (s.runPlan j j.recNo) j.pass (row - r.lockBase)
    let total := slabs.length * depth.length
    let deal := dealTo row (s.activeCount row) total total
    let blocks := slabs.flatMap (fun x => depth.map (fun b => (x, b)))
    let hit (e : Nat × Nat) : Bool := (List.range 256).any (fun c => (List.range 8).any (fun g =>
      let k := 256 * e.2 + 32 * g
      let n := 256 * e.1 + c
      decide (k < r.k ∧ n < r.n) && !(sget false poison (r.selAddr k n / 64)) && decide (512 * r.cbTiles ≤ r.codebook rd k n)))
    ((blocks.zipIdx).find? (fun e => hit e.1)).map (fun e => (s.physCluster row (deal.getD e.2 0)).getD 0)

/-- A row records a fault (R169). -/
def State.recordFault (s : State) (row phys cause : Nat) : State :=
  let c := if cause = 3 ∨ cause = 5 then 0 else phys
  (((s.setWord (tnsPage row) 0x130 (c + cause * 2 ^ 6)).setWord64 (tnsPage row) 0x138 s.now).count (tnsPage row) 1).err (tnsPage row) 8

/-- A fault in a row of a running job aborts it (R169, R199). -/
def State.rowFaults (s : State) (j : Job) (row phys cause : Nat) : State :=
  let c := if cause = 3 ∨ cause = 5 then 0 else phys
  ((s.recordFault row phys cause).modJob j.id (fun j => { j with faultPhys := c, faultCause := cause, faultRow := row })).abortJob j.id 7

/-- Multiply-accumulates of a row are counted (TNS_MAC_COUNT, MACS of the report). -/
def State.countMacs (s : State) (id row n : Nat) : State :=
  { (s.modJob id (fun j => { j with macs := j.macs + n })) with tns := { s.tns with macs := s.tns.macs.set! row (nth16 s.tns.macs row + n) } }

/-- Saturations of a row are counted, EVT_CNT3 and TNS_SAT_COUNT (R157). -/
def State.countSats (s : State) (row n : Nat) : State :=
  if n = 0 then s
  else (s.setWord (tnsPage row) 0x150 (min (2 ^ 32 - 1) (s.word (tnsPage row) 0x150 + n))).count (tnsPage row) 3 n

/-- Write one result line of a layer (R150, R157, R159, R160). Which row of a depth split counts a poisoned line, and whether one whose write is refused or dropped counts, R160 does not say: the row that ends the chunk last counts it, and it counts (DESIGN CHOICE, log entry 172). -/
def State.writeResult (s : State) (j : Job) (p : Plan) (wr ar : Nat → Nat) (wPoison aPoison : Nat → Bool) (row : Nat) (l : Nat × Nat × Nat) : State :=
  let r := j.record j.recNo
  let b := elemBits r.oF
  let cols := (List.range (512 / b)).map (fun i => l.2.1 + i) |>.filter (fun n => decide (n < r.n))
  let depth := List.range (ceilDiv r.k 256)
  let bad := (r.actLines l.2.2 (l.2.2 + 1) depth).any aPoison
    || cols.any (fun n => (List.range r.k).any (fun k => (r.weightLines wr k n).any wPoison))
  let sums := cols.map (fun n => s.layerSum r p j.pass wr ar row l.2.2 n)
  let (lost, s1) := s.engWrite j.actor j.cls l.1 l.1 (packLine b (sums.map (fun a => r.finish a.1))) fullBe bad [] true
  let s2 := r.members.foldl (fun u x => u.countSats x ((sums.map (fun a => ((a.2.filter (fun e => decide (e.1 = x))).map (fun e => e.2)).sum)).sum)) s1
  let s3 := if bad then s2.count (tnsPage row) 4 else s2
  s3.modJob j.id (fun j => { j with refused := j.refused || lost, poisoned := j.poisoned || bad })

/-- Chunks of a layer (R163). -/
def LayerRec.chunks (r : LayerRec) : Nat := ceilDiv r.m 256

/-- Every member row has finished the chunks of this pass. -/
def Job.passDone (j : Job) : Bool :=
  let r := j.record j.recNo
  r.members.all (fun x => decide (r.chunks ≤ sget 0 j.chunks x))

/-- The last pass of a layer runs (R193). -/
def State.lastPass (s : State) (j : Job) : Bool :=
  decide ((j.record j.recNo).passes (s.runPlan j j.recNo) ≤ j.pass + 1)

/-- The entry of a chain of a layer record (R260, R268, R269). -/
def chainEntry (cid a count : Nat) : List Byte := padTo 64 (leBytes 4 (0x10 + cid % 65536 * 2 ^ 16) ++ leBytes 4 count ++ leBytes 8 a)

/-- A layer's data-engine chain is submitted on a queue of the layer streamer (R196, R260), and starts there as a DEN_CHAIN with the job's rights and class; while none of those queues takes an entry it waits. Where Shombe has assigned the streamer no queue, it starts without one, once its descriptors can be read (R118; DESIGN CHOICE, log entry 165). -/
def State.startLayerChain (s : State) (id : Nat) (cmd : Instr) (host : HostLines) : State :=
  match s.job id with
  | none => s
  | some j =>
    let r := j.record j.recNo
    let l := s.ownQueues 3 (fun i => decide (i = 0))
    if !j.chainDue || j.chainEntry.isSome then s
    else if l = [] then
      let (wait, s1) := s.engHoldRun ⟨j.actor, j.cls, some cmd, 0⟩ r.den (64 * r.denCount) false
      if wait then s1
      else (s1.modJob id (fun j => { j with chainDue := false })).startChain none (some id) j.actor j.cls r.den r.denCount host
    else match s.pickQueue l with
      | (none, _) => s
      | (some q, s1) =>
        match s1.submit (some cmd) q (fun cid => chainEntry cid r.den r.denCount) with
        | (some cid, u) => u.modJob id (fun j => { j with chainEntry := some (q, cid) })
        | (none, u) => u

/-- After a chunk: a pass that is done waits for the next slice, or the layer's data-engine chain starts (R193, R196). -/
def State.afterChunk (s : State) (id : Nat) (cmd : Instr) (host : HostLines) : State :=
  match s.job id with
  | none => s
  | some j =>
    if !j.passDone then s
    else if !(s.lastPass j) then s.modJob id (fun j => { j with phase := .waitPass, passEndAt := s.now })
    else if (j.record j.recNo).denCount = 0 then s
    else (s.modJob id (fun j => { j with phase := .chain, chainDue := true })).startLayerChain id cmd host

/-- A row has finished chunk c. The group's chunk boundary is the moment at which its last member ends the chunk (DESIGN CHOICE, log entry 162: R167 does not say which member's boundary is the group's); there the group takes its members' clock steps, where a chunk follows. -/
def State.boundary (s : State) (id c : Nat) : State :=
  match s.job id with
  | none => s
  | some j =>
    let r := j.record j.recNo
    if decide (c + 1 < r.chunks) && r.members.all (fun x => decide (c < sget 0 j.chunks x)) then s.groupLevel r.members else s

/-- A row finishes its chunk number c (R167): its result lines are written, or those of the whole group by the last member under a depth split. Before the first member's are, the rows have loaded the next chunk's activations (R194; DEDUCED, log entry 63). -/
def State.finishChunk (s : State) (j : Job) (row c : Nat) (cmd : Instr) (host : HostLines) : State :=
  let r := j.record j.recNo
  let p := s.runPlan j j.recNo
  let lo := 256 * c
  let hi := min (256 * (c + 1)) r.m
  let (slabs, depth) := r.rowShare p j.pass (row - r.lockBase)
  let last := r.members.all (fun x => decide (x = row ∨ c < sget 0 j.chunks x))
  let writes := decide (r.split = 0) || last
  let first := r.members.all (fun x => decide (sget 0 j.chunks x ≤ c)) && decide (c + 1 < r.chunks)
  let outs := if writes then r.outLines lo hi slabs else []
  let (wait, s2) := s.holdLines ⟨j.actor, j.cls, some cmd, 0⟩
    ((if first then (j.loadLines (c + 1)).map (fun l => (l, false)) else []) ++ outs.map (fun l => (l.1 / 64, true)))
  if wait then s2
  else
    let s3 := if first then (s2.loadWeights j).loadChunk j (c + 1) host else s2.loadWeights j
    let o := j.keepBase row
    let (w, wp) := j.weightsOf j.recNo
    let s4 := outs.foldl (fun u l => u.writeResult j p (fun a => (Memory.rd w a).toNat) (fun a => (Memory.rd j.acts (a + o)).toNat) (sget false wp) (fun i => sget false j.actPoison (i + o / 64)) row l) s3
    let share := (hi - lo) * ((slabs.map (fun x => min (256 * (x + 1)) r.n - 256 * x)).sum) * ((depth.map (fun b => min (256 * (b + 1)) r.k - 256 * b)).sum)
    let s5 := (s4.countMacs j.id row share).modJob j.id (fun j => { j with
      chunks := sset 0 j.chunks row (c + 1), written := if writes then j.written + 1 else j.written })
    ((s5.boundary j.id c).afterChunk j.id cmd host).settle

/-- CHUNK_BOUNDARY (R167): a held group finishes no chunk (R365), and no member ends a chunk before every member has ended the one before, so that the group's boundary is one (DEDUCED, log entry 162); a codebook number beyond the set aborts the job (R169). The data-engine chain of a layer whose last chunk has ended starts once the holders of its descriptors have been snooped (R118, R196). -/
def execChunkBoundary (job : Nat) (row : Fin 16) (host : HostLines) (s : State) : Result :=
  match s.job job with
  | none => done s
  | some j =>
    let r := j.record j.recNo
    let c := sget 0 j.chunks row.val
    let cmd : Instr := .chunkBoundary job row host
    if j.phase = .chain ∧ j.chainDue then done (s.startLayerChain job cmd host).settle
    else if j.phase ≠ .running ∨ !(j.running.getLsbD row.val) ∨ r.chunks ≤ c ∨ r.members.any s.rowHeld ∨ r.members.any (fun x => decide (sget 0 j.chunks x < c)) then done s
    else match s.codebookFault j row.val with
      | some phys => done (s.rowFaults j row.val phys 4)
      | none => done (s.finishChunk j row.val c cmd host)

/-- Cycles of the first block load and the end of a pass (R163, R193), in nanoseconds at a row's clock, rounded down (R193 names no rounding: DESIGN CHOICE, log entry 177). -/
def State.passOverhead (s : State) (r : LayerRec) : Nat := (loadCycles r.wf + 96) * 1000 / levelMhz (s.level r.lockBase)

/-- SPLIT_PASS_START (R193): a later pass begins once its slice is in place, at a boundary between two chunks of the group (R167), which is not held (R365, R370); its first block load and its end run at the clock that it begins with. Its rows load the first chunk's activations (R194). -/
def execSplitPassStart (job : Nat) (host : HostLines) (s : State) : Result :=
  match s.job job with
  | none => done s
  | some j =>
    let r := j.record j.recNo
    if j.phase ≠ .waitPass ∨ r.members.any s.rowHeld then done s
    else
      let p := s.runPlan j j.recNo
      let tiles := if p.whole then [] else r.sliceTiles p (j.pass + 1)
      let (wait, s0) := s.holdLines ⟨j.actor, j.cls, some (.splitPassStart job host), 0⟩
        ((tiles.flatMap (fun t => s.heldIn t 16384) ++ (if j.keep = 0 then r.chunkLines 0 else [])).map (fun l => (l, false)))
      if wait then done s0
      else
        let s1 := (if p.whole then s0 else s0.copySlice j j.recNo (j.pass + 1) true host).groupLevel r.members
        let s2 := s1.modJob job (fun j => { j with
          phase := .running, pass := j.pass + 1, chunks := [], written := 0, extraPasses := j.extraPasses + 1,
          splitLayers := if j.pass = 0 then j.splitLayers + 1 else j.splitLayers,
          splitNs := j.splitNs + (s1.now - j.passEndAt) + s1.passOverhead r })
        match s2.job job with
        | some x => done (s2.loadChunk x 0 host)
        | none => done s2

/-! ### The end of a layer -/

/-- A layer is late (R188, R190): its policy applies. -/
def State.makeLate (s : State) (id : Nat) : State :=
  match s.job id with
  | none => s
  | some j =>
    let r := j.record j.layer
    let s1 := (s.count lstPage 4).err lstPage 11
    match r.policy with
    | 0 => s1.modJob id (fun j => { j with phase := .late, lateAt := s.now })
    | 1 => (s1.modJob id (fun j => { j with recNo := r.fbFirst, fbLeft := r.fbCount - 1, waitNs := j.waitNs + (s.now - j.endedAt),
                                            fills := j.fills.filter (fun f => decide (f.recNo ≠ j.layer)) })).askRows id
    | _ => s1.abortJob id 6

/-- The deadline of the layer a job waits for is reached (R187). -/
def State.deadlineReached (s : State) (j : Job) : Bool :=
  decide ((j.record j.layer).deadline ≤ (s.now / 1000 + 2 ^ 32 - j.startUs) % 2 ^ 32)

/-- A layer follows: it asks for its rows, waits for its weights, or is late already (R188). -/
def State.followLayer (s : State) (id : Nat) : State :=
  match s.job id with
  | none => s
  | some j =>
    match j.nextLayer j.layer with
    | none => s.finishJob id (if j.degraded = 0 then 0 else 1) 0
    | some n =>
      let s1 := s.modJob id (fun j => { j with layer := n, recNo := n, fbLeft := 0, endedAt := s.now, phase := .waitWeights })
      match s1.job id with
      | none => s1
      | some j1 =>
        if j1.inPlace n then s1.askRows id
        else if s1.deadlineReached j1 then s1.makeLate id
        else s1

/-- The last fallback record of a layer has ended: the layer counts as degraded (R189, R190). -/
def State.degrade (s : State) (id : Nat) : State :=
  ((s.modJob id (fun j => { j with degraded := j.degraded + 1, firstDeg := if j.degraded = 0 then j.layer else j.firstDeg, lastDeg := j.layer })).count lstPage 5).err lstPage 9

/-- Arithmetic cycles that a row ran a layer for: at most the bound of R163, and under a depth split up to 64 more (R164); how many is not stated, and whether those 64 count is not (free values, log entries 42 and 161). -/
def State.busyCycles (s : State) (r : LayerRec) (p : Plan) (row : Nat) : Nat × State :=
  let (d, u) := s.draw
  let blocks := (List.range (r.passes p)).foldl (fun a q => let (sl, de) := r.rowShare p q (row - r.lockBase); a + ceilDiv (sl.length * de.length) (max 1 (s.activeCount row))) 0
  let cost := (List.range r.chunks).foldl (fun a c => a + max ((min (256 * (c + 1)) r.m - 256 * c) * rowCycles r.wf) (loadCycles r.wf)) 0
  (Config.freePlace d % (r.passes p * (loadCycles r.wf + 96) + blocks * cost + (if r.split = 1 then 64 else 0) + 1), u)

/-- The rows of an ended layer count it (EVT_CNT0, TNS_BUSY_CYCLES). -/
def State.countLayer (s : State) (j : Job) : State :=
  let r := j.record j.recNo
  let p := s.runPlan j j.recNo
  r.members.foldl (fun u row => let (n, v) := u.busyCycles r p row; (v.count (tnsPage row) 0).add64 (tnsPage row) 0x140 n) s

/-- All results of a layer are held, its rows are not (R365), and its data-engine chain has ended (R191, R196). -/
def State.layerEnded (s : State) (j : Job) : Bool :=
  let r := j.record j.recNo
  (decide (j.phase = .running) && j.passDone && s.lastPass j && decide (r.denCount = 0) && !(r.members.any s.rowHeld))
    || (decide (j.phase = .chain) && !j.chainDue && !(s.den.chains.any (fun c => decide (c.job = some j.id))))

/-- LAYER_END (R165, R188 to R191). -/
def execLayerEnd (job : Nat) (s : State) : Result :=
  match s.job job with
  | none => done s
  | some j =>
    if !(s.layerEnded j) then done s
    else
      let s1 := ((s.countLayer j).modJob job (fun x => { x with
        endTime := s.now, endedAt := s.now, phase := .waitWeights, acts := [], actPoison := [], keep := 0, spillHeld := 0, spillAt := [], fills := x.fills.filter (fun f => decide (f.recNo ≠ x.recNo)) })).freeRows job
      done (if j.fallback then
          (if 0 < j.fbLeft then (s1.modJob job (fun x => { x with recNo := x.recNo + 1, fbLeft := x.fbLeft - 1 })).askRows job
           else ((s1.degrade job).followLayer job).settle)
        else (s1.followLayer job).settle)

/-- LAYER_DEADLINE (R187, R188): the moment is the first at which the streamer's clocks differ by DEADLINE_US. -/
def execLayerDeadline (job : Nat) (s : State) : Result :=
  match s.job job with
  | none => done s
  | some j =>
    if j.phase ≠ .waitWeights ∨ j.state ≠ 2 then done s
    else done ((s.until ((j.layerAt / 1000 + (j.record j.layer).deadline) * 1000)).makeLate job)

/-- LATE_WAIT_EXPIRY (R188). -/
def execLateWaitExpiry (job : Nat) (s : State) : Result :=
  match s.job job with
  | none => done s
  | some j =>
    if j.phase ≠ .late then done s
    else done ((s.until (j.lateAt + us * (j.record j.layer).maxWait)).abortJob job 5)

/-- OVERRUN (R191). -/
def execOverrun (job : Nat) (s : State) : Result :=
  match s.job job with
  | none => done s
  | some j =>
    if j.phase = .running ∨ j.phase = .waitPass ∨ j.phase = .chain then done ((s.until (j.layerAt + us * (2 ^ 31 - 1))).abortJob job 12)
    else done s

/-- A collision in a row store, where the broadcast on port A wins over the vat path or a mesh requester, or in one of the row's cluster stores, where the lane array wins over the row-store transfer (R306, R310, R311). The command carries neither the word nor which requester lost (free values, log entry 43). -/
def State.rowCollision (s : State) (row phys : Nat) : State :=
  let (d, u) := s.draw
  let lost := Config.freePlace d % 3
  if lost = 0 then u.collide ⟨0, 64 * row + phys, Config.freePlace d / 3 % 2 ^ 21⟩ .transfer 0
  else u.collide ⟨1, row, Config.freePlace d / 3 % 2 ^ 25⟩ (if lost = 1 then .transfer else .mesh) 0

/-- What the other units see of a row fault (R168, R338): the cluster's page, or the record of an uncorrectable store word, whose place in the store the command does not carry (a free value, log entry 43). A row-store fault that is a collision is recorded as one (R311). -/
def State.faultPages (s : State) (row phys cause : Nat) (collision : Bool) : State :=
  let (d, u) := s.draw
  match cause with
  | 1 =>
    let n := s.word (clsPage row phys) 0x108
    ((s.setWord (clsPage row phys) 0x108 (min 65535 (n + 1))).count (clsPage row phys) 0).err (clsPage row phys) 8
  | 2 => ((u.recordUe 3 0 ((64 * row + phys) * 2 ^ 32 + Config.freePlace d % 2 ^ 21)).count (clsPage row phys) 1).err (clsPage row phys) 9
  | 3 => if collision then s.rowCollision row phys else u.recordUe 4 0 (row * 2 ^ 32 + Config.freePlace d % 2 ^ 25)
  | _ => s

/-- A job's layer became late in this cycle, as a layer on row r ended (R188, R203): it waits, its fallback waits for its rows, or it was aborted for it. -/
def State.lateNow (s : State) (r : Nat) (j : Job) : Bool :=
  j.rows.getLsbD r && decide (nth16 s.pwr.rowIdleAt r = s.now) &&
    (decide (j.phase = .late ∧ j.lateAt = s.now)
      || (j.fallback && decide (j.phase = .waitRows ∧ j.askedAt = s.now ∧ j.endedAt = s.now ∧ j.fbLeft + 1 = (j.record j.layer).fbCount))
      || decide (j.state = 3 ∧ j.cause = 6 ∧ j.endTime = s.now))

/-- A fault governs over a late decision of the same cycle (R203): the job aborts with ROW_FAULT; what the decision set in ERR_STATUS and EVT_CNT4 stays (DESIGN CHOICE, log entry 153). -/
def State.faultGoverns (s : State) (j : Job) (row phys cause : Nat) : State :=
  if j.state = 3 then
    let c := if cause = 3 ∨ cause = 5 then 0 else phys
    (s.recordFault row phys cause).modJob j.id (fun x => { x with cause := 7, faultPhys := c, faultCause := cause, faultRow := row })
  else s.rowFaults j row phys cause

/-- ROW_FAULT (R168, R169): causes 1, 2, 3 and 5; cause 4 where the running layer has such a codebook number. A late decision of the same cycle yields to it (R203). A second member's fault in the same cycle is recorded in its own row (R170); of cause 4, by the cluster the command names, since the weights went with the abort. The same cycle is the time base not having moved since the abort (DESIGN CHOICE, log entry 153). -/
def execRowFault (row : Fin 16) (phys cause : Nat) (s : State) (collision : Bool := false) : Result :=
  let r := row.val
  let p := phys % 34
  match s.lst.jobs.find? (fun j => decide (nth16 s.tns.runBy r = j.id + 1)) with
  | some j =>
    if cause = 1 ∨ cause = 2 ∨ cause = 3 ∨ cause = 5 then done ((s.faultPages r p cause collision).rowFaults j r p cause)
    else if cause = 4 then
      (match s.codebookFault j r with
       | some c => done (s.rowFaults j r c 4)
       | none => done s)
    else done s
  | none =>
    match s.lst.jobs.find? (s.lateNow r) with
    | some j =>
      if cause = 1 ∨ cause = 2 ∨ cause = 3 ∨ cause = 5 ∨ (cause = 4 ∧ (j.record j.lastRecord).wf = 0) then
        done ((s.faultPages r p cause collision).faultGoverns j r p cause)
      else done s
    | none =>
    if (cause = 1 ∨ cause = 2 ∨ cause = 3 ∨ cause = 4 ∨ cause = 5) ∧ s.lst.jobs.any (fun j => decide (j.state = 3 ∧ j.cause = 7 ∧ j.endTime = s.now) && j.rows.getLsbD r
        && (decide (cause ≠ 4) || decide ((j.record j.recNo).wf = 0))) then
      done ((s.faultPages r p cause collision).recordFault r p cause)
    else done s

/-- JOB_ABORT_DONE (R199): issued writes have landed; the window is freed, the report written, the completion posted. A job that has ended and whose report waited writes it now. -/
def execJobAbortDone (job : Nat) (s : State) : Result :=
  match s.job job with
  | none => done (s.reportJob job).settle
  | some j => if j.state = 3 then done ((s.finishJob job 2 j.cause).settle) else done s

end Sys2Proof.Machine
end

