-- ==== Sys2Proof/Machine/Services.lean ====
section
/-! DEFINITION. The resident services (R215 to R225): SVC_CALL, key-value cache sessions, embedding gather-reduce, gradient rounds and surrogate calls. The layout of request blocks is not in the spec: a service command carries its parameters. -/

namespace Sys2Proof.Machine

/-! ### SVC_CALL -/

/-- A service and a function of R216. -/
def serviceKnown (service func : Nat) : Bool :=
  match service with
  | 1 => decide (func < 5)
  | 2 => decide (func < 1)
  | 3 => decide (func < 3)
  | 4 => decide (func < 3)
  | _ => false

/-- SVC_CALL (R215, R216): Shombe reads the request block with the rights of the calling queue's owner; the call then runs as a command of its service. A block read as poisoned, as a refused one is (R42), gives no call: it ends with UNCORRECTABLE (DEDUCED, log entry 70). -/
def execSvcCall (queue seq : Nat) (host : HostLines) (s : State) : Result :=
  done (s.runEntry queue seq 0x50 (fun k e =>
    let (wait, s1) := s.engHoldRun ⟨k.actor, k.cls, some (.svcCall queue seq host), 0⟩ e.a0 64 false
    if wait then s1
    else
      let (l, s2) := s1.engRead k.actor k.cls (e.a0 / 64 * 64) e.a0 host true
      let call : SvcCall := { queue := queue, seq := seq, service := bits e.dw1 0 8, func := bits e.dw1 8 8, block := e.a0, actor := k.actor, cls := k.cls }
      let s3 := s2.modEntry queue seq (fun x => { x with stage := 2 })
      if !(serviceKnown call.service call.func) then s3.endCall queue seq 2 0
      else if l.poison then s3.endCall queue seq 15 0
      else { s3 with svc := { s3.svc with calls := s3.svc.calls ++ [call] } }))

/-- The work of a call, for the command that carries it out. -/
def SvcCall.worker (c : SvcCall) (cmd : Instr) : Worker := ⟨c.actor, c.cls, some cmd, 0⟩

/-- A call that Shombe has received, of the given service and function. -/
def State.callOf (s : State) (q seq service func : Nat) : Option SvcCall :=
  s.svc.calls.find? (fun c => decide (c.queue = q ∧ c.seq = seq ∧ c.service = service ∧ c.func = func))

/-- A key-value call whose turn it is: the oldest of that service (R221); calls of other sessions wait as well, of which R221 does not speak (DESIGN CHOICE, log entry 177). -/
def State.kvTurn (s : State) (q seq func : Nat) : Option SvcCall :=
  match s.svc.calls.find? (fun c => decide (c.service = 1)) with
  | some c => if c.queue = q ∧ c.seq = seq ∧ c.func = func then some c else none
  | none => none

/-- OK, or REFUSED where some access of a call that otherwise completed was refused (R217; its place beside another result is DEDUCED, log entry 70). -/
def okOr (refused : Bool) : Nat := if refused then 5 else 0

/-! ### Bytes written with a mark -/

/-- Bytes written from unified address a upward, each line of them poisoned where bad says so (R212). The Bool says that a write was refused or dropped. Fuel bounds the lines. -/
def State.svcStore (s : State) (actor cls : Nat) (host : HostLines) (bad : Bool) : Nat → Nat → List Byte → Bool × State
  | 0, _, _ => (false, s)
  | fuel + 1, a, l =>
    if l = [] then (false, s)
    else
      let n := min l.length (64 - a % 64)
      let (r, s1) := s.engWrite actor cls (a / 64 * 64) a (List.replicate (a % 64) 0#8 ++ l.take n) (beOf (a % 64) n) bad host true
      let (r2, s2) := s1.svcStore actor cls host bad fuel (a + n) (l.drop n)
      (r || r2, s2)

/-- Bytes written from unified address a upward, marked or not. -/
def State.svcPut (s : State) (c : SvcCall) (a : Nat) (l : List Byte) (bad : Bool) (host : HostLines) : Bool × State :=
  s.svcStore c.actor c.cls host bad (l.length + 1) a l

/-- The engine beside the home of an address. -/
def State.engineAt (s : State) (a : Nat) : Nat := (s.engineFor (a / 16384)).getD (a / 16384 % 16)

/-- A call whose read was uncorrectable ends with UNCORRECTABLE, its output unwritten (R214, R217). -/
def State.callFault (s : State) (c : SvcCall) (out a : Nat) : State := (s.denFault (s.engineAt out) a).endCall c.queue c.seq 15 0

/-! ### Key-value cache -/

/-- The session of a region: the region is valid and was opened (R218). -/
def State.session (s : State) (g : Nat) : Option (Region × KvSession) :=
  let r := s.region g
  if r.valid then (sget none s.svc.kv g).map (fun k => (r, k)) else none

/-- Bytes of an element, of a vector, and of the layout (R218). -/
def KvSession.elem (k : KvSession) : Nat := if k.fmt = 4 then 1 else 2
def KvSession.vec (k : KvSession) : Nat := k.headSize * k.elem
def KvSession.size (k : KvSession) : Nat := 16384 + 2 * k.layers * k.heads * k.capacity * k.vec

/-- Address of the key vector (which 0) or value vector (which 1) of token t, layer l, head h (R218). -/
def KvSession.place (k : KvSession) (base l h t which : Nat) : Nat :=
  base + 16384 + ((2 * (l * k.heads + h) + which) * k.capacity + t) * k.vec

/-- The session parameters R218 allows. -/
def KvSession.ok (k : KvSession) : Bool :=
  decide (1 ≤ k.layers ∧ k.layers ≤ 1024) && decide (1 ≤ k.heads ∧ k.heads ≤ 256) && decide (k.headSize = 64 ∨ k.headSize = 128 ∨ k.headSize = 256)
    && decide (k.fmt = 4 ∨ k.fmt = 7) && decide (1 ≤ k.capacity ∧ k.capacity < 2 ^ 32)

/-- The 64 bytes that hold the parameters, whose arrangement is open. -/
def KvSession.bytes (k : KvSession) : List Byte :=
  (List.range 64).map (Config.kvParamByte k.layers k.heads k.headSize k.fmt k.capacity)

/-- KV_OPEN (R218). The OPEN of a region whose session is open opens it anew, with every token count zero (R218 does not say: DESIGN CHOICE, log entry 177). -/
def execKvOpen (queue seq region layers heads headSize fmt capacity : Nat) (host : HostLines) (s : State) : Result :=
  match s.kvTurn queue seq 0 with
  | none => done s
  | some c =>
    let r := s.region region
    let k : KvSession := { layers := layers, heads := heads, headSize := headSize, fmt := fmt, capacity := capacity }
    if 4096 ≤ region ∨ !r.valid ∨ r.leaseEnd = 0 ∨ !k.ok then done (s.endCall queue seq 2 0)
    else if r.size < k.size then done (s.endCall queue seq 4 0)
    else
      let (wait, s1) := s.engHoldRun (c.worker (.kvOpen queue seq region layers heads headSize fmt capacity host)) r.base (64 + 4 * layers) true
      if wait then done s1
      else
        let (lost, s2) := s1.svcPut c r.base (k.bytes ++ List.replicate (4 * layers) 0#8) false host
        done (({ s2 with svc := { s2.svc with kv := sset none s2.svc.kv region (some k) } }.endCall queue seq (okOr lost) 0).settle)

/-- A call on a layer of a session: NOT_OPEN without a session, BAD_REQUEST beyond its layers, else the session's base, parameters and the layer's token count, once no port holds the count's line against a read of it (R118). A count read as poisoned, as a refused one is, gives no count: UNCORRECTABLE (DEDUCED, log entry 70). -/
def State.kvCall (s : State) (c : SvcCall) (cmd : Instr) (region layer : Nat) (host : HostLines) (f : Nat → KvSession → Nat → State → State) : State :=
  match s.session region with
  | none => s.endCall c.queue c.seq 3 0
  | some (r, k) =>
    if k.layers ≤ layer then s.endCall c.queue c.seq 2 0
    else
      let (wait, s1) := s.engHoldRun (c.worker cmd) (r.base + 64 + 4 * layer) 4 false
      if wait then s1
      else
        let (l, s2) := s1.engBytes c.actor c.cls (r.base + 64 + 4 * layer) 4 host true
        if l.poison then s2.endCall c.queue c.seq 15 0
        else (f r.base k (leNat l.data) s2).settle

/-- Write a layer's token count. -/
def State.kvCount (s : State) (c : SvcCall) (base layer n : Nat) (host : HostLines) : Bool × State :=
  s.svcPut c (base + 64 + 4 * layer) (leBytes 4 n) false host

/-- Copy a vector of n bytes to address a, line by line, with its marks. The Bool says that some access was refused. -/
def State.kvCopy (s : State) (c : SvcCall) (src a n : Nat) (host : HostLines) : Bool × State :=
  (List.range (ceilDiv n 64)).foldl (fun (acc : Bool × State) i =>
    let m := min 64 (n - 64 * i)
    let (l, u) := acc.2.engBytes c.actor c.cls (src + 64 * i) m host true
    let (w, v) := u.svcPut c (a + 64 * i) l.data l.poison host
    (acc.1 || l.refused || w, v)) (false, s)

/-- KV_APPEND (R219): n key and value vectors of each head, laid out by token, head and element, are written at the count. -/
def execKvAppend (queue seq region layer count keyAddr valueAddr : Nat) (host : HostLines) (ue : Option Nat) (s : State) : Result :=
  match s.kvTurn queue seq 1 with
  | none => done s
  | some c =>
    let cmd : Instr := .kvAppend queue seq region layer count keyAddr valueAddr host ue
    done (s.kvCall c cmd region layer host (fun base k at' u =>
      if k.capacity < at' + count then u.endCall queue seq 4 0
      else
        let n := count * k.heads * k.vec
        let spots := (List.range count).flatMap (fun t => (List.range k.heads).map (fun h => (t, h)))
        let (wait, u1) := u.engHoldAll (c.worker cmd) ([(keyAddr, n, false), (valueAddr, n, false), (base + 64 + 4 * layer, 4, true)]
          ++ spots.flatMap (fun p => [(k.place base layer p.2 (at' + p.1) 0, k.vec, true), (k.place base layer p.2 (at' + p.1) 1, k.vec, true)]))
        if wait then u1
        else match ue with
          | some a => u1.callFault c (k.place base layer 0 at' 0) a
          | none =>
            let (bad, u2) := spots.foldl (fun (acc : Bool × State) p =>
              let o := (p.1 * k.heads + p.2) * k.vec
              let (r1, v1) := acc.2.kvCopy c (keyAddr + o) (k.place base layer p.2 (at' + p.1) 0) k.vec host
              let (r2, v2) := v1.kvCopy c (valueAddr + o) (k.place base layer p.2 (at' + p.1) 1) k.vec host
              (acc.1 || r1 || r2, v2)) (false, u1)
            let (lost, u3) := u2.kvCount c base layer (at' + count) host
            u3.endCall queue seq (okOr (bad || lost)) 0))

/-- KV_TRUNCATE (R219): to a count no larger than the current one; any other is a bad request. -/
def execKvTruncate (queue seq region layer count : Nat) (host : HostLines) (s : State) : Result :=
  match s.kvTurn queue seq 3 with
  | none => done s
  | some c =>
    let cmd : Instr := .kvTruncate queue seq region layer count host
    done (s.kvCall c cmd region layer host (fun base _ at' u =>
      if at' < count then u.endCall queue seq 2 0
      else
        let (wait, u0) := u.engHoldRun (c.worker cmd) (base + 64 + 4 * layer) 4 true
        if wait then u0
        else
          let (lost, u1) := u0.kvCount c base layer count host
          u1.endCall queue seq (okOr lost) 0))

/-- KV_CLOSE (R219): the session tile is cleared. -/
def execKvClose (queue seq region : Nat) (host : HostLines) (s : State) : Result :=
  match s.kvTurn queue seq 4 with
  | none => done s
  | some c =>
    match s.session region with
    | none => done (s.endCall queue seq 3 0)
    | some (r, _) =>
      let (wait, s1) := s.engHoldRun (c.worker (.kvClose queue seq region host)) r.base 16384 true
      if wait then done s1
      else
        let (lost, s2) := s1.svcPut c r.base (List.replicate 16384 0#8) false host
        done (({ s2 with svc := { s2.svc with kv := sset none s2.svc.kv region none } }.endCall queue seq (okOr lost) 0).settle)

/-- The FP32 patterns of a vector of elements: format E4M3 or BF16 widened exactly. -/
def kvElems (fmt : Nat) (l : List Byte) : List Nat :=
  (chunks (if fmt = 4 then 1 else 2) (l.length / (if fmt = 4 then 1 else 2)) l).map (fun b => fmtFP32.pattern false ((codeFmt fmt).value (leNat b)))

/-- The FP32 dot product, added in element order from +0. -/
def dotF32 (a b : List Nat) : Nat := (a.zip b).foldl (fun acc p => addF32 acc (fmtFP32.mulP p.1 p.2)) 0

/-- Larger of two FP32 patterns, a NaN over all. -/
def maxF32 (a b : Nat) : Nat := combineF fmtFP32 2 a b

/-- a − b in FP32. -/
def subF32 (a b : Nat) : Nat := addF32 a (if b.testBit 31 then b - 2 ^ 31 else b + 2 ^ 31)

/-- The attention output of one head (R220): scores of the tokens, their maximum, the weights exp(s − m), and the weighted sum of values over the sum of weights, the terms added in the order of R211. kv holds each token's key and value and the value's place in the order of arrival. -/
def attend (scale : Nat) (q : List Nat) (kv : List (Nat × List Nat × List Nat)) : List Nat :=
  if kv = [] then q.map (fun _ => 0)
  else
    let scored := kv.map (fun p => (p.1, (fmtFP32.mulP scale (dotF32 q p.2.1), p.2.2)))
    let m := match scored.map (fun p => p.2.1) with
      | [] => 0
      | x :: rest => rest.foldl maxF32 x
    let terms := byRank (scored.map (fun p => (p.1, ((Config.expF32 (BitVec.ofNat 32 (subF32 p.2.1 m))).toNat, p.2.2))))
    let total := terms.foldl (fun acc p => addF32 acc p.1) 0
    (List.range q.length).map (fun j => divF32 (terms.foldl (fun acc p => addF32 acc (fmtFP32.mulP p.1 (p.2.getD j 0))) 0) total)

/-- KV_ATTEND (R220, R221): one query token of G heads in the session's element format; each head's output goes to the output address as FP32, poisoned where the query, or a key or value line it read, was. While every engine is in hold it waits (R365). -/
def execKvAttend (queue seq region layer groups scale queryAddr outAddr : Nat) (host : HostLines) (ue : Option Nat) (s : State) : Result :=
  match s.kvTurn queue seq 2 with
  | none => done s
  | some c =>
    let cmd : Instr := .kvAttend queue seq region layer groups scale queryAddr outAddr host ue
    done (s.kvCall c cmd region layer host (fun base k at' u =>
      if groups = 0 ∨ groups % k.heads ≠ 0 then u.endCall queue seq 2 0
      else if u.enginesHeld then u
      else
        let (wait, u1) := u.engHoldAll (c.worker cmd) ([(queryAddr, groups * k.vec, false), (outAddr, 4 * groups * k.headSize, true)]
          ++ (List.range k.heads).flatMap (fun h => [(k.place base layer h 0 0, at' * k.vec, false), (k.place base layer h 0 1, at' * k.vec, false)]))
        if wait then u1
        else match ue with
          | some a => u1.callFault c outAddr a
          | none =>
            let (bad, u2) := (List.range groups).foldl (fun (acc : Bool × State) g =>
              let h := g / (groups / k.heads)
              let (q, v0) := acc.2.engBytes c.actor c.cls (queryAddr + g * k.vec) k.vec host true
              let (kv, refused, poison, v1) := (List.range at').foldl (fun (b : List (Nat × List Nat × List Nat) × Bool × Bool × State) t =>
                let (x, w1) := b.2.2.2.engBytes c.actor c.cls (k.place base layer h t 0) k.vec host true
                let (y, w2) := w1.engBytes c.actor c.cls (k.place base layer h t 1) k.vec host true
                (b.1 ++ [(u.arrival (k.place base layer h t 1), kvElems k.fmt x.data, kvElems k.fmt y.data)], b.2.1 || x.refused || y.refused, b.2.2.1 || x.poison || y.poison, w2))
                ([], q.refused, q.poison && decide (0 < at'), v0)
              let out := attend scale (kvElems k.fmt q.data) kv
              let (w, v2) := v1.svcPut c (outAddr + 4 * g * k.headSize) (out.flatMap (leBytes 4)) poison host
              (acc.1 || refused || w, v2)) (false, u1)
            u2.endCall queue seq (okOr bad) 0))

/-! ### Embedding -/

/-- Little-endian 32-bit words. -/
def words32 (l : List Byte) : List Nat := (chunks 4 (l.length / 4) l).map leNat

/-- The output of a bag for a run of elements (R222): the rows added in list order in FP32, divided for the mean by their number. -/
def bagElems (mean : Bool) (width : Nat) (rows : List (List Nat)) : List Nat :=
  (List.range width).map (fun j =>
    let total := match rows with
      | [] => 0
      | r :: rest => rest.foldl (fun acc x => addF32 acc (x.getD j 0)) (r.getD j 0)
    if mean && decide (rows ≠ []) then divF32 total (fmtFP32.pattern false (.fin false rows.length 0)) else total)

/-- GATHER (R222). An index beyond the table contributes nothing and is counted: the call completes with INDEX_RANGE, whatever was refused besides. Offsets that fall, or a mode or format not named, are a bad request (DEDUCED, log entry 79); offsets or indices read as poisoned, as refused ones are, give no bags: UNCORRECTABLE (DEDUCED, log entry 70). -/
def execGather (queue seq table rows width fmt indices offsets bags mode out : Nat) (host : HostLines) (ue : Option Nat) (s : State) : Result :=
  match s.callOf queue seq 2 0 with
  | none => done s
  | some c =>
    if width = 0 ∨ 2 ≤ mode ∨ (fmt ≠ 7 ∧ fmt ≠ 9) then done (s.endCall queue seq 2 0)
    else
      let e := if fmt = 7 then 2 else 4
      let work := c.worker (.gather queue seq table rows width fmt indices offsets bags mode out host ue)
      let (w0, s0) := s.engHoldRun work offsets (4 * (bags + 1)) false
      if w0 then done s0
      else
        let (o, s1) := s0.engBytes c.actor c.cls offsets (4 * (bags + 1)) host true
        let offs := words32 o.data
        let last := offs.getD bags 0
        let falls := (List.range bags).any (fun b => decide (offs.getD (b + 1) 0 < offs.getD b 0))
        if o.poison then done (s1.endCall queue seq 15 0)
        else if falls then done (s1.endCall queue seq 2 0)
        else
          let (w2, s2) := s1.engHoldRun work indices (4 * last) false
          if w2 then done s2
          else
            let (x, s3) := s2.engBytes c.actor c.cls indices (4 * last) host true
            let idx := words32 x.data
            let bag (b : Nat) : List Nat := ((idx.drop (offs.getD b 0)).take (offs.getD (b + 1) 0 - offs.getD b 0)).filter (fun i => decide (i < rows))
            let used := ((List.range bags).flatMap bag).dedup
            let (w4, s4) := s3.engHoldAll work ((out, 4 * bags * width, true) :: used.map (fun i => (table + i * width * e, width * e, false)))
            if x.poison then done (s3.endCall queue seq 15 0)
            else if w4 then done s4
            else match ue with
              | some a => done (s4.callFault c out a)
              | none =>
                let (bad, s5) := (List.range bags).foldl (fun (acc : Bool × State) b =>
                  (List.range (ceilDiv width 16)).foldl (fun (acc : Bool × State) p =>
                    let n := min 16 (width - 16 * p)
                    let (vals, refused, poison, v) := (bag b).foldl (fun (a : List (List Nat) × Bool × Bool × State) i =>
                      let (l, w) := a.2.2.2.engBytes c.actor c.cls (table + (i * width + 16 * p) * e) (n * e) host true
                      (a.1 ++ [(chunks e (l.data.length / e) l.data).map (fun y => fmtFP32.pattern false ((codeFmt fmt).value (leNat y)))], a.2.1 || l.refused, a.2.2.1 || l.poison, w))
                      ([], false, false, acc.2)
                    let (lost, v1) := v.svcPut c (out + 4 * (b * width + 16 * p)) ((bagElems (decide (mode = 1)) n vals).flatMap (leBytes 4)) poison host
                    (acc.1 || refused || lost, v1)) acc) (false, s4)
                let beyond := ((idx.take last).drop (offs.getD 0 0)).filter (fun i => decide (rows ≤ i))
                let result := if beyond ≠ [] then 6 else okOr bad
                done ((s5.endCall queue seq result (if result = 6 then beyond.length else 0)).settle)

/-! ### Gradient groups -/

/-- Bytes of an element by the TYPE codes of R207: 1 FP64, 2 FP32, 3 BF16. -/
def groupElem (fmt : Nat) : Nat := typeBytes fmt

/-- GROUP_OPEN (R223). -/
def execGroupOpen (queue seq group mask fmt count region offset mode timeoutUs : Nat) (s : State) : Result :=
  match s.callOf queue seq 3 0 with
  | none => done s
  | some _ =>
    let r := s.region region
    let bad : Bool := decide (64 ≤ group) || decide (mask = 0) || decide (64 ≤ mask) || !(decide (1 ≤ fmt ∧ fmt ≤ 3)) || decide (count = 0)
      || decide (4096 ≤ region) || !r.valid || decide (r.kind ≠ 2) || decide (offset % groupElem fmt ≠ 0) || decide (r.size < offset + count * groupElem fmt)
      || decide (2 ≤ mode) || decide (timeoutUs = 0) || decide (10000000 < timeoutUs)
    if bad then done (s.endCall queue seq 2 0)
    else if (s.group group).isOpen then done (s.endCall queue seq 14 0)
    else
      let x : Group := { isOpen := true, mask := BitVec.ofNat 6 mask, fmt := fmt, count := count, region := region, offset := offset,
                         mean := decide (mode = 1), timeoutUs := timeoutUs }
      done ((s.setGroup group x).endCall queue seq 0 0)

/-- The FP64 nearest 1 / n (R223). -/
def recipF64 (n : Nat) : Nat :=
  fmtFP64.pattern false (.fin false (2 * (2 ^ 120 / n) + (if 2 ^ 120 % n = 0 then 0 else 1)) (-121))

/-- The ports of a group's mask. -/
def Group.members (x : Group) : Nat := ((List.range 6).filter (fun p => x.mask.getLsbD p)).length

/-- The REDUCE that Shombe issues for a round that has closed (R206, R223): its sources the contributions in order of arrival. -/
def Group.desc (x : Group) (dst : Nat) : Desc :=
  { op := 3, typ := x.fmt, scale := x.mean, srcLess1 := x.parts.length - 1, list := true, length := x.count * groupElem x.fmt, dst := dst,
    imm := if x.mean then recipF64 x.members else 0, srcs := x.parts.map (fun c => c.addr) }

/-- The class of Shombe's own work: that of bulk queue work, resident services among it (R19, R205; DEDUCED, log entry 168). -/
def shombeClass : Nat := 2

/-- One line of a unit of the round's REDUCE on engine e (R210 to R212, R223): each contribution read with its owner's rights, the sum or mean written into the internal writer's draft. The Bool says that some access was refused or dropped. -/
def State.roundLine (s : State) (x : Group) (d : Desc) (e : Nat) (host : HostLines) (l : Nat × Nat × Nat) : Bool × State :=
  let k0 := l.1 + l.2.1 - d.dst
  let (srcs, s1) := x.parts.foldl (fun (acc : List (Nat × LineIn) × State) c =>
    let (li, v) := acc.2.engBytes c.port shombeClass (c.addr + k0) l.2.2 host true
    (acc.1 ++ [(c.addr + k0, li)], v.add64 (denPage e) 0x128 l.2.2)) ([], s)
  let (bytes, poison, s2) := s1.reduceBytes d e l.2.2 srcs
  let (lost, s3) := s2.engWrite internal shombeClass l.1 (l.1 + l.2.1) (List.replicate l.2.1 0#8 ++ bytes) (beOf l.2.1 l.2.2) poison host true
  let refused := lost || srcs.any (fun p => p.2.refused)
  let s4 := if poison && !lost then (s3.count (denPage e) 4).err (denPage e) 10 else s3
  (refused, if refused then s4.err (denPage e) 9 else s4)

/-- One unit of the round's REDUCE, on the engine that R205 gives it, once that is awake (R362); its clock takes a step at the unit's end (R364). -/
def State.roundUnit (s : State) (x : Group) (d : Desc) (host : HostLines) (u : Nat) : Bool × State :=
  let e := (s.engineFor (d.dst / 16384 + u)).getD 0
  let s1 := (s.wakeDen e).until (nth16 (s.wakeDen e).pwr.denWakeAt e)
  let (bad, s2) := (d.unitLines u).foldl (fun (acc : Bool × State) l =>
    let (r, v) := acc.2.roundLine x d e host l
    (acc.1 || r, v)) (false, s1)
  (bad, ({ s2 with pwr := { s2.pwr with denIdleAt := s2.pwr.denIdleAt.set! e s2.now } }).denLevel e)

/-- An engine that admits units and is not in hold awaits each unit of a descriptor (R205, R365). -/
def State.enginesReady (s : State) (d : Desc) : Bool :=
  (List.range d.units).all (fun u => match s.engineFor (d.dst / 16384 + u) with | some e => !(s.rowHeld e) | none => false)

/-- The service result of a publication's status (R223): OK, CONFLICT, STALE, JUMP, DUPLICATE; FULL for a broken draft, BAD_REQUEST for a region that has ended. -/
def publishResult (status : Nat) (refused : Bool) : Nat :=
  match status with
  | 0 => okOr refused
  | 19 => 9
  | 20 => 10
  | 21 => 11
  | 22 => 12
  | 23 => 4
  | _ => 2

/-- The round of a group closes, where every member has contributed (R223): the reduction on the data engines, unit by unit, the publication, and the completions. It waits for lines a port holds, for engines that admit, and for a fold. A destination that overlaps a contribution is BAD_DESCRIPTOR (R208), which ends the round with BAD_REQUEST (DEDUCED, log entry 168). ue is the address of a line found uncorrectable. -/
def State.closeRound (s : State) (g : Nat) (cmd : Instr) (host : HostLines) (ue : Option Nat) : State :=
  let x := s.group g
  if !x.full then s
  else
    let d := x.desc ((s.region x.region).base + x.offset)
    let e := s.descEngine d
    let (wait, s1) := s.holdWork cmd (x.parts.map (fun c => (c.port, shombeClass, c.addr, d.length, false)))
    if wait ∨ s1.publishWaits x.region ∨ !(s1.enginesReady d) then s1
    else match ue with
      | some a => ((s1.denFault e a).count (denPage e) 1).endRound g 15
      | none =>
        if (s1.editionCheck x.region internal).isSome then s1.endRound g 2
        else if d.badSources then (s1.count (denPage e) 1).endRound g 2
        else
          let (bad, s2) := (List.range d.units).foldl (fun (acc : Bool × State) u =>
            let (r, v) := acc.2.roundUnit x d host u
            (acc.1 || r, v)) (false, s1)
          let (st, s3) := (s2.count (denPage e) 0).publish x.region internal (x.round.getD 0)
          s3.endRound g (publishResult st bad)

/-- CONTRIBUTE (R223, R224). To a group that is not open it ends with NOT_OPEN, and by a caller outside the port mask, or with a misaligned address, with BAD_REQUEST, results that R223 does not name (DESIGN CHOICE, log entry 177). A call that is a part of a full round whose end waited is looked at again. -/
def execContribute (queue seq group edition addr : Nat) (host : HostLines) (ue : Option Nat) (s : State) : Result :=
  match s.callOf queue seq 3 1 with
  | none => done s
  | some c =>
    let x := s.group group
    let cmd : Instr := .contribute queue seq group edition addr host ue
    if x.parts.any (fun p => decide (p.queue = queue ∧ p.seq = seq)) then done ((s.closeRound group cmd host ue).settle)
    else if x.later.any (fun p => decide (p.queue = queue ∧ p.seq = seq)) then done s
    else if 64 ≤ group ∨ !x.isOpen then done (s.endCall queue seq 3 0)
    else if 6 ≤ c.actor ∨ !(x.mask.getLsbD c.actor) ∨ addr % groupElem x.fmt ≠ 0 ∨ 2 ^ 32 ≤ edition then done (s.endCall queue seq 2 0)
    else
      let s1 := s.contributeTo group { queue := queue, seq := seq, port := c.actor, cls := c.cls, addr := addr, edition := edition }
      done ((s1.closeRound group cmd host ue).settle)

/-- GROUP_CLOSE (R224): an open round ends with MEMBER_LOST, contributions that waited find no group. A round that has closed and still waits for its reduction ends first (R223; DEDUCED, log entry 168). -/
def execGroupClose (queue seq group : Nat) (s : State) : Result :=
  match s.callOf queue seq 3 2 with
  | none => done s
  | some _ =>
    let x := s.group group
    if 64 ≤ group ∨ !x.isOpen then done (s.endCall queue seq 3 0)
    else if x.full then done s
    else
      let s1 := x.later.foldl (fun u c => u.endCall c.queue c.seq 3 0) (s.setGroup group { x with later := [] })
      done (((s1.endRound group 8).setGroup group {}).endCall queue seq 0 0)

/-- ROUND_TIMEOUT (R224): the timeout of an open round that has not closed has passed. -/
def execRoundTimeout (group : Nat) (s : State) : Result :=
  let x := s.group group
  if x.isOpen && x.round.isSome && !x.full then done ((s.until (x.openedAt + us * x.timeoutUs)).endRound group 7)
  else done s

/-! ### Surrogate calls -/

/-- MODEL_LOAD (R225): a handle that is loaded gives BUSY. -/
def execModelLoad (queue seq handle header : Nat) (s : State) : Result :=
  match s.callOf queue seq 4 0 with
  | none => done s
  | some _ =>
    if 256 ≤ handle ∨ header % 128 ≠ 0 then done (s.endCall queue seq 2 0)
    else if (s.model handle).loaded then done (s.endCall queue seq 14 0)
    else done ((s.setModel handle { loaded := true, header := header }).endCall queue seq 0 0)

/-- The header and records of a chain, read with a call's rights. -/
def State.readChain (s : State) (c : SvcCall) (header : Nat) (host : HostLines) : LineIn × State :=
  let (h, s1) := s.engBytes c.actor c.cls header 128 host true
  let (l, s2) := s1.engBytes c.actor c.cls (header + 128) (128 * (headOf (Memory.store [] 0 h.data)).count) host true
  ({ data := h.data ++ l.data, poison := h.poison || l.poison, refused := h.refused || l.refused }, s2)

/-- The activation set that a call's input is copied into: its chain's first layer's, where the chain can be read (R225). -/
def inputSet (chain : LineIn) : Option LayerRec :=
  let m := Memory.store [] 0 chain.data
  if chain.poison then none else ((List.range (headOf m).count).map (fun i => recOf m (i + 1))).find? (fun r => decide (r.kind = 1))

/-- Copy the input of a call into the activation set of its chain's first layer (R225). -/
def State.copyInput (s : State) (c : SvcCall) (chain : LineIn) (input : Nat) (host : HostLines) : Bool × State :=
  match inputSet chain with
  | none => (false, s)
  | some r => s.kvCopy c input r.aAddr (16384 * r.actTiles) host

/-- A call meets the lines it reads and writes at its start (R118): the chain's header, then its records, then the input and the set it goes to. -/
def State.holdCall (s : State) (c : SvcCall) (cmd : Instr) (header input : Nat) (host : HostLines) : Bool × State :=
  let (w0, s0) := s.engHoldRun (c.worker cmd) header 128 false
  if w0 then (true, s0)
  else
    let head := headOf (Memory.store [] 0 (s0.engBytes c.actor c.cls header 128 host false).1.data)
    let (w1, s1) := s0.engHoldRun (c.worker cmd) header (128 * (head.count + 1)) false
    if w1 then (true, s1)
    else match inputSet (s1.readChain c header host).1 with
      | none => (false, s1)
      | some r => s1.engHoldAll (c.worker cmd) [(input, 16384 * r.actTiles, false), (r.aAddr, 16384 * r.actTiles, true)]

/-- The end of a surrogate call whose job has completed (R225): the last layer's result set is copied to the output. -/
def State.finishCall (s : State) (c : SvcCall) (cmd : Instr) (h : Nat) (m : Model) (j : Job) (output : Nat) (host : HostLines) : State :=
  let last := (j.records.filter (fun e => decide (e.2.kind = 1))).foldl (fun _ e => e.2) (j.record 1)
  let n := 16384 * last.outTiles
  let (wait, s1) := s.engHoldAll (c.worker cmd) [(last.out, n, false), (output, n, true)]
  if wait then s1
  else
    let (bad, s2) := s1.kvCopy c last.out output n host
    let result := if j.outcome = 1 then 1 else okOr (bad || j.refused || m.inputRefused)
    ((s2.setModel h { m with running := none, ended := none, inputRefused := false }).endCall c.queue c.seq result (if j.outcome = 1 then j.degraded else 0)).nextCall h

/-- Shombe's JOB_SUBMIT of a chain, naming the calling queue in the proxy field where a port's function owns it (R225, R269). -/
def proxyEntry (k : Queue) (queue cid header : Nat) : List Byte :=
  padTo 64 (leBytes 4 (0x20 + cid % 65536 * 2 ^ 16) ++ leBytes 4 (if k.ownKind = 1 then queue + 2 ^ 16 else 0) ++ leBytes 8 header)

/-- The queues of the control cores, which run Shombe (R225, R260). -/
def State.shombeQueues (s : State) : List Nat := s.ownQueues 2 (fun _ => true)

/-- Shombe puts the JOB_SUBMIT of a handle's call into a queue of its own; while none takes an entry it waits (R225). -/
def State.submitCall (s : State) (c : SvcCall) (h : Nat) (cmd : Instr) : State :=
  match s.pickQueue s.shombeQueues with
  | (none, _) => s
  | (some q, s1) =>
    match s1.submit (some cmd) q (fun cid => proxyEntry (s1.queue c.queue) c.queue cid (s1.model h).header) with
    | (some cid, u) => u.setModel h { u.model h with entry := some (q, cid) }
    | (none, u) => u

/-- The start of a surrogate call (R225): the input is copied, and the chain is submitted on Shombe's own queue with the calling queue's rights and class. Where no control core owns a queue, the streamer takes the job without one (DESIGN CHOICE, log entry 165). -/
def State.startCall (s : State) (c : SvcCall) (h : Nat) (m : Model) (cmd : Instr) (input output : Nat) (host : HostLines) : State :=
  let (chain, s1) := s.readChain c m.header host
  let (bad, s2) := s1.copyInput c chain input host
  let m1 : Model := { m with waiting := m.waiting.drop 1, running := some (c.queue, c.seq, output, s2.lst.nextJob), inputRefused := bad || chain.refused }
  if s2.shombeQueues = [] then
    let head := chain.data.take 128
    let j : Job := { id := s2.lst.nextJob, queue := shombeQueue, seq := c.seq, cid := 0, actor := c.actor, cls := c.cls, ownKind := 2, ownId := 0,
                     hdrAddr := m.header, chain := if chain.poison then [] else Memory.store [] 0 head, refused := chain.refused }
    let s3 := (s2.setModel h m1).acceptJob j
    if j.head.ok then s3 else s3.finishJob j.id 3 1
  else (s2.setModel h { m1 with entry := some (65536, 0) }).submitCall c h cmd

/-- A CALL whose handle Shombe knows: it waits for the handle, or runs. -/
def State.callKnown (s : State) (c : SvcCall) : Bool :=
  s.svc.models.any (fun e => e.2.waiting.any (fun w => decide (w.1 = c.queue ∧ w.2.1 = c.seq))
    || (match e.2.running with | some (q, n, _, _) => decide (q = c.queue ∧ n = c.seq) | none => false))

/-- Every CALL that Shombe received before this one has had its handle read, so that calls wait for their handles in the order of their SVC_CALLs (R225). -/
def State.callsBefore (s : State) (c : SvcCall) : Bool :=
  (s.svc.calls.takeWhile (fun y => !(decide (y.queue = c.queue ∧ y.seq = c.seq)))).all (fun y => !(decide (y.service = 4 ∧ y.func = 1)) || s.callKnown y)

/-- CALL (R225): calls on a handle run one at a time in the order in which Shombe received them; a call whose job has completed ends. -/
def execCall (queue seq handle input output : Nat) (host : HostLines) (s : State) : Result :=
  match s.callOf queue seq 4 1 with
  | none => done s
  | some c =>
    let m := s.model handle
    let cmd : Instr := .call queue seq handle input output host
    let mine : Nat × Nat × Nat × Nat := (queue, seq, input, output)
    let known := m.waiting.any (fun w => decide (w.1 = queue ∧ w.2.1 = seq))
    let m1 : Model := if known then m else { m with waiting := m.waiting ++ [mine] }
    let turn : Bool := match m1.waiting with | w :: _ => decide (w.1 = queue ∧ w.2.1 = seq) | [] => false
    if !(s.callsBefore c) then done s
    else if 256 ≤ handle ∨ !m.loaded then done (s.endCall queue seq 3 0)
    else match m.running, m.ended with
      | some (q, n, out, _), some j => if q = queue ∧ n = seq then done ((s.finishCall c cmd handle m j out host).settle) else done (s.setModel handle m1)
      | some (q, n, _, _), none =>
        if q = queue ∧ n = seq then done (if m.entry = some (65536, 0) then (s.submitCall c handle cmd).settle else s) else done (s.setModel handle m1)
      | none, _ =>
        if !turn ∨ 1024 ≤ s.queued.length ∨ m.unload.isSome then done (s.setModel handle m1)
        else
          let (wait, s1) := s.holdCall c cmd m.header input host
          if wait then done (s1.setModel handle m1) else done ((s1.startCall c handle m1 cmd input output host).settle)

/-- MODEL_UNLOAD (R225): it waits for the handle's running call to end. -/
def execModelUnload (queue seq handle : Nat) (s : State) : Result :=
  match s.callOf queue seq 4 2 with
  | none => done s
  | some _ =>
    let m := s.model handle
    if 256 ≤ handle ∨ !m.loaded then done (s.endCall queue seq 3 0)
    else match m.running, m.unload with
      | some _, none => done (s.setModel handle { m with unload := some (queue, seq) })
      | some _, some _ => done s
      | none, _ => done ((s.setModel handle {}).endCall queue seq 0 0)

end Sys2Proof.Machine
end

