-- ==== Sys2Proof/Machine/PortSpace.lean ====
section
/-! DEFINITION. What a port's function shows over CXL.io besides the register pages (R226, R232 to R236, R238, R241, R251, R253, R255, R256): its configuration space, and BAR4 with the MSI-X table, the PBA, the CXL component registers and the CXL device registers. The spec gives the fields and, of the capability list, the offsets; the places of the fields within a structure are those of PCI Express and CXL (PRESUMED, log entry 169), and where a structure stands within the component and device registers is the model's (DESIGN CHOICE, log entry 170). A word of which the spec says nothing is a free value. -/

namespace Sys2Proof.Machine

/-- UP of PRT_LINK (R226). -/
def State.linkUp (s : State) (p : Port) : Bool := decide (s.field (prtPage p) 0x100 0 1 = 1)

/-- Sizes of the three BARs (R235). -/
def barSize (n : Fin 3) : Nat := [2 ^ 24, 2 ^ 19, 2 ^ 18].getD n.val 0

/-- Device ID by the number of fitted packages (R232). -/
def State.deviceId (s : State) : Nat := if s.order.packages = 48 then 0x7A30 else 0x7A15

/-- An extended capability's header: its identifier, its version, where the next one stands (R233). -/
def extCap (id ver next : Nat) : Nat := id + ver * 2 ^ 16 + next * 2 ^ 20

/-- The link speed that PCI Express numbers, for a RATE code (R226). -/
def linkSpeed (rate : Nat) : Nat := if rate ≤ 1 then rate else rate + 1

/-- A flag as a bit at a place. -/
def flagAt (b : Bool) (place : Nat) : Nat := if b then 2 ^ place else 0

/-- The uncorrectable-error status of AER (R243, R245, R278): the advisory events, and what was fatal. -/
def PortState.aerStatus (q : PortState) : Nat :=
  flagAt (q.aer.getLsbD 4) 4 + flagAt (q.aer.getLsbD 1) 12 + flagAt (q.aer.getLsbD 2) 14 + flagAt (q.aer.getLsbD 3) 16 + flagAt (q.aer.getLsbD 6) 18
    + flagAt (q.aer.getLsbD 5) 20 + flagAt (q.aer.getLsbD 0) 22 + flagAt (q.aer.getLsbD 7) 28

/-- The header and the PCI-compatible capabilities (R232 to R235, R251, R252): offset and word. -/
def State.headerWords (s : State) (p : Port) : List (Nat × Nat) :=
  let q := s.port p
  let bar (n : Fin 3) : List (Nat × Nat) := [(0x10 + 8 * n.val, q.bars[n] % 2 ^ 32 + 4), (0x14 + 8 * n.val, q.bars[n] / 2 ^ 32)]
  let link := prtPage p
  [(0x000, 0x1E7A + s.deviceId * 2 ^ 16),
   (0x004, flagAt q.memEnable 1 + flagAt q.bme 2 + flagAt q.intxDisable 10 + flagAt (s.intxAny p) 19 + 2 ^ 20),
   (0x008, 0x01 + 0x050210 * 2 ^ 8), (0x00C, 0)] ++ bar 0 ++ bar 1 ++ bar 2 ++
  [(0x028, 0), (0x02C, 0x1E7A + p.val * 2 ^ 16), (0x030, 0), (0x034, 0x40), (0x03C, 1 * 2 ^ 8),
   (0x040, 0x01 + 0x50 * 2 ^ 8 + 3 * 2 ^ 16), (0x044, (if q.d3hot then 3 else 0) + 2 ^ 3),
   (0x050, 0x10 + 0xB0 * 2 ^ 8 + (2 + 2 ^ 15) * 2 ^ 16), (0x054, 2 + 2 ^ 15),
   (0x058, (Nat.log2 q.mps - 7) * 2 ^ 5 + (Nat.log2 q.mrrs - 7) * 2 ^ 12),
   (0x05C, 7 + 16 * 2 ^ 4 + p.val * 2 ^ 24), (0x060, (linkSpeed (s.field link 0x100 1 3)) * 2 ^ 16 + 8 * s.field link 0x100 4 2 * 2 ^ 20),
   (0x074, 0), (0x078, setBits (Config.spaceWord 0x078).toNat 8 2 0), (0x07C, 0xFA),
   (0x0B0, 0x11 + 2047 * 2 ^ 16 + flagAt q.funcMask 30 + flagAt q.msixEnable 31), (0x0B4, 4), (0x0B8, 0x8000 + 4)]

/-- The extended capabilities (R233, R236, R245, R253, R255, R256): offset and word. AER's severities are fixed, fatal for the causes 1 to 5 of R245 and advisory non-fatal for the rest; the IDE capability offers one selective stream with one address association block, PCRC and IDE_KM. -/
def State.extendedWords (s : State) (p : Port) : List (Nat × Nat) :=
  let q := s.port p
  let bytes := 2 ^ 30 * s.rangeGib
  [(0x100, extCap 0x0001 2 0x150), (0x104, q.aerStatus), (0x10C, 2 ^ 4 + 2 ^ 13 + 2 ^ 17 + 2 ^ 18 + 2 ^ 22 + 2 ^ 28),
   (0x110, flagAt (q.aer.getLsbD 1 || q.aer.getLsbD 2 || q.aer.getLsbD 3 || q.aer.getLsbD 5) 13),
   (0x150, extCap 0x0003 1 0x160), (0x154, s.tru.serial % 2 ^ 32), (0x158, s.tru.serial / 2 ^ 32),
   (0x160, extCap 0x0019 1 0x1B0), (0x1B0, extCap 0x0026 1 0x200), (0x200, extCap 0x002A 1 0x240), (0x240, extCap 0x0031 1 0x260),
   (0x260, extCap ((Config.spaceWord 0x260).toNat % 2 ^ 16) 1 0x280),
   (0x280, extCap 0x002E 2 0x2A0), (0x28C, flagAt q.doeError 2),
   (0x2A0, extCap 0x001F 1 0x2B0), (0x2A4, 1 + 1 * 2 ^ 8), (0x2A8, flagAt q.ptmEnable 0),
   (0x2B0, extCap 0x0030 1 0x400), (0x2B4, 2 ^ 1 + 2 ^ 5 + 2 ^ 6), (0x2BC, 1),
   (0x400, extCap 0x0023 1 0x440), (0x404, 0x1E98 + 3 * 2 ^ 16 + 0x3C * 2 ^ 20), (0x408, 0 + (2 ^ 1 + 2 ^ 2 + 1 * 2 ^ 4) * 2 ^ 16),
   (0x418, bytes / 2 ^ 32), (0x41C, 1 + flagAt (s.portIsReady p && decide (s.field 0x003 0x100 0 4 ≠ 9)) 1 + bytes % 2 ^ 32 / 2 ^ 28 * 2 ^ 28),
   (0x420, 0), (0x424, 0),
   (0x440, extCap 0x0023 1 0x460), (0x444, 0x1E98 + 3 * 2 ^ 16 + 0x20 * 2 ^ 20), (0x448, 7 + (2 ^ 1 + 2 ^ 2) * 2 ^ 16),
   (0x460, extCap 0x0023 1 0), (0x464, 0x1E98 + 0 * 2 ^ 16 + 0x20 * 2 ^ 20), (0x468, 8),
   (0x46C, 4 + 1 * 2 ^ 8 + 0x1 * 2 ^ 16), (0x470, 0), (0x474, 4 + 3 * 2 ^ 8 + 0x3 * 2 ^ 16), (0x478, 0)]

/-- The value at an offset of a table of words, else the free value given. -/
def wordAt (l : List (Nat × Nat)) (off free : Nat) : Nat :=
  match l.find? (fun e => decide (e.1 = off)) with
  | some e => e.2 % 2 ^ 32
  | none => free

/-- A word of configuration space. -/
def State.configWord (s : State) (p : Port) (off : Nat) : Nat :=
  wordAt (s.headerWords p ++ s.extendedWords p) off (Config.spaceWord off).toNat

/-- The words of an HDM decoder from its place: base, size, control, DPA skip (R238). -/
def Decoder.words (d : Decoder) (at' : Nat) : List (Nat × Nat) :=
  [(at', d.base % 2 ^ 32), (at' + 4, d.base / 2 ^ 32), (at' + 8, d.size % 2 ^ 32), (at' + 0xC, d.size / 2 ^ 32),
   (at' + 0x10, d.ig + d.iw * 2 ^ 4 + flagAt d.lock 8 + flagAt d.committed 9 + flagAt d.committed 10 + flagAt d.error 11 + flagAt d.hdmH 12),
   (at' + 0x14, d.skip % 2 ^ 32), (at' + 0x18, d.skip / 2 ^ 32)]

/-- The CXL component registers from BAR4 + 0x1_1000 (R236, R238, R241): the list of capability structures (HDM Decoder, RAS, BI Decoder, Link and IDE), the HDM decoders and the BI decoder. -/
def State.componentWords (s : State) (p : Port) : List (Nat × Nat) :=
  let q := s.port p
  [(0x11000, 1 + 1 * 2 ^ 16 + 1 * 2 ^ 20 + 5 * 2 ^ 24), (0x11004, 5 + 1 * 2 ^ 16 + 0x100 * 2 ^ 20), (0x11008, 2 + 1 * 2 ^ 16 + 0x200 * 2 ^ 20),
   (0x1100C, 12 + 1 * 2 ^ 16 + 0x300 * 2 ^ 20), (0x11010, 4 + 1 * 2 ^ 16 + 0x340 * 2 ^ 20), (0x11014, 7 + 1 * 2 ^ 16 + 0x380 * 2 ^ 20),
   (0x11100, 2), (0x11304, flagAt q.biEnable 0 + q.biId * 2 ^ 4)]
    ++ (q.decoders.toList.zipIdx).flatMap (fun e => e.1.words (0x11110 + 0x20 * e.2))

/-- The CXL device registers from BAR4 + 0x3_0000 (R236): the array of three capabilities of a memory device, Device Status, Primary Mailbox and Memory Device Status, each with where it stands and its length. -/
def deviceWords : List (Nat × Nat) :=
  [(0x30000, 1 * 2 ^ 16 + 1 * 2 ^ 24), (0x30004, 3), (0x30008, 0), (0x3000C, 0),
   (0x30010, 0x0001 + 1 * 2 ^ 16), (0x30014, 0x100), (0x30018, 8), (0x3001C, 0),
   (0x30020, 0x0002 + 1 * 2 ^ 16), (0x30024, 0x200), (0x30028, 0x120), (0x3002C, 0),
   (0x30030, 0x4000 + 1 * 2 ^ 16), (0x30034, 0x400), (0x30038, 8), (0x3003C, 0)]

/-- A word of BAR4 (R235, R236, R251): the MSI-X table, the PBA, the component registers, the device registers. -/
def State.bar4Word (s : State) (p : Port) (off : Nat) : Nat :=
  let q := s.port p
  if off < 0x8000 then
    let v := off / 16
    match off % 16 / 4 with
    | 0 => sget 0 q.msgAddr v % 2 ^ 32
    | 1 => sget 0 q.msgAddr v / 2 ^ 32
    | 2 => sget 0 q.msgData v
    | _ => flagAt (!(sget false q.unmasked v)) 0
  else if off < 0x8100 then
    ((List.range 32).map (fun i => flagAt (sget false q.pba (8 * (off - 0x8000) + i)) i)).sum
  else wordAt (s.componentWords p ++ deviceWords) off (Config.spaceWord (2 ^ 12 + off)).toNat

/-- The data of a read of BAR4: 32 or 64 bits, naturally aligned; any other access reads zero (R235). -/
def State.readBar4 (s : State) (p : Port) (off width : Nat) : DWord :=
  let o := off % 2 ^ 18
  if !(decide (width = 4 ∨ width = 8) && decide (o % width = 0)) then 0#64
  else BitVec.ofNat 64 (s.bar4Word p o + (if width = 8 then 2 ^ 32 * s.bar4Word p (o + 4) else 0))

end Sys2Proof.Machine
end

