-- ==== Sys2Proof/Machine/Ports.lean ====
section
/-! DEFINITION. The ports' own commands (R226 to R259, R369): training and readiness, resets, containment and release, configuration writes, MSI-X and INTx, HDM decoders, the mailbox, DOE and PTM. -/

namespace Sys2Proof.Machine

/-! ### What reaches a port -/

/-- The port answers configuration requests normally: READY, no port reset runs, and the link is in L0 (R226, R250, R394). -/
def State.cfgTakes (s : State) (p : Port) : Bool := s.portIsReady p && (s.port p).resetAt.isNone && !(s.port p).l23

/-- A configuration request: answered even by a contained port (R246), and no IDE failure (R254); in the port's order (R242). From L0 until READY the answer is Configuration Request Retry Status (R250, R394). c is the command that brings it. -/
def State.viaCfg (s : State) (c : Instr) (p : Port) (f : State → State) : Result :=
  if s.cfgTakes p then done ((s.io p c f).settle)
  else if s.linkUp p then done (s.emit (.cfgRetry p.val))
  else done s

/-- An access to BAR4, in the port's order: a port that takes requests, inside a secure stream where one is required (R242, R254). -/
def State.viaBar4 (s : State) (c : Instr) (p : Port) (f : State → State) : Result := done (s.inOrder c (.port p) f)

/-- The port may issue again: pending messages and held completions go out (R244, R246, R276). -/
def State.portResumes (s : State) (p : Port) : State :=
  ((s.queuesOf p).foldl (fun u q => (u.flushHeld q).flushWatch q) (s.flushPba p)).pumpTags p

/-! ### The link -/

/-- PRT_LINK: UP, RATE, WIDTH, CXL, READY and TRAIN_FAIL. -/
def linkWord (up : Bool) (rate width : Nat) (cxl ready : Bool) (fail : Nat) : Nat :=
  (if up then 1 else 0) + rate * 2 + width * 2 ^ 4 + (if cxl then 2 ^ 6 else 0) + (if ready then 2 ^ 7 else 0) + fail * 2 ^ 8

/-- MAX_RATE of PRT_LINK_CTRL. -/
def State.maxRate (s : State) (p : Port) : Nat := s.field (prtPage p) 0x104 0 3

/-- A port may train: the link is not in L2/L3 Ready, the module is on, no warm start holds the links Disabled, as it does until its islands are reset, PERST# is not asserted, its reset is done, and the life cycle enables ports (R250, R382, R396). -/
def State.mayTrain (s : State) (p : Port) : Bool :=
  !s.pwr.off && (decide (s.pwr.starting ≠ 2) || s.pwr.quiesced) && !(s.port p).perst && (s.port p).resetAt.isNone && !(s.port p).l23 && decide (s.tru.lcNow ≠ 3)

/-- Ports start receiver detection at 34 ms of a cold start and at 6 ms of a warm one (R391, R396). -/
def State.detectFrom (s : State) : Nat :=
  match s.pwr.starting with | 1 => s.pwr.startAt + 34 * ms | 2 => s.pwr.startAt + 6 * ms | _ => 0

/-- RECEIVER_DETECT (R227, R250, R391, R396): training from a detected receiver, at a cold start not before 34 ms and at a warm one not before 6 ms, ends with a link or with its reason. -/
def execReceiverDetect (p : Port) (result : TrainResult) (s : State) : Result :=
  if !(s.mayTrain p) ∨ s.linkUp p then done s
  else
    let page := prtPage p
    let s0 := s.until s.detectFrom
    let s1 := s0.modPort p (fun q => { q with trainFrom := s0.now })
    match result with
    | .up rate x16 => done (s1.setWord page 0x100 (linkWord true (max 1 (min rate (s.maxRate p))) (if x16 then 2 else 1) false false 0))
    | .noFlitMode => done (s1.setWord page 0x100 (linkWord false 0 0 false false 1))
    | .narrow => done (s1.setWord page 0x100 (linkWord false 0 0 false false 2))
    | .equalisation => done (s1.setWord page 0x100 (linkWord false 0 0 false false 4))

/-- What READY waits for besides CXL: the end of the lost-owner walk, VAT_READY, and a stage at which the port becomes ready (R250, R391, R394). -/
def State.mayBeReady (s : State) (p : Port) : Bool :=
  !(s.walking p.val) && !(decide (s.stage = 9) && decide (p.val ≠ 0)) && decide (s.field 0x000 0x104 0 1 = 1)

/-- PORT_READY (R250, R391, R394): CXL is negotiated, and the port is ready once it may be. Without CXL the link stays down. -/
def execPortReady (p : Port) (cxl : Bool) (s : State) : Result :=
  if !(s.linkUp p) ∨ s.portIsReady p ∨ !(s.mayTrain p) then done s
  else
    let page := prtPage p
    if !cxl then done (s.setWord page 0x100 (linkWord false 0 0 false false 3))
    else if s.mayBeReady p then done ((s.setField page 0x100 6 2 3).portResumes p)
    else done (s.setField page 0x100 6 1 1)

/-- RETRAIN (R226): the link stays up, at up to MAX_RATE. -/
def execRetrain (req : Requester) (p : Port) (rate : Nat) (s : State) : Result :=
  s.viaReg (.retrain req p rate) req (prtPage p) 0x104 (fun u =>
    if u.linkUp p then u.setField (prtPage p) 0x100 1 3 (max 1 (min rate (u.maxRate p))) else u)

/-! ### Port reset -/

/-- The entries of a queue end with no completion, its chains stop, and its import session is discarded (R249, R282). -/
def State.dropQueue (s : State) (q : Nat) : State :=
  let mine (c : Chain) : Bool := match c.entry with | some (x, _) => decide (x = q) | none => false
  let s1 := s.dropUnits (fun u => s.den.chains.any (fun c => decide (c.id = u.chain) && mine c))
  let s2 := ({ s1 with den := { s1.den with chains := s.den.chains.filter (fun c => !(mine c)) } }).endSession q 11
  let s3 := { s2 with qmg := { s2.qmg with entries := s2.qmg.entries.filter (fun e => decide (e.queue ≠ q)) } }
  s3.modQueue q (fun k => { k with state := if k.state = 0 then 0 else 3, held := [], pendHalt := none, refusedCpl := false })

/-- The watch copies that wait for a queue are dropped with it (R281). -/
def State.dropWatch (s : State) (q : Nat) : State :=
  (s.queue q).watch.foldl (fun u _ => u.errCount 0x0B0 12 5) (s.modQueue q (fun k => { k with watch := [] }))

/-- A queue returns to disabled with its ownership (R249). -/
def State.resetQueue (s : State) (q : Nat) : State :=
  (s.dropWatch q).modQueue q (fun k => { k with
    state := 0, haltStatus := 0, phase := true, sqHead := 0, sqTail := 0, cqTail := 0, cqHead := 0, doorbell := 0
    unsignalled := 0, firstUnsig := none, held := [], pendHalt := none, refusedCpl := false })

/-- The trigger of a port reset (R248 to R250): 1 hot reset, 2 link down, 3 PERST#. -/
def State.portReset (s : State) (p : Port) (cause : Nat) : State :=
  let page := prtPage p
  let s1 := s.setWord page 0x100 (linkWord false 0 0 false false (s.field page 0x100 8 4))
  let s2 := (s1.setField page 0x128 0 3 cause).setField page 0x128 16 16 (min 65535 (s1.field page 0x128 16 16 + 1))
  let s3 := if cause = 2 then s2.errCount page 10 1 else s2
  let s4 := (s3.errCount page 11 2).losePort p (match cause with | 1 => 2 | 2 => 1 | _ => 3) true
  let s5 := (s4.queuesOf p).foldl State.dropQueue s4
  let s6 := s5.setField 0x002 (0x118 + 0x10 * p.val) 0 1 0
  (s6.modPort p (fun q => { q with resetAt := some s.now, resetCause := cause, l23 := false, ptmT1 := none, ptmSince := none })).abortPortJobs p

/-- LINK_DOWN (R248), from L0 or from L2/L3 Ready. -/
def execLinkDown (p : Port) (s : State) : Result :=
  if s.linkUp p ∨ (s.port p).l23 then done ((s.portReset p 2).settle) else done s

/-- HOT_RESET (R248). -/
def execHotReset (p : Port) (s : State) : Result :=
  if s.linkUp p then done ((s.portReset p 1).settle) else done s

/-- PERST_ASSERT (R248, R398, R415): during a warm start it is absorbed into that start's own port reset while the link has not come up again. -/
def execPerstAssert (p : Port) (s : State) : Result :=
  if (s.port p).perst then done s
  else if s.pwr.starting = 2 ∧ (s.linkUp p = false) then done (s.modPort p (fun q => { q with perst := true }))
  else done ((((s.modPort p (fun q => { q with perst := true })).portReset p 3)).settle)

/-- PERST_DEASSERT (R250): training is timed from here. -/
def execPerstDeassert (p : Port) (s : State) : Result :=
  done (s.modPort p (fun q => { q with perst := false, trainFrom := s.now }))

/-- The function's state after a port reset (R249): configuration space but the sticky AER bits, decoders, the MSI-X table and PBA, IDE keys and streams, the SPDM session. -/
def resetFunction (q : PortState) (depth now : Nat) : PortState :=
  { q with
    resetAt := none, d3hot := false, bme := false, memEnable := false, msixEnable := false, funcMask := false
    intxDisable := false, intxAsserted := false, ptmEnable := false, mps := 128, mrrs := 512, biEnable := false, biId := 0
    decoders := Vector.replicate 4 {}, unmasked := [], pba := [], rdBucket := depth, wrBucket := depth, bucketAt := now
    bars := Vector.replicate 3 0, msgAddr := [], msgData := [], l23 := false
    ideIo := false, ideMem := false, ideKeys := 0, ideGo := [], spdmPhase := 0, spdmSession := 0, spdmKey := 0, doeError := false
    ptmT1 := none, ptmSince := none }

/-- A port's function is reset (R249): its queues, INTx pending bits, containment and its cause, and the PTM result go with it. PRT_EVT_VEC and PRT_UNDECODED_ADDR, which R249 lists in neither column, stay (DESIGN CHOICE, log entry 177). -/
def State.resetPort (s0 : State) (p : Port) : State :=
  let page := prtPage p
  let s := (s0.queuesOf p).foldl State.resetQueue s0
  let s1 := s.modPort p (fun q => resetFunction q (1024 * s.field page 0x11C 0 11) s.now)
  let s2 := (List.range 64).foldl (fun (u : State) n => u.setWord page (0x180 + 4 * n) 0) s1
  (s2.setField page 0x108 0 5 0).setField 0x002 (0x118 + 0x10 * p.val) 0 1 0

/-- PORT_STATE_RESET (R249, R250): 1 ms after the trigger. -/
def execPortStateReset (p : Port) (s : State) : Result :=
  match (s.port p).resetAt with
  | none => done s
  | some t => done (((s.until (t + ms)).resetPort p).settle)

/-! ### Containment -/

/-- LINK_FATAL_ERROR (R245 causes 1 and 2). -/
def execLinkFatalError (p : Port) (kind : LinkFatal) (s : State) : Result :=
  if s.linkUp p then done ((s.contain p (match kind with | .link => 1 | .malformed => 2)).settle) else done s

/-- PORT_INTERNAL_UE (R245 cause 5). -/
def execPortInternalUe (p : Port) (s : State) : Result := done ((s.contain p 5).settle)

/-- IDE_CHECK_FAILURE (R254): the stream leaves the secure state; a request outside a secure stream is a failure while REQUIRE is set. -/
def execIdeCheckFailure (p : Port) (kind : IdeFailure) (cxl : Bool) (s : State) : Result :=
  if !(s.linkUp p) then done s
  else match kind with
    | .outsideStream => if s.ideRefuses p cxl then done ((s.ideFail p).settle) else done s
    | _ => done (((s.modPort p (fun q => if cxl then { q with ideMem := false, ideGo := sset none q.ideGo 1 none }
                                         else { q with ideIo := false, ideGo := sset none q.ideGo 0 none })).ideFail p).settle)

/-- CONTAIN (R247). -/
def execContain (req : Requester) (p : Port) (s : State) : Result :=
  s.viaReg (.contain req p) req (prtPage p) 0x108 (fun u => (u.contain p 6).settle)

/-- The requester may release a port: the management port or a control core (R247). -/
def State.mayRelease (s : State) : Requester → Bool
  | .port p => decide (p.val = s.mgmtPort)
  | .core _ => true
  | _ => false

/-- RELEASE of a port (R247). -/
def State.release (s : State) (req : Requester) (p : Port) : State :=
  let page := prtPage p
  if !(s.mayRelease req) then s.errInfo page 1 0x108 (reqCode req)
  else if !(s.contained p) then s
  else if s.walking p.val then s.errInfo page 1 0x108 (reqCode req)
  else ((s.setField page 0x108 0 1 0).portResumes p).settle

/-- CONTAIN_RELEASE (R247): a write that also sets CONTAIN acts as CONTAIN alone. -/
def execContainRelease (req : Requester) (p : Port) (alsoContain : Bool) (s : State) : Result :=
  s.viaReg (.containRelease req p alsoContain) req (prtPage p) 0x108 (fun u => if alsoContain then (u.contain p 6).settle else u.release req p)

/-! ### Configuration writes -/

/-- BUS_MASTER_ENABLE_WRITE (R74, R244). -/
def execBusMasterEnableWrite (p : Port) (on : Bool) (s : State) : Result :=
  s.viaCfg (.busMasterEnableWrite p on) p (fun u =>
    let u1 := if on then u else u.windowOff p
    let u2 := u1.modPort p (fun q => { q with bme := on })
    if on then u2.portResumes p else u2.loseFetch p)

/-- POWER_STATE_WRITE (R234). -/
def execPowerStateWrite (p : Port) (d3 : Bool) (s : State) : Result :=
  s.viaCfg (.powerStateWrite p d3) p (fun u =>
    let u1 := u.modPort p (fun q => { q with d3hot := d3 })
    if d3 then u1.loseFetch p else ((u1.sendHeld p).intxLevel p).portResumes p)

/-- MSIX_CONTROL_WRITE (R251, R252): a vector's mask bit, message address and data lie in BAR4, MSI-X Enable and Function Mask in configuration space. -/
def execMsixControlWrite (p : Port) (what : MsixWrite) (s : State) : Result :=
  match what with
  | .vectorMask v masked =>
    s.viaBar4 (.msixControlWrite p what) p (fun u => if v < 2048 then (u.modPort p (fun q => { q with unmasked := sset false q.unmasked v (!masked) })).flushPba p else u)
  | .vectorAddr v addr => s.viaBar4 (.msixControlWrite p what) p (fun u => if v < 2048 then u.modPort p (fun q => { q with msgAddr := sset 0 q.msgAddr v (addr % 2 ^ 64 / 4 * 4) }) else u)
  | .vectorData v data => s.viaBar4 (.msixControlWrite p what) p (fun u => if v < 2048 then u.modPort p (fun q => { q with msgData := sset 0 q.msgData v (data % 2 ^ 32) }) else u)
  | .enable on => s.viaCfg (.msixControlWrite p what) p (fun u => (u.modPort p (fun q => { q with msixEnable := on })).flushPba p)
  | .functionMask on => s.viaCfg (.msixControlWrite p what) p (fun u => (u.modPort p (fun q => { q with funcMask := on })).flushPba p)

/-- INTX_PEND_CLEAR (R252). -/
def execIntxPendClear (req : Requester) (p : Port) (index : Fin 64) (mask : Word) (s : State) : Result :=
  let o := 0x180 + 4 * index.val
  s.viaReg (.intxPendClear req p index mask) req (prtPage p) o (fun u =>
    (u.setWord (prtPage p) o ((BitVec.ofNat 32 (u.word (prtPage p) o)) &&& ~~~mask).toNat).intxLevel p)

/-- What a configuration request, or another request over CXL.io with no row of its own, does to a function (R226, R232, R233, R235, R236, R241, R243, R245, R252, R255, R256): the fields that have an effect, those that have none, and reads. A BAR keeps the bits above its size. -/
def State.configEffect (s : State) (p : Port) (value : Nat) : CfgField → State
  | .interruptDisable => (s.modPort p (fun q => { q with intxDisable := decide (value % 2 = 1) })).intxLevel p
  | .ptmEnable => s.modPort p (fun q => { q with ptmEnable := decide (value % 2 = 1) })
  | .memoryEnable => s.modPort p (fun q => { q with memEnable := decide (value % 2 = 1) })
  | .maxPayloadSize => s.modPort p (fun q => { q with mps := 128 * 2 ^ min 2 (value % 8) })
  | .maxReadRequestSize => s.modPort p (fun q => { q with mrrs := 128 * 2 ^ min 5 (value % 8) })
  | .biEnable => s.modPort p (fun q => { q with biEnable := decide (value % 2 = 1) })
  | .biId => s.modPort p (fun q => { q with biId := value % 4096 })
  | .bar n => s.modPort p (fun q => { q with bars := q.bars.set n (value % 2 ^ 64 / barSize n * barSize n) })
  | .readWord off => s.emit (.readData (.port p) (BitVec.ofNat 64 (s.configWord p (off % 4096 / 4 * 4))))
  | .bar4Read off width => s.emit (.readData (.port p) (s.readBar4 p off width))
  | .poisonedWrite _ => (s.err (prtPage p) 15).aer p 1
  | .unsupportedRequest => s.aer p 5
  | .doeObject bytes => if 65536 < bytes then s.modPort p (fun q => { q with doeError := true }) else s
  | .l23Ready => s
  | .bar4Write _ _ => s
  | .initiateFlr => s
  | .enableRelaxedOrdering => s
  | .enableNoSnoop => s
  | .idoRequestEnable => s
  | .idoCompletionEnable => s
  | .range1Base => s

/-- The request is an access to a BAR, or another that no exception covers (R254); the others are configuration requests and DOE objects. -/
def reachesBar : CfgField → Bool
  | .biEnable => true
  | .biId => true
  | .bar4Read _ _ => true
  | .bar4Write _ _ => true
  | .poisonedWrite _ => true
  | .unsupportedRequest => true
  | _ => false

/-- CONFIGURATION_WRITE, and the requests over CXL.io that no row of its own describes. The link enters L2/L3 Ready from L0 and leaves it by a port reset alone (R226); the port's window, whose link is then not up, goes offline (R74). -/
def execConfigurationWrite (p : Port) (field : CfgField) (value : Nat) (s : State) : Result :=
  let c : Instr := .configurationWrite p field value
  if field = .l23Ready then done (if s.linkUp p then ((s.windowOff p).setField (prtPage p) 0x100 0 1 0).modPort p (fun q => { q with l23 := true }) else s)
  else if reachesBar field then s.viaBar4 c p (fun u => u.configEffect p value field)
  else s.viaCfg c p (fun u => u.configEffect p value field)

/-! ### HDM decoders -/

/-- The offset D of decoder n (R239). -/
def State.decoderOffset (s : State) (p : Port) (n skip : Nat) : Nat :=
  if (s.field (prtPage p) 0x120 0 4).testBit n ∨ n = 0 then skip
  else
    let d := (s.port p).decoders.toList.getD (n - 1) {}
    d.offset + d.size + skip

/-- A commit of decoder n fails (R238). -/
def State.decoderBad (s : State) (p : Port) (n base size offset iw : Nat) : Bool :=
  let ds := (s.port p).decoders.toList.zipIdx
  decide (iw ≠ 0)
    || ds.any (fun e => decide (e.2 ≠ n) && e.1.committed && runsMeet e.1.base e.1.size base size)
    || ds.any (fun e => decide (e.2 < n) && (!e.1.committed || decide (base < e.1.base + e.1.size)))
    || decide (s.rangeBytes < offset + size)

/-- DECODER_COMMIT (R238 to R240): the fields are multiples of 256 MiB. A decoder that is committed keeps its fields. -/
def execDecoderCommit (p : Port) (n : Fin 4) (base size skip : Nat) (hdmH : Bool) (iw : Nat) (lock : Bool) (s : State) (ig : Nat := 0) : Result :=
  s.viaBar4 (.decoderCommit p n base size skip hdmH iw lock ig) p (fun u =>
    let unit := 2 ^ 28
    let b := base % 2 ^ 64 / unit * unit
    let z := size % 2 ^ 64 / unit * unit
    let k := skip % 2 ^ 64 / unit * unit
    let old := (u.port p).decoders[n]
    if old.committed then u
    else
      let off := u.decoderOffset p n.val k
      let bad := u.decoderBad p n.val b z off (iw % 16)
      let d : Decoder := { base := b, size := z, skip := k, offset := if bad then 0 else off, hdmH := hdmH, ig := ig % 16, iw := iw % 16, committed := !bad, lock := lock && !bad, error := bad }
      u.modPort p (fun q => { q with decoders := q.decoders.set n d }))

/-- DECODER_UNCOMMIT (R240). -/
def execDecoderUncommit (p : Port) (n : Fin 4) (s : State) : Result :=
  s.viaBar4 (.decoderUncommit p n) p (fun u =>
    let old := (u.port p).decoders[n]
    if old.lock then u else u.modPort p (fun q => { q with decoders := q.decoders.set n { old with committed := false, error := false } }))

/-! ### The mailbox -/

/-- A mailbox command completes with a return code and values (R237). -/
def State.mailbox (s : State) (c : Instr) (p : Port) (opcode code : Nat) (values : State → List Nat) : Result :=
  s.viaBar4 c p (fun u => u.emit (.mailbox p.val opcode code (values u)))

/-- IDENTIFY (R237): component type Type 3. -/
def execIdentify (p : Port) (s : State) : Result := s.mailbox (.identify p) p 0x0001 0 (fun _ => [3])

/-- GET_EVENT_RECORDS (R237): no records. -/
def execGetEventRecords (p : Port) (s : State) : Result := s.mailbox (.getEventRecords p) p 0x0100 0 (fun _ => [0])

/-- CLEAR_EVENT_RECORDS (R237). -/
def execClearEventRecords (p : Port) (s : State) : Result := s.mailbox (.clearEventRecords p) p 0x0101 0 (fun _ => [0])

/-- GET_TIMESTAMP (R237): the time base. -/
def execGetTimestamp (p : Port) (s : State) : Result := s.mailbox (.getTimestamp p) p 0x0300 0 (fun u => [u.now])

/-- SET_TIMESTAMP (R237): success, and no effect on the time base. -/
def execSetTimestamp (p : Port) (value : Nat) (s : State) : Result := s.mailbox (.setTimestamp p value) p 0x0301 0 (fun _ => [])

/-- The Command Effects Log's identifier, as CXL gives it. -/
def effectsLogId : Nat := 0x0da9c0b5bf414b788f7996b1623b3f17

/-- GET_SUPPORTED_LOGS (R237): the Command Effects Log only. -/
def execGetSupportedLogs (p : Port) (s : State) : Result := s.mailbox (.getSupportedLogs p) p 0x0400 0 (fun _ => [effectsLogId])

/-- GET_LOG (R237): the Command Effects Log lists the commands of R237. -/
def execGetLog (p : Port) (s : State) : Result :=
  s.mailbox (.getLog p) p 0x0401 0 (fun _ => [0x0001, 0x0100, 0x0101, 0x0300, 0x0301, 0x0400, 0x0401, 0x4000, 0x4200])

/-- IDENTIFY_MEMORY_DEVICE (R237): total, volatile and persistent capacity in GiB, label storage size. -/
def execIdentifyMemoryDevice (p : Port) (s : State) : Result := s.mailbox (.identifyMemoryDevice p) p 0x4000 0 (fun u => [u.rangeGib, u.rangeGib, 0, 0])

/-- Temperature of the hottest vat stack (PWR_STACK). -/
def State.hottest (s : State) : Nat := (List.range 16).foldl (fun a r => max a (s.field 0x001 (0x120 + 4 * r) 0 8)) 0

/-- GET_HEALTH_INFO (R237). -/
def execGetHealthInfo (p : Port) (s : State) : Result := s.mailbox (.getHealthInfo p) p 0x4200 0 (fun u => [u.hottest, u.usedPct])

/-- The opcodes of R237. -/
def mailboxOpcodes : List Nat := [0x0001, 0x0100, 0x0101, 0x0300, 0x0301, 0x0400, 0x0401, 0x4000, 0x4200]

/-- MAILBOX_UNSUPPORTED (R237): an opcode that is not listed; a listed one has its own command. -/
def execMailboxUnsupported (p : Port) (opcode : Nat) (s : State) : Result :=
  if mailboxOpcodes.contains opcode then done s else s.mailbox (.mailboxUnsupported p opcode) p opcode 3 (fun _ => [])

/-! ### DOE -/

/-- DOE_DISCOVERY (R256): vendor, object type and next index of an entry of the list; beyond it the vendor 0xFFFF. -/
def execDoeDiscovery (p : Port) (index : Nat) (s : State) : Result :=
  s.viaCfg (.doeDiscovery p index) p (fun u => u.emit (.doe p.val 0 (match index with
    | 0 => [0x0001, 0, 1]
    | 1 => [0x0001, 1, 2]
    | 2 => [0x0001, 2, 3]
    | 3 => [0x1E98, 2, 0]
    | _ => [0xFFFF, 0, 0])))

/-- CXL_TABLE_ACCESS (R256): CDAT with one DSMAS over the range, read latency in ns and bandwidth in GB/s. -/
def execCxlTableAccess (p : Port) (s : State) : Result := s.viaCfg (.cxlTableAccess p) p (fun u => u.emit (.doe p.val 1 [0, u.rangeBytes, 450, 256]))

/-- DOE_ABORT (R256): the mailbox is idle and without error. -/
def execDoeAbort (p : Port) (s : State) : Result := s.viaCfg (.doeAbort p) p (fun u => u.modPort p (fun q => { q with doeError := false }))

/-! ### PTM -/

/-- PTM runs on a port: enabled, up, not contained, Bus Master Enable set, in D0 (R234, R255, R369). -/
def State.ptmRuns (s : State) (p : Port) : Bool := (s.port p).ptmEnable && s.cfgTakes p && !(s.contained p) && (s.port p).bme && !(s.port p).d3hot

/-- INTERVAL_MS in nanoseconds. -/
def State.ptmInterval (s : State) : Nat := ms * s.field 0x002 0x108 0 10

/-- PTM_DIALOG (R369): one dialog every INTERVAL_MS; t₁ is the moment the request leaves. -/
def execPtmDialog (p : Port) (s : State) : Result :=
  if s.ptmRuns p ∧ (s.port p).ptmT1 = none then
    let due := if (s.port p).ptmLastAt = 0 then s.now else (s.port p).ptmLastAt + s.ptmInterval
    let s1 := s.until due
    done ((s1.modPort p (fun q => { q with
      ptmT1 := some s1.now, ptmLastAt := s1.now, ptmSince := some (q.ptmSince.getD s1.now) })).emit (.ptmRequest p.val))
  else done s

/-- An integer quotient rounded to nearest, halves away from zero. -/
def roundDiv (a : Int) (b : Nat) : Int :=
  let q := (2 * a.natAbs + b) / (2 * b)
  if a < 0 then -(q : Int) else q

/-- RATE_PPB (R369): 10⁹ times the change of OFFSET over the change of t₄, held within ±32,767. -/
def ratePpb (dOffset : Int) (dT : Nat) : Int :=
  if dT = 0 then 0 else max (-32767) (min 32767 (roundDiv (1000000000 * dOffset) dT))

/-- A dialog fails 1 ms after its request (R369): PTM_FAIL, and the last values stay. -/
def State.ptmFails (s : State) (p : Port) (t1 : Nat) : State :=
  ((s.until (t1 + ms)).modPort p (fun q => { q with ptmT1 := none })).errCount 0x002 9 1

/-- A good dialog's OFFSET and RATE_PPB (R369). The model takes the half of δ rounded towards minus infinity. -/
def State.ptmGood (s : State) (p : Port) (t1 t masterTime delay : Nat) : State :=
  let page := 0x118 + 0x10 * p.val
  let delta : Int := ((t : Int) - t1 - delay) / 2
  let offset : Int := (masterTime : Int) + delay + delta - t
  let q := s.port p
  let rate : Int := if s.field 0x002 page 0 1 = 1 then ratePpb (offset - q.ptmOffset) (t - q.ptmT4) else 0
  let s2 := s.modPort p (fun q => { q with ptmT1 := none, ptmT4 := t, ptmOffset := offset, ptmSince := some t })
  let s3 := s2.setWord64 0x002 (0x110 + 0x10 * p.val) (ofInt 64 offset)
  (s3.setWord 0x002 page (1 + ofInt 16 rate * 2 ^ 16)).count 0x002 0

/-- PTM_RESPONSE_D (R369): t4 is when it arrives. One that comes more than 1 ms after the request finds its dialog failed. -/
def execPtmResponseD (p : Port) (t4 masterTime delay : Nat) (s : State) : Result :=
  match (s.port p).ptmT1 with
  | none => done s
  | some t1 =>
    let s1 := s.until t4
    if t1 + ms < s1.now then done ((s.ptmFails p t1).until t4)
    else done (s1.ptmGood p t1 s1.now masterTime delay)

/-- PTM_TIMEOUT (R369): no ResponseD within 1 ms. -/
def execPtmTimeout (p : Port) (s : State) : Result :=
  match (s.port p).ptmT1 with
  | none => done s
  | some t1 => done (s.ptmFails p t1)

end Sys2Proof.Machine
end

