-- ==== Sys2Proof/Machine/Icu.lean ====
section
/-! DEFINITION. The interrupt controller's commands (R294 to R301): messages, raises, claims, ends of interrupt, configuration, the timer and the redirect log. -/

namespace Sys2Proof.Machine

/-! ### Claims -/

/-- Pending shared sources, with their priorities, that are delivered to logical core l (R296), by rising identity. -/
def State.sharedFor (s : State) (l : Nat) : List (Nat × Nat) :=
  (s.icu.srcs.filter (fun e => e.2.pend && ((s.targets e.2).1).contains l)).map (fun e => (e.1, e.2.prio))

/-- Pending private sources of logical core l, as identities with priorities (R294). -/
def State.privateFor (s : State) (l : Nat) : List (Nat × Nat) :=
  ((List.range 64).filter (fun n => decide (0 < s.privCount l n) && !(s.privInsvc l n))).map (fun n => (0x1000 + n, s.privPrio l n))

/-- The highest of a list above a threshold, ties to the earlier (R297). -/
def highest (threshold : Nat) (l : List (Nat × Nat)) : Option (Nat × Nat) :=
  l.foldl (fun b e =>
    let better : Bool := match b with | none => true | some x => decide (x.2 < e.2)
    if decide (threshold < e.2) && better then some e else b) none

/-- What a read of ICU_CLAIM by its own core finds (R297): the deliverable source of highest priority above THRESHOLD. -/
def State.claimable (s : State) (l : Nat) : Option Nat :=
  if s.globalDis then none
  else (highest (s.threshold l) (s.sharedFor l ++ s.privateFor l)).map (fun e => e.1)

/-- Source id is claimed by logical core l (R295). -/
def State.claimSource (s : State) (l id : Nat) : State :=
  if id < 0x1000 then s.setSrc id { s.src id with insvc := true, claimer := l }
  else s.setPrivInsvc l (id - 0x1000) true

/-- A read of ICU_CLAIM of a bank (R297): 0xFFFF for another requester or where nothing is deliverable. Every read by the owner counts as a claim, and one that finds nothing as a spurious claim too (worked example of chapter 11, log entry 45). -/
def State.claimRead (s : State) (req : Requester) (bank : Nat) : Nat × State :=
  match req with
  | .core l =>
    if l.val = bank then
      match s.claimable bank with
      | some id => (id, (s.claimSource bank id).count 0x0C1 1)
      | none => (0xFFFF, (s.count 0x0C1 1).count 0x0C1 2)
    else (0xFFFF, s)
  | _ => (0xFFFF, s)

/-- CLAIM (R297). -/
def execClaim (req : Requester) (bank : Fin 16) (s : State) : Result :=
  s.viaReg (.claim req bank) req (bankPage bank.val) (bankBase bank.val) (fun u =>
    let (id, v) := u.claimRead req bank.val
    v.emit (.readData req (BitVec.ofNat 64 id)))

/-- An end of interrupt by logical core l completes its claim (R295, R298); anything else sets EOI_ERR. -/
def State.endInterrupt (s : State) (l id : Nat) : State :=
  if id < 0x1000 then
    let r := s.src id
    if r.insvc ∧ r.claimer = l then (s.setSrc id { r with count := r.count - 1, insvc := false, redirected := false }).deliver id
    else s.err 0x0C1 9
  else if id < 0x1040 ∧ s.privInsvc l (id - 0x1000) then
    let n := id - 0x1000
    ((s.setPrivCount l n (s.privCount l n - 1)).setPrivInsvc l n false).deliverPriv l n
  else s.err 0x0C1 9

/-- EOI (R298): the writer is the core that claimed. -/
def execEoi (req : Requester) (bank : Fin 16) (id : Nat) (s : State) : Result :=
  s.viaReg (.eoi req bank id) req (bankPage bank.val) (bankBase bank.val + 4) (fun u =>
    match req with
    | .core l => u.endInterrupt l.val (id % 65536)
    | _ => u.err 0x0C1 9)

/-! ### Raises -/

/-- MSG (R294, R295). -/
def execMsg (req : Requester) (target : Fin 16) (source : Fin 32) (s : State) : Result :=
  s.viaReg (.msg req target source) req 0x0C1 0x100 (fun u => u.raisePriv target.val source.val)

/-- RAISE (R295). -/
def execRaise (req : Requester) (source : Fin 4096) (s : State) : Result :=
  s.viaReg (.raise req source) req 0x0C1 0x104 (fun u => u.raise source.val)

/-! ### Configuration -/

/-- The writable bits of ICU_SRC_CFG. -/
def srcCfgMask : Word := 0xFFFF0F1F#32

/-- A shared source takes a configuration; a pending one is delivered to the new target or mask only (R301). -/
def State.configSource (s : State) (n : Nat) (value : Word) : State :=
  (s.setSrc n { s.src n with cfg := value &&& srcCfgMask, redirected := false }).deliver n

/-- SRC_CFG_WRITE (R296, R301): the source that the requester selects. -/
def execSrcCfgWrite (req : Requester) (value : Word) (s : State) : Result :=
  s.viaReg (.srcCfgWrite req value) req 0x0C6 0x104 (fun u => u.configSource (bits (u.sel req 0x0C6 0x100) 0 12) value)

/-- SRC_CLEAR (R301): the counter becomes 0. -/
def execSrcClear (req : Requester) (s : State) : Result :=
  s.viaReg (.srcClear req) req 0x0C6 0x108 (fun u =>
    let n := bits (u.sel req 0x0C6 0x100) 0 12
    u.setSrc n { u.src n with count := 0, redirected := false })

/-- Every pending source is delivered (R299). -/
def State.deliverAll (s : State) : State :=
  let s1 := s.icu.srcs.foldl (fun u e => u.deliver e.1) s
  (List.range 16).foldl (fun u l => (List.range 34).foldl (fun v n => v.deliverPriv l n) u) s1

/-- GLOBAL_DIS_WRITE (R299). -/
def execGlobalDisWrite (req : Requester) (on : Bool) (s : State) : Result :=
  s.viaReg (.globalDisWrite req on) req 0x0C1 0x108 (fun u =>
    let was := u.globalDis
    let u1 := u.setField 0x0C1 0x108 0 1 (if on then 1 else 0)
    if was && !on then u1.deliverAll else u1)

/-! ### The timer -/

/-- ICU_TIMECMP of a core's bank. -/
def State.timecmp (s : State) (l : Nat) : Nat := s.word64 (bankPage l) (bankBase l + 0x10)

/-- The timer of core l has, or has not, been raised for its present ICU_TIMECMP. -/
def State.setFired (s : State) (l : Nat) (on : Bool) : State :=
  let b := BitVec.ofNat 16 (2 ^ l)
  { s with icu := { s.icu with timerFired := if on then s.icu.timerFired ||| b else s.icu.timerFired &&& ~~~b } }

/-- A low half of the 64-bit register at an offset of a page is held (R408). -/
def State.halfHeld (s : State) (page off : Nat) : Bool := s.reg.half.any (fun h => decide (h.1 = 4096 * page + off))

/-- The block samples an unstaged pair: SKEW where a low half is held (R408). -/
def State.sampleHalf (s : State) (page off req : Nat) : State := if s.halfHeld page off then s.errInfo page 2 off req else s

/-- The timer source of core l is raised; ICU_TIMECMP is sampled there (R295, R408). -/
def State.raiseTimer (s : State) (l : Nat) : State :=
  ((s.sampleHalf (bankPage l) (bankBase l + 0x10) reqInternal).setFired l true).raisePriv l 32

/-- ICU_TIMECMP takes a value: one at or below the time base raises the timer source once (R295). -/
def State.setTimecmp (s : State) (l v : Nat) : State :=
  let s1 := s.setWord64 (bankPage l) (bankBase l + 0x10) v
  if v ≤ s.now then s1.raiseTimer l else s1.setFired l false

/-- TIMECMP_WRITE (R295): a 64-bit write. -/
def execTimecmpWrite (req : Requester) (bank : Fin 16) (value : DWord) (s : State) : Result :=
  s.viaReg (.timecmpWrite req bank value) req (bankPage bank.val) (bankBase bank.val + 0x10) (fun u => u.setTimecmp bank.val value.toNat)

/-- TIMER (R295): the time base reaches ICU_TIMECMP from below. -/
def execTimer (core : Fin 16) (s : State) : Result :=
  let l := core.val
  if s.icu.timerFired.getLsbD l then done s else done ((s.until (s.timecmp l)).raiseTimer l)

/-- REDIR_POP (R296): the oldest entry goes, and OVF clears; an empty log stays. -/
def execRedirPop (req : Requester) (s : State) : Result :=
  s.viaReg (.redirPop req) req 0x0C1 0x114 (fun u =>
    if u.icu.redirLog = [] then u else { u with icu := { u.icu with redirLog := u.icu.redirLog.drop 1, redirOvf := 0 } })

/-! ### Vacancies -/

/-- A direct source aimed at core t went to core l while l was active: t is l, or l was its fallback, or the lowest active core (R296). -/
def State.wentTo (s : State) (t l : Nat) : Bool :=
  let f := s.field (bankPage t) (bankBase t + 8) 8 4
  decide (t = l) || (!(s.active t) && (decide (f = l) || (!(s.active f) && decide (∀ x ∈ s.activeCores, l < x))))

/-- A shared source was delivered to core l while l was active: by its mask, or as a direct source (R296). -/
def State.servedBy (s : State) (r : Src) (l : Nat) : Bool :=
  if r.claimMode then
    r.mask.testBit l || (decide (s.activeCores.filter (fun x => r.mask.testBit x) = []) && (lowestBit r.mask).any (fun t => s.wentTo t l))
  else s.wentTo r.target l

/-- Logical core l is vacant (R292, R301): what it had in service is pending again, its private sources too, and pending sources that went to it, as a fallback too, are redirected, and that is logged. -/
def State.vacate (s : State) (l : Nat) : State :=
  let s1 := s.icu.srcs.foldl (fun (u : State) e =>
    let r := u.src e.1
    let mine := r.insvc && decide (r.claimer = l)
    if mine then (u.setSrc e.1 { r with insvc := false, redirected := false }).deliver e.1
    else if r.pend && s.servedBy r l then (u.setSrc e.1 { r with redirected := false }).deliver e.1 else u) s
  (List.range 64).foldl (fun u n => if u.privInsvc l n then u.setPrivInsvc l n false else u) s1

/-- Logical core l is filled (R293): what waited for it, its own and shared sources, is delivered to it. -/
def State.fillCore (s : State) (l : Nat) : State :=
  let s1 := s.icu.srcs.foldl (fun (u : State) e =>
    let mine := if e.2.claimMode then e.2.mask.testBit l else decide (e.2.target = l)
    if mine && e.2.pend then (u.setSrc e.1 { u.src e.1 with redirected := false }).deliver e.1 else u) s
  (List.range 34).foldl (fun u n => u.deliverPriv l n) s1

end Sys2Proof.Machine
end

