-- ==== Sys2Proof/Machine/Stores.lean ====
section
/-! DEFINITION. The on-die stores (R302 to R316): where a byte of a store lies, its bank and word, poisoned words, atomics, reservations, collisions, the secure partition's wipe, and uncorrectable mesh flits. -/

namespace Sys2Proof.Machine

/-! ### Reading and writing -/

/-- The memory of a store, and a state with it replaced. -/
def State.storeMem (s : State) (store : Nat) : Memory :=
  match store with | 0 => s.sto.cluster | 1 => s.sto.row | 2 => s.sto.shared | _ => s.sto.localMem
def State.setStoreMem (s : State) (store : Nat) (m : Memory) : State :=
  match store with
  | 0 => { s with sto := { s.sto with cluster := m } }
  | 1 => { s with sto := { s.sto with row := m } }
  | 2 => { s with sto := { s.sto with shared := m } }
  | _ => { s with sto := { s.sto with localMem := m } }

/-- The value of n bytes at a place, and the poison mark of its word (R304). -/
def State.stoRead (s : State) (x : Spot) (n : Nat) : Nat × Bool :=
  (leNat (Memory.bytes (s.storeMem x.store) x.addr n), sget false s.sto.poison x.word)

/-- Set the poison mark of a word; a poisoned word's data reads as zero (R335). -/
def State.stoMark (s : State) (x : Spot) (bad : Bool) : State :=
  { s with sto := { s.sto with poison := sset false s.sto.poison x.word bad } }

/-- A write of port A during a destructive march run that meets a tested bank is kept in mind: it wins, where a write of port B takes the port before the engine and none collides (R306, R307, R344). -/
def State.marchNote (s : State) (x : Spot) : State :=
  match s.igr.march with
  | some (true, store, inst, first, last) =>
    let bank := (bankWord x.store x.off).1
    if x.store = store ∧ x.inst = inst ∧ first ≤ bank ∧ bank ≤ last ∧ !(s.sto.marchHit.contains x.word) then
      { s with sto := { s.sto with marchHit := s.sto.marchHit ++ [x.word] } }
    else s
  | _ => s

/-- Write n bytes at a place: a full word clears the mark, a narrower write to a poisoned word leaves it poisoned (R304). -/
def State.stoWrite (s : State) (x : Spot) (n v : Nat) : State :=
  if sget false s.sto.poison x.word ∧ n < 8 then s
  else (s.setStoreMem x.store (Memory.store (s.storeMem x.store) x.addr (leBytes n v))).stoMark x false

/-- Write the poison pattern into a word (R304, R336). -/
def State.stoPoison (s : State) (x : Spot) : State :=
  let y := { x with off := x.off / 8 * 8 }
  (s.setStoreMem x.store (Memory.store (s.storeMem x.store) y.addr (leBytes 8 0))).stoMark y true

/-- Reservations on a word end, but for that of the core which writes it (R309). -/
def State.breakRes (s : State) (word : Nat) (keeper : Option Nat) : State :=
  (List.range 18).foldl (fun (u : State) c =>
    if (u.core c).reservation = some word ∧ keeper ≠ some c then u.modCore c (fun k => { k with reservation := none }) else u) s

/-- Reservations on the words from lo up to below hi end (R288, R309, R313). -/
def State.breakRange (s : State) (lo hi : Nat) : State :=
  (List.range 18).foldl (fun (u : State) c =>
    match (u.core c).reservation with
    | some k => if lo ≤ k ∧ k < hi then u.modCore c (fun x => { x with reservation := none }) else u
    | none => u) s

/-- An atomic is counted at its bank (STO_BANK_ATOM, EVT_CNT1). -/
def State.countAtomic (s : State) (x : Spot) : State :=
  ({ s with sto := { s.sto with atom := satCount s.sto.atom x.bankKey } }).count 0x0D0 1

/-- The result of an atomic on a value of n bytes (R308). -/
def amoResult (op : AmoOp) (n old v : Nat) : Nat :=
  let w := 8 * n
  match op with
  | .add => (old + v) % 2 ^ w
  | .swap => v % 2 ^ w
  | .and => old &&& (v % 2 ^ w)
  | .or => old ||| (v % 2 ^ w)
  | .xor => old ^^^ (v % 2 ^ w)
  | .min => if toInt w old ≤ toInt w v then old else v % 2 ^ w
  | .max => if toInt w v ≤ toInt w old then old else v % 2 ^ w
  | .minu => min old (v % 2 ^ w)
  | .maxu => max old (v % 2 ^ w)

/-! ### The secure partition -/

/-- SEC_CORES and WIPING (R312, R313). -/
def State.secCores (s : State) : Bool := decide (s.field 0x0D0 0x100 0 1 = 1)
def State.wiping (s : State) : Bool := decide (s.field 0x0D0 0x104 0 1 = 1)

/-- A refused access to the partition is counted and sets SEC_REFUSED (R312). -/
def State.secRefused (s : State) : State := s.errCount 0x0D0 12 5

/-- A trigger of a wipe (R313): a running wipe absorbs it; else SEC_CORES clears, every word is written as zero and every reservation on it ends. -/
def State.startWipe (s : State) (cause : Nat) : State :=
  let s0 := ((s.setField 0x0D0 0x104 1 3 cause).setField 0x0D0 0x104 16 16 (min 65535 (s.field 0x0D0 0x104 16 16 + 1))).count 0x0D0 2
  if s.wiping then s0
  else
    let s1 := (s0.setField 0x0D0 0x100 0 1 0).setField 0x0D0 0x104 0 1 1
    let lo := 2 ^ 36 * 2 + secureAt / 8
    let hi := 2 ^ 36 * 2 + 2 ^ 24 / 8
    let s2 := { s1 with sto := { s1.sto with
      shared := Memory.clear s1.sto.shared secureAt (2 ^ 24 - secureAt)
      poison := s1.sto.poison.filter (fun e => !(decide (lo ≤ e.1) && decide (e.1 < hi))), wipeAt := s1.now } }
    s2.breakRange lo hi

/-- WIPE (R313): only the trust core's write takes effect. -/
def execWipe (req : Requester) (s : State) : Result :=
  s.viaReg (.wipe req) req 0x0D0 0x100 (fun u => if req = .trust then u.startWipe 4 else u.errInfo 0x0D0 1 0x100 (reqCode req))

/-- WIPE_END (R313): read-back is done 31.4 µs after the trigger; a word that does not read back as zero sets WIPE_FAIL. -/
def execWipeEnd (readsZero : Bool) (s : State) : Result :=
  if s.wiping then
    let s1 := s.until (s.sto.wipeAt + 31400)
    let s2 := ((s1.setField 0x0D0 0x104 0 1 0).setWord64 0x0D0 0x108 s1.now).err 0x0D0 9
    if readsZero then done s2
    else done (({ s2 with sto := { s2.sto with wipeFail := true } }).err 0x0D0 10)
  else done s

/-! ### The mesh -/

/-- The request of a port with a tag is hit, wherever it waits (R316): a read's answer is poisoned; a write is poisoned by a data flit, and of one whose header flit was discarded only the completion is left (DEDUCED, log entry 177). A request not yet made is hit once it is. -/
def State.poisonRequest (s : State) (p : Port) (tag : Nat) (header : Bool) : State :=
  let mine (r : MemReq) : Bool := decide (r.port = p.val ∧ r.tag = tag)
  let marked (r : MemReq) : MemReq := if mine r then { r with poison := true } else r
  match s.dir.waiting.find? (fun w => mine w.2) with
  | some w =>
    let gone : State := { s with dir := { s.dir with waiting := s.dir.waiting.filter (fun x => !(mine x.2)) } }
    if w.2.op = 0 then gone.respondRead w.2 [] true
    else if header then gone.respondCmp w.2 .I
    else { s with dir := { s.dir with waiting := s.dir.waiting.map (fun x => (x.1, marked x.2)) } }
  | none =>
    if s.prs.reads.any (fun c => c.reqs.any mine) then
      { s with prs := { s.prs with reads := s.prs.reads.map (fun (c : CaskRead) => { c with reqs := c.reqs.map marked }) } }
    else { s with dir := { s.dir with meshHits := s.dir.meshHits ++ [(p.val, tag, header)] } }

/-- Work of the block meets a mesh error (R316). A header's discarded flit is an uncorrectable read of the memory it addressed: a queue's entry ends with UNCORRECTABLE, whose completion halts its queue; a job aborts, by ROW_FAULT or ENGINE_FAULT: the spec does not say which (a free value, log entry 174). A data flit delivers poison: the next line that the work reads (DEDUCED, log entry 177). A core's next access over the mesh meets either. -/
def State.meshWork (s : State) (work : MeshWork) (header : Bool) : State :=
  let data (actor : Nat) : State := { s with dir := { s.dir with meshData := s.dir.meshData ++ [actor] } }
  match work with
  | .none => s
  | .core c => s.modCore c (fun k => { k with meshHit := some header })
  | .entry q seq => if header then s.endEntry q seq 4 else data (s.queue q).actor
  | .job id =>
    if header then (let (d, u) := s.draw; u.abortJob id (7 + Config.freePlace d % 2))
    else match s.job id with | some j => data j.actor | none => s

/-- MESH_FLIT_ERROR (R316): a corrected flit is counted; an uncorrectable one is counted and recorded, and a header sets MESH_UNCORR. The request or the work that it belongs to meets it. -/
def execMeshFlitError (stop : Fin 38) (header : Bool) (victim : Option (Port × Nat)) (s : State) (corrected : Bool := false) (work : MeshWork := .none) : Result :=
  if corrected then done ((s.setWord 0x0D0 0x130 (min (2 ^ 32 - 1) (s.word 0x0D0 0x130 + 1))).count 0x0D0 3)
  else
    let n := min 65535 (s.field 0x0D0 0x134 16 16 + 1)
    let s1 := (s.setWord 0x0D0 0x134 (stop.val + (if header then 2 ^ 6 else 0) + n * 2 ^ 16)).count 0x0D0 4
    let s2 := (if header then s1.err 0x0D0 11 else s1).meshWork work header
    match victim with
    | some (p, tag) => done ((s2.poisonRequest p tag header).settle)
    | none => done s2

end Sys2Proof.Machine
end

