-- ==== Sys2Proof/Machine/Flags.lean ====
section
/-! DEFINITION. What a read of a register word returns (R5, R6, R402, R404): the live word, the staged value of an RWS field, zero for a WO field, and every status field that the block computes from the state it reports. -/

namespace Sys2Proof.Machine

/-- One bit of a register word. -/
def bit (b : Bool) : Nat := if b then 1 else 0

/-! ### Staged values (R405) -/

/-- The mask of the fields of an access code in a register word. -/
def accMask (o : Order) (page off : Nat) (acc : Acc) : Nat :=
  ((wordRows o page off).filter (fun r => decide (r.acc = acc))).foldl (fun m r => m ||| ((2 ^ r.width - 1) * 2 ^ r.lo)) 0

/-- The staged word of a register: its live word where nothing else is staged. -/
def State.stagedWord (s : State) (page off : Nat) : Nat :=
  match s.reg.staged.find? (fun e => decide (e.1 = 4096 * page + off)) with
  | some (_, w) => w.toNat
  | none => s.word page off

/-- A staged word differs from the live one in its RWS fields; its other fields show as they are live (R402, R405). -/
def State.differs (s : State) (e : Nat × Word) : Bool :=
  let m := accMask s.order (e.1 / 4096) (e.1 % 4096) .rws
  decide (e.2.toNat &&& m ≠ s.word (e.1 / 4096) (e.1 % 4096) &&& m)

/-- The page's staged words that differ from the live ones. -/
def State.dirtyWords (s : State) (page : Nat) : List (Nat × Word) := s.reg.staged.filter (fun e => decide (e.1 / 4096 = page) && s.differs e)

/-- COMMIT_BUSY (R405). -/
def State.commitBusy (s : State) (page : Nat) : Bool := s.reg.taken.any (fun c => decide (c.page = page))

/-- CLASS0_OVER (R22): the read or the write allowances of the six ports add to more than 384 GB/s. -/
def State.class0Over (s : State) : Bool :=
  let sum (lo : Nat) : Nat := (allPorts.map (fun p => s.field (prtPage p) 0x118 lo 8)).sum
  decide (384 < sum 0) || decide (384 < sum 8)

/-- PAGE_STATUS (R402). -/
def State.pageStatus (s : State) (page : Nat) : Nat :=
  bit (decide (s.dirtyWords page ≠ [])) + 2 * bit (s.commitBusy page) + (if page = 0 then 256 * bit s.class0Over else 0)

/-! ### The map and sharing blocks -/

/-- Half of a 64-bit value: the low word, or the high one. -/
def half (v : Nat) (high : Bool) : Nat := if high then v / 2 ^ 32 % 2 ^ 32 else v % 2 ^ 32

/-- RGN page (chapter 02). -/
def State.rgnWord (s : State) (req : Requester) (off : Nat) : Option Nat :=
  if off = 0x10C then some s.pinMib
  else if off = 0x110 then some (s.validRegions + s.freeingRegions * 2 ^ 16)
  else if off = 0x190 then
    some (match s.rgn.leaseLog with | [] => s.rgn.leaseOvf * 2 ^ 24 | i :: _ => i + 2 ^ 16 + s.rgn.leaseOvf * 2 ^ 24)
  else if 0x140 ≤ off ∧ off < 0x180 then some (s.sel req 0x012 off)
  else none

/-- RCK pages (chapter 03). -/
def State.rckWord (s : State) (page off : Nat) : Option Nat :=
  if page = 0x018 then
    if off = 0x120 then some s.capUnits
    else if off = 0x124 then some s.usedUnits
    else if off = 0x128 then some s.windowCeil
    else if off = 0x12C then some s.emergencyFree
    else if off = 0x130 then some s.mapSlots
    else none
  else if off = 0x100 then some s.activeMoves
  else if off = 0x108 ∨ off = 0x10C then
    some (match s.rck.exhLog with | [] => 0 | e :: _ => half (16384 * e.1) (decide (off = 0x10C)))
  else if off = 0x110 then
    some (match s.rck.exhLog with | [] => s.rck.exhOvf * 2 ^ 24 | e :: _ => 1 + 2 * bit e.2 + s.rck.exhOvf * 2 ^ 24)
  else if 0x120 ≤ off ∧ off < 0x138 then some (s.hostTiles ((off - 0x120) / 4)).length
  else none

/-- A retired lane of press k of the kind from lane lo up to hi is served by the spare (PRS_STATUS). -/
def State.laneSpareIn (s : State) (k lo hi : Nat) : Bool :=
  (List.range 6).any (fun l => decide (lo ≤ l ∧ l < hi) && sget false s.prs.laneOut (6 * k + l))

/-- STATE of a table: free, built-in, current for a region, retiring, loaded (PRS_TBL_INFO). A loaded table whose hold was released while casks still name it shows 3, which R98 gives a table that was trained (DESIGN CHOICE, log entry 159). -/
def State.tableState (s : State) (id : Nat) : Nat :=
  let t := s.table id
  if id = 0 then 0 else if id < 16 then 1
  else if t.lens = [] then 0 else if t.retiring then 3 else if t.held then 4
  else if s.rgn.entries.any (fun e => e.2.valid && decide (e.2.curTable = id)) then 2 else 3

/-- PRS_TBL_INFO of a table (chapter 04). SHAPE of a built-in table, which was neither trained nor loaded, shows the shape of its profile (DESIGN CHOICE, log entry 158). -/
def State.tableInfo (s : State) (id : Nat) : Nat :=
  let t := s.table id
  let shape := if 1 ≤ id ∧ id < 16 then (builtIn id).1 else t.shape
  s.tableState id + (if s.tableState id = 0 then 0 else shape * 2 ^ 3) + bit t.held * 2 ^ 7 + t.region * 2 ^ 8 + t.refs * 2 ^ 24

/-- PRS pages (chapter 04). -/
def State.prsWord (s : State) (req : Requester) (page off : Nat) : Option Nat :=
  let k := page - 0x020
  let log := s.prs.qlog.find? (fun e => decide (e.press = k))
  if off = 0x108 then
    some (s.openBufs k + (s.prs.cache.filter (fun c => decide ((s.cask c.cask).package = k))).length * 2 ^ 8
      + bit (s.prs.flushing.getLsbD k) * 2 ^ 16 + bit (s.laneSpareIn k 0 4) * 2 ^ 17 + bit (s.laneSpareIn k 4 6) * 2 ^ 18)
  else if off = 0x110 ∨ off = 0x114 then
    some (match log with | none => 0 | some e => half (4096 * e.cask) (decide (off = 0x114)))
  else if off = 0x118 then
    let ovf := sget 0 s.prs.qlogOvf k * 2 ^ 24
    some (match log with | none => ovf | some e => 1 + 2 * bit e.detached + e.reason * 2 ^ 4 + ovf)
  else if page ≠ 0x020 then none
  else if off = 0x188 then
    some (s.prs.trainPending.length + s.field 0x020 0x188 16 12 * 2 ^ 16 + bit (decide (s.prs.training ≠ [])) * 2 ^ 31)
  else if off = 0x18C then some s.tableFree
  else if off = 0x1A0 ∨ off = 0x1A4 then some (half (s.tableInfo (bits (s.sel req 0x020 0x190) 0 12)) (decide (off = 0x1A4)))
  else if 0x1C0 ≤ off ∧ off < 0x240 then
    let id := bits (s.sel req 0x020 0x190) 0 12
    some (match s.tableLens id with | none => 0 | some lens => leNat (((bytesOfLens lens).drop (off - 0x1C0)).take 4))
  else if off = 0x248 then some (sget 0#32 s.prs.imap (bits (s.sel req 0x020 0x244) 0 6)).toNat
  else none

/-- DIR and EDN pages (chapter 05). -/
def State.sharingWord (s : State) (page off : Nat) : Option Nat :=
  if page = 0x010 then
    if off = 0x104 then some (s.dir.entries.length + s.dir.walks.toNat * 2 ^ 24)
    else if off = 0x110 ∨ off = 0x114 then
      some (match s.dir.lostLog with | [] => 0 | e :: _ => half e.addr (decide (off = 0x114)))
    else if off = 0x118 then
      some (match s.dir.lostLog with
        | [] => s.dir.lostOvf * 2 ^ 16
        | e :: _ => 1 + e.port * 2 + e.cause * 2 ^ 4 + s.dir.lostOvf * 2 ^ 16)
    else if off = 0x120 then some s.dir.lostLog.length
    else none
  else if off = 0x108 then some s.draftsUsed
  else if off = 0x10C then some s.edn.pubs.length
  else none

/-! ### Jobs, engines and queues -/

/-- The job in the slot that LST_JOB_SEL names. -/
def State.jobAt (s : State) (slot : Nat) : Option Job := s.admitted.find? (fun j => decide (j.place = slot))

/-- LST page (chapter 07). -/
def State.lstWord (s : State) (req : Requester) (off : Nat) : Option Nat :=
  let job := s.jobAt (bits (s.sel req lstPage 0x120) 0 8)
  if off = 0x10C then some s.windowMib
  else if off = 0x110 then some (s.admitted.length + s.queued.length * 2 ^ 10)
  else if off = 0x128 ∨ off = 0x12C then some (match job with | none => 0 | some j => half j.hdrAddr (decide (off = 0x12C)))
  else if off = 0x130 then
    some (match job with
      | none => 0
      | some j => j.state + j.recNo * 2 ^ 4 + bit (decide (j.phase = .late)) * 2 ^ 20 + bit j.fallback * 2 ^ 21)
  else if off = 0x134 then some (match job with | none => 0 | some j => j.running.toNat)
  else if off = 0x138 then some (match job with | none => 0 | some j => j.slots.length / 64)
  else none

/-- Units that wait for, or run on, an engine. -/
def State.unitsOn (s : State) (e : Nat) : Nat := (s.den.units.filter (fun u => decide (u.engine = some e))).length

/-- DEN page (chapter 08): an engine with units runs one of them, and the rest wait. -/
def State.denWord (s : State) (page off : Nat) : Option Nat :=
  let e := page - 0x0A0
  if off = 0x104 then
    some (bit (decide (0 < s.unitsOn e)) + (min 4095 (s.unitsOn e - 1)) * 2 ^ 4 + s.field page 0x104 16 10 * 2 ^ 16)
  else none

/-- QMG_Q_STATUS, QMG_Q_PTRS and the other words of the window for a queue (chapter 10). -/
def State.queueWord (s : State) (q off : Nat) : Nat :=
  let k := s.queue q
  if off = 0x104 then k.cfg.toNat
  else if off = 0x108 then k.agg.toNat
  else if off = 0x110 ∨ off = 0x114 then half k.sqBase (decide (off = 0x114))
  else if off = 0x118 ∨ off = 0x11C then half k.cqBase (decide (off = 0x11C))
  else if off = 0x124 then
    k.state + k.haltStatus * 2 ^ 2 + bit k.phase * 2 ^ 10 + bit (s.sessionOf q).isSome * 2 ^ 11
  else if off = 0x128 then k.sqHead + k.cqTail * 2 ^ 16
  else if off = 0x12C then
    ((s.entriesOf q).filter (fun e => decide (e.stage = 1 ∨ e.stage = 2))).length + (k.held.length % 2 ^ 17) * 2 ^ 9
  else 0

/-- The queue window is open to a requester for the queue it selects (R258). -/
def State.windowOpen (s : State) (req : Requester) : Bool :=
  s.fullSet req || (s.queue (bits (s.sel req 0x0B1 0x100) 0 16)).ownedBy req

/-- QMG pages (chapter 10). -/
def State.qmgWord (s : State) (req : Requester) (page off : Nat) : Option Nat :=
  if page = 0x0B0 then
    if off = 0x104 then some (s.qmg.queues.filter (fun e => decide (e.2.state ≠ 0))).length
    else if off = 0x108 then some (s.qmg.queues.filter (fun e => decide (e.2.state = 2))).length
    else if off = 0x114 then
      let k := s.queue (bits (s.sel req 0x0B0 0x110) 0 16)
      some (k.ownKind + k.ownId * 2 ^ 2)
    else if 0x140 ≤ off ∧ off < 0x158 then
      some (match portOf ((off - 0x140) / 4) with | some p => s.tagsOut p + s.tagsQuar p * 2 ^ 16 | none => 0)
    else none
  else if 0x104 ≤ off ∧ off < 0x130 then
    some (if s.windowOpen req then s.queueWord (bits (s.sel req 0x0B1 0x100) 0 16) off else 0)
  else none

/-! ### Cores, interrupts and stores -/

/-- The physical cores that hold no logical number and are neither halted nor retired: the idle spares (R292). -/
def State.idleSpares (s : State) : List Nat :=
  (List.range 18).filter (fun c => decide ((s.core c).state = 0) && !(s.activeCores.any (fun l => decide (s.physOf l = c))))

/-- CTL page (chapter 11). -/
def State.ctlWord (s : State) (off : Nat) : Option Nat :=
  if off = 0x108 then some (bit s.released + s.activeCores.length * 2 + s.idleSpares.length * 2 ^ 6)
  else if 0x150 ≤ off ∧ off < 0x198 then
    let k := s.core ((off - 0x150) / 4)
    some (k.state + bit k.notice.isSome * 2 ^ 3 + (if k.state = 4 then 0 else k.logical * 2 ^ 4))
  else none

/-- A word of 32 bits, one for each of 32 sources. -/
def word32 (f : Nat → Bool) : Nat := ((List.range 32).map (fun i => if f i then 2 ^ i else 0)).sum

/-- ICU pages (chapter 11). A read of ICU_CLAIM is a claim and has a row of its own. -/
def State.icuWord (s : State) (req : Requester) (page off : Nat) : Option Nat :=
  if page = 0x0C1 then
    if off = 0x110 then
      some (match s.icu.redirLog with
        | [] => s.icu.redirOvf * 2 ^ 25
        | e :: _ => e.id + e.fromL * 2 ^ 16 + e.toL * 2 ^ 20 + 2 ^ 24 + s.icu.redirOvf * 2 ^ 25)
    else none
  else if page ≤ 0x0C5 ∧ 0x900 ≤ off then some 0
  else if page ≤ 0x0C5 then
    let l := 4 * (page - 0x0C2) + (off - 0x100) / 0x200
    let a := (off - 0x100) % 0x200
    if 0x40 ≤ a ∧ a < 0x80 then
      let n := a - 0x40
      some (s.privCount l n + s.privCount l (n + 1) * 2 ^ 8 + s.privCount l (n + 2) * 2 ^ 16 + s.privCount l (n + 3) * 2 ^ 24)
    else if a = 0x80 then some (word32 (fun i => s.privInsvc l i))
    else if a = 0x84 then some (word32 (fun i => s.privInsvc l (32 + i)))
    else none
  else if page = 0x0C6 then
    let r := s.src (bits (s.sel req 0x0C6 0x100) 0 12)
    if off = 0x104 then some r.cfg.toNat
    else if off = 0x108 then some (r.count + bit r.pend * 2 ^ 8 + bit r.insvc * 2 ^ 9 + (if r.insvc then r.claimer * 2 ^ 10 else 0))
    else none
  else if page = 0x0C7 then some (word32 (fun i => (s.src (32 * ((off - 0x100) / 4) + i)).pend))
  else some (word32 (fun i => (s.src (32 * ((off - 0x100) / 4) + i)).insvc))

/-- STO page (chapter 12): the counts of the selected bank. -/
def State.stoWord (s : State) (req : Requester) (off : Nat) : Option Nat :=
  let v := s.sel req 0x0D0 0x110
  let key := 2 ^ 20 * bits v 0 2 + 64 * bits v 2 10 + bits v 12 6
  if off = 0x114 then some (sget 0 s.sto.coll key) else if off = 0x118 then some (sget 0 s.sto.atom key) else none

/-! ### DRAM, integrity, power and trust -/

/-- VAT and CLR pages (chapter 13). -/
def State.dramWord (s : State) (req : Requester) (page off : Nat) : Option Nat :=
  let isVat := decide (page < 0x060)
  let unit := if isVat then page - 0x050 else page - 0x060
  let c := s.chan (if isVat then .vat unit (bits (s.sel req page 0x104) 0 6) else .cellar unit (bits (s.sel req page 0x104) 0 2))
  if off = 0x100 then
    if isVat then
      let n := (List.range 64).countP (fun ch => (s.chan (.vat unit ch)).selfRefresh)
      some (setBits (setBits (s.word page 0x100) 9 1 (bit s.vatInhibit)) 11 7 n)
    else
      let n := (List.range 4).countP (fun ch => (s.chan (.cellar unit ch)).selfRefresh)
      some (setBits (setBits (s.word page 0x100) 5 1 (bit s.cellarInhibit)) 7 4 (2 * n))
  else if off = 0x108 then some c.train.toNat
  else if off = 0x110 ∨ off = 0x114 then some (half c.trainedAt (decide (off = 0x114)))
  else none

/-- Codewords of a scrub pass of a tier: vat, cellar, on-die stores (R302, R339). -/
def State.scrubTotal (s : State) (tier : Nat) : Nat :=
  match tier with
  | 0 => 2 ^ 35
  | 1 => s.order.packages * 954437120 * 4
  | _ => 544 * 2 ^ 18 + 16 * 2 ^ 22 + 2 ^ 21 + 18 * 2 ^ 15

/-- Percentage done of a tier's scrub pass. -/
def State.scrubPct (s : State) (tier : Nat) : Nat := min 100 (100 * (s.igr.scrubPos.toList.getD tier 0) / s.scrubTotal tier)

/-- A bucket of a KIND exists (R341). -/
def bucketExists (kind index : Nat) : Bool :=
  match kind with
  | 0 => decide (index < 4096) | 1 => decide (index < 16) | 2 => decide (index < 48) | 3 => decide (index < 16)
  | 4 => decide (index = 0) | _ => false

/-- The 16 bytes of a repair-log entry (R351). -/
def logBytes (e : LogEntry) : List Byte := leBytes 8 e.time ++ leBytes 4 (e.action + e.unit * 2 ^ 8) ++ leBytes 4 e.detail

/-- IGR page 0x0E0 (chapter 14). -/
def State.igrWord (s : State) (req : Requester) (off : Nat) : Option Nat :=
  if off = 0x104 then some (s.scrubPct 0 + s.scrubPct 1 * 2 ^ 8 + s.scrubPct 2 * 2 ^ 16)
  else if off = 0x124 then
    let v := s.sel req 0x0E0 0x120
    let key := bucketKey (bits v 0 3) (bits v 4 12)
    some (if bucketExists (bits v 0 3) (bits v 4 12) then sget 0 s.igr.level key + sget 0 s.igr.overflows key * 2 ^ 16 else 0)
  else if off = 0x128 then
    some (match s.igr.bktLog with
      | [] => s.igr.bktOvf * 2 ^ 24
      | e :: _ => e.1 + e.2 * 2 ^ 4 + 2 ^ 16 + s.igr.bktOvf * 2 ^ 24)
  else if off = 0x144 then some s.usedPct
  else if off = 0x148 then some (s.igr.log.length + bit (decide (8192 ≤ s.igr.log.length)) * 2 ^ 31)
  else if 0x150 ≤ off ∧ off < 0x160 then
    some (match s.igr.log[bits (s.sel req 0x0E0 0x14C) 0 13]? with
      | none => 0
      | some e => leNat (((logBytes e).drop (off - 0x150)).take 4))
  else none

/-- TNS page of row r (chapter 06). -/
def State.tnsWord (s : State) (r off : Nat) : Option Nat :=
  let macs := nth16 s.tns.macs r / 65536
  if off = 0x104 then some (setBits (s.word (tnsPage r) 0x104) 8 1 (bit (s.substPending r)))
  else if off = 0x148 then some (half macs false)
  else if off = 0x14C then some (half macs true)
  else none

/-- A vintage slot is written if any of its bits is set, and whole if NUMBER equals its slot, MGMT_PORT is not reserved, every zero field is zero and CHECK holds; written and not whole is torn (R379, R380). -/
def otpWritten (l : List Byte) : Bool := l.any (fun b => decide (b ≠ 0#8))
def otpWhole (n : Nat) (l : List Byte) : Bool :=
  let w := leNat (l.take 4)
  decide (bits w 0 8 = n) && decide (bits w 8 3 < 6) && decide (w < 2 ^ 12) && decide (leNat ((l.drop 72).take 4) = crc32c (l.take 72))
    && (l.drop 76).all (fun b => decide (b = 0#8))
def otpTorn (n : Nat) (l : List Byte) : Bool := otpWritten l && !(otpWhole n l)
def State.otpSlot (s : State) (n : Nat) : List Byte := s.tru.slots.toList.getD n []

/-- OTP page (chapter 16). -/
def State.otpWord (s : State) (req : Requester) (off : Nat) : Option Nat :=
  let flags (f : Nat → List Byte → Bool) : Nat := ((List.range 4).map (fun n => bit (f n (s.otpSlot n)) * 2 ^ n)).sum
  if off = 0x100 then
    let written := flags (fun _ l => otpWritten l)
    some (s.tru.current + written * 2 ^ 4 + flags otpTorn * 2 ^ 8
      + ((List.range 4).countP (fun n => !(otpWritten (s.otpSlot n)))) * 2 ^ 12 + bit (otpWritten (s.otpSlot 3)) * 2 ^ 15
      + s.field 0x004 0x100 16 1 * 2 ^ 16)
  else if off = 0x108 ∨ off = 0x10C then some (half s.tru.serial (decide (off = 0x10C)))
  else if 0x180 ≤ off ∧ off < 0x200 then
    some (leNat (((s.otpSlot (bits (s.sel req 0x004 0x110) 0 2)).drop (off - 0x180)).take 4))
  else none

/-- STALE of TIM_PTM_INFO (R369): four intervals have passed without a good dialog, whether dialogs failed or were paused. -/
def State.ptmStale (s : State) (p : Nat) : Bool :=
  match (s.port (Fin.ofNat 6 p)).ptmSince with
  | some t => decide (t + 4 * s.ptmInterval ≤ s.now)
  | none => false

/-- PLT, PWR, TIM and TRU pages (chapters 15 to 17). -/
def State.platformWord (s : State) (page off : Nat) : Option Nat :=
  if page = 0 then
    if off = 0x104 then
      let n := (List.range 48).countP (fun k => s.mem.packageIn.getLsbD k)
      some (setBits (s.word 0 0x104) 1 6 n)
    else none
  else if page = 1 then
    if 0x120 ≤ off ∧ off < 0x160 then
      some (setBits (s.word 1 off) 11 1 (bit (s.rowHeld ((off - 0x120) / 4))))
    else none
  else if page = 2 then
    if off = 0x100 then some (half s.now false) else if off = 0x104 then some (half s.now true)
    else if 0x118 ≤ off ∧ off < 0x178 ∧ off % 16 = 8 then some (setBits (s.word 2 off) 1 1 (bit (s.ptmStale ((off - 0x118) / 16))))
    else none
  else if off = 0x104 then some (setBits (setBits (s.word 3 0x104) 0 2 s.tru.lcNow) 3 1 (bit s.debugOpen))
  else if 0x140 ≤ off ∧ off < 0x160 then some ((s.tru.nonce.toList.getD ((off - 0x140) / 4) 0).toNat)
  else none

/-! ### Reading -/

/-- A status word computed from the state that it reports; none where the word is kept as it stands. -/
def State.computedWord (s : State) (req : Requester) (page off : Nat) : Option Nat :=
  if off < 0x100 then (if off = 0x00C then some (s.pageStatus page) else none)
  else match pageClass page with
    | some .plt => s.platformWord 0 off
    | some .pwr => s.platformWord 1 off
    | some .tim => s.platformWord 2 off
    | some .tru => s.platformWord 3 off
    | some .otp => s.otpWord req off
    | some .prt => if off = 0x108 then some (setBits (s.word page 0x108) 10 1 (bit (s.walking (page - 8)))) else none
    | some .dir => s.sharingWord page off
    | some .edn => s.sharingWord page off
    | some .rgn => s.rgnWord req off
    | some .rck0 => s.rckWord page off
    | some .rck1 => s.rckWord page off
    | some .prs => s.prsWord req page off
    | some .vat => s.dramWord req page off
    | some .clr => s.dramWord req page off
    | some .lst => s.lstWord req off
    | some .den => s.denWord page off
    | some .qmg0 => s.qmgWord req page off
    | some .qmg1 => s.qmgWord req page off
    | some .ctl => s.ctlWord off
    | some .icu1 => s.icuWord req page off
    | some .icuBank => s.icuWord req page off
    | some .icuSrc => s.icuWord req page off
    | some .icuMap => s.icuWord req page off
    | some .sto => s.stoWord req off
    | some .igr0 => s.igrWord req off
    | some .tns => s.tnsWord (page - 0x100) off
    | some .igr1 => none
    | some .cls => none
    | none => none

/-- Bits of a word taken from a where the mask is set, and from b elsewhere. -/
def pick (mask a b : Nat) : Nat := (a &&& mask) + (b - (b &&& mask))

/-- The value of a register word as it stands, before staging and WO fields are applied. -/
def State.heldWord (s : State) (req : Requester) (page off : Nat) : Nat :=
  match s.computedWord req page off with
  | some v => v % 2 ^ 32
  | none =>
    let m := accMask s.order page off .sel
    pick m (s.sel req page off) (s.word page off)

/-- What a 32-bit read of a register word returns (R5): RWS fields as staged, WO fields as zero. -/
def State.readWord (s : State) (req : Requester) (page off : Nat) : Nat :=
  let v := s.heldWord req page off
  let rws := accMask s.order page off .rws
  let wo := accMask s.order page off .wo
  pick wo 0 (pick rws (s.stagedWord page off) v)

/-- A register word as a requester reads it: zero where it may not see it (R410, R411), and through a port outside the full set zero in the header of page 0x0B1 but for PAGE_ID (chapter 10). -/
def State.readVisible (s : State) (req : Requester) (page off : Nat) : Nat :=
  if !(s.sees req page off) then 0
  else if page = 0x0B1 ∧ off < 0x100 ∧ off ≠ 0 ∧ !(s.fullSet req) then 0
  else s.readWord req page off

end Sys2Proof.Machine
end

