-- ==== Sys2Proof/Machine/RegAccess.lean ====
section
/-! DEFINITION. Writes of the register pages (R5 to R8, R402 to R409): plain fields, staging and commit, the unstaged pairs, the page header, accesses of a wrong width, and the registers whose pages add rules of their own. -/

namespace Sys2Proof.Machine

/-! ### Reaching a register -/

/-- The page that records an error made at a page: those of the queue window are recorded in page 0x0B0 (chapter 10). -/
def errPage (page : Nat) : Nat := if page = 0x0B1 then 0x0B0 else page

/-- A requester reaches a register: it sees it, and is not a port outside the full set at the header of the queue window, of which that port reads PAGE_ID alone. -/
def State.reaches (s : State) (req : Requester) (page off : Nat) : Bool :=
  s.sees req page off && !(decide (page = 0x0B1) && decide (off < 0x100) && decide (off ≠ 0) && !(s.fullSet req))

/-- An access to a TNS, CLS or DEN page wakes its island, and waits for the first cycle after the wake (R362). -/
def State.touch (s : State) (page : Nat) : State :=
  let row (r : Nat) : State := let u := s.wakeRow r; u.until (nth16 u.pwr.rowWakeAt r)
  match pageClass page with
  | some .tns => row (page - 0x100)
  | some .cls => row ((page - 0x200) / 64)
  | some .den => let u := s.wakeDen (page - 0x0A0); u.until (nth16 u.pwr.denWakeAt (page - 0x0A0))
  | _ => s

/-- A register access that has the effect f where its requester reaches the register. -/
def State.regAccess (s : State) (c : Instr) (req : Requester) (page off : Nat) (f : State → State) : State :=
  s.access c req page off (fun u => if u.reaches req page off then f (u.touch page) else u)

/-- The outcome of a register access. -/
def State.reg' (s : State) (c : Instr) (req : Requester) (page off : Nat) (f : State → State) : Result := done (s.regAccess c req page off f)

/-! ### Fields -/

/-- A row's field takes a value: a legal one (R7). -/
def Row.takes (r : Row) (f : Nat) : Bool := decide (r.least ≤ f) && decide (f ≤ r.most) && decide (f % r.mult = 0)

/-- Stage a word: it is listed while it differs from the live word (R405), and as long as a commit of its page has not taken effect, since the live word may then still change under it (R407). -/
def State.setStaged (s : State) (page off v : Nat) : State :=
  let key := 4096 * page + off
  { s with reg := { s.reg with staged := if v = s.word page off ∧ s.commitBusy page = false then sdel s.reg.staged key else sput s.reg.staged key (BitVec.ofNat 32 v) } }

/-- Write one field of a register word by its access code; a reserved value leaves it and records CONFIG (R5, R7). Fields that act when written have rows of their own. -/
def State.writeField (req : Requester) (page off v : Nat) (s : State) (r : Row) : State :=
  let f := bits v r.lo r.width
  let set : State → State := match r.acc with
    | .rw => fun u => u.setField page off r.lo r.width f
    | .rws => fun u => u.setStaged page off (setBits (u.stagedWord page off) r.lo r.width f)
    | .sel => fun u => u.setSel req page off (setBits (u.sel req page off) r.lo r.width f)
    | _ => id
  match r.acc with
  | .rw => if r.takes f then set s else s.errInfo (errPage page) 0 off (reqCode req)
  | .rws => if r.takes f then set s else s.errInfo (errPage page) 0 off (reqCode req)
  | .sel => if r.takes f then set s else s.errInfo (errPage page) 0 off (reqCode req)
  | _ => s

/-! ### Registers with rules of their own -/

/-- RGN_OP with OP 0, or a reserved OP, which is rejected with RESERVED (R35) and records a configuration error (R7); while an operation runs a write records an access error (R35). -/
def State.writeRgnOp (s : State) (req : Requester) (v : Nat) : State :=
  if s.rgn.pending.isSome then s.errInfo 0x012 1 0x114 (reqCode req)
  else if 5 ≤ bits v 16 3 then (s.opDone (bits v 0 12) 4).errInfo 0x012 0 0x114 (reqCode req) else s

/-- A field of a queue's configuration word takes a legal value; a reserved one leaves it and records CONFIG. -/
def queueField (req : Requester) (off lo w least most v : Nat) (e : Nat × State) : Nat × State :=
  let f := bits v lo w
  if least ≤ f ∧ f ≤ most then (setBits e.1 lo w f, e.2) else (e.1, e.2.errInfo 0x0B0 0 off (reqCode req))

/-- The fields of QMG_Q_CFG, each with its place, its width and its legal range for the queue's owner: a queue not of KIND 1 holds no ring in host memory (R262), and one of KIND 1 takes a VECTOR below 2,048 (R280). -/
def Queue.cfgFields (k : Queue) : List (Nat × Nat × Nat × Nat) :=
  let port := decide (k.ownKind = 1)
  let host := if port then 1 else 0
  [(0, 5, 4, 16), (5, 2, 1, 3), (7, 1, 0, host), (8, 1, 0, host), (9, 1, 0, 1), (10, 12, 0, if port then 2047 else 4095)]

/-- Offsets 0x104 to 0x11C of the queue window: written only while the queue is disabled; at any other time the write records a configuration error. -/
def State.writeQueueWord (s : State) (req : Requester) (off v : Nat) : State :=
  let q := bits (s.sel req 0x0B1 0x100) 0 16
  let k := s.queue q
  if !(s.windowOpen req) then s.errInfo 0x0B0 1 off (reqCode req)
  else if k.state ≠ 0 then s.errInfo 0x0B0 0 off (reqCode req)
  else if off = 0x104 then
    let (w, u) := k.cfgFields.foldl (fun e (lo, n, least, most) => queueField req off lo n least most v e) (k.cfg.toNat, s)
    u.modQueue q (fun k => { k with cfg := BitVec.ofNat 32 w })
  else
    let (w, u) := queueField req off 18 9 1 256 v (k.agg.toNat, s)
    u.modQueue q (fun k => { k with agg := BitVec.ofNat 32 (setBits w 0 18 (bits v 0 18)) })

/-- PRS_IMAP of the selected entry: ids below 16 are reserved (R114). -/
def State.writeImap (s : State) (req : Requester) (v : Nat) : State :=
  let n := bits (s.sel req 0x020 0x244) 0 6
  let old := (sget 0#32 s.prs.imap n).toNat
  let one (lo : Nat) (e : Nat × State) : Nat × State :=
    if 16 ≤ bits v lo 12 then (setBits e.1 lo 12 (bits v lo 12), e.2) else (e.1, e.2.errInfo 0x020 0 0x248 (reqCode req))
  let (w, u) := one 16 (one 0 (old, s))
  { u with prs := { u.prs with imap := sset 0#32 u.prs.imap n (BitVec.ofNat 32 (setBits w 31 1 (bits v 31 1))) } }

/-- STO_SEC_CTRL: only the trust core's writes take effect (R312); after a failed wipe SEC_CORES stays 0 until the next cold start (R389). -/
def State.writeSecCtrl (s : State) (req : Requester) (v : Nat) : State :=
  if req = .trust then (if s.sto.wipeFail then s else s.setField 0x0D0 0x100 0 1 v) else s.errInfo 0x0D0 1 0x100 (reqCode req)

/-- MEIP is asserted again at a core whose THRESHOLD or priorities changed, while a source is deliverable (R297). -/
def State.remeip (s : State) (l : Nat) : State :=
  if s.active l && (s.claimable l).isSome then s.reach l 16 else s

/-- A write of a bank's priorities that lifts a pending private source above 0 has it delivered (R296); was is the state before the write. -/
def State.privLifted (s was : State) (l : Nat) : State :=
  (List.range 34).foldl (fun u n => if was.privPrio l n = 0 then u.deliverPriv l n else u) s

/-- A 64-bit RW register whose halves are the unstaged pairs of R408; the place of the low half. -/
def unstaged (page off : Nat) : Option Nat :=
  match pageClass page with
  | some .icuBank =>
    if off < 0x100 ∨ 0x900 ≤ off then none
    else if (off - 0x100) % 0x200 = 0x10 then some off else if (off - 0x100) % 0x200 = 0x14 then some (off - 4) else none
  | some .ctl => if off = 0x1A8 ∨ off = 0x1AC then some 0x1A8 else none
  | some .tru => if off = 0x160 ∨ off = 0x164 then some 0x160 else none
  | some .qmg1 => if off = 0x110 ∨ off = 0x114 then some 0x110 else if off = 0x118 ∨ off = 0x11C then some 0x118 else none
  | _ => none

/-- The value of an unstaged pair. -/
def State.pairValue (s : State) (req : Requester) (page lo : Nat) : Nat :=
  if page = 0x0B1 then
    let k := s.queue (bits (s.sel req 0x0B1 0x100) 0 16)
    if lo = 0x110 then k.sqBase else k.cqBase
  else s.word64 page lo

/-- An unstaged pair takes a whole value. -/
def State.setPair (s : State) (req : Requester) (page lo v : Nat) : State :=
  if page = 0x0B1 then
    let q := bits (s.sel req 0x0B1 0x100) 0 16
    let b := v / 4096 * 4096
    s.modQueue q (fun k => if lo = 0x110 then { k with sqBase := b } else { k with cqBase := b })
  else match pageClass page with
    | some .icuBank => s.setTimecmp (4 * (page - 0x0C2) + (lo - 0x100) / 0x200) v
    | _ =>
      let m := accMask s.order page lo .rw + 2 ^ 32 * accMask s.order page (lo + 4) .rw
      s.setWord64 page lo (v &&& m)

/-- The key under which a low half of a pair is held. -/
def State.pairKey (s : State) (req : Requester) (page lo : Nat) : Nat :=
  if page = 0x0B1 then baseHalfKey (bits (s.sel req 0x0B1 0x100) 0 16) lo else 4096 * page + lo

/-- What stands against a write of a pair: a queue the requester does not own, or one that is not disabled. -/
def State.pairBarred (s : State) (req : Requester) (page : Nat) : Option Nat :=
  if page = 0x0B1 then
    if !(s.windowOpen req) then some 1 else if (s.queue (bits (s.sel req 0x0B1 0x100) 0 16)).state ≠ 0 then some 0 else none
  else none

/-- A 32-bit write of one half of an unstaged pair (R408). -/
def State.writeHalf (s : State) (req : Requester) (page lo : Nat) (high : Bool) (v : Nat) : State :=
  match s.pairBarred req page with
  | some kind => s.errInfo (errPage page) kind (if high then lo + 4 else lo) (reqCode req)
  | none =>
    let key := s.pairKey req page lo
    let held := s.reg.half.find? (fun h => decide (h.1 = key))
    let drop (u : State) : State := { u with reg := { u.reg with half := u.reg.half.filter (fun h => decide (h.1 ≠ key)) } }
    let skew (u : State) : State := u.errInfo (errPage page) 2 (if high then lo + 4 else lo) (reqCode req)
    if high then
      match held with
      | some h =>
        if h.2.1 = reqIndex req then (drop s).setPair req page lo (h.2.2.toNat + 2 ^ 32 * v)
        else (skew s).setPair req page lo (s.pairValue req page lo % 2 ^ 32 + 2 ^ 32 * v)
      | none => s.setPair req page lo (s.pairValue req page lo % 2 ^ 32 + 2 ^ 32 * v)
    else
      let s1 := match held with
        | some h => if h.2.1 = reqIndex req then s else skew s
        | none => s
      let s2 := drop s1
      { s2 with reg := { s2.reg with half := s2.reg.half ++ [(key, reqIndex req, BitVec.ofNat 32 v)] } }

/-- A 64-bit write of an unstaged pair takes effect whole (R408). -/
def State.writePair (s : State) (req : Requester) (page lo v : Nat) : State :=
  match s.pairBarred req page with
  | some kind => s.errInfo (errPage page) kind lo (reqCode req)
  | none => s.setPair req page lo v

/-! ### Plain writes -/

/-- A write to a command register that no row of its own describes: a reserved command, or several at once. -/
def State.writeCommand (s : State) (req : Requester) (page off v : Nat) : Option State :=
  if page = 0x012 ∧ off = 0x114 then some (s.writeRgnOp req v)
  else if page = 0x0B1 ∧ (off = 0x104 ∨ off = 0x108) then some (s.writeQueueWord req off v)
  else if page = 0x0B1 ∧ off = 0x120 then
    some (if !(s.windowOpen req) || decide (2 ≤ bits v 0 1 + bits v 1 1 + bits v 2 1) then s.errInfo 0x0B0 1 0x120 (reqCode req) else s)
  else if page = 0x0B1 ∧ 0x104 ≤ off ∧ off < 0x130 ∧ !(s.windowOpen req) then some (s.errInfo 0x0B0 1 off (reqCode req))
  else if page = 0x020 ∧ off = 0x248 then some (s.writeImap req v)
  else if page = 0x0D0 ∧ off = 0x100 then some (s.writeSecCtrl req v)
  else if page = 0x0C0 ∧ off = 0x1A0 then
    some (match req with | .core _ => if bits v 9 2 = 3 then s.errInfo 0x0C0 0 0x1A0 (reqCode req) else s | _ => s)
  else if page = 0x003 ∧ off = 0x16C then
    some (if decide (bits v 0 3 = 0) || decide (5 < bits v 0 3) then s.errInfo 0x003 0 0x16C (reqCode req) else s)
  else none

/-- A 32-bit write of a register word (R5). -/
def State.writeWord (s : State) (req : Requester) (page off v : Nat) : State :=
  match s.writeCommand req page off v with
  | some u => u
  | none =>
    match unstaged page off with
    | some lo => s.writeHalf req page lo (decide (off ≠ lo)) v
    | none =>
      let u := (wordRows s.order page off).foldl (State.writeField req page off v) s
      let l := 4 * (page - 0x0C2) + (off - 0x100) / 0x200
      if pageClass page = some .icuBank ∧ 0x100 ≤ off ∧ off < 0x900 then (u.privLifted s l).remeip l else u

/-- An access that breaks R8 completes and is recorded as an access error, at an absent page in the PLT page (R8, R402). -/
def State.badAccess (s : State) (req : Requester) (page off : Nat) : State :=
  if s.sees req page off then s.errInfo (errPage page) 1 off (reqCode req)
  else if !(pageExists s.order page) && s.fullSet req then s.errInfo 0x000 1 off (reqCode req)
  else s

/-- BAR0_BAD_ACCESS (R8): reads zero, writes nothing, and is recorded. -/
def execBar0BadAccess (req : Requester) (page off width : Nat) (write : Bool) (s : State) : Result :=
  let o := off % 4096
  if goodAccess o width then done s
  else done (s.inOrder (.bar0BadAccess req page off width write) req (fun u =>
    let v := u.badAccess req page o
    if write then v else v.emit (.readData req 0#64)))

/-! ### Reads that latch -/

/-- The low half of a 64-bit RO register lies at an offset of a page. -/
def wideRo (page off : Nat) : Bool :=
  match pageClass page with
  | some .rgn => decide (off = 0x180)
  | some .rck1 => decide (off = 0x108 ∨ off = 0x140)
  | some .prs => decide (off = 0x110) || (decide (page = 0x020) && decide (off = 0x1A0))
  | some .dir => decide (off = 0x110)
  | some .tns => decide (off = 0x138 ∨ off = 0x140 ∨ off = 0x148)
  | some .lst => decide (off = 0x128)
  | some .den => decide (off = 0x110 ∨ off = 0x120 ∨ off = 0x128)
  | some .prt => decide (off = 0x110 ∨ off = 0x130)
  | some .ctl => decide (off = 0x100 ∨ off = 0x1B0)
  | some .icuBank => decide (0x100 ≤ off) && decide ((off - 0x100) % 0x200 = 0x80)
  | some .sto => decide (off = 0x108 ∨ off = 0x120 ∨ off = 0x128)
  | some .vat => decide (off = 0x110)
  | some .clr => decide (off = 0x110)
  | some .igr0 => decide (off = 0x130)
  | some .igr1 => decide (off = 0x110 ∨ off = 0x118)
  | some .tim => decide (off = 0x100) || (decide (0x110 ≤ off) && decide (off < 0x170) && decide (off % 0x10 = 0))
  | some .tru => decide (off = 0x110 ∨ off = 0x120)
  | some .otp => decide (off = 0x108)
  | some .plt => decide (off = 0x108)
  | _ => false

/-- The key of a latched high half. -/
def latchKey (req : Requester) (page off : Nat) : Nat := 2 ^ 24 * reqIndex req + (4096 * page + off)

/-- A 32-bit read (R404): the low half of a 64-bit RO register latches the high half for the requester, whose next read of the high half returns it. -/
def State.readReg32 (s : State) (req : Requester) (page off : Nat) : Nat × State :=
  let without (k : Nat) : List (Nat × Word) := s.reg.latch.filter (fun e => decide (e.1 ≠ k))
  if !(s.sees req page off) then (0, s)
  else if wideRo page off then
    let k := latchKey req page off
    (s.readVisible req page off,
      { s with reg := { s.reg with latch := without k ++ [(k, BitVec.ofNat 32 (s.readVisible req page (off + 4)))] } })
  else
    let k := latchKey req page (off - 4)
    match s.reg.latch.find? (fun e => decide (e.1 = k ∧ 4 ≤ off)) with
    | some e => (e.2.toNat, { s with reg := { s.reg with latch := without k } })
    | none => (s.readVisible req page off, s)

/-- A read of 32 or 64 bits. -/
def State.readReg (s : State) (req : Requester) (page off : Nat) (wide : Bool) : Nat × State :=
  if wide then (s.readVisible req page off + 2 ^ 32 * s.readVisible req page (off + 4), s) else s.readReg32 req page off

/-- A read of the queue window for a queue that a port outside the full set does not own is an access error (chapter 10). -/
def State.readGuard (s : State) (req : Requester) (page off : Nat) : State :=
  if page = 0x0B1 ∧ 0x104 ≤ off ∧ off < 0x130 ∧ !(s.windowOpen req) then s.errInfo 0x0B0 1 off (reqCode req) else s

/-- LOW_HALF_READ (R404), or a read of 64 bits, which tears nothing and latches nothing: a page its requester does not reach reads zero (R258, R402). -/
def execLowHalfRead (req : Requester) (page off : Nat) (s : State) (wide : Bool := false) : Result :=
  let o := off % 4096 / 4 * 4
  done (s.inOrder (.lowHalfRead req page off wide) req (fun u =>
    if u.reaches req page o then
      let (v, u1) := (u.touch page).readReg req page o wide
      (u1.readGuard req page o).emit (.readData req (BitVec.ofNat 64 v))
    else u.emit (.readData req 0#64)))

/-! ### The page header -/

/-- ERR_STATUS_CLEAR (R403): bits written as 1 clear, a bit that rises in the same cycle stays set, and its rise counts as one. -/
def execErrStatusClear (req : Requester) (page : Nat) (mask rising : Word) (s : State) : Result :=
  s.reg' (.errStatusClear req page mask rising) req page 0x018 (fun u =>
    let m := mask.toNat &&& (accMask u.order page 0x018 .w1c)
    let rise := rising.toNat &&& (accMask u.order page 0x018 .w1c)
    let old := u.word page 0x018
    let kept := (List.range 32).foldl (fun a i => if old.testBit i && !(m.testBit i) then a + 2 ^ i else a) 0
    let u1 := u.setWord page 0x018 kept
    let u2 := if kept = 0 then u1.setWord page 0x020 0 else u1
    ((List.range 32).foldl (fun v i => if rise.testBit i then v.err page i else v) u2).watch)

/-- ERR_MASK_WRITE (R403): a mask bit cleared while its status bit is set raises the interrupt once. -/
def execErrMaskWrite (req : Requester) (page : Nat) (mask : Word) (s : State) : Result :=
  s.reg' (.errMaskWrite req page mask) req page 0x01C (fun u =>
    let freed := (List.range 32).any (fun i =>
      (u.word page 0x01C).testBit i && !(mask.toNat.testBit i) && (u.word page 0x018).testBit i)
    let u1 := u.setWord page 0x01C mask.toNat
    if freed then u1.pageInterrupt page else u1)

/-- CNT_CLEAR (R402). -/
def execCntClear (req : Requester) (page : Nat) (s : State) : Result :=
  s.reg' (.cntClear req page) req page 0x008 (fun u => (List.range 6).foldl (fun v i => v.setWord page (0x028 + 4 * i) 0) u)

/-- Every staged value of a page returns to its live value (R402); while a commit is on its way the staged words keep those values whatever it makes live (R407). -/
def State.discardStaged (s : State) (page : Nat) : State :=
  let l :=
    if s.commitBusy page then s.reg.staged.map (fun e => if e.1 / 4096 = page then (e.1, BitVec.ofNat 32 (s.word page (e.1 % 4096))) else e)
    else s.reg.staged.filter (fun e => decide (e.1 / 4096 ≠ page))
  { s with reg := { s.reg with staged := l } }

/-- STAGE_DISCARD (R402). -/
def execStageDiscard (req : Requester) (page : Nat) (s : State) : Result :=
  s.reg' (.stageDiscard req page) req page 0x008 (fun u => u.discardStaged page)

/-! ### Commit -/

/-- COMMIT (R405): busy, stale or accepted. -/
def execCommit (req : Requester) (page gen : Nat) (s : State) : Result :=
  s.reg' (.commit req page gen) req page 0x014 (fun u =>
    if u.commitBusy page then u.errInfo (errPage page) 1 0x014 (reqCode req)
    else if u.field page 0x010 0 16 ≠ gen % 65536 then u.errInfo (errPage page) 3 0x014 (reqCode req)
    else
      let u1 := u.setField page 0x010 0 16 (u.field page 0x010 0 16 + 1)
      { u1 with reg := { u1.reg with taken := u1.reg.taken ++ [⟨page, reqCode req, u.dirtyWords page⟩] } })

/-- The word an accepted commit would leave in a register. -/
def State.candidate (s : State) (c : Taken) (off : Nat) : Nat :=
  match c.vals.find? (fun e => decide (e.1 = 4096 * c.page + off)) with
  | some (_, w) => w.toNat
  | none => s.word c.page off

/-- A commit would change RCK_HOST_BASE or RCK_HOST_SIZE of port p. -/
def State.windowChanges (s : State) (c : Taken) (p : Nat) : Bool :=
  [0x140, 0x144, 0x148].any (fun o => decide (s.candidate c (o + 0x10 * p) ≠ s.word 0x018 (o + 0x10 * p)))

/-- A rule of the owning chapter refuses a field of an accepted commit: RANGE_GIB (R26, R48), PRIV (R31), LIMIT_GIB (R34), the pairs of R66, a host window with tiles (R73), PWR_STEP_CTRL (R363), EDN LIMIT (R131), LIMIT_MIB (R180). -/
def State.refuses (s : State) (c : Taken) (off : Nat) (r : Row) : Bool :=
  let v := bits (s.candidate c off) r.lo r.width
  let old := bits (s.word c.page off) r.lo r.width
  match pageClass c.page with
  | some .rgn =>
    if off = 0x100 then
      decide (v ≠ old) && (decide (0 < s.validRegions) || decide (0 < s.freeingRegions)
        || s.mem.slotUse.any (fun e => decide (e.2 = .window) && decide (e.1 < 160 * v)))
    else if off = 0x104 then
      s.rgn.entries.any (fun e => e.2.valid && decide (e.2.kind = 3)
        && (List.range 6).any (fun p => e.2.writeMask.getLsbD p && old.testBit p && !(v.testBit p)))
    else decide (off = 0x108) && decide (1024 * v < s.pinMib)
  | some .rck0 =>
    if off = 0x104 then decide (bits (s.candidate c 0x104) 0 8 ≤ bits (s.candidate c 0x104) 8 8)
    else if off = 0x10C then decide (bits (s.candidate c 0x10C) 8 8 ≤ bits (s.candidate c 0x10C) 0 8)
    else if 0x140 ≤ off ∧ off < 0x1A0 ∧ (off - 0x140) % 0x10 < 0xC then
      let p := (off - 0x140) / 0x10
      s.windowChanges c p && decide (s.hostTiles p ≠ [])
    else false
  | some .pwr =>
    let w := s.candidate c 0x110
    decide (off = 0x110) && !(decide (bits w 0 8 < bits w 8 8) && decide (bits w 8 8 < bits w 16 8) && decide (bits w 16 8 ≤ 94))
  | some .edn => decide (off = 0x104) && decide (v < s.draftsUsed)
  | some .lst => decide (off = 0x108) && decide (v < s.windowMib)
  | _ => false

/-- The register that a refusal names: a host window's by its BASE or its SIZE. -/
def refusedOff (page off : Nat) : Nat := if page = 0x018 ∧ 0x140 ≤ off ∧ (off - 0x140) % 0x10 = 4 then off - 4 else off

/-- One field of an accepted commit: it takes effect, or keeps its live value, its staged value returns to that, and CONFIG is set (R406). judge is the state in which the rules are checked. -/
def State.commitField (judge : State) (c : Taken) (off : Nat) (s : State) (r : Row) : State :=
  let v := bits (judge.candidate c off) r.lo r.width
  let old := bits (judge.word c.page off) r.lo r.width
  if judge.refuses c off r then
    let s1 := if v ≠ old ∧ bits (s.stagedWord c.page off) r.lo r.width = v then
        s.setStaged c.page off (setBits (s.stagedWord c.page off) r.lo r.width old) else s
    s1.errInfo c.page 0 (refusedOff c.page off) c.req
  else s.setField c.page off r.lo r.width v

/-- Staged words of a page that now equal the live ones are no longer listed (R405); those of other pages stay, since a commit of theirs may be on its way (R407). -/
def State.settleStaged (s : State) (page : Nat) : State :=
  { s with reg := { s.reg with staged := s.reg.staged.filter (fun e => decide (e.1 / 4096 ≠ page) || s.differs e) } }

/-- What a block does as committed values take effect: a port's class-0 buckets are refilled (R257), units are placed on engines that admit (R205), a window whose ENABLE cleared goes offline (R74), and usage and watermarks are judged again. -/
def State.afterCommit (s : State) (page : Nat) (vals : Sparse Word) : State :=
  let has (off : Nat) : Bool := vals.any (fun e => decide (e.1 % 4096 = off))
  match pageClass page with
  | some .prt =>
    match portOf (page - 8) with
    | some p =>
      if has 0x118 || has 0x11C then
        let depth := 1024 * s.field page 0x11C 0 11
        (s.modPort p (fun q => { q with rdBucket := depth, wrBucket := depth, bucketAt := s.now })).settle
      else s
    | none => s
  | some .den => s.placeUnits
  | some .rck0 =>
    let s1 := allPorts.foldl (fun u p =>
      if u.field 0x018 (0x14C + 0x10 * p.val) 0 1 = 0 then u.windowOff p else u) s
    if has 0x10C || has 0x104 then s1.demoteIfLow else if has 0x100 then s1.settleUsage else s1
  | some .rgn => if has 0x100 then s.settleUsage else s
  | _ => s

/-- The islands whose dormancy a commit has newly enabled begin their idle time (R362). -/
def State.dozeEnabled (s : State) (old : Nat) : State :=
  (List.range 32).foldl (fun u i => if (s.word 0x001 0x114).testBit i && !(old.testBit i) then u.dozeLater i else u) s

/-- COMMIT_TAKES_EFFECT (R406): the oldest accepted commit of a page is checked, and what is not refused takes effect together. -/
def execCommitTakesEffect (page : Nat) (s : State) : Result :=
  match s.reg.taken.find? (fun c => decide (c.page = page)) with
  | none => done s
  | some c =>
    let s0 := { s with reg := { s.reg with taken := s.reg.taken.eraseP (fun x => decide (x.page = page)) } }
    let s1 := c.vals.foldl (fun (u : State) e =>
      ((wordRows s.order page (e.1 % 4096)).filter (fun r => decide (r.acc = .rws))).foldl (State.commitField s c (e.1 % 4096)) u) s0
    done (((s1.settleStaged page).dozeEnabled (s.word 0x001 0x114)).afterCommit page c.vals)

end Sys2Proof.Machine
end

