-- ==== Sys2Proof/Machine/CoreOps.lean ====
section
/-! DEFINITION. The control cores' shared operations (R283 to R293): the physical map, traps, the record of R290, starting, halting and retiring a core. -/

namespace Sys2Proof.Machine

/-! ### The physical map (R285) -/

/-- Where an address of a core lies. -/
inductive CorePlace where
  | store (x : Spot)
  | page (page off : Nat)
  | doorbell (queue off : Nat)
  | bank (off : Nat)
  | unified (a : Nat)
  | nothing
deriving DecidableEq, Repr, Inhabited

/-- The place of a core's address (R285). -/
def corePlace (c a : Nat) : CorePlace :=
  if a < 0x40000 then .store ⟨3, c, a⟩
  else if 0x1000000 ≤ a ∧ a < 0x1000000 + 0x40000 * 18 then .store ⟨3, (a - 0x1000000) / 0x40000, a % 0x40000⟩
  else if 0x10000000 ≤ a ∧ a < 0x11000000 then .store ⟨2, 0, a - 0x10000000⟩
  else if 0x20000000 ≤ a ∧ a < 0x21000000 then .page ((a - 0x20000000) / 4096) (a % 4096)
  else if 0x21000000 ≤ a ∧ a < 0x21080000 then .doorbell ((a - 0x21000000) / 8) (a % 8)
  else if 0x22000000 ≤ a ∧ a < 0x22000200 then .bank (a - 0x22000000)
  else if 2 ^ 44 ≤ a ∧ a < 2 ^ 45 then .unified (a - 2 ^ 44)
  else .nothing

/-! ### Words and their errors -/

/-- The tensor row beneath a cluster or row store. -/
def storeRow (store inst : Nat) : Option Nat := match store with | 0 => some (inst / 64) | 1 => some inst | _ => none

/-- WHERE of IGR_UE_INFO for a store. -/
def storeWhere (store : Nat) : Nat := 3 + store

/-- The bucket that a store's corrections feed (R341). -/
def storeBucket (store inst : Nat) : Nat × Nat := match storeRow store inst with | some r => (3, r) | none => (4, 0)

/-- Location of a place for IGR_UE_ADDR. -/
def Spot.ueAddr (x : Spot) : Nat := 2 ^ 32 * x.inst + x.off

/-- A corrected word of a store feeds its bucket, and one of a cluster store is counted by its cluster (R341, R345). -/
def State.storeCorrection (s : State) (x : Spot) (double : Bool) : State :=
  (if x.store = 0 then s.storeCorrected (x.inst / 64) (x.inst % 64) else s).corrected double [storeBucket x.store x.inst]

/-- n bytes of a place as a requester's read finds them: the value, whether the word is poisoned, and whether it has an uncorrectable error; a corrected error is delivered corrected and counted (R334, R337). ue says that the error cannot be corrected, else upset gives the wrong bits of the word's cells. -/
def State.seeWord (s : State) (x : Spot) (n : Nat) (ue : Bool) (upset : Upset) : (Nat × Bool × Bool) × State :=
  match upset with
  | .hit _ flips =>
    let (d, p) := s.stoRead { x with off := x.off / 8 * 8 } 8
    let part (v : Nat) : Nat := v / 2 ^ (8 * (x.off % 8)) % 2 ^ (8 * n)
    if ue then ((0, p, true), s)
    else match code64.readUpset d p flips.toNat with
      | .good v => ((part v, false, false), s)
      | .poisoned ce => ((0, true, false), if ce then s.storeCorrection x false else s)
      | .corrected v two => ((part v, false, false), s.storeCorrection x two)
      | .bad => ((0, p, true), s)
  | _ => let (v, p) := s.stoRead x n; ((v, p, ue), s)

/-- n bytes written over a word as a read found it: with wrong bits in its cells the whole word is written anew, the rest of it as corrected. -/
def State.putWord (s : State) (x : Spot) (n v : Nat) (upset : Upset) : State :=
  match upset with
  | .hit _ _ =>
    let y : Spot := { x with off := x.off / 8 * 8 }
    let ((d, _, _), _) := s.seeWord y 8 false upset
    s.stoWrite y 8 (setBits d (8 * (x.off % 8)) (8 * n) v)
  | _ => s.stoWrite x n v

/-! ### Running -/

/-- A physical core executes instructions. -/
def State.executes (s : State) (c : Nat) : Bool :=
  let k := s.core c
  s.released && decide (k.state = 1) && k.wfiAt.isNone && (!k.debugHalt || k.debugStep)

/-- Cycles of a core since they were last counted, at 1.05 GHz (R284). -/
def Core.cycles (k : Core) (now : Nat) : Nat := now * 21 / 20 - k.cycleAt * 21 / 20

/-- An instruction of a core ends: the pc passes it, and minstret and mcycle count (R284). -/
def State.retired (s : State) (c : Nat) (short : Bool) : State :=
  s.modCore c (fun k => { k with
    pc := k.pc + (if short then 2#64 else 4#64), minstret := k.minstret + 1#64
    mcycle := k.mcycle + BitVec.ofNat 64 (k.cycles s.now), cycleAt := s.now, debugStep := false })

/-- Write an integer register; x0 stays zero. -/
def Core.setX (k : Core) (r : Fin 32) (v : DWord) : Core := if r.val = 0 then k else { k with x := k.x.set r v }

/-- A core takes a trap: mcause, mtval and mepc are written, mstatus saves MIE and the mode, the core goes on in machine mode at the base of mtvec, and its reservation ends (R290, R309; the layout of mstatus is that of RV64, PRESUMED, log entry 46). -/
def State.trap (s : State) (c cause tval : Nat) : State :=
  s.modCore c (fun k =>
    let ms := k.mstatus.toNat
    { k with
      mcause := BitVec.ofNat 64 cause, mtval := BitVec.ofNat 64 tval, mepc := k.pc
      mstatus := BitVec.ofNat 64 (setBits (setBits (setBits ms 7 1 (bits ms 3 1)) 3 1 0) 11 2 (if k.machine then 3 else 0))
      machine := true, pc := k.mtvec &&& ~~~3#64, reservation := none
      mcycle := k.mcycle + BitVec.ofNat 64 (k.cycles s.now), cycleAt := s.now, debugStep := false })

/-- CTL_ERR_ADDR and CTL_ERR_INFO record an event of R290; KINDs 1 and 2 set CORE_TRAP_UE. -/
def State.coreEvent (s : State) (c kind a : Nat) : State :=
  let s1 := (s.setWord64 0x0C0 0x1B0 a).setWord 0x0C0 0x1B8 (c + kind * 2 ^ 5)
  let s2 := if kind = 1 then s1.count 0x0C0 0 else if kind = 2 then s1.count 0x0C0 1 else if kind = 3 then s1.count 0x0C0 2 else s1
  if kind = 1 ∨ kind = 2 then s2.err 0x0C0 8 else s2

/-- An uncorrectable word of shared or local memory met by a core is recorded (R338), and one of a core's local memory that traps with KIND 1 or 2 counts towards that core's retirement (R345). -/
def State.coreUe (s : State) (x : Spot) (kind : Nat) : State :=
  let s1 := s.recordUe (if x.store = 3 then 6 else 5) 0 (2 ^ 32 * x.inst + x.off)
  if x.store = 3 ∧ (kind = 1 ∨ kind = 2) then s1.modCore x.inst (fun k => { k with ueTimes := k.ueTimes ++ [s.now] }) else s1

/-- A mesh error that an access of a core over the mesh meets, if it meets one: all of its accesses but those to its own local memory go there (R316). -/
def State.meshMeets (s : State) (c : Nat) : Option Bool × State :=
  match (s.core c).meshHit with
  | some h => (some h, s.modCore c (fun k => { k with meshHit := none }))
  | none => (none, s)

/-- The same of an access to a word of the on-die stores. -/
def State.meshAt (s : State) (c : Nat) (x : Spot) : Option Bool × State := if x.store = 3 ∧ x.inst = c then (none, s) else s.meshMeets c

/-- What bars a core from a place: the secure partition while SEC_CORES is 0 (R312). -/
def State.barred (s : State) (x : Spot) : Bool := x.secure && !s.secCores

/-! ### Physical memory protection (R283) -/

/-- Ones at the low end of a number, of at most n. -/
def onesLow : Nat → Nat → Nat
  | 0, _ => 0
  | n + 1, v => if v % 2 = 1 then onesLow n (v / 2) + 1 else 0

/-- The bytes that PMP entry i matches, from and up to; an entry that is off matches none (the layout is that of RV64, PRESUMED, log entry 102). -/
def Core.pmpRange (k : Core) (i : Nat) : Nat × Nat :=
  let at' (j : Nat) : Nat := (k.pmpaddr.toList.getD j 0#64).toNat
  let a := at' i
  match bits ((k.pmpcfg.toList.getD i 0#8).toNat) 3 2 with
  | 0 => (0, 0)
  | 1 => (if i = 0 then 0 else 4 * at' (i - 1), 4 * a)
  | 2 => (4 * a, 4 * a + 4)
  | _ =>
    let n := 2 ^ (onesLow 54 a + 3)
    (4 * a / n * n, 4 * a / n * n + n)

/-- n bytes at a may be read (right 0), written (1) or executed (2): the lowest entry that matches some of them matches all, and grants the right, or is not locked and the mode is machine; where none matches, machine mode alone may. -/
def Core.pmpAllows (k : Core) (a n right : Nat) (machine : Bool) : Bool :=
  match (List.range 16).find? (fun i => decide ((k.pmpRange i).1 < a + n) && decide (a < (k.pmpRange i).2)) with
  | none => machine
  | some i =>
    let cfg := (k.pmpcfg.toList.getD i 0#8).toNat
    decide ((k.pmpRange i).1 ≤ a) && decide (a + n ≤ (k.pmpRange i).2) && (cfg.testBit right || (machine && !(cfg.testBit 7)))

/-- A data access of a core is let through: in its mode, or with MPRV set in that of MPP. -/
def State.pmpData (s : State) (c a n : Nat) (write : Bool) : Bool :=
  let k := s.core c
  k.pmpAllows a n (if write then 1 else 0) (if k.mstatus.getLsbD 17 then decide (bits k.mstatus.toNat 11 2 = 3) else k.machine)

/-- A fetch of a core is let through: the two bytes of the shortest instruction. -/
def State.pmpFetch (s : State) (c a : Nat) : Bool := (s.core c).pmpAllows a 2 2 (s.core c).machine

/-! ### The machine external interrupt (R297) -/

/-- MEIP of a core: some source delivered to it has PRIORITY above its THRESHOLD. It is a level: it falls when the source is claimed elsewhere or retargeted, when THRESHOLD rises, and under GLOBAL_DIS. -/
def State.meip (s : State) (c : Nat) : Bool :=
  let k := s.core c
  s.active k.logical && decide (s.physOf k.logical = c) && decide (k.state = 1) && (s.claimable k.logical).isSome

/-- The core takes the interrupt: MEIE is set, and MIE or user mode allows it (RV64, PRESUMED, log entry 102). -/
def State.takesMeip (s : State) (c : Nat) : Bool :=
  let k := s.core c
  s.meip c && k.mie.getLsbD 11 && (!k.machine || k.mstatus.getLsbD 3)

/-- mcause of the machine external interrupt. -/
def meipCause : Nat := 2 ^ 63 + 11

/-! ### The CSRs (R283, R284, R288) -/

/-- misa of RV64GC with user mode. -/
def misaValue : DWord := 0x800000000010112D#64

/-- Eight entries of pmpcfg, from entry i on, as a CSR. -/
def Core.pmpWord (k : Core) (i : Nat) : Nat := leNat ((k.pmpcfg.toList.drop i).take 8)

/-- The clock of a core runs: that of a dormant one is stopped (R284, R300, R362). -/
def Core.clocked (k : Core) : Bool := decide (k.state = 1)

/-- CSR n of core c, by RV64's numbers (PRESUMED, log entry 102): mstatus shows UXL and SD beside what it holds, mhartid is the physical number, time the time base, mip holds MEIP alone; one that the cores do not have reads 0. -/
def State.csr (s : State) (c n : Nat) : DWord :=
  let k := s.core c
  let cycles := k.mcycle + BitVec.ofNat 64 (if k.clocked then k.cycles s.now else 0)
  match n with
  | 0x001 => BitVec.ofNat 64 (bits k.fcsr.toNat 0 5)
  | 0x002 => BitVec.ofNat 64 (bits k.fcsr.toNat 5 3)
  | 0x003 => BitVec.ofNat 64 (bits k.fcsr.toNat 0 8)
  | 0x300 => BitVec.ofNat 64 (k.mstatus.toNat + 2 ^ 33 + (if bits k.mstatus.toNat 13 2 = 3 then 2 ^ 63 else 0))
  | 0x301 => misaValue
  | 0x304 => k.mie
  | 0x305 => k.mtvec
  | 0x306 => k.mcounteren.setWidth 64
  | 0x340 => k.mscratch
  | 0x341 => k.mepc
  | 0x342 => k.mcause
  | 0x343 => k.mtval
  | 0x344 => if s.meip c then 0x800#64 else 0#64
  | 0x3A0 => BitVec.ofNat 64 (k.pmpWord 0)
  | 0x3A2 => BitVec.ofNat 64 (k.pmpWord 8)
  | 0x7B0 => if k.machine then 3#64 else 0#64
  | 0xB00 | 0xC00 => cycles
  | 0xB02 | 0xC02 => k.minstret
  | 0xC01 => BitVec.ofNat 64 s.now
  | 0xF14 => BitVec.ofNat 64 c
  | _ => if 0x3B0 ≤ n ∧ n < 0x3C0 then k.pmpaddr.toList.getD (n - 0x3B0) 0#64 else 0#64

/-- Eight entries of pmpcfg are written, those that are locked excepted; their reserved bits stay 0. -/
def Core.setPmpWord (k : Core) (i : Nat) (v : DWord) : Core :=
  (List.range 8).foldl (fun (u : Core) j =>
    if (u.pmpcfg.toList.getD (i + j) 0#8).getLsbD 7 then u
    else { u with pmpcfg := u.pmpcfg.set! (i + j) (BitVec.ofNat 8 (v.toNat / 2 ^ (8 * j)) &&& 0x9F#8) }) k

/-- The address of PMP entry i is locked: by its own lock, or by that of the next entry, where that is TOR and starts there. -/
def Core.pmpLocked (k : Core) (i : Nat) : Bool :=
  let cfg (j : Nat) : Nat := (k.pmpcfg.toList.getD j 0#8).toNat
  (cfg i).testBit 7 || ((cfg (i + 1)).testBit 7 && decide (bits (cfg (i + 1)) 3 2 = 1))

/-- mstatus as a write leaves it: MIE, MPIE, MPP, FS, MPRV and TW, and an MPP that is no mode becomes user mode. -/
def statusMask (v : Nat) : Nat := let w := v &&& 0x227888; if bits w 11 2 = 3 then w else setBits w 11 2 0

/-- CSR n of a core takes a value; one that is read-only, or that the cores do not have, stays. -/
def Core.setCsr (k : Core) (n : Nat) (v : DWord) : Core :=
  match n with
  | 0x001 => { k with fcsr := BitVec.ofNat 32 (setBits k.fcsr.toNat 0 5 (bits v.toNat 0 5)) }
  | 0x002 => { k with fcsr := BitVec.ofNat 32 (setBits k.fcsr.toNat 5 3 (bits v.toNat 0 3)) }
  | 0x003 => { k with fcsr := BitVec.ofNat 32 (bits v.toNat 0 8) }
  | 0x300 => { k with mstatus := BitVec.ofNat 64 (statusMask v.toNat) }
  | 0x304 => { k with mie := v &&& 0x800#64 }
  | 0x305 => { k with mtvec := v &&& ~~~3#64 }
  | 0x306 => { k with mcounteren := v.setWidth 32 &&& 7#32 }
  | 0x340 => { k with mscratch := v }
  | 0x341 => { k with mepc := v &&& ~~~1#64 }
  | 0x342 => { k with mcause := v }
  | 0x343 => { k with mtval := v }
  | 0x3A0 => k.setPmpWord 0 v
  | 0x3A2 => k.setPmpWord 8 v
  | 0x7B0 => { k with machine := decide (v.toNat % 4 = 3) }
  | 0xB00 => { k with mcycle := v }
  | 0xB02 => { k with minstret := v }
  | _ =>
    if 0x3B0 ≤ n ∧ n < 0x3C0 ∧ !(k.pmpLocked (n - 0x3B0)) then { k with pmpaddr := k.pmpaddr.set! (n - 0x3B0) (BitVec.ofNat 64 (bits v.toNat 0 54)) } else k

/-! ### Start, stop and halt -/

/-- First byte of the hand-off block within shared memory (R289). -/
def handOffAt : Nat := 0xBFF000

/-- A core starts (R288): machine mode at the entry, every register zero but a0, a1 and a2, the instruction cache invalid, local memory zero, so that reservations on its words end (R309). -/
def State.startCore (s : State) (c l entry : Nat) : State :=
  let fresh : Core := { state := 1, logical := l, pc := BitVec.ofNat 64 entry, cycleAt := s.now }
  let k := ((fresh.setX 10 (BitVec.ofNat 64 l)).setX 11 (BitVec.ofNat 64 (0x10000000 + handOffAt))).setX 12 (BitVec.ofNat 64 c)
  let s1 := s.modCore c (fun _ => k)
  let lo := 2 ^ 36 * 3 + 2 ^ 15 * c
  { s1 with sto := { s1.sto with
    localMem := Memory.clear s1.sto.localMem (2 ^ 18 * c) (2 ^ 18)
    poison := s1.sto.poison.filter (fun e => !(decide (lo ≤ e.1) && decide (e.1 < lo + 2 ^ 15))) } }.breakRange lo (lo + 2 ^ 15)

/-- An idle spare starts as a vacant logical number, at CTL_SPARE_ENTRY (R293). -/
def State.fillVacancy (s : State) (c l : Nat) : State :=
  let s1 := s.setWord 0x0C0 (0x110 + 4 * l) (c + 2 ^ 7)
  (((s1.startCore c l (s1.word64 0x0C0 0x1A8)).count 0x0C0 5).useSpare 4).fillCore l

/-- The idle spare that the repair log promises in the place of core c (R293, R352). -/
def State.promisedSpare (s : State) (c : Nat) : Option Nat :=
  match (s.igr.log.filter (fun e => decide (e.action = 8 ∧ e.unit = c))).getLast? with
  | some e => if s.released && s.idleSpares.contains e.detail then some e.detail else none
  | none => none

/-- A physical core stops and is retired (R292): its logical number is vacant, and the sources aimed at it are redirected; then the spare that the cooper promised starts in its place (R293, R345). lost says that CORE_LOST of the core is raised now. -/
def State.retireCore (s : State) (c : Nat) (lost : Bool) : State :=
  let k := s.core c
  let l := k.logical
  let held := s.active l && decide (s.physOf l = c)
  let s1 := s.modCore c (fun k => { k with state := 4, notice := none, logical := 0, wfiAt := none, wakeAt := none, reservation := none })
  let s2 := if held then s1.setWord 0x0C0 (0x110 + 4 * l) 0 else s1
  let s3 := (s2.count 0x0C0 4).err 0x0C0 10
  let s4 := if lost then s3.raise (3872 + c) else s3
  if held then
    (match s4.promisedSpare c with
     | some sp => (s4.vacate l).fillVacancy sp l
     | none => s4.vacate l)
  else s4

/-- A core halts: an instruction access fault met it at mtvec (R290, R291); it is retired at once. -/
def State.haltCore (s : State) (c : Nat) : State :=
  let k := s.core c
  let s1 := (s.coreEvent c 5 (k.mtvec &&& ~~~3#64).toNat).modCore c (fun k => { k with state := 3, reservation := none, wfiAt := none })
  (((s1.count 0x0C0 3).err 0x0C0 9).raise (3872 + c)).retireCore c false

/-- RETIRE_NOTICE (R292): private source 33 is raised at the core that the cooper retires. -/
def State.notice (s : State) (c : Nat) : State :=
  let k := s.core c
  if s.active k.logical && decide (s.physOf k.logical = c) && k.notice.isNone then
    (s.modCore c (fun k => { k with notice := some s.now })).raisePriv k.logical 33
  else s

end Sys2Proof.Machine
end

