-- ==== Sys2Proof/Machine/Integrity.lean ====
section
/-! DEFINITION. Patrol scrub (R338 to R340), the leaky buckets' leak and log (R342), and the march test engine (R343, R344). -/

namespace Sys2Proof.Machine

/-! ### A visit to a vat line -/

/-- A codeword of a vat line, or two entries of the map reserve, are written back decoded (R340). -/
def State.putBack (s : State) (slot line q d : Nat) : State :=
  if slot < s.mapSlots then
    let n := (16384 * slot + 64 * line + 16 * q) / 8
    let casks := 32 * s.rangeGib * 16384 / 8
    [(n, d % 2 ^ 64), (n + 1, d / 2 ^ 64)].foldl (fun (u : State) e =>
      if e.1 < casks then { u with mem := { u.mem with tierMap := sset 0#64 u.mem.tierMap e.1 (BitVec.ofNat 64 e.2) } }
      else { u with mem := { u.mem with caskMap := sset 0#64 u.mem.caskMap (e.1 - casks) (BitVec.ofNat 64 e.2) } }) s
  else
    let v := s.vatLine slot line
    if v.2 then s else s.putVatLine slot line (putCodeword v.1 q d, false)

/-- Patrol scrub, or a cooper's copy (FOUND_BY 3), visits a line of the vat (R338, R340, R347): corrections feed the stack's bucket and are written back as decoded, poison found beside an error is written as poison. An uncorrectable line becomes poison, or, for scrub, zero where the slot holds no tile; in the map reserve it loses the entries. Nothing is written back after a later write, which the controller's address comparison finds (R322): the scrub's read and write-back are one step here, so what came between comes with the command (log entry 174). -/
def State.visitVat (s : State) (slot line : Nat) (upset : Upset) (laterWrite : Bool) (foundBy : Nat) : State :=
  let s0 := s.dramVat slot line false background
  match upset with
  | .hit q flips =>
    let reserve := decide (slot < s.mapSlots)
    let v := s.cellLine slot line
    let back (u : State) (f : State → State) : State := if laterWrite then u else (f u).dramVat slot line true background
    let whole (line' : List Byte × Bool) (u : State) : State := if reserve then u else u.putVatLine slot line line'
    let poison : List Byte × Bool := (List.replicate 64 0#8, true)
    let lose (u : State) : State := (s.mapTiles slot line q.val).foldl State.loseTile u
    match code128.readUpset (leNat ((v.1.drop (16 * q.val)).take 16)) v.2 flips.toNat with
    | .good _ => s0
    | .poisoned ce =>
      let s1 := if ce then s0.corrected false [(1, slot % 16)] else s0
      if reserve then lose s1 else if ce then back s1 (whole poison) else s1
    | .corrected d double =>
      back ((s0.corrected double [(1, slot % 16)]).suspect (vatRowUnit slot line) double) (fun u => u.putBack slot line q.val d)
    | .bad =>
      let s1 := s0.recordUe 1 foundBy (16384 * slot + 64 * line + 16 * q.val)
      if reserve then lose s1
      else if s.useOf slot = .free ∧ foundBy ≠ 3 then back s1 (whole (List.replicate 64 0#8, false))
      else back s1 (whole poison)
  | _ => s0

/-! ### A visit to a cellar sector -/

/-- Patrol scrub visits a cellar sector (R338): an uncorrectable one is left as found, and withheld if it holds no cask. A cellar codeword never carries the poison pattern, so one that decodes so is uncorrectable (R336; DEDUCED, log entry 47). -/
def State.visitCellar (s : State) (package sector : Nat) (upset : Upset) (laterWrite : Bool) : State :=
  let s0 := s.dramCellar package sector 1 false background
  let key := sectorKey package sector
  match upset with
  | .hit q flips =>
    let bytes := (s.getSectors package sector 1).1
    let bad (u : State) : State :=
      let u1 := u.recordUe 2 1 (package * 2 ^ 32 + sector)
      if laterWrite then u1
      else { u1 with mem := { u1.mem with
        cellarBad := sset false u1.mem.cellarBad key true
        withheld := if sget false u1.mem.sectorUse key then u1.mem.withheld else sset false u1.mem.withheld key true } }
    match code128.readUpset (leNat ((bytes.drop (16 * q.val)).take 16)) false flips.toNat with
    | .good _ => s0
    | .poisoned _ => bad s0
    | .corrected d double =>
      let s1 := (s0.corrected double [(2, package)]).suspect (cellarRowUnit package sector) double
      if laterWrite then s1 else (s1.putSectors package sector (putCodeword bytes q.val d)).dramCellar package sector 1 true background
    | .bad => bad s0
  | _ => s0

/-! ### A visit to an on-die word -/

/-- Byte offset of a word of a bank of a store: the inverse of R303. -/
def bankOff (store bank word : Nat) : Nat :=
  match store with
  | 0 => 8 * (32 * word + bank)
  | 1 => 64 * (word / 8 * 64 + bank) + 8 * (word % 8)
  | 2 => if bank < 48 then 64 * (word / 8 * 48 + bank) + 8 * (word % 8)
         else secureAt + 64 * (word / 8 * 16 + (bank - 48)) + 8 * (word % 8)
  | _ => 8 * (8 * word + bank)

/-- An uncorrectable word of a cluster or row store outside any job is rewritten as zero (R338). -/
def State.zeroWord (s : State) (x : Spot) : State :=
  match storeRow x.store x.inst with
  | some r => if s.jobHolds r then s else s.stoWrite x 8 0
  | none => s

/-- Patrol scrub visits a word of an on-die store (R338, R340); a write-back that meets a write of port A in its cycle loses to it, and is counted at the bank (R310, R311). -/
def State.visitStore (s : State) (x : Spot) (upset : Upset) (laterWrite collides : Bool) : State :=
  match upset with
  | .hit _ flips =>
    let (d, p) := s.stoRead x 8
    let back (u : State) (f : State → State) : State :=
      if laterWrite then u else if collides then u.collide x .scrub 0 else f u
    match code64.readUpset d p flips.toNat with
    | .good _ => s
    | .poisoned ce => if ce then back (s.storeCorrection x false) (fun u => u.stoPoison x) else s
    | .corrected d' double => back (s.storeCorrection x double) (fun u => u.stoWrite x 8 d')
    | .bad =>
      let s1 := s.recordUe (storeWhere x.store) 1 x.ueAddr
      back s1 (fun u => if x.store ≤ 1 then u.zeroWord x else u.stoPoison x)
  | _ => s

/-! ### The pass -/

/-- The tier of a suspect row. -/
def suspectTier : RepairUnit → Nat
  | .vatRow _ _ _ _ _ => 0
  | .cellarRow _ _ _ _ _ => 1
  | _ => 2

/-- n codewords of a tier have been visited: at the end of a pass it is counted, and rows without a correction in it leave the table of suspects (R339, R345). -/
def State.scrubAdvance (s : State) (tier n : Nat) : State :=
  let at' := s.igr.scrubPos.toList.getD tier 0 + n
  if at' < s.scrubTotal tier then { s with igr := { s.igr with scrubPos := s.igr.scrubPos.set! tier at' } }
  else
    let kept := (s.igr.suspects.filter (fun e => decide (suspectTier e.unit ≠ tier) || decide (0 < e.inPass))).map
      (fun e => if suspectTier e.unit = tier then { e with inPass := 0 } else e)
    ({ s with igr := { s.igr with
      scrubPos := s.igr.scrubPos.set! tier 0, suspects := kept, scrubbed := s.igr.scrubbed.filter (fun e => decide (e.1 % 4 ≠ tier)) } }).count 0x0E0 3

/-- The key of a place of a tier; whether the pass has visited it, and the mark that it has (R339). -/
def scrubKey : ScrubPlace → Nat
  | .vat slot line => 4 * (256 * (slot % vatSlots) + line % 256)
  | .cellar package sector => 4 * (2 ^ 30 * package + sector % 954437120) + 1
  | .store store inst bank word => 4 * (⟨store, inst, bankOff store bank word⟩ : Spot).word + 2
def State.scrubDone (s : State) (place : ScrubPlace) : Bool := sget false s.igr.scrubbed (scrubKey place)
def State.scrubMark (s : State) (place : ScrubPlace) : State :=
  { s with igr := { s.igr with scrubbed := sset false s.igr.scrubbed (scrubKey place) true } }

/-- Patrol scrub passes over a channel in STATE 2 or 3 (R339). -/
def State.chanSkipped (s : State) (ch : Chan) : Bool := decide (2 ≤ (s.chan ch).trainState)

/-- SCRUB_READ (R339, R340, R362, R392): the next visit of a tier whose scrub is enabled; a pass visits each place once. A place passed over counts as visited. -/
def execScrubRead (place : ScrubPlace) (upset : Upset) (laterWrite : Bool) (s : State) (collides : Bool := false) : Result :=
  if s.scrubDone place then done s
  else match place with
  | .vat slot line =>
    let slot := slot % vatSlots
    let line := line % 256
    if s.field 0x0E0 0x100 0 1 = 0 then done s
    else
      let (st, c, _, _, _) := vatPlace slot (64 * line)
      let s1 := if s.chanSkipped (.vat st c) then s else s.visitVat slot line upset laterWrite 1
      done (((s1.scrubMark place).scrubAdvance 0 4).settle)
  | .cellar package sector =>
    let sector := sector % 954437120
    if s.field 0x0E0 0x100 1 1 = 0 ∨ s.order.packages ≤ package then done s
    else
      let skip := s.chanSkipped (.cellar package (sector % 4)) || !(s.packageCounts package)
      done (((if skip then s else s.visitCellar package sector upset laterWrite).scrubMark place).scrubAdvance 1 4)
  | .store store inst bank word =>
    let x : Spot := ⟨store, inst, bankOff store bank word⟩
    if s.field 0x0E0 0x100 2 1 = 0 ∨ !(storeInst store inst) ∨ storeBanks store ≤ bank ∨ storeBytes store ≤ x.off then done s
    else
      let asleep : Bool := match storeRow store inst with | some r => s.rowDormant r | none => false
      let skip := asleep || (x.secure && s.wiping)
      done (((if skip then s else s.visitStore x upset laterWrite collides).scrubMark place).scrubAdvance 2 1)

/-! ### Leaky buckets -/

/-- BUCKET_LEAK (R342): a bucket above 0 drops by 1 when LEAK_S seconds have passed. -/
def execBucketLeak (kind : Fin 5) (index : Nat) (s : State) : Result :=
  let key := bucketKey kind.val index
  let level := sget 0 s.igr.level key
  if level = 0 ∨ !(bucketExists kind.val index) then done s
  else
    let s1 := s.until (sget 0 s.igr.leakAt key + sec * s.field 0x0E0 (0x108 + 4 * kind.val) 16 16)
    done { s1 with igr := { s1.igr with level := sset 0 s1.igr.level key (level - 1), leakAt := sset 0 s1.igr.leakAt key (if level = 1 then 0 else s1.now) } }

/-- BKT_POP (R342): the oldest overflow goes and OVF clears; an empty log stays. -/
def execBktPop (req : Requester) (s : State) : Result :=
  s.reg' (.bktPop req) req 0x0E0 0x12C (fun u =>
    if u.igr.bktLog = [] then u else { u with igr := { u.igr with bktLog := u.igr.bktLog.drop 1, bktOvf := 0 } })

/-! ### The march test engine -/

/-- A destructive run may target a store (R344). -/
def State.mayDestroy (s : State) (req : Requester) (store inst : Nat) : Bool :=
  let rowFree (r : Nat) : Bool := decide (s.field (tnsPage r) 0x100 0 1 = 0) && !(s.jobHolds r)
  match store with
  | 0 => decide (s.clusterState (inst / 64) (inst % 64) = 1) || decide (s.clusterState (inst / 64) (inst % 64) = 2) || rowFree (inst / 64)
  | 1 => rowFree inst
  | 2 => decide (req = .trust) && decide (s.pwr.starting = 1)
  | _ => decide ((s.core inst).state = 0) || decide ((s.core inst).state = 4)

/-- START of the march engine with IGR_MARCH_CTRL as it stands (R343, R344): a run begins, or REFUSED is set; while a run is in progress there is no effect. -/
def State.marchStart (s : State) (req : Requester) : State :=
  let v := s.word 0x0E1 0x100
  let mode := v.testBit 0
  let store := bits v 1 2
  let inst := bits v 3 10
  let first := bits v 13 6
  let last := bits v 19 6
  if s.igr.march.isSome then s
  else if last < first ∨ storeBanks store ≤ last ∨ !(storeInst store inst) ∨ (mode && !(s.mayDestroy req store inst)) then
    s.setField 0x0E1 0x108 3 1 1
  else
    let s1 := match storeRow store inst with | some r => s.wakeRow r | none => s
    let s2 := (s1.setField 0x0E1 0x108 3 1 0).setField 0x0E1 0x108 0 2 1
    { s2 with
      igr := { s2.igr with march := some (mode, store, inst, first, last), marchStop := false }
      sto := { s2.sto with marchHit := [] } }

/-- STOP of the march engine: the run ends after its current word. -/
def State.marchHalt (s : State) : State := if s.igr.march.isSome then { s with igr := { s.igr with marchStop := true } } else s

/-- MARCH_START (R343, R344). -/
def execMarchStart (req : Requester) (s : State) : Result := s.reg' (.marchStart req) req 0x0E1 0x104 (fun u => u.marchStart req)

/-- MARCH_STOP (R343). -/
def execMarchStop (req : Requester) (s : State) : Result := s.reg' (.marchStop req) req 0x0E1 0x104 State.marchHalt

/-- Words of a bank of a store (R302). -/
def bankDepth (store : Nat) : Nat := match store with | 0 => 8192 | 1 => 65536 | 2 => 32768 | _ => 4096

/-- What a word of the store reads as after the background of ones, 78 raw bits (R343): the decoder's outcome decides. -/
def onesWord : Nat × Bool :=
  match code64.decode (2 ^ 64 - 1) (2 ^ 14 - 1) with
  | .good d => (d, false)
  | .corrected d _ => (d, false)
  | .poisoned _ => (0, true)
  | .bad => (0, true)

/-- The word at place i of n, after an early stop of a destructive run with m operations done: as found, zeros or ones (R343). -/
def marchLeft (n m i : Nat) : Option Bool :=
  let e := m / n
  let k := m % n
  if e = 0 then (if i < k then some false else none)
  else if e = 1 then some (decide (i < k))
  else if e = 2 then some (decide (k ≤ i))
  else if e = 3 then some (decide (n - k ≤ i))
  else if e = 4 then some (decide (i < n - k))
  else some false

/-- Reservations on the first reach words that the engine tests end, in a preserving run as well: it has written them (R309, R343). -/
def State.marchBreaks (s : State) (store inst first last reach : Nat) : State :=
  (List.range 18).foldl (fun (u : State) c =>
    match (u.core c).reservation with
    | some k =>
      let o := 8 * (k % 2 ^ 36) - storeBytes store * inst
      let (bank, word) := bankWord store o
      if k / 2 ^ 36 = store ∧ 8 * (k % 2 ^ 36) / storeBytes store = inst ∧ first ≤ bank ∧ bank ≤ last ∧ (bank - first) * bankDepth store + word < reach then
        u.modCore c (fun x => { x with reservation := none })
      else u
    | none => u) s

/-- Word tests that a run of n words has done of the six a word takes: all of them, or of one that was stopped as many as the spec leaves open (a free value, log entry 48). -/
def State.marchDone (s : State) (n : Nat) (stopped : Bool) : Nat × State :=
  if stopped then (let (d, u) := s.draw; (Config.freePlace d % (6 * n), u)) else (6 * n, s)

/-- A store after a destructive run of banks first to last (R343): every word zero but those that port A wrote during the run, whose writes win (R344: any such write to a tested bank is taken to meet the engine, and one of port B to be overwritten by it; DESIGN CHOICE, log entry 174); after an early stop, with m tests done, the words reached so far hold a background and the others are as found. -/
def State.marchEffect (s : State) (store inst first last m : Nat) (stopped : Bool) : State :=
  let won (k : Nat) : Bool := s.sto.marchHit.contains k
  if stopped then
    let n := (last + 1 - first) * bankDepth store
    (List.range n).foldl (fun (u : State) i =>
      let x : Spot := ⟨store, inst, bankOff store (first + i / bankDepth store) (i % bankDepth store)⟩
      if won x.word then u
      else match marchLeft n m i with
      | none => u
      | some false => u.stoWrite x 8 0
      | some true => if onesWord.2 then u.stoPoison x else u.stoWrite x 8 onesWord.1) s
  else
    let lo := storeBytes store * inst
    let hit (a : Nat) : Bool := decide (lo ≤ a) && decide (a < lo + storeBytes store) && !(won (2 ^ 36 * store + a / 8)) &&
      (let b := (bankWord store (a - lo)).1; decide (first ≤ b) && decide (b ≤ last))
    let s1 := s.setStoreMem store ((s.storeMem store).filter (fun c => !(hit c.1)))
    { s1 with sto := { s1.sto with poison := s1.sto.poison.filter (fun e => !(decide (e.1 / 2 ^ 36 = store) && hit (8 * (e.1 % 2 ^ 36)))) } }

/-- The engine's writes that lost to others' are counted at their banks, the winner being the requester of port A (R306, R310). -/
def State.marchLost (s : State) (store : Nat) : State :=
  s.sto.marchHit.foldl (fun (u : State) k =>
    let a := 8 * (k % 2 ^ 36)
    u.collide ⟨store, a / storeBytes store, a % storeBytes store⟩ .march 0) s

/-- MARCH_END (R343, R344): the run reports its failing words, banks and words in order of discovery; a destructive run was disturbed where another requester's write met it, one that the block saw or one the command tells of, and its failures are then not passed to the cooper. -/
def execMarchEnd (fails : List (Nat × Nat)) (disturbed : Bool) (s : State) : Result :=
  match s.igr.march with
  | none => done s
  | some (mode, store, inst, first, last) =>
    let hitBy := mode && (disturbed || decide (s.sto.marchHit ≠ []))
    let stopped := s.igr.marchStop
    let s' := match storeRow store inst with | some r => s.dozeLater r | none => s
    let s0 := { s' with igr := { s'.igr with march := none, marchStop := false } }
    let n := (last + 1 - first) * bankDepth store
    let (m, s') := s0.marchDone n stopped
    let s1 := if mode then ((s'.marchEffect store inst first last m stopped).marchBreaks store inst first last (min m n)).marchLost store
      else s'.marchBreaks store inst first last (m / 6)
    let s2 := if hitBy then s1 else fails.foldl (fun (u : State) f =>
      let x : Spot := ⟨store, inst, bankOff store f.1 f.2⟩
      let v := u.recordUe (storeWhere store) 2 x.ueAddr
      if mode then v else v.zeroWord x) s1
    let failed := decide (fails ≠ [])
    let s3 := s2.setWord 0x0E1 0x108 ((if failed then 3 else 2) + bit hitBy * 4 + min 65535 fails.length * 2 ^ 16)
    let s4 := match fails.head? with
      | some f => s3.setWord64 0x0E1 0x110 (f.1 + f.2 * 2 ^ 6)
      | none => s3.setWord64 0x0E1 0x110 0
    let s5 := (s4.setWord64 0x0E1 0x118 s4.now).count 0x0E1 0
    let s6 := if failed then s5.errCount 0x0E1 8 1 else s5
    done (if hitBy then s6.errCount 0x0E1 9 2 else s6)

end Sys2Proof.Machine
end

