-- ==== Sys2Proof/Machine/Cooper.lean ====
section
/-! DEFINITION. The cooper (R345 to R355): triggers, the repair log's entries, and the actions: vat remaps, bond lanes, cellar rows and packages, substitutions, core retirements, press lanes, and channels out of service. -/

namespace Sys2Proof.Machine

/-! ### Entries (R351, R352) -/

/-- The repair log holds 8,192 entries (R353). -/
def State.logFull (s : State) : Bool := decide (8192 ≤ s.igr.log.length)

/-- Write an entry into the repair log; the last place sets LOG_FULL (R353). -/
def State.logWrite (s : State) (e : LogEntry) : State :=
  let s1 := { s with igr := { s.igr with log := s.igr.log ++ [e] } }
  if s1.logFull then s1.err 0x0E0 12 else s1

/-- UNIT of a vat row or bank, of a vat channel, of a cellar row (R352). -/
def unitBank (st c rank bank : Nat) : Nat := st + c * 2 ^ 4 + rank * 2 ^ 10 + bank * 2 ^ 13
def unitChan (st c : Nat) : Nat := st + c * 2 ^ 4
def unitRow (p c rank bank : Nat) : Nat := p + c * 2 ^ 6 + rank * 2 ^ 8 + bank * 2 ^ 9

/-- Spare banks of a vat die, a stack and rank, that the log and the entries awaiting acknowledgement have used (R10). -/
def State.banksUsed (s : State) (st rank : Nat) : Nat :=
  ((s.igr.log ++ s.igr.waiting.map (fun e => e.2)).filter (fun e =>
    decide (e.action = 2 ∧ bits e.unit 0 4 = st ∧ bits e.unit 10 3 = rank))).length

/-- The row's clusters once what is held for it, and then what awaits its acknowledgement, has come in (R346). -/
def State.afterHeld (s : State) (r : Nat) : State :=
  ((s.igr.heldSubst ++ s.igr.waiting.map (fun e => e.1)).filter (fun u => decide (substRow u = some r))).foldl State.substitute
    { s with igr := { s.igr with log := s.igr.log ++ s.igr.waiting.map (fun e => e.2) } }

/-- Action, UNIT and DETAIL of the entry for a trigger's unit, with the unit acted on (R345, R352); none where no spare is left and nothing is logged. The Bool says that no spare is left. A spare that is promised to a substitution which is held or not yet acknowledged counts as active, so that its retirement waits for the row to be free: R170 does not speak of this meeting (DESIGN CHOICE, log entry 172). -/
def State.entryFor (s : State) : RepairUnit → Option (RepairUnit × Nat × Nat × Nat) × Bool
  | .vatRow st c rank bank row => (some (.vatRow st c rank bank row, 1, unitBank st c rank bank, row), false)
  | .vatBank st c rank bank =>
    let n := s.banksUsed st rank
    if n < 4 then (some (.vatBank st c rank bank, 2, unitBank st c rank bank, n), false) else (none, true)
  | .vatLane st c lane =>
    let used := bits (s.chan (.vat st c)).train.toNat 2 3
      + (s.igr.waiting.filter (fun e => decide (e.2.action = 3 ∧ e.2.unit = unitChan st c))).length
    if used < 4 then (some (.vatLane st c lane, 3, unitChan st c, lane), false) else (none, true)
  | .cellarRow p c rank bank row => (some (.cellarRow p c rank bank row, 4, unitRow p c rank bank, row), false)
  | .cellarPackage p => (some (.cellarPackage p, 5, p, 0), false)
  | .columnGroup r c g =>
    let t := s.afterHeld r
    if t.laneSpares r c < 4 then (some (.columnGroup r c g, 6, unitCluster r c, g), false)
    else
      let sp := t.spareChoice r
      (some (.cluster r c, 7, unitCluster r c, sp.getD 255), sp.isNone)
  | .cluster r c =>
    let t := s.afterHeld r
    let sp := if t.clusterState r c = 1 then none else t.spareChoice r
    (some (.cluster r c, 7, unitCluster r c, sp.getD 255), decide (t.clusterState r c = 0) && sp.isNone)
  | .controlCore c =>
    let promised := ((s.igr.log ++ s.igr.waiting.map (fun e => e.2)).filter (fun e => decide (e.action = 8))).map (fun e => e.detail)
    let sp := (s.idleSpares.filter (fun x => decide (x ≠ c) && !(promised.contains x))).head?
    (some (.controlCore c, 8, c, sp.getD 255), sp.isNone)
  | .pressLane p l =>
    let promised := s.igr.waiting.any (fun e => decide (e.2.action = 9 ∧ e.2.unit = p) && (decide (e.2.detail < 4) == decide (l < 4)))
    let taken := promised || (if l < 4 then s.laneSpareIn p 0 4 else s.laneSpareIn p 4 6)
    (some (.pressLane p l, if taken then 10 else 9, p, l), taken)
  | .vatChannelOut st c => (some (.vatChannelOut st c, 11, unitChan st c, 0), false)

/-! ### Triggers -/

/-- A unit of this module (R1, R10). -/
def State.unitExists (s : State) : RepairUnit → Bool
  | .vatRow st c rank bank row => decide (st < 16 ∧ c < 64 ∧ rank < 8 ∧ bank < 16 ∧ row < 4096)
  | .vatBank st c rank bank => decide (st < 16 ∧ c < 64 ∧ rank < 8 ∧ bank < 16)
  | .vatLane st c _ => decide (st < 16 ∧ c < 64)
  | .cellarRow p c rank bank row => decide (p < s.order.packages ∧ c < 4 ∧ rank < 2 ∧ bank < 16 ∧ row < 2 ^ 18)
  | .cellarPackage p => decide (p < s.order.packages)
  | .columnGroup r c g => decide (r < 16 ∧ c < 34 ∧ g < 260)
  | .cluster r c => decide (r < 16 ∧ c < 34)
  | .controlCore c => decide (c < 18)
  | .pressLane p l => decide (p < s.order.packages ∧ l < 6)
  | .vatChannelOut st c => decide (st < 16 ∧ c < 64)

/-- The rows of a bank that a redundant row has replaced since the bank was last copied to a spare bank (R347). -/
def State.bankRows (s : State) (st c rank bank : Nat) : List Nat :=
  (((s.igr.remapped.filter (fun e => decide (e.1 = 64 * st + c ∧ e.2.1 = 16 * rank + bank))).reverse.map (fun e => e.2.2)).takeWhile Option.isSome).filterMap id

/-- The unit that a trigger is for: where a redundant row has taken a row's place, that spare row fails, and the bank's trigger applies (R355). -/
def State.failing (s : State) : RepairUnit → RepairUnit
  | .vatRow st c rank bank row => if (s.bankRows st c rank bank).contains row then .vatBank st c rank bank else .vatRow st c rank bank row
  | u => u

/-- A trigger of a bank waits while a row of it is copied, and applies after the switch (R355). -/
def State.rowCopied (s : State) : RepairUnit → Bool
  | .vatBank st c rank bank => s.igr.remap.any (fun m => decide (m.stack = st ∧ m.channel = c ∧ m.rank = rank ∧ m.bank = bank) && !m.whole)
  | _ => false

/-- The unit has been, or is being, repaired, so a trigger for it brings no further action (R170, R355). -/
def State.repairDone (s : State) (u : RepairUnit) : Bool :=
  s.igr.waiting.any (fun e => decide (e.1 = u)) || s.igr.heldSubst.contains u ||
  (match u with
   | .vatRow st c rank bank row =>
     s.igr.remap.any (fun m => decide (m.stack = st ∧ m.channel = c ∧ m.rank = rank ∧ m.bank = bank ∧ m.row = row) && !m.whole)
   | .vatBank st c rank bank => s.igr.remap.any (fun m => decide (m.stack = st ∧ m.channel = c ∧ m.rank = rank ∧ m.bank = bank) && m.whole)
   | .vatLane _ _ _ => false
   | .cellarRow p c rank bank row =>
     (s.igr.log.filter (fun e => decide (e.unit = unitRow p c rank bank ∧ e.detail = row ∧ (e.action = 4 ∨ e.action = 12)))).getLast?.any
       (fun e => decide (e.action = 4))
   | .cellarPackage p => s.mem.evacuating.getLsbD p || s.mem.retired.getLsbD p
   | .columnGroup r c g => s.groupRetired r c g || decide (s.clusterState r c = 2) || s.igr.heldSubst.contains (.cluster r c)
       || s.igr.waiting.any (fun e => decide (e.1 = .cluster r c))
   | .cluster r c => decide (s.clusterState r c = 2)
   | .controlCore c => decide (3 ≤ (s.core c).state) || (s.core c).notice.isSome
   | .pressLane p l => sget false s.prs.laneOut (6 * p + l)
   | .vatChannelOut st c => s.igr.log.any (fun e => decide (e.action = 11 ∧ e.unit = unitChan st c)))

/-- AUTO of IGR_COOPER_CTRL. -/
def State.cooperAuto (s : State) : Bool := decide (s.field 0x0E0 0x140 0 1 = 1)

/-- The cooper takes a trigger (R345, R346, R353): SPARE_LOW where no spare is left; else the action's entry is written to flash, unless the log is full or the unit is in hand. A bank's trigger waits for the row copies in it (R355). -/
def State.actOn (s : State) (v : RepairUnit) : State :=
  let u := s.failing v
  if !(s.cooperAuto) || s.repairDone u || !(s.unitExists u) then s
  else if s.rowCopied u then { s with igr := { s.igr with early := s.igr.early ++ [u] } }
  else
    let (e, low) := s.entryFor u
    let s1 := if low then s.spareLow else s
    match e with
    | none => s1
    | some (v, a, n, d) =>
      if 8192 ≤ s1.igr.log.length + s1.igr.waiting.length then s1
      else { s1 with igr := { s1.igr with waiting := s1.igr.waiting ++ [(v, { time := s1.now, action := a, unit := n, detail := d })] } }

/-- What the trigger itself means for the unit: a channel that lost a lane with no spare left takes no requests, and its lines read as poisoned, and the stack takes no new slot (R331, R350). -/
def State.triggerState (s : State) : RepairUnit → State
  | .vatChannelOut st c =>
    let s1 := s.modChan (.vat st c) (fun k => { k with train := BitVec.ofNat 32 (setBits k.train.toNat 0 2 3) })
    ({ s1 with mem := { s1.mem with
      channelOut := sset false s1.mem.channelOut (64 * st + c) true, stackOut := s1.mem.stackOut ||| BitVec.ofNat 16 (2 ^ st) } }).err (0x050 + st) 10
  | _ => s

/-- The trigger of a control core stands: CORE_UE traps of its local memory lie within the last hour (R345). -/
def State.coreDue (s : State) (c : Nat) : Bool :=
  decide (s.field 0x0E0 0x140 16 4 ≤ ((s.core c).ueTimes.filter (fun t => decide (s.now ≤ t + 3600 * sec))).length)

/-- The conditions of R345 for a unit: what the block counts itself, namely a core's traps, a DRAM row's codewords and, where the trigger is of that kind, a bank's remapped rows, a package's overflows and a cluster store's errors. Training, link retries (R345 names no event that tells of one), exhausted repair resources (the spec gives no number of redundant rows of a bank) and the tensor array's and the presses' own checks are found elsewhere, and the command reports them (log entry 114). -/
def State.triggerDue (s : State) (u : RepairUnit) (counted : Bool) : Bool :=
  match u with
  | .controlCore c => s.coreDue c
  | .vatRow _ _ _ _ _ | .cellarRow _ _ _ _ _ => s.igr.due.contains u
  | _ => !counted || s.igr.due.contains u

/-- A trigger has been taken: it is counted. -/
def State.takeTrigger (s : State) (u : RepairUnit) : State :=
  { s with igr := { s.igr with triggers := s.igr.triggers + 1, due := s.igr.due.filter (fun x => decide (x ≠ u)) } }

/-- COOPER_TRIGGER (R345, R398): a trigger is counted; before the cores are released it is held. -/
def execCooperTrigger (unit : RepairUnit) (s : State) (counted : Bool := false) : Result :=
  if !(s.triggerDue unit counted) || !(s.unitExists unit) then done s
  else
    let s1 := (s.takeTrigger unit).triggerState unit
    if s1.released then done (s1.actOn unit)
    else done { s1 with igr := { s1.igr with early := s1.igr.early ++ [unit] } }

/-- The triggers held before the release are acted on (R398). -/
def State.actEarly (s : State) : State :=
  s.igr.early.foldl State.actOn { s with igr := { s.igr with early := [] } }

/-- RETIRE_REQ (R170): the cooper is asked to retire a cluster; the bit reads 1 until that is done, and has no effect on a retired cluster. -/
def State.askRetire (s : State) (r c : Nat) : State :=
  if s.clusterState r c = 2 then s
  else
    let s1 := s.setField (clsPage r c) 0x104 0 1 1
    if s1.released then s1.actOn (.cluster r c) else { s1 with igr := { s1.igr with early := s1.igr.early ++ [.cluster r c] } }

/-- RETIRE_REQ (R170). -/
def execRetireReq (req : Requester) (row : Fin 16) (cluster : Fin 34) (s : State) : Result :=
  s.reg' (.retireReq req row cluster) req (clsPage row.val cluster.val) 0x104 (fun u => u.askRetire row.val cluster.val)

/-! ### Cellar rows and packages -/

/-- The casks of the cellar that satisfy a test. -/
def State.casksWhere (s : State) (f : Nat → CaskEntry → Bool) : List Nat :=
  (s.mem.caskMap.map (fun e => e.1)).filter (fun k => decide (s.home (k / 4) = 2) && f k (s.cask k))

/-- A cellar row is retired (R12, R348): every cask with a sector in it moves to the relocation area, at once or when its tile's move or its seal has ended, and then the row's sectors are withheld. -/
def State.retireRow (s : State) (p c rank bank row : Nat) (host : HostLines := []) : State :=
  let s1 := { s with igr := { s.igr with rowsLeaving := s.igr.rowsLeaving ++ [RepairUnit.cellarRow p c rank bank row] } }
  let s2 := ((s1.rowCasks (.cellarRow p c rank bank row)).foldl (fun u k => u.settleCask k host) s1).rowsEmptied
  { s2 with igr := { s2.igr with suspects := s2.igr.suspects.filter (fun e => decide (e.unit ≠ .cellarRow p c rank bank row)) } }

/-- The casks of an evacuating package move to the other packages of its column, and the empty package is retired (R349). -/
def State.evacuate (s : State) (p : Nat) (host : HostLines := []) : State :=
  ((s.casksWhere (fun _ e => decide (e.package = p))).foldl (fun u k => u.settleCask k host) s).retirePackage p

/-! ### Vat channels -/

/-- Every tile of a stack that is not vat-pinned is demoted (R350). -/
def State.emptyStack (s : State) (st : Nat) : State :=
  (s.tilesWhere (fun t => decide (s.home t = 1) && decide (s.loc t % 16 = st) && decide (s.useOf (s.loc t) ≠ .pin))).foldl
    (fun u t => u.acceptMove t .demotion) s

/-- A spare bond lane of a vat channel is brought in by retraining (R331). -/
def State.spareLane (s : State) (st c : Nat) : State :=
  let s1 := s.modChan (.vat st c) (fun k => { k with train := BitVec.ofNat 32 (setBits k.train.toNat 2 3 (bits k.train.toNat 2 3 + 1)) })
  (s1.startRetrain st c).useSpare 1

/-! ### Actions -/

/-- The cooper starts an acknowledged action, whose entry is the log's last (R345 to R350). A retired core's spare starts once the core has stopped (R292, R293). -/
def State.startAction (s : State) (host : HostLines := []) : RepairUnit → State
  | .vatRow st c rank bank row =>
    { s with igr := { s.igr with remap := s.igr.remap ++ [{ stack := st, channel := c, rank := rank, bank := bank, row := row, whole := false, left := 16 }] } }
  | .vatBank st c rank bank =>
    { s with igr := { s.igr with remap := s.igr.remap ++ [{ stack := st, channel := c, rank := rank, bank := bank, row := 0, whole := true, left := 65536 }] } }
  | .vatLane st c _ => (s.spareLane st c).repaired
  | .cellarRow p c rank bank row => s.retireRow p c rank bank row host
  | .cellarPackage p =>
    let s1 := s.copyBitmap p
    ({ s1 with mem := { s1.mem with evacuating := s1.mem.evacuating ||| BitVec.ofNat 48 (2 ^ p) } }).evacuate p host
  | .columnGroup r c g => ({ s with igr := { s.igr with heldSubst := s.igr.heldSubst ++ [RepairUnit.columnGroup r c g] } }).settleSubst
  | .cluster r c =>
    if (s.afterHeld r).clusterState r c = 1 then s.retireCluster r c
    else ({ s with igr := { s.igr with heldSubst := s.igr.heldSubst ++ [RepairUnit.cluster r c] } }).settleSubst
  | .controlCore c =>
    let k := s.core c
    if s.active k.logical && decide (s.physOf k.logical = c) then (s.notice c).repaired else (s.retireCore c false).repaired
  | .pressLane p l =>
    let taken := s.igr.log.getLast?.any (fun e => decide (e.action = 10))
    let s1 := { s with prs := { s.prs with laneOut := sset false s.prs.laneOut (6 * p + l) true } }
    (if taken then s1 else s1.useSpare 5).repaired
  | .vatChannelOut st _ => ((s.emptyStack st).err 0x0E0 13).repaired

/-- COOPER_ACTION (R346): flash answers for the oldest entry that waits. An entry that cannot be written takes no action. host brings the wrong bits of what the action reads (R337). -/
def execCooperAction (acknowledged : Bool) (s : State) (host : HostLines := []) : Result :=
  match s.igr.waiting with
  | [] => done s
  | (u, e) :: rest =>
    let s1 := { s with igr := { s.igr with waiting := rest } }
    if acknowledged then done (((s1.logWrite e).startAction host u).settleSnoops).watch else done s1

/-! ### Vat remaps -/

/-- The slot and line at a place of the vat (the inverse of R317). -/
def vatAt (st c rank bank row line : Nat) : Nat × Nat :=
  let o := row * 131072 + rank * 16384 + bank * 1024 + 64 * line
  (o / 256 * 16 + st, (256 * c + o % 256) / 64)

/-- The spare row or bank takes over (R347); a trigger of the bank that waited for the switch is acted on (R355). -/
def State.remapSwitch (s : State) (m : RemapCopy) : State :=
  let s1 : State := { s with igr := { s.igr with
    remapped := s.igr.remapped ++ [(64 * m.stack + m.channel, 16 * m.rank + m.bank, if m.whole then none else some m.row)]
    suspects := s.igr.suspects.filter (fun e => match e.unit with
      | .vatRow st c rank bank row => !(decide (st = m.stack ∧ c = m.channel ∧ rank = m.rank ∧ bank = m.bank) && (m.whole || decide (row = m.row)))
      | _ => true) } }
  let rows := (s1.bankRows m.stack m.channel m.rank m.bank).length
  let s2 := if m.whole = false ∧ s1.field 0x0E0 0x140 8 8 ≤ rows then s1.reported (.vatBank m.stack m.channel m.rank m.bank) else s1
  let held := RepairUnit.vatBank m.stack m.channel m.rank m.bank
  let s3 := (s2.useSpare (if m.whole then 0 else 6)).repaired
  if s3.released && s3.igr.early.contains held && !(s3.rowCopied held) then
    ({ s3 with igr := { s3.igr with early := s3.igr.early.filter (fun u => decide (u ≠ held)) } }).actOn held
  else s3

/-- A bank's key for its last copy step. -/
def RemapCopy.bankKey (m : RemapCopy) : Nat := 128 * chanKey (.vat m.stack m.channel) + 16 * m.rank + m.bank

/-- A refresh of the copy's bank is due and postponed, so no step of it is issued (R347). -/
def State.copyHeld (s : State) (m : RemapCopy) : Bool := decide (0 < sget 0 (s.chan (.vat m.stack m.channel)).postponed (16 * m.rank + m.bank))

/-- REMAP_COPY_STEP (R347): the copy stepped longest ago moves one line, a microsecond or more after the last step in its bank, and not while a refresh of the bank is due. The sums of R330 count it as a started refresh. After its last line the spare takes over. -/
def execRemapCopyStep (upset : Upset) (s : State) : Result :=
  match s.igr.remap with
  | [] => done s
  | m :: rest =>
    if s.copyHeld m then done s
    else
    let last := sget 0 s.igr.bankStep m.bankKey
    let s0 := if last = 0 then s else s.until (last + us)
    let s1 := { s0 with igr := { s0.igr with bankStep := sset 0 s0.igr.bankStep m.bankKey s0.now } }
    let (slot, line) := vatAt m.stack m.channel m.rank m.bank (m.row + m.line / 16) (m.line % 16)
    let s2 := s1.visitVat slot line upset false 3
    let m' := { m with line := m.line + 1, left := m.left - 1, stepAt := s2.now }
    if m'.left = 0 then done ((({ s2 with igr := { s2.igr with remap := rest } }).remapSwitch m').settle)
    else done (({ s2 with igr := { s2.igr with remap := rest ++ [m'] } }).settle)

/-! ### Epochs -/

/-- The casks of the rows being retired are tried again, and the rows that hold none any more are withheld (R348). -/
def State.retryRows (s : State) (host : HostLines := []) : State :=
  if s.igr.rowsLeaving = [] then s
  else ((s.igr.rowsLeaving.flatMap s.rowCasks).foldl (fun u k => u.settleCask k host) s).rowsEmptied

/-- HEAT_EPOCH (R62, R64, R348 to R350): a new epoch begins; abandoned promotions into vat-pinned regions, the casks still in evacuating packages and in rows being retired, and the demotions out of a stack with a lost channel are tried again. -/
def execHeatEpoch (s : State) (host : HostLines := []) : Result :=
  let s1 := s.newEpoch
  let s2 := ((List.range 48).filter (fun p => s1.mem.evacuating.getLsbD p)).foldl (fun u p => u.evacuate p host) s1
  let left (k : Nat) : Bool := s2.igr.log.any (fun e => decide (e.action = 11 ∧ bits e.unit 0 4 = k))
  let s3 := ((List.range 16).filter (fun k => s2.mem.stackOut.getLsbD k && left k)).foldl State.emptyStack s2
  done ((s3.retryRows host).settleSnoops)

end Sys2Proof.Machine
end

