-- ==== Sys2Proof/Machine/Image.lean ====
section
/-! DEFINITION. What the trust core reads and checks: SHAKE256, the Shombe image and the signed request with their checks, and the keys' seeds (R371 to R374, R378, R381, R383, R385). -/

namespace Sys2Proof.Machine

/-! ### SHAKE256 -/

/-- The shift register of eight bits, with x^6 + x^5 + x^4 + 1 fed back, after n steps from 1 (FIPS 202, the standard of the function that the spec names: PRESUMED, log entry 131). -/
def keccakShift : Nat → Nat
  | 0 => 1
  | n + 1 => let v := 2 * keccakShift n; if v < 256 then v else (v - 256) ^^^ 0x71

/-- The constant of round i: bit 2^j - 1 of it is what the register puts out at step j + 7i. -/
def keccakConst (i : Nat) : DWord :=
  BitVec.ofNat 64 (((List.range 7).filter (fun j => (keccakShift (j + 7 * i)).testBit 0)).map (fun j => 2 ^ (2 ^ j - 1))).sum

/-- The lane after (x, y) on the walk that the rotations follow, and the rotation of the lane at place i: the walk from lane 1 reaches it at its t-th step, and it turns by (t + 1)(t + 2) / 2. -/
def keccakWalk : Nat → Nat
  | 0 => 1
  | t + 1 => let i := keccakWalk t; i / 5 + 5 * ((2 * (i % 5) + 3 * (i / 5)) % 5)
def keccakTurn (i : Nat) : Nat := (((List.range 24).find? (fun t => decide (keccakWalk t = i))).map (fun t => (t + 1) * (t + 2) / 2 % 64)).getD 0

/-- Both as tables, one entry per round and per lane. -/
def keccakConsts : List DWord := (List.range 24).map keccakConst
def keccakTurns : List Nat := (List.range 25).map keccakTurn

/-- A lane. -/
def lane (a : List DWord) (i : Nat) : DWord := a.getD i 0#64

/-- One round on the 25 lanes: theta, rho with pi, chi, iota. Lane (x, y) is at x + 5y. -/
def keccakRound (turns : List Nat) (a : List DWord) (rc : DWord) : List DWord :=
  let c := (List.range 5).map (fun x => lane a x ^^^ lane a (x + 5) ^^^ lane a (x + 10) ^^^ lane a (x + 15) ^^^ lane a (x + 20))
  let t := (List.range 25).map (fun i => lane a i ^^^ lane c ((i + 4) % 5) ^^^ (lane c ((i + 1) % 5)).rotateLeft 1)
  let b := (List.range 25).map (fun i => let j := (i % 5 + 3 * (i / 5)) % 5 + 5 * (i % 5); (lane t j).rotateLeft (turns.getD j 0))
  let r := (List.range 25).map (fun i => lane b i ^^^ (~~~(lane b (i / 5 * 5 + (i + 1) % 5)) &&& lane b (i / 5 * 5 + (i + 2) % 5)))
  r.set 0 (lane r 0 ^^^ rc)

/-- The blocks of 136 bytes are absorbed one after another. -/
def absorb (consts : List DWord) (turns : List Nat) : Nat → List Byte → List DWord → List DWord
  | 0, _, a => a
  | n + 1, m, a =>
    let x := (List.range 25).map (fun i => lane a i ^^^ (if i < 17 then BitVec.ofNat 64 (leNat ((m.drop (8 * i)).take 8)) else 0#64))
    absorb consts turns n (m.drop 136) (consts.foldl (keccakRound turns) x)

/-- The first n bytes, at most 136, of SHAKE256 over a message. -/
def shake256 (m : List Byte) (n : Nat) : List Byte :=
  let gap := 136 - m.length % 136
  let pad := if gap = 1 then [0x9F#8] else 0x1F#8 :: List.replicate (gap - 2) 0#8 ++ [0x80#8]
  ((absorb keccakConsts keccakTurns (m.length / 136 + 1) (m ++ pad) (List.replicate 25 0#64)).flatMap (fun w => leBytes 8 w.toNat)).take n

/-! ### The bytes of an object -/

/-- The first len bytes of an object; those that it does not give are zero. -/
def objectBytes (o : TrustObject) (len : Nat) : List Byte := (o.bytes ++ List.replicate (len - o.bytes.length) 0#8).take len

/-- A little-endian number of k bytes at lo, and whether they are all zero. -/
def numAt (b : List Byte) (lo k : Nat) : Nat := leNat ((b.drop lo).take k)
def zeroAt (b : List Byte) (lo k : Nat) : Bool := ((b.drop lo).take k).all (fun x => decide (x = 0#8))

/-! ### Images (R373, R374) -/

/-- MAGIC, FORMAT, the reserved fields and the zero bytes of an image's header. -/
def imageFormat (b : List Byte) : Bool :=
  decide (numAt b 0 4 = 0x5A0BE1F0) && decide (numAt b 4 2 = 1) && zeroAt b 6 2 && zeroAt b 0x14 4 && zeroAt b 0x20 0x60 && zeroAt b 0x150D (0x2000 - 0x150D)

/-- The fields of the header, and the body. -/
def imageSvn (b : List Byte) : Nat := numAt b 8 4
def imageBodyLen (b : List Byte) : Nat := numAt b 0x0C 4
def imageEntry (b : List Byte) : Nat := numAt b 0x10 4
def imageBuild (b : List Byte) : Nat := numAt b 0x18 8
def imageKey (b : List Byte) : List Byte := (b.drop 0x80).take 1952
def imageSignature (b : List Byte) : List Byte := (b.drop 0x820).take 3309
def imageBody (b : List Byte) : List Byte := (b.drop 8192).take (imageBodyLen b)

/-- D (R374): 64 bytes of SHAKE256 over the header up to its signature, and the body. -/
def imageDigest (b : List Byte) : List Byte := shake256 (b.take 0x820 ++ imageBody b) 64

/-- BODY_LEN and ENTRY_OFF are within R373, and the object is as long as they say (R377). -/
def imageLengths (len bodyLen entryOff : Nat) : Bool :=
  decide (4096 ≤ bodyLen) && decide (bodyLen ≤ 12578816) && decide (bodyLen % 4096 = 0)
    && decide (entryOff % 4 = 0) && decide (entryOff < bodyLen) && decide (len = 8192 + bodyLen)

/-- AUTH_KEY_HASH and MIN_SVN of the current vintage (R379). -/
def State.authKeyHash (s : State) : List Byte := ((s.otpSlot s.tru.current).drop 8).take 64
def State.minSvn (s : State) : Nat := leNat (((s.otpSlot s.tru.current).drop 4).take 4)

/-- The RESULT codes of the TRU page. -/
def rcvOk : Nat := 0
def rcvBadFormat : Nat := 1
def rcvBadLength : Nat := 2
def rcvKeyMismatch : Nat := 3
def rcvBadSignature : Nat := 4
def rcvRollback : Nat := 5
def rcvFetchFail : Nat := 6
def rcvNonce : Nat := 7
def rcvNotPermitted : Nat := 8
def rcvFlashFail : Nat := 9
def rcvBusy : Nat := 10

/-- The checks of an image of len bytes, the first failure deciding (R374). -/
def State.checkImage (s : State) (b : List Byte) (len : Nat) : Nat :=
  if !(imageFormat b) then rcvBadFormat
  else if !(imageLengths len (imageBodyLen b) (imageEntry b)) then rcvBadLength
  else if shake256 (imageKey b) 64 ≠ s.authKeyHash then rcvKeyMismatch
  else if !(Config.mlDsaVerifies (imageKey b) (imageDigest b) (imageSignature b)) then rcvBadSignature
  else if imageSvn b < s.minSvn then rcvRollback
  else rcvOk

/-- What the trust core keeps of an image (R374, R386). -/
def trustImage (b : List Byte) : Image :=
  { digest := leNat (imageDigest b), svn := imageSvn b, buildId := imageBuild b, bodyLen := imageBodyLen b, entryOff := imageEntry b }

/-- The ROM's SHAKE256 digest is the one fused at manufacture (R372). -/
def State.romGood (s : State) : Bool := decide (leNat (shake256 (Memory.bytes s.tru.rom 0 65536) 64) = s.tru.romDigest)

/-- The bytes that the image area was made with, from an object: a header, and as much body as its BODY_LEN says, up to the area's size (R373). -/
def areaBytes (o : TrustObject) : List Byte := objectBytes o (8192 + min 12578816 (imageBodyLen o.bytes))

/-! ### Signed requests (R378) -/

/-- The highest mark of LC is the life-cycle state (R382). -/
def lifeCycleOf (lc : BitVec 8) : Nat := if lc.getLsbD 2 then 3 else if lc.getLsbD 1 then 2 else if lc.getLsbD 0 then 1 else 0

/-- The lowest unwritten vintage slot (R381). -/
def State.freeSlot? (s : State) : Option Nat := (List.range 4).find? (fun n => !(otpWritten (s.otpSlot n)))

/-- PAYLOAD of a request, and its PUBLIC_KEY. -/
def requestPayload (b : List Byte) : List Byte := (b.drop 0x30).take 256
def requestKey (b : List Byte) : List Byte := (b.drop 0x130).take 1952

/-- The part of PAYLOAD that a KIND of request leaves unused is zero (R378). -/
def payloadUnused (kind : Nat) (payload : List Byte) : Bool :=
  (payload.drop (match kind with | 3 => 76 | 4 => 1 | _ => 0)).all (fun b => decide (b = 0#8)) && decide (payload.length ≤ 256)

/-- MAGIC, KIND, and the zero bytes of a request. -/
def requestFormat (kind : Nat) (b : List Byte) : Bool :=
  decide (numAt b 0 4 = 0x5A0BE1F1) && decide (numAt b 4 1 = kind) && zeroAt b 5 3 && zeroAt b 0x15BD 67 && payloadUnused kind (requestPayload b)

/-- A VINTAGE request is allowed (R381): the lowest unwritten slot, a whole slot, MIN_SVN not below the current one. -/
def State.vintageAllowed (s : State) (payload : List Byte) : Bool :=
  match s.freeSlot? with
  | none => false
  | some n => otpWhole n ((List.range 76).map (fun i => payload.getD i 0#8) ++ List.replicate 52 0#8)
      && decide (s.minSvn ≤ leNat ((payload.drop 4).take 4))

/-- A LIFE_CYCLE request is allowed (R383, R389): the transition counts from the highest mark, a pending one among them. -/
def State.lifeCycleAllowed (s : State) (target : Nat) : Bool :=
  let from' := lifeCycleOf s.tru.lc
  decide (target = 3) || (decide (from' = 0) && decide (target = 1)) || (decide (from' = 1) && decide (target = 2))

/-- What R381, R383 and R388 allow. -/
def State.requestAllowed (s : State) (kind : Nat) (payload : List Byte) : Bool :=
  match kind with
  | 3 => s.vintageAllowed payload
  | 4 => s.lifeCycleAllowed (payload.getD 0 0#8).toNat
  | _ => s.debugAllow

/-- The checks of a signed request of len bytes (R378). -/
def State.checkRequest (s : State) (kind : Nat) (b : List Byte) (len : Nat) : Nat :=
  if !(requestFormat kind b) then rcvBadFormat
  else if len ≠ 5632 then rcvBadLength
  else if shake256 (requestKey b) 64 ≠ s.authKeyHash then rcvKeyMismatch
  else if !(Config.mlDsaVerifies (requestKey b) (b.take 0x8D0) ((b.drop 0x8D0).take 3309)) then rcvBadSignature
  else if numAt b 8 8 ≠ s.tru.serial ∨ (List.range 8).map (fun i => BitVec.ofNat 32 (numAt b (0x10 + 4 * i) 4)) ≠ s.tru.nonce.toList then rcvNonce
  else if !(s.requestAllowed kind (requestPayload b)) then rcvNotPermitted
  else rcvOk

/-! ### Keys (R385) -/

/-- The seed of the device key pair, and of the alias key pair of an image: UDS as 32 bytes, lowest first (log entry 175). -/
def State.deviceSeed (s : State) : List Byte := shake256 (leBytes 32 s.tru.uds ++ [1#8]) 32
def State.aliasSeed (s : State) (i : Image) : List Byte :=
  shake256 (leBytes 32 s.tru.uds ++ [2#8] ++ leBytes 64 i.digest ++ s.otpSlot s.tru.current) 32

end Sys2Proof.Machine
end

