-- ==== Sys2Proof/Machine/Power.lean ====
section
/-! DEFINITION. Power, heat and clocks (R356 to R367, R416): the input samples and the power level, the heat levels and holds, the trips and the fall of the rails, the reference clock, and the dormant islands. -/

namespace Sys2Proof.Machine

/-! ### The rails fall -/

/-- A slot of OTP whose write did not end whole (R381, R389): some of the bits of the 76 bytes are set, which is a free value; the slot is torn. -/
def State.tearSlot (s : State) (n : Nat) (payload : List Byte) : State :=
  let left := (List.range 76).map (fun i => (payload.getD i 0#8) &&& Config.freeByte (s.freeCtr + i)) ++ List.replicate 52 0#8
  let torn := if otpTorn n left then left else BitVec.ofNat 8 n :: List.replicate 126 0#8 ++ [1#8]
  { s with freeCtr := s.freeCtr + 76, tru := { s.tru with slots := s.tru.slots.set! n torn } }

/-- A flash or OTP write that lost its power (R377, R381, R389, R425). While the object is still being fetched nothing is written yet; how far a PROGRAM in service has come after that is a free value: it is still being staged, and the image area is intact, or it has passed its checks and is on its way into the image area, which then holds no valid image. At STAGE 8 there is no staging, and a free value says whether the checks were over. A vintage slot on its way is torn. -/
def State.powerLostWrite (s : State) : State :=
  match s.tru.rcv with
  | none => s
  | some c =>
    let (d, s1) := s.draw
    let b := objectBytes c.object c.len
    let writes := c.object.fetchOk && (match c.kind with
      | 2 => (decide (s.stage = 8) || c.object.flashOk) && decide (s.checkImage b c.len = rcvOk)
      | 3 => decide (s.checkRequest 3 b c.len = rcvOk)
      | _ => false)
    if !writes ∨ s.now < c.goAt + c.len / 2 ∨ Config.freePlace d % 2 = 0 then s1
    else if c.kind = 2 then { s1 with tru := { s1.tru with flash := .invalid } }
    else match s1.freeSlot? with
      | none => s1
      | some n => s1.tearSlot n (requestPayload b)

/-- The rails in the order in which they rise (R357), and the time from the first sample in range by which each is good. -/
def railOrder : List Rail := [.vstby, .vbus, .vclr1, .vclr2, .vclrq, .vvat, .vsram, .vlogic, .vphy]
def railLimit : Rail → Nat
  | .vstby => 5 * ms
  | .vbus => 20 * ms
  | .vclr1 => 22 * ms
  | .vclr2 => 24 * ms
  | .vclrq => 25 * ms
  | .vvat => 27 * ms
  | .vsram => 29 * ms
  | .vlogic => 31 * ms
  | .vphy => 33 * ms

/-- A rail rises or falls: its bit stands at its place in the order. -/
def State.railTo (s : State) (up : Bool) (r : Rail) : State :=
  let b := BitVec.ofNat 9 (2 ^ railOrder.idxOf r)
  { s with pwr := { s.pwr with rails := if up then s.pwr.rails ||| b else s.pwr.rails &&& ~~~b } }

/-- The rails rise in their order, or fall in the reverse of it, each behind the one before; VSTBY falls with the input alone (R357, R366, R416). No command comes between two of them. -/
def State.railsRise (s : State) : State := railOrder.foldl (State.railTo · true ·) s
def State.railsFall (s : State) (standby : Bool) : State :=
  (railOrder.reverse.filter (fun r => standby || decide (r ≠ .vstby))).foldl (State.railTo · false ·) s

/-- Everything but VSTBY loses its power, and the memory contents are lost (R366, R416, R419). What VSTBY, OTP and flash hold stays: the time base, the trust core's OTP and flash, the repair log, the trip record and the management interface. -/
def State.railsDown (s : State) : State :=
  let s0 := s.powerLostWrite
  let t := State.resetOf s0.order
  let u : State := { t with
    now := s0.now
    ports := Vector.ofFn (fun i => { t.ports[i] with perst := s0.ports[i].perst, trainFrom := s0.ports[i].trainFrom })
    tru := { s0.tru with image := none, rcv := none, deviceKey := none, aliasKey := none, aliasCert := none }
    igr := { t.igr with log := s0.igr.log }
    pwr := { t.pwr with off := true, tripCause := s0.pwr.tripCause, tripStack := s0.pwr.tripStack, input := s0.pwr.input, starting := 0, latched := s0.pwr.latched, rails := (s0.railsFall false).pwr.rails }
    mod := s0.mod, out := s0.out, freeCtr := s0.freeCtr, pending := s0.pending }
  -- The platform's own pages and the trust core's are on VSTBY (R359): LAST and SENSORS of TRU_TAMPER, STATE of TRU_LC.
  u.setWord 0x003 0x108 (s0.word 0x003 0x108)

/-- Code of a trip (R366), and the stack of a THERM trip. -/
def tripCode : TripCause → Nat × Nat
  | .therm k => (1, k.val)
  | .uv => (2, 0)
  | .ov => (3, 0)
  | .rail => (4, 0)

/-- A trip (R366): its cause is recorded and the rails fall. A module that is off has nothing to trip. -/
def State.doTrip (s : State) (c : TripCause) : State :=
  if s.pwr.off ∨ !s.pwr.input then s
  else ({ s with pwr := { s.pwr with tripCause := (tripCode c).1, tripStack := (tripCode c).2, latched := true } }).railsDown

/-- TRIP (R366). -/
def execTrip (cause : TripCause) (s : State) : Result := done (s.doTrip cause).watch

/-- RAIL_TIMEOUT (R357): a rail that is not good by its time stops the sequence there, as a trip RAIL; one whose time has passed in this start was good. What follows the rails in COLD_START, the repairs at 36 ms among them (R391), has then not come about, and the repair log is as the start found it. -/
def execRailTimeout (rail : Rail) (s : State) : Result :=
  if s.pwr.starting = 1 ∧ s.now ≤ s.pwr.startAt + railLimit rail then
    let u := { s with igr := { s.igr with log := s.pwr.startLog } }
    done ((u.until (s.pwr.startAt + railLimit rail)).doTrip .rail).watch
  else done s

/-- INPUT_REMOVED (R366, R416): the mate-last contact breaks; every rail falls, VSTBY with them, and the trip record and what VSTBY held are gone. -/
def execInputRemoved (s : State) : Result :=
  if s.pwr.input then
    let u := s.railsDown
    let v := (u.setWord 0x003 0x108 0)
    done (({ v with pwr := { v.pwr with input := false, rails := (v.railsFall true).pwr.rails, tripCause := 0, tripStack := 0 },
                    mod := { v.mod with dynAddr := none, ibiEn := false, offset := 0, result := 0, armedAt := none, cycleAt := none, locate := false, leak := false } }).watch)
  else done s

/-! ### The input and the power level -/

/-- A hold begins (R365): HOLD and EVT_CNT2. -/
def State.holdBegins (s : State) : State := s.errCount 0x001 9 2

/-- A sample above 2,000 W holds every row until a sample reads 1,900 W or less (R358). -/
def State.powerSpike (s : State) (watts : Nat) : State :=
  if 2000 < watts ∧ !s.pwr.powerHold then ({ s with pwr := { s.pwr with powerHold := true } }).holdBegins
  else if watts ≤ 1900 then { s with pwr := { s.pwr with powerHold := false } }
  else s

/-- FLOOR of PWR_STEP_CTRL. -/
def State.stepFloor (s : State) : Nat := s.field 0x001 0x110 24 3

/-- The power level moves by what the average had reached before this sample (R358): up at LIMIT_W, to FLOOR; down below 95 % of it. -/
def State.powerStep (s : State) : State :=
  let l := s.powerLevel
  let sum := s.pwr.samples.sum
  let n := s.pwr.samples.length
  let limit := s.field 0x001 0x10C 0 12
  if n = 0 then s
  else if limit * n ≤ sum ∧ l < s.stepFloor then
    let s1 := (s.setField 0x001 0x10C 16 3 (l + 1)).count 0x001 3
    (if l = 0 then s1.err 0x001 10 else s1).settleLevels
  else if 100 * sum < 95 * limit * n ∧ 0 < l then (s.setField 0x001 0x10C 16 3 (l - 1)).settleLevels
  else s

/-- INPUT_SAMPLE (R356, R358): voltage in 0.1 V, current in 0.1 A, power in W. -/
def execInputSample (voltDv ampDa watts : Nat) (s : State) : Result :=
  if s.pwr.off ∨ !s.pwr.input then done s
  else
    let s1 := s.powerStep
    let samples := (watts :: s1.pwr.samples).take 100
    let s2 := { s1 with pwr := { s1.pwr with samples := samples } }
    let s3 := (s2.setWord 0x001 0x100 (min 1023 voltDv)).setWord 0x001 0x104 (min 1023 ampDa)
    let s4 := (s3.setField 0x001 0x108 0 12 (min 4095 (samples.sum / samples.length))).setField 0x001 0x108 16 12 (max (s3.field 0x001 0x108 16 12) (min 4095 watts))
    let s5 := s4.powerSpike watts
    if voltDv < 570 then done (s5.doTrip .uv).watch
    else if 820 < voltDv then done (s5.doTrip .ov).watch
    else done (if voltDv < 600 ∨ 800 < voltDv then s5.err 0x001 11 else s5)

/-! ### Heat -/

/-- A stack's heat level and hold at an evaluation (R363, R365). -/
def State.heatStack (s : State) (k temp : Nat) : State :=
  let page := 0x120 + 4 * k
  let hold := s.field 0x001 0x110 16 8
  let down := s.field 0x001 0x110 8 8
  let up := s.field 0x001 0x110 0 8
  let l := s.heatLevel k
  let bit := BitVec.ofNat 16 (2 ^ k)
  let held := s.pwr.heatHold.getLsbD k
  let s1 := (s.stackTemp k temp).setField 0x001 page 0 8 (min 255 temp)
  if hold ≤ temp then
    if held then s1 else ({ s1 with pwr := { s1.pwr with heatHold := s1.pwr.heatHold ||| bit } }).holdBegins
  else
    let s2 := if held ∧ temp + 3 < hold then { s1 with pwr := { s1.pwr with heatHold := s1.pwr.heatHold &&& ~~~bit } } else s1
    if down ≤ temp then
      if l < s.stepFloor then (s2.setField 0x001 page 8 3 (l + 1)).errCount 0x001 8 0 else s2
    else if up < temp then s2
    else if 0 < l then (s2.setField 0x001 page 8 3 (l - 1)).errCount 0x001 8 1
    else s2

/-- HEAT_EVALUATION (R363 to R366): at the next multiple of 100,000 ns the stacks' temperatures set heat levels and holds; a stack at 95 °C trips the module. A temperature that is not given is the last one. -/
def execHeatEvaluation (temps : List Nat) (s : State) : Result :=
  if s.pwr.off ∨ !s.pwr.input then done s
  else
    let s0 := s.until ((s.now / 100000 + 1) * 100000)
    let t (u : State) (k : Nat) : Nat := temps.getD k (u.field (0x050 + k) 0x100 0 8)
    let s1 := ((List.range 16).foldl (fun (u : State) k => u.heatStack k (t u k)) s0).settleLevels
    match (List.finRange 16).find? (fun k => decide (95 ≤ t s0 k.val)) with
    | some k => done (s1.doTrip (.therm k)).watch
    | none => done s1

/-! ### The reference -/

/-- REF_LOST (R361): the PLLs hold, and no group of more than one row forms; while it is lost already, its time to be stable begins anew. -/
def execRefLost (s : State) : Result :=
  let s0 := { s with pwr := { s.pwr with refLostAt := s.now } }
  if s.field 0x002 0x10C 1 1 = 1 then done s0
  else done (((s0.setField 0x002 0x10C 0 2 2).errCount 0x002 8 2).watch)

/-- REF_RESTORED (R361): the reference has been stable for 1 ms, at the earliest 1 ms after it was lost. -/
def execRefRestored (s : State) : Result :=
  if s.field 0x002 0x10C 1 1 = 1 then done ((s.until (s.pwr.refLostAt + ms)).setField 0x002 0x10C 0 2 1).watch else done s

/-! ### Dormant islands -/

/-- A march run targets the stores of row r. -/
def State.marchOn (s : State) (r : Nat) : Bool :=
  match s.igr.march with
  | some (_, store, inst, _, _) => decide (storeRow store inst = some r)
  | none => false

/-- A layer waits for row r. -/
def State.rowWanted (s : State) (r : Nat) : Bool :=
  s.lst.jobs.any (fun j => decide (j.phase = .waitRows) && (j.record j.recNo).members.contains r)

/-- What keeps an island from entering dormant (R362). -/
def State.mayDoze (s : State) (engine : Bool) (i : Nat) : Bool :=
  if engine then (s.word 0x001 0x114).testBit (16 + i) && !(s.denDormant i) && decide (s.unitsOn i = 0)
  else (s.word 0x001 0x114).testBit i && !(s.rowDormant i) && !(s.jobHolds i) && !(s.rowWanted i) && !(s.marchOn i)

/-- The moment from which an island has been idle (R362): its last work, its last wake, and what last kept it awake. -/
def State.idleFrom (s : State) (engine : Bool) (i : Nat) : Nat :=
  max (s.pwr.dozeFrom.toList.getD (if engine then 16 + i else i) 0)
    (if engine then max (nth16 s.pwr.denIdleAt i) (nth16 s.pwr.denWakeAt i) else max (nth16 s.pwr.rowIdleAt i) (nth16 s.pwr.rowWakeAt i))

/-- DORMANT_ENTER (R362): 200 ns after the island has been idle for IDLE_US. -/
def execDormantEnter (engine : Bool) (index : Fin 16) (s : State) : Result :=
  let i := index.val
  if s.mayDoze engine i then
    let s1 := s.until (s.idleFrom engine i + us * s.field 0x001 0x118 0 16 + 200)
    done ((s1.setField 0x001 0x11C (if engine then 16 + i else i) 1 1).count 0x001 4)
  else done s

/-- DORMANT_WAKE (R362). -/
def execDormantWake (engine : Bool) (index : Fin 16) (s : State) : Result :=
  done (if engine then s.wakeDen index.val else s.wakeRow index.val)

end Sys2Proof.Machine
end

