-- ==== Sys2Proof/Machine/Startup.lean ====
section
/-! DEFINITION. Start-up and reset (R353, R354, R390 to R398): the cold start with the replay of the repair log, post-package repair, the start-up march and training; the memory's readiness; FW_READY; and the warm start with what it keeps. -/

namespace Sys2Proof.Machine

/-! ### Replay (R353, R354) -/

/-- A core named by the log is retired, and the spare it names holds its logical number (R292, R293, R353). -/
def State.replayCore (s : State) (c sp : Nat) : State :=
  let s1 := s.modCore c (fun k => { k with state := 4, logical := 0 })
  match s1.activeCores.find? (fun l => decide (s1.physOf l = c)) with
  | none => s1
  | some l =>
    if sp < 18 then ((s1.modCore sp (fun k => { k with logical := l })).setWord 0x0C0 (0x110 + 4 * l) (sp + 2 ^ 7)).useSpare 4
    else s1.setWord 0x0C0 (0x110 + 4 * l) 0

/-- What the log says later of the row of entry i: a repair that succeeded or failed, or its package retired. -/
def State.laterOf (s : State) (i : Nat) (e : LogEntry) : Option Nat :=
  ((s.igr.log.drop (i + 1)).find? (fun x => (decide (x.unit = e.unit ∧ x.detail = e.detail) && (decide (x.action = 12) || decide (x.action = 13)))
    || (decide (x.action = 5) && decide (x.unit = bits e.unit 0 6)))).map (fun x => x.action)

/-- One entry of the repair log is replayed; the map, allocation and training of the memories are fresh at a cold start and kept at a warm one (R353, R397). -/
def State.replayEntry (cold : Bool) (s : State) (x : LogEntry × Nat) : State :=
  let e := x.1
  let st := bits e.unit 0 4
  let c := bits e.unit 4 6
  let rank := bits e.unit 10 3
  let bank := bits e.unit 13 4
  let mapped (o : Option Nat) : State := { s with igr := { s.igr with remapped := s.igr.remapped ++ [(64 * st + c, 16 * rank + bank, o)] } }
  match e.action with
  | 1 => (mapped (some e.detail)).useSpare 6
  | 2 => (mapped none).useSpare 0
  | 3 =>
    let s1 := s.useSpare 1
    if cold then s1.modChan (.vat st c) (fun k => { k with train := BitVec.ofNat 32 (setBits k.train.toNat 2 3 (bits k.train.toNat 2 3 + 1)) }) else s1
  | 4 =>
    let p := bits e.unit 0 6
    let ch := bits e.unit 6 2
    let rk := bits e.unit 8 1
    let bk := bits e.unit 9 4
    match s.laterOf x.2 e with
    | some 12 => s
    | some 5 => s
    | _ =>
      if cold then s.withholdRow p ch rk bk e.detail true
      else if s.igr.rowsLeaving.contains (.cellarRow p ch rk bk e.detail)
          || (rowSectors ch rk bk e.detail).all (fun x => sget false s.mem.withheld (sectorKey p x)) then s
      else s.retireRow p ch rk bk e.detail
  | 5 =>
    let b := BitVec.ofNat 48 (2 ^ e.unit)
    if cold then { s with mem := { s.mem with retired := s.mem.retired ||| b } }
    else if s.mem.retired.getLsbD e.unit then s
    else ({ s with mem := { s.mem with evacuating := s.mem.evacuating ||| b } }).evacuate e.unit
  | 6 => if s.groupRetired st c e.detail ∨ s.clusterState st c = 2 ∨ 4 ≤ s.laneSpares st c then s else s.swapGroup st c e.detail
  | 7 => if s.clusterState st c = 2 then s
    else s.swapCluster st c (if e.detail < 34 ∧ s.clusterState st e.detail = 1 then some e.detail else none)
  | 8 => s.replayCore e.unit e.detail
  | 9 => ({ s with prs := { s.prs with laneOut := sset false s.prs.laneOut (6 * e.unit + e.detail) true } }).useSpare 5
  | 10 => { s with prs := { s.prs with laneOut := sset false s.prs.laneOut (6 * e.unit + e.detail) true } }
  | 11 =>
    let s1 := s.modChan (.vat st c) (fun k => { k with train := BitVec.ofNat 32 (setBits k.train.toNat 0 2 3) })
    ({ s1 with mem := { s1.mem with
      channelOut := sset false s1.mem.channelOut (64 * st + c) true, stackOut := s1.mem.stackOut ||| BitVec.ofNat 16 (2 ^ st) } }).err 0x0E0 13
  | _ => s

/-- The whole log is replayed in order (R353). -/
def State.replay (s : State) (cold : Bool) : State :=
  let s1 := s.igr.log.zipIdx.foldl (State.replayEntry cold) s
  let s2 := { s1 with igr := { s1.igr with replayed := s.igr.log.length } }
  if s2.logFull then s2.err 0x0E0 12 else s2

/-- Withhold the sectors of the row that an ACTION 4 entry names, or allow them. -/
def State.logRow (s : State) (e : LogEntry) (on : Bool) : State :=
  s.withholdRow (bits e.unit 0 6) (bits e.unit 6 2) (bits e.unit 8 1) (bits e.unit 9 4) e.detail on

/-- The rows that are still pending, or whose repair failed, keep their sectors withheld, those they share with a repaired row among them: a group may cross a row boundary (R319, R354). -/
def State.keepWithheld (s : State) : State :=
  (s.igr.log.zipIdx.filter (fun x => decide (x.1.action = 4) && (decide (s.laterOf x.2 x.1 = none) || decide (s.laterOf x.2 x.1 = some 13)))).foldl
    (fun u x => u.logRow x.1 true) s

/-- Post-package repair of each pending row, before its channel trains (R354): ACTION 12 and the sectors allowed again, or ACTION 13; nothing while its entry cannot be written. ppr says, by place in the log, which repairs the bank had no resource for; any other succeeds. -/
def State.packageRepair (s : State) (ppr : List (Nat × Bool)) : State :=
  let pending := s.igr.log.zipIdx.filter (fun x => decide (x.1.action = 4) && (s.laterOf x.2 x.1).isNone)
  pending.foldl (fun (u : State) x =>
    let e := x.1
    if u.logFull then u
    else if ppr.contains (x.2, false) then u.logWrite { e with time := u.now, action := 13 }
    else (((u.logWrite { e with time := u.now, action := 12 }).logRow e false)).keepWithheld) s

/-! ### The start-up march and training -/

/-- A trigger before the cores' release is counted, and held (R345, R398). -/
def State.earlyTrigger (s : State) (u : RepairUnit) : State :=
  { s with igr := { s.igr with triggers := s.igr.triggers + 1, early := s.igr.early ++ [u] } }

/-- A failing word of the start-up march (R393): an uncorrectable error of that word for the cooper; a cluster store's brings its cluster's trigger, a local memory's halts its core, shared memory's stops the boot. -/
def State.marchFailure (s : State) (f : Nat × Nat × Nat) : State :=
  let x : Spot := ⟨f.1, f.2.1, f.2.2⟩
  let s1 := ((s.recordUe (storeWhere x.store) 2 x.ueAddr).count 0x000 1).err 0x000 8
  match x.store with
  | 0 => s1.earlyTrigger (.cluster (x.inst / 64) (x.inst % 64))
  | 1 => s1
  | 2 => { s1 with sto := { s1.sto with wipeFail := true } }
  | _ => s1.modCore x.inst (fun k => { k with state := 3 })

/-- A channel has trained, with margins the spec does not state (a free value, log entry 49), or has failed (R331). -/
def State.trainChan (s : State) (ch : Chan) (failed : Bool) : State :=
  let (d, s1) := s.draw
  let t := (s1.chan ch).train.toNat
  if failed then s1.modChan ch (fun k => { k with train := BitVec.ofNat 32 (setBits t 0 2 3) })
  else
    let m := Config.freeWord d
    s1.modChan ch (fun k => { k with
      train := BitVec.ofNat 32 (setBits (setBits (setBits t 0 2 1) 8 8 (bits m.toNat 0 8)) 16 8 (bits m.toNat 8 8)), trainedAt := s1.now })

/-- Channels of the part. -/
def State.allChans (s : State) : List Chan :=
  ((List.range 16).flatMap (fun k => (List.range 64).map (fun c => Chan.vat k c)))
    ++ ((List.range s.order.packages).filter (fun p => !(s.mem.retired.getLsbD p))).flatMap (fun p => (List.range 4).map (fun c => Chan.cellar p c))

/-- Lanes of a channel fail training (R331): a vat channel brings in a spare bond lane for each and trains; with more of them than spares left, and any cellar channel, it goes to STATE 3, and the cooper is handed the channel or its package, as a trigger held until the release (R345, R398). -/
def State.trainFails (s : State) (ch : Chan) (lanes : Nat) : State :=
  match ch with
  | .vat k c =>
    let used := bits (s.chan ch).train.toNat 2 3
    let u := (List.range (min lanes (4 - used))).foldl (fun v _ => v.useSpare 1)
      (s.modChan ch (fun x => { x with train := BitVec.ofNat 32 (setBits x.train.toNat 2 3 (min 4 (used + lanes))) }))
    if used + lanes ≤ 4 then u.trainChan ch false
    else
      let v := (u.trainChan ch true).err 0x000 8
      let w := { v with mem := { v.mem with channelOut := sset false v.mem.channelOut (64 * k + c) true, stackOut := v.mem.stackOut ||| BitVec.ofNat 16 (2 ^ k) } }
      ((w.earlyTrigger (.vatChannelOut k c)).err (0x050 + k) 9).err (0x050 + k) 10
  | .cellar p _ =>
    let v := ((s.trainChan ch true).err 0x000 8).err (0x060 + p) 8
    v.earlyTrigger (.cellarPackage p)

/-- Every channel trains but those that fail, or are out of service already (R331, R391); untrained lists a channel once for each lane of it that fails. -/
def State.trainAll (s : State) (untrained : List Chan) : State :=
  s.allChans.foldl (fun (u : State) ch =>
    let out := match ch with | .vat k c => sget false u.mem.channelOut (64 * k + c) | .cellar _ _ => false
    if out then u
    else if untrained.contains ch then u.trainFails ch (untrained.count ch)
    else u.trainChan ch false) s

/-! ### Cold start -/

/-- A fresh nonce of eight random words (R378): a free value. -/
def State.freshNonce (s : State) : State :=
  { s with freeCtr := s.freeCtr + 8, tru := { s.tru with nonce := Vector.ofFn (fun i => Config.freeWord (s.freeCtr + i.val)) } }

/-- A command ends (R375, R378): its result is posted, its bit and count set, and a fresh nonce drawn. -/
def State.rcvEnd (s : State) (kind result : Nat) : State :=
  let s1 := ({ s with tru := { s.tru with rcv := none } }).setWord 0x003 0x170 (kind * 2 + result * 2 ^ 4)
  let s2 := if result = rcvOk then s1.err 0x003 9 else (s1.count 0x003 1).err 0x003 10
  s2.freshNonce

/-- The current vintage is the highest-numbered whole slot (R380). -/
def State.wholeSlot (s : State) : Nat := ((List.range 4).reverse.find? (fun n => otpWhole n (s.otpSlot n))).getD 0

/-- The trust core starts anew, as at every cold start (R380, R382, R387): what was pending takes effect, SENSORS moves to LAST, TAMPERED and COUNT clear, and STAGE 1 begins. -/
def State.trustColdStart (s : State) (sensors : Nat) : State :=
  let s1 := ({ s with tru := { s.tru with lcNow := lifeCycleOf s.tru.lc, current := s.wholeSlot, wipeStop := false } }).freshNonce
  let s2 := (s1.setWord 0x003 0x108 (sensors * 2 ^ 5)).setWord 0x003 0x100 1
  let s3 := if (List.range 4).any (fun n => otpTorn n (s2.otpSlot n)) then s2.err 0x004 8 else s2
  if otpWritten (s3.otpSlot 3) then s3.err 0x004 9 else s3

/-- The input comes into range after absence, after the second of a power cycle, or for the first time (R391, R416, R419). A tripped module stays off while its input stays (R366). -/
def State.mayColdStart (s : State) : Bool :=
  !s.pwr.input || (s.pwr.off && s.mod.cycleAt.isSome) || (!s.pwr.off && decide (s.pwr.rails ≠ BitVec.allOnes 9))

/-- After a trip, an input that was absent for less than a second leaves the module off (R366): only VSTBY is up, and the record is gone. The time base starts anew with VSTBY (R368). -/
def State.staysOff (s : State) : State :=
  let u := s.railTo true .vstby
  { u with now := 0, pwr := { u.pwr with input := true, off := true } }

/-- COLD_START (R353, R354, R366, R391, R393, R397): the rails rise, the reference is stable, the log is replayed and pending rows are repaired, every on-die store is marched and zero, the secure partition's wipe begins, and the channels train. fails lists the march's failing words (store, instance, byte offset), untrained the channels with lanes that fail, once for each lane, absent how long the input was absent before, in ns. -/
def execColdStart (ppr : List (Nat × Bool)) (fails : List (Nat × Nat × Nat)) (untrained : List Chan) (s : State) (absent : Nat := 1000000000) : Result :=
  if !(s.mayColdStart) then done s
  else if !s.pwr.input && s.pwr.latched && decide (absent < sec) then done s.staysOff
  else
    let s0 := match s.mod.cycleAt with | some t => s.until (t + sec) | none => s
    let fresh := decide (s0.pwr.rails.getLsbD 0 = false)
    let sensors := bits (s0.word 0x003 0x108) 1 4
    let t := s0.railsDown
    let now := if fresh then 0 else s0.now
    let u : State := { t with
      now := now
      pwr := { t.railsRise.pwr with off := false, input := true, starting := 1, startAt := now, latched := false, startLog := s0.igr.log }
      mod := { t.mod with cycleAt := none } }
    let u1 := (u.setWord 0x001 0x170 u.modTrip).setField 0x002 0x10C 0 2 1
    let u2 := if u1.pwr.tripCause ≠ 0 then u1.err 0x001 12 else u1
    let u3 := ((u2.trustColdStart sensors).replay true).packageRepair ppr
    let u4 := (fails.foldl State.marchFailure u3).startWipe 1
    done (u4.trainAll untrained).watch

/-- VAT_READY (R391, R396): the vat path is ready; at a warm start, which WARM_COUNT tells from a cold one, the channels leave self-refresh. -/
def execVatReady (s : State) : Result :=
  if s.pwr.off ∨ s.pwr.rails ≠ BitVec.allOnes 9 ∨ s.field 0x000 0x104 0 1 = 1 then done s
  else
    let s1 := s.until (s.pwr.startAt + (if 0 < s.field 0x000 0x110 16 16 then 6 * ms else 75 * ms))
    let s2 := s1.exitRefresh true true
    done ((s2.setField 0x000 0x104 0 1 1).setWord64 0x000 0x108 s2.now)

/-- PACKAGE_INIT_DONE (R392): a fitted package whose channels are trained leaves start-up, and its sectors count in D. -/
def execPackageInitDone (package : Fin 48) (s : State) : Result :=
  let p := package.val
  if p < s.order.packages ∧ !(s.mem.retired.getLsbD p) ∧ !(s.mem.packageIn.getLsbD p)
      ∧ (List.range 4).all (fun c => decide ((s.chan (.cellar p c)).trainState = 1)) then
    done (({ s with mem := { s.mem with packageIn := s.mem.packageIn ||| BitVec.ofNat 48 (2 ^ p) } }).settleUsage)
  else done s

/-- FW_READY is set by a control core (R395). -/
def State.setFwReady (s : State) (req : Requester) : State :=
  match req with
  | .core _ => s.setField 0x000 0x104 7 1 1
  | _ => s

/-- FW_READY (R395). -/
def execFwReady (req : Requester) (s : State) : Result := s.reg' (.fwReady req) req 0x000 0x104 (fun u => u.setFwReady req)

/-! ### Warm start -/

/-- A warm start begins (R396): its trigger is recorded, every port takes a port reset with cause link down, no queue fetches, and every job aborts. While any start is in progress there is no effect (R390). -/
def State.startWarm (s : State) (last : Nat) : State :=
  if s.pwr.starting ≠ 0 ∨ s.pwr.off then s
  else
    let n := min 65535 (s.field 0x000 0x110 16 16 + 1)
    let s1 := (s.setWord 0x000 0x110 (last + n * 2 ^ 16)).setField 0x000 0x104 7 1 0
    let s2 := { s1 with pwr := { s1.pwr with starting := 2, startAt := s1.now, quiesced := false } }
    let s3 := allPorts.foldl (fun (u : State) p => if (u.port p).resetAt.isSome then u else u.portReset p 2) s2
    let s4 := (s3.qmg.queues.map (fun e => e.1)).foldl State.disableQueue s3
    ((s4.lst.jobs.map (fun j => j.id)).foldl (fun u id => u.abortJob id 11) s4).settle

/-- WARM of PLT_RESET (R390): from the management port or a control core; otherwise an access error. -/
def State.warmBy (s : State) (req : Requester) : State :=
  match req with
  | .port p => if p.val = s.mgmtPort then s.startWarm 1 else s.errInfo 0x000 1 0x100 (reqCode req)
  | .core _ => s.startWarm 1
  | _ => s.errInfo 0x000 1 0x100 (reqCode req)

/-- WARM (R396). -/
def execWarm (req : Requester) (s : State) : Result :=
  match s.regAccess (.warm req) req 0x000 0x100 (fun u => u.warmBy req) with
  | u => done u.watch

/-- Fold every accepted publication, region by region in order of acceptance (R137, R396). -/
def State.foldAll (s : State) : State :=
  ((s.edn.pubs.flatMap (fun p => p.tiles)).foldl State.foldTile { s with edn := { s.edn with pubs := [] } }).settleUsage

/-- The map caches are written back and empty (R49, R396). -/
def State.writeBackMaps (s : State) : State :=
  let back (u : State) (e : Nat × Nat) (place : Nat → Nat × Nat) : State :=
    if e.2 = 2 then u.dramVat (place e.1).1 (place e.1).2 true background else u
  let s1 := s.mem.tmapCache.foldl (fun u e => back u e s.tmapPlace) s
  let s2 := s.mem.cmapCache.foldl (fun u e => back u e s.cmapPlace) s1
  { s2 with mem := { s2.mem with tmapCache := [], cmapCache := [] } }

/-- A mailbox command in flight when the trust core starts over ends with FETCH_FAIL, as after a port reset (R377, R389, DEDUCED, log entry 51). -/
def State.rcvAbort (s : State) : State :=
  match s.tru.rcv with
  | some c => s.rcvEnd c.kind rcvFetchFail
  | none => s

/-- A job that the warm start's abort left behind ends with the cause it has (R199, R201, R396). -/
def State.quiesceJob (s : State) (id : Nat) : State :=
  match s.job id with
  | none => s
  | some j => if j.ending.isSome then s.reportJob id else (s.finishJob id 2 (if j.state = 3 then j.cause else 11)).reportJob id

/-- Everything in flight ends before the islands are reset (R396, R397): the ports' resets and walks, the jobs, drafts, publications, buffers and moves. -/
def State.quiesce (s0 : State) : State :=
  let s := s0.rcvAbort
  let s1 := allPorts.foldl (fun (u : State) p => if (u.port p).resetAt.isSome then u.resetPort p else u) s
  let s2 := (List.range 6).foldl (fun (u : State) p => if u.walking p then u.endWalk p else u) s1
  let s3 := (s2.lst.jobs.map (fun j => j.id)).foldl State.quiesceJob s2
  let s4 := (s3.edn.drafts.map (fun d => (d.region, d.writer))).foldl (fun u d => u.discardDraft d.1 d.2) s3
  let s5 := s4.foldAll
  let s6 := (s5.prs.sessions.map (fun x => x.queue)).foldl (fun u q => u.endSession q 11) s5
  let s7 := (s6.rck.moves.map (fun m => m.tile)).foldl (fun u t => u.abandonMove t 0x019 2 false) s6
  let s8 := (s7.prs.bufs.map (fun b => b.cask)).foldl (fun u k => u.finishSeal k) s7
  allPorts.foldl (fun (u : State) p => u.windowOff p) s8.writeBackMaps

/-- A register word after the islands' reset (R397): RWS fields are kept everywhere, with STAGE_GEN and ERR_MASK (R407); so are the words of the pages 0x008 to 0x04F but for their RW fields, and the platform's, the trust core's and the DRAM controllers' but for logs and event counters. -/
def State.keptWord (s : State) (key v : Nat) : Nat :=
  let page := key / 4096
  let off := key % 4096
  let r := (resetWord s.order key).toNat
  if off = 0x010 ∨ off = 0x01C then v
  else if 8 ≤ page ∧ page ≤ 0x04F then pick (accMask s.order page off .rw) r v
  else if page ≤ 4 ∨ (0x050 ≤ page ∧ page ≤ 0x08F) then (if off = 0x018 ∨ (0x020 ≤ off ∧ off < 0x040) then r else v)
  else if page = 0x0D0 ∧ 0x104 ≤ off ∧ off < 0x110 then v
  else pick (accMask s.order page off .rws) v r

/-- The register file after the islands' reset. -/
def State.keptRegs (s : State) : RegState :=
  { live := s.reg.live.foldl (fun m e => sset (resetWord s.order e.1) m e.1 (BitVec.ofNat 32 (s.keptWord e.1 (s.word (e.1 / 4096) (e.1 % 4096))))) [] }

/-- A queue after a warm start: disabled, with its owner (R397). -/
def keptQueue (k : Queue) : Queue := { ownKind := k.ownKind, ownId := k.ownId }

/-- The control cores after the islands' reset: fresh, but before the release a core that the start-up march found bad stays halted (R393, R396). -/
def State.freshCores (s : State) : Vector Core 18 :=
  Vector.ofFn (fun i => if !s.released && decide ((s.core i.val).state = 3) then { ({} : Core) with state := 3, logical := (s.core i.val).logical } else (State.resetOf s.order).cores[i])

/-- The islands are reset (R396, R397): what a warm start keeps stays, everything else is as after reset; triggers held before the release stay held (R398). -/
def State.islandsReset (s : State) : State :=
  let gone (e : Nat × Bool) : Bool := decide (e.1 / 2 ^ 36 = 2)
  let asleep (m : Sparse ChanState) : Sparse ChanState := m.foldl (fun acc e => sset {} acc e.1
    { train := e.2.train, trainedAt := e.2.trainedAt, intervalAt := e.2.intervalAt, classWt := e.2.classWt, srcWt := e.2.srcWt, selfRefresh := true }) []
  { s with
    reg := s.keptRegs
    rgn := { s.rgn with pending := none }
    rck := { exhLog := s.rck.exhLog, exhOvf := s.rck.exhOvf, epoch := s.rck.epoch }
    prs := { qlog := s.prs.qlog, qlogOvf := s.prs.qlogOvf, tables := s.prs.tables, trainCasks := s.prs.trainCasks, qReason := s.prs.qReason }
    dir := { lostLog := s.dir.lostLog, lostOvf := s.dir.lostOvf }
    edn := {}
    qmg := { queues := s.qmg.queues.foldl (fun m e => sset {} m e.1 (keptQueue e.2)) [] }
    lst := {}
    den := {}
    svc := { kv := s.svc.kv }
    cores := s.freshCores
    icu := {}
    sto := { shared := s.sto.shared, poison := s.sto.poison.filter gone, wipeAt := s.sto.wipeAt, wipeFail := s.sto.wipeFail }
    dram := { vat := asleep s.dram.vat, cellar := asleep s.dram.cellar, mr4 := s.dram.mr4 }
    igr := { log := s.igr.log, remapped := [], early := s.igr.early, triggers := s.igr.triggers }
    tns := {}
    tru := { s.tru with image := none, rcv := none, deviceKey := none, aliasKey := none, aliasCert := none } }

/-- WARM_START_QUIESCED (R396, R397): everything in flight has ended and the channels are in self-refresh; the islands are reset, the log is replayed, and the trust core begins STAGE 1 with BOOT 1. -/
def execWarmStartQuiesced (s : State) : Result :=
  if s.pwr.starting ≠ 2 ∨ s.pwr.off then done s
  else
    let s1 := ((s.quiesce).until (s.pwr.startAt + 5500 * us)).islandsReset
    let s2 := (({ s1 with pwr := { s1.pwr with quiesced := true } }).setField 0x000 0x104 0 1 0).setField 0x000 0x104 8 2 1
    let s3 := ((s2.setWord 0x003 0x100 1).setWord 0x001 0x11C 0).replay false
    done ((s3.settleLevels).count 0x000 0).watch

end Sys2Proof.Machine
end

