-- ==== Sys2Proof/Machine/Trust.lean ====
section
/-! DEFINITION. The trust core (R371 to R389): the boot stages, the Shombe image and the recovery mailbox with its commands, vintages, the life cycle, tamper, and SPDM with the IDE key programming it carries (R253, R384 to R386). -/

namespace Sys2Proof.Machine

/-! ### Starting the control cores' memory -/

/-- Bytes written by the trust core from the start of shared memory: an image's body, which ends every poison mark there (R373). -/
def State.loadBody (s : State) (n : Nat) (body : List Byte) : State :=
  let lo := 2 ^ 36 * 2
  { s with sto := { s.sto with
    shared := Memory.store (Memory.clear s.sto.shared 0 n) 0 (body.take n)
    poison := s.sto.poison.filter (fun e => !(decide (lo ≤ e.1) && decide (e.1 < lo + n / 8))) } }

/-- TAMPERED (R387). -/
def State.tampered (s : State) : Bool := decide (s.field 0x003 0x108 0 1 = 1)

/-- Keys that a stage derives exist: not in RMA, and zeroed as they are derived after a tamper (R382, R398). -/
def State.keysLive (s : State) : Bool := decide (s.tru.lcNow ≠ 2) && !s.tampered

/-- BOOT of PLT_START_STATUS and of the hand-off block. -/
def State.boot (s : State) : Nat := s.field 0x000 0x104 8 2

/-- The hand-off block (R289), but for RELEASE_TIME, which release writes. -/
def State.handOff (s : State) (bodyLen : Nat) : List Byte :=
  let active := (s.activeCores.filter (fun l => decide ((s.core (s.physOf l)).state ≠ 3))).length
  let order := match s.order with | .l3072 => 0 | .l1536 => 1
  leBytes 4 (1 + active * 2 ^ 8 + order * 2 ^ 16 + s.boot * 2 ^ 18 + s.tru.current * 2 ^ 20) ++ leBytes 4 bodyLen ++ leBytes 8 0 ++ leBytes 4 s.igr.replayed

/-- The 4 KiB block at the hand-off address takes bytes; the rest of it is zero (R289). -/
def State.writeHandOff (s : State) (l : List Byte) : State :=
  let lo := 2 ^ 36 * 2 + handOffAt / 8
  { s with sto := { s.sto with
    shared := Memory.store (Memory.clear s.sto.shared handOffAt 4096) handOffAt l
    poison := s.sto.poison.filter (fun e => !(decide (lo ≤ e.1) && decide (e.1 < lo + 512))) } }

/-- Set STAGE (R372). -/
def State.setStage (s : State) (n : Nat) : State := s.setField 0x003 0x100 0 4 n

/-- STAGE 6 (R372, R385): the alias key of the verified image, and its certificate, which the device key signs. -/
def State.makeAlias (s : State) (i : Image) : State :=
  let key := if s.keysLive then some (s.aliasSeed i) else none
  let cert := match s.tru.deviceKey, key with | some d, some a => some (Config.aliasCertificate d a) | _, _ => none
  { s with tru := { s.tru with image := some i, aliasKey := key, aliasCert := cert } }

/-- STAGES 6 and 7 for the verified image (R372): the alias key, CTL_ENTRY and the hand-off block. RELEASED follows. -/
def State.aliasAndHandOff (s : State) (i : Image) : State :=
  let s1 := (s.makeAlias i).setStage 7
  (s1.setWord64 0x0C0 0x100 (0x10000000 + i.entryOff)).writeHandOff (s1.handOff i.bodyLen)

/-- The registers that show the verified image, and where it came from. -/
def State.showImage (s : State) (i : Image) (source : Nat) : State :=
  ((s.setWord 0x003 0x118 i.svn).setWord64 0x003 0x120 i.buildId).setField 0x003 0x100 12 2 source

/-- The boot stops (R372): RESULT and STAGE 8 or 9 show, BOOT_FAIL is set, and the start is over. -/
def State.bootStop (s : State) (stage result : Nat) : State :=
  let s0 := { s with tru := { s.tru with wipeStop := s.tru.wipeStop || decide (result = 12) } }
  let s1 := (s0.setStage stage).setField 0x003 0x100 4 8 result
  (({ s1 with pwr := { s1.pwr with starting := 0 } }).err 0x003 8)

/-- An image's body is streamed into shared memory as it is read, where its header says how long it is (R372, R377); then it is checked. -/
def State.streamImage (s : State) (b : List Byte) (len : Nat) : Nat × State :=
  let u := if imageFormat b && imageLengths len (imageBodyLen b) (imageEntry b) then s.loadBody (imageBodyLen b) (imageBody b) else s
  (u.checkImage b len, u)

/-- STAGE 5 of a flash image (R372 to R374). -/
def State.bootImage (s : State) (b : List Byte) : State :=
  let (r, u) := s.streamImage b (8192 + imageBodyLen b)
  if r = rcvOk then (({ u with tru := { u.tru with image := some (trustImage b) } }).showImage (trustImage b) 0).setStage 6
  else u.bootStop 8 r

/-- STAGE 5 (R372 to R374): the flash image's header is checked and its body streamed into shared memory. object is what an image area that has not been programmed was made with, which stays there. -/
def State.stageFive (s : State) (object : TrustObject) : State :=
  match s.tru.flash with
  | .invalid => s.bootStop 8 rcvBadFormat
  | .holds b => s.bootImage b
  | .asMade => ({ s with tru := { s.tru with flash := .holds (areaBytes object) } }).bootImage (areaBytes object)

/-- BOOT_STAGE (R372): the current stage runs. STAGE 1 compares the ROM's digest with the one fused at manufacture; found says whether a worn cell made the ROM read wrong. STAGE 2 waits for the wipe at a cold start; a warm start that follows a stop for WIPE_FAIL stops there again (R401). -/
def execBootStage (found : StageFinding) (object : TrustObject) (s : State) : Result :=
  if s.pwr.off ∨ !s.pwr.input then done s
  else
    match s.stage with
    | 1 => done (if found = .romFail ∨ !s.romGood then s.bootStop 9 11 else s.setStage 2).watch
    | 2 =>
      if s.pwr.starting = 2 then done (if s.tru.wipeStop then s.bootStop 9 12 else s.setStage 3).watch
      else if s.wiping then done s
      else done (if s.sto.wipeFail then s.bootStop 9 12 else s.setStage 3).watch
    | 3 =>
      if s.tru.lcNow = 3 then
        let s1 := s.setStage 9
        done ({ s1 with pwr := { s1.pwr with starting := 0 } }).watch
      else done (s.setStage 4)
    | 4 => done (({ s with tru := { s.tru with deviceKey := if s.keysLive then some s.deviceSeed else none } }).setStage 5)
    | 5 => done (s.stageFive object).watch
    | 6 => done (match s.tru.image with | some i => s.aliasAndHandOff i | none => s)
    | _ => done s

/-! ### The recovery mailbox -/

/-- BUSY of TRU_RCV_STATUS. -/
def State.rcvRuns (s : State) : Bool := s.tru.rcv.isSome

/-- A command is accepted at this stage (R376): RUN in the recovery wait, PROGRAM there or in service, the requests in service. -/
def State.rcvStage (s : State) (kind : Nat) : Bool :=
  match kind with
  | 1 => decide (s.stage = 8)
  | 2 => decide (s.stage = 8) || s.released
  | _ => s.released

/-- The requester may give the command (R376): a control core cannot give RUN or PROGRAM. -/
def rcvMay (req : Requester) (kind : Nat) : Bool := match req with | .core _ => decide (3 ≤ kind) | _ => true

/-- TRU_RCV_LEN. -/
def State.rcvLen (s : State) : Nat := s.field 0x003 0x168 0 24

/-- The object of a control core's command, read from shared memory (R377, R378). A poisoned or uncorrectable word, or an address outside shared memory, fails the fetch. -/
def State.sharedObject (s : State) (o : TrustObject) : TrustObject :=
  let a := s.word64 0x003 0x160
  let base := a - 0x10000000
  let inside := decide (0x10000000 ≤ a) && decide (a + s.rcvLen ≤ 0x11000000)
  let clean := (List.range ((s.rcvLen + 7) / 8)).all (fun i => !(sget false s.sto.poison (2 ^ 36 * 2 + base / 8 + i)))
  { o with fetchOk := inside && clean && o.badWord.isNone, bytes := Memory.bytes s.sto.shared base s.rcvLen }

/-- The object of a command (R377): through a port by DMA, which needs its Bus Master Enable and no containment; otherwise from shared memory. A core's is taken as it lies at the GO (log entry 130). -/
def State.fetched (s : State) (req : Requester) (o : TrustObject) : TrustObject :=
  match req with
  | .port p => { o with fetchOk := o.fetchOk && s.canMaster p }
  | _ => s.sharedObject o

/-- The trust core's read of an object from shared memory meets an uncorrectable word of it: it is counted, and delivered as poison (R305, R338). -/
def State.fetchUe (s : State) (req : Requester) (o : TrustObject) : State :=
  match req, o.badWord with
  | .port _, _ => s
  | _, none => s
  | _, some i => if 8 * i < s.rcvLen then s.recordUe 5 0 (s.word64 0x003 0x160 - 0x10000000 + 8 * i) else s

/-- The reads by which the trust core fetches an object through a port (R232, R377): its pieces of at most Max Read Request Size in order, in class 3 as maintenance traffic (R20), each timed against QMG_RD_TIMEOUT0. Of a fetch that fails, the failing piece is the last: it comes poisoned, or is left to time out (R243, R278). -/
def State.fetchReads (s : State) (p : Port) (o : TrustObject) : State :=
  let addr := s.word64 0x003 0x160
  let size := max 64 (s.port p).mrrs
  let n := ceilDiv s.rcvLen size
  let good := if o.fetchOk then n else min o.got (n - 1)
  let piece (i : Nat) : Nat := min size (s.rcvLen - size * i)
  let u := (List.range good).foldl (fun (u : State) i => (u.readWithin p (addr + size * i) (piece i) 3 true 0).2) s
  if o.fetchOk ∨ n = 0 then u
  else if o.poisoned then (((u.readWithin p (addr + size * good) (piece good) 3 true 0).2).err (prtPage p) 15).aer p 1
  else ((u.tagWithin p).issueRead p (addr + size * good) (piece good) 3 .gone 0).getD u

/-- GO (R375, R376, R389, R408): none while a command runs; one that is not permitted ends at once. -/
def State.rcvGo (s : State) (kind : Nat) (req : Requester) (o : TrustObject) : State :=
  if s.rcvRuns then s
  else if s.rcvStage kind && rcvMay req kind then
    let u := s.sampleHalf 0x003 0x160 reqInternal
    let v := (({ u with tru := { u.tru with rcv := some ⟨kind, req, u.fetched req o, u.rcvLen, u.now⟩ } }).setWord 0x003 0x170 (1 + kind * 2 + rcvBusy * 2 ^ 4)).count 0x003 0
    match req with
    | .port p => if u.canMaster p then v.fetchReads p o else v
    | _ => v.fetchUe req o
  else s.rcvEnd kind rcvNotPermitted

/-- RUN (R376). -/
def execRun (req : Requester) (object : TrustObject) (s : State) : Result := s.reg' (.run req object) req 0x003 0x16C (fun u => u.rcvGo 1 req object)

/-- PROGRAM (R376, R377). -/
def execProgram (req : Requester) (object : TrustObject) (s : State) : Result := s.reg' (.program req object) req 0x003 0x16C (fun u => u.rcvGo 2 req object)

/-- VINTAGE (R381). -/
def execVintage (req : Requester) (object : TrustObject) (s : State) : Result := s.reg' (.vintage req object) req 0x003 0x16C (fun u => u.rcvGo 3 req object)

/-- LIFE_CYCLE (R383). -/
def execLifeCycle (req : Requester) (object : TrustObject) (s : State) : Result := s.reg' (.lifeCycle req object) req 0x003 0x16C (fun u => u.rcvGo 4 req object)

/-- DEBUG_UNLOCK (R388). -/
def execDebugUnlock (req : Requester) (object : TrustObject) (s : State) : Result := s.reg' (.debugUnlock req object) req 0x003 0x16C (fun u => u.rcvGo 5 req object)

/-- Every SPDM session ends (R383, R387, R388). -/
def State.endSessions (s : State) : State :=
  allPorts.foldl (fun (u : State) p => u.modPort p (fun q => { q with spdmSession := 0 })) s

/-- The boot goes on from STAGE 6 after a RUN or a PROGRAM (R376). -/
def State.bootOn (s : State) (i : Image) (source boot : Nat) : State :=
  ((s.setField 0x000 0x104 8 2 boot).showImage i source).setField 0x003 0x100 4 8 rcvOk |>.aliasAndHandOff i

/-- RUN ends (R376, R377): the body is in shared memory once it has been fetched; a verified image runs, with BOOT 2. -/
def State.endRun (s : State) (b : List Byte) (len : Nat) : State :=
  let (r, u) := s.streamImage b len
  (if r = rcvOk then u.bootOn (trustImage b) 1 2 else u).rcvEnd 1 r

/-- The image area takes an image that has passed, or fails and holds none (R377). -/
def State.programFlash (s : State) (b : List Byte) (flashOk : Bool) (next : State → State) : State :=
  if flashOk then (next (({ s with tru := { s.tru with flash := .holds b } }).count 0x003 2)).rcvEnd 2 rcvOk
  else ({ s with tru := { s.tru with flash := .invalid } }).rcvEnd 2 rcvFlashFail

/-- PROGRAM ends (R377): at STAGE 8 the body is in shared memory and the boot goes on; in service the object was staged, which staged tells, and Shombe runs on. flashOk says that the image area took the image. -/
def State.endProgram (s : State) (b : List Byte) (len : Nat) (staged flashOk : Bool) : State :=
  if s.stage = 8 then
    let (r, u) := s.streamImage b len
    if r ≠ rcvOk then u.rcvEnd 2 r else u.programFlash b flashOk (fun v => v.bootOn (trustImage b) 2 0)
  else if !staged then s.rcvEnd 2 rcvFlashFail
  else
    let u := { s with tru := { s.tru with staging := some b } }
    let r := u.checkImage b len
    if r ≠ rcvOk then u.rcvEnd 2 r else u.programFlash b flashOk id

/-- FROZEN is set once slot 3 is written (R381). -/
def State.noteFrozen (s : State) : State := if otpWritten (s.otpSlot 3) then s.err 0x004 9 else s

/-- The slot of an accepted VINTAGE request is written and read back (R381): whole, or torn with FLASH_FAIL. -/
def State.writeVintage (s : State) (payload : List Byte) (flashOk : Bool) : State :=
  match s.freeSlot? with
  | none => s.rcvEnd 3 rcvNotPermitted
  | some n =>
    if flashOk then
      let l := (List.range 76).map (fun i => payload.getD i 0#8) ++ List.replicate 52 0#8
      let s1 := { s with tru := { s.tru with slots := s.tru.slots.set! n l } }
      (((s1.setField 0x004 0x100 16 1 1).count 0x004 0).noteFrozen).rcvEnd 3 rcvOk
    else (((s.tearSlot n payload).err 0x004 8).noteFrozen).rcvEnd 3 rcvFlashFail

/-- A life-cycle mark is set (R383): the partition is wiped, the sessions end, and PENDING shows. -/
def State.markLife (s : State) (target : Nat) : State :=
  let s1 := { s with tru := { s.tru with lc := s.tru.lc ||| BitVec.ofNat 8 (2 ^ (target - 1)) } }
  (((s1.startWipe 3).endSessions).setField 0x003 0x104 2 1 1)

/-- An accepted debug unlock (R388). -/
def State.unlockDebug (s : State) : State := ((s.endSessions).setField 0x003 0x104 3 1 1 |>.count 0x003 4).err 0x003 12

/-- A signed request ends (R378, R381, R383, R388). -/
def State.endRequest (s : State) (kind : Nat) (b : List Byte) (len : Nat) (flashOk : Bool) : State :=
  let r := s.checkRequest kind b len
  if r ≠ rcvOk then s.rcvEnd kind r
  else match kind with
    | 3 => s.writeVintage (requestPayload b) flashOk
    | 4 => (s.markLife ((requestPayload b).getD 0 0#8).toNat).rcvEnd 4 rcvOk
    | _ => s.unlockDebug.rcvEnd 5 rcvOk

/-- RCV_COMMAND_END (R376 to R378): the command's fetch, checks and writes are done, and its result is posted. -/
def execRcvCommandEnd (flashOk : Bool) (s : State) : Result :=
  match s.tru.rcv with
  | none => done s
  | some c =>
    let b := objectBytes c.object c.len
    done (if !c.object.fetchOk then s.rcvEnd c.kind rcvFetchFail
      else match c.kind with
        | 1 => s.endRun b c.len
        | 2 => s.endProgram b c.len c.object.flashOk flashOk
        | _ => s.endRequest c.kind b c.len flashOk).watch

/-! ### Tamper -/

/-- The IDE keys and streams of every port are gone (R387). -/
def State.dropIde (s : State) : State :=
  allPorts.foldl (fun (u : State) p => u.modPort p (fun q => { q with ideIo := false, ideMem := false, ideKeys := 0, ideGo := [] })) s

/-- TAMPER (R387): a sensor's bit is recorded and counted; the first latches, wipes the partition, zeroes the keys and ends sessions and IDE streams. -/
def execTamper (sensor : Fin 4) (s : State) : Result :=
  if !s.pwr.input then done s
  else
    let was := s.tampered
    let w := s.word 0x003 0x108
    let n := min 65535 (bits w 16 16 + 1)
    let s1 := (s.setWord 0x003 0x108 (setBits (setBits w (1 + sensor.val) 1 1) 16 16 n)).count 0x003 3
    if was then done s1
    else
      let s2 := if s1.pwr.off then s1 else s1.startWipe 2
      let s3 := ({ s2 with tru := { s2.tru with deviceKey := none, aliasKey := none } }).endSessions.dropIde
      done (((s3.setField 0x003 0x108 0 1 1).setWord64 0x003 0x110 s3.now).err 0x003 11).watch

/-! ### SPDM (R384 to R386) -/

/-- An SPDM request of a phase of the connection at least n is answered by f; an earlier one gets UnexpectedRequest (the phases of SPDM 1.3, PRESUMED, log entry 50). -/
def State.spdm (s : State) (c : Instr) (p : Port) (n : Nat) (f : State → State) : Result :=
  s.viaCfg c p (fun u => if n ≤ (u.port p).spdmPhase then f u else u.emit (.spdmError p.val 4))

/-- A request of the session, once established. -/
def State.inSession (s : State) (c : Instr) (p : Port) (f : State → State) : Result :=
  s.viaCfg c p (fun u => if (u.port p).spdmSession = 2 then f u else u.emit (.spdmError p.val 4))

/-- Two words of content that the spec does not state: signatures and key material (free values). -/
def State.material (s : State) : List Nat × State :=
  ([(Config.freeWord s.freeCtr).toNat, (Config.freeWord (s.freeCtr + 1)).toNat], { s with freeCtr := s.freeCtr + 2 })

/-- A response with material at its end. -/
def State.answerWith (s : State) (p : Port) (code : Nat) (values : List Nat) : State :=
  let (m, u) := s.material
  u.emit (.doe p.val code (values ++ m))

/-- GET_VERSION (R384): SPDM 1.3. -/
def execGetVersion (p : Port) (s : State) : Result :=
  s.viaCfg (.getVersion p) p (fun u => (u.modPort p (fun q => { q with spdmPhase := 1 })).emit (.doe p.val 0x04 [0x13]))

/-- GET_CAPABILITIES (R384). -/
def execGetCapabilities (p : Port) (s : State) : Result :=
  s.spdm (.getCapabilities p) p 1 (fun u => (u.modPort p (fun q => { q with spdmPhase := max 2 q.spdmPhase })).emit (.doe p.val 0x61 []))

/-- NEGOTIATE_ALGORITHMS (R384): SHA3-384, ML-DSA-65 by the vendor of R384, secp384r1 and AES-256-GCM, by the codes of SPDM 1.3. -/
def execNegotiateAlgorithms (p : Port) (s : State) : Result :=
  s.spdm (.negotiateAlgorithms p) p 2 (fun u => (u.modPort p (fun q => { q with spdmPhase := 3 })).emit (.doe p.val 0x63 [0x10, 0x1E7A, 0x10, 0x02]))

/-- The certificate of a slot (R385): slot 0 the device certificate, slot 1 the alias certificate where the start issued one. -/
def State.certificate (s : State) (slot : Nat) : Option Nat :=
  match slot with | 0 => some Config.deviceCertificate | 1 => s.tru.aliasCert | _ => none

/-- The digests of the slots that hold a certificate, behind the mask of these slots. -/
def State.certDigests (s : State) : List Nat :=
  match s.tru.aliasCert with
  | some c => [3, Config.certificateDigest Config.deviceCertificate, Config.certificateDigest c]
  | none => [1, Config.certificateDigest Config.deviceCertificate]

/-- GET_DIGESTS (R384, R385). -/
def execGetDigests (p : Port) (s : State) : Result := s.spdm (.getDigests p) p 3 (fun u => u.emit (.doe p.val 0x01 u.certDigests))

/-- GET_CERTIFICATE (R385). -/
def execGetCertificate (p : Port) (slot : Nat) (s : State) : Result :=
  s.spdm (.getCertificate p slot) p 3 (fun u => match u.certificate slot with
    | some c => u.emit (.doe p.val 0x02 [slot, c])
    | none => u.emit (.spdmError p.val 1))

/-- A request that needs a signature: Unspecified while the alias key is absent (R382, R387). -/
def State.signing (s : State) (p : Port) (f : State → State) : State := if s.tru.aliasKey.isSome then f s else s.emit (.spdmError p.val 5)

/-- CHALLENGE (R385). -/
def execChallenge (p : Port) (nonce : Nat) (s : State) : Result :=
  s.spdm (.challenge p nonce) p 3 (fun u => u.signing p (fun v => v.answerWith p 0x03 [nonce]))

/-- The measurement blocks of R386, as little-endian numbers. -/
def State.measurement (s : State) (index : Nat) : Nat :=
  match index with
  | 1 => s.tru.romDigest
  | 2 => match s.tru.image with | some i => i.digest | none => 0
  | 3 => leNat (s.otpSlot s.tru.current)
  | 4 => leNat [BitVec.ofNat 8 s.tru.lcNow, BitVec.ofNat 8 (s.field 0x003 0x104 2 1), BitVec.ofNat 8 (bit s.tampered), BitVec.ofNat 8 (bit s.debugOpen),
      BitVec.ofNat 8 s.boot, 0#8, 0#8, 0#8]
  | _ => match s.tru.image with | some i => i.svn + 2 ^ 32 * i.buildId | none => 0

/-- GET_MEASUREMENTS (R386): index 0 asks their number, 1 to 5 one block, 255 all of them. -/
def execGetMeasurements (p : Port) (index : Nat) (signed : Bool) (s : State) : Result :=
  s.spdm (.getMeasurements p index signed) p 3 (fun u =>
    let l := if index = 0 then [5] else if index = 255 then [1, 2, 3, 4, 5].map u.measurement else [u.measurement index]
    if 5 < index ∧ index ≠ 255 then u.emit (.spdmError p.val 1)
    else if signed then u.signing p (fun v => v.answerWith p 0x60 l)
    else u.emit (.doe p.val 0x60 l))

/-- KEY_EXCHANGE (R384): one session a function; a second gets Busy. -/
def execKeyExchange (p : Port) (s : State) : Result :=
  s.spdm (.keyExchange p) p 3 (fun u =>
    if (u.port p).spdmSession ≠ 0 then u.emit (.spdmError p.val 3)
    else u.signing p (fun v => (v.modPort p (fun q => { q with spdmSession := 1 })).answerWith p 0x64 []))

/-- FINISH (R384): the session is established, or ends where the requester's check fails. -/
def execFinish (p : Port) (verifyOk : Bool) (s : State) : Result :=
  s.viaCfg (.finish p verifyOk) p (fun u =>
    if (u.port p).spdmSession ≠ 1 then u.emit (.spdmError p.val 4)
    else if verifyOk then ((u.modPort p (fun q => { q with spdmSession := 2 })).count 0x003 5).emit (.doe p.val 0x65 [])
    else (u.modPort p (fun q => { q with spdmSession := 0 })).emit (.spdmError p.val 6))

/-- KEY_UPDATE (R384). -/
def execKeyUpdate (p : Port) (s : State) : Result :=
  s.inSession (.keyUpdate p) p (fun u => (u.modPort p (fun q => { q with spdmKey := q.spdmKey + 1 })).emit (.doe p.val 0x69 []))

/-- HEARTBEAT (R384). -/
def execHeartbeat (p : Port) (s : State) : Result := s.inSession (.heartbeat p) p (fun u => u.emit (.doe p.val 0x68 []))

/-- END_SESSION (R384). -/
def execEndSession (p : Port) (s : State) : Result :=
  s.inSession (.endSession p) p (fun u => (u.modPort p (fun q => { q with spdmSession := 0 })).emit (.doe p.val 0x6C []))

/-- Key set n of stream k, 0 CXL.io and 1 CXL.mem, is programmed (R253). -/
def PortState.keyProg (q : PortState) (k n : Nat) : PortState := { q with ideKeys := setBits q.ideKeys (4 * k + n) 1 1 }

/-- Stream k goes to key set n: the switch takes effect on the first TLP or flit under that set (R253). -/
def PortState.keyGo (q : PortState) (k n : Nat) : PortState := { q with ideGo := sset none q.ideGo k (some n) }

/-- Stream k stops: it is not secure, and has no keys (R253). -/
def PortState.keyStop (q : PortState) (k : Nat) : PortState :=
  let r := { q with ideKeys := setBits q.ideKeys (4 * k) 3 0, ideGo := sset none q.ideGo k none }
  if k = 0 then { r with ideIo := false } else { r with ideMem := false }

/-- What an IDE_KM or CXL_IDE_KM message does (R253); none where it names no key set, or goes to one that is not programmed. -/
def State.ideKm (s : State) (p : Port) (km : IdeKm) : Option State :=
  let prog (k n : Nat) : Option State := if n < 2 then some (s.modPort p (fun q => q.keyProg k n)) else none
  let go (k n : Nat) : Option State := if n < 2 ∧ bits (s.port p).ideKeys (4 * k + n) 1 = 1 then some (s.modPort p (fun q => q.keyGo k n)) else none
  match km with
  | .ideKeyProg n => prog 0 n
  | .cxlKeyProg n => prog 1 n
  | .ideKeyGo n => go 0 n
  | .cxlKeyGo n => go 1 n
  | .ideStop => some (s.modPort p (fun q => q.keyStop 0))
  | .cxlStop => some (s.modPort p (fun q => q.keyStop 1))

/-- VENDOR_DEFINED_REQUEST (R253, R384): IDE_KM and CXL_IDE_KM inside the session; going to a set that is not programmed is an invalid request. -/
def execVendorDefinedRequest (p : Port) (km : IdeKm) (s : State) : Result :=
  s.inSession (.vendorDefinedRequest p km) p (fun u => match u.ideKm p km with
    | some v => v.emit (.doe p.val 0x7E [])
    | none => u.emit (.spdmError p.val 1))

end Sys2Proof.Machine
end

