-- ==== Sys2Proof/Machine/Module.lean ====
section
/-! DEFINITION. The module's management interface (R417 to R419, R425), the leak sensor (R422) and what the indicators show (R421). -/

namespace Sys2Proof.Machine

/-- The interface answers: VSTBY is up (R417). -/
def State.mgmtUp (s : State) : Bool := s.pwr.input

/-- The address the module answers at (R417): static 0x3A until it is given a dynamic one. -/
def State.i3cAddress (s : State) : Nat := s.mod.dynAddr.getD 0x3A

/-- An I3C transfer that the module takes part in: one to the address it answers at, or, where none is given, a broadcast or a transfer to that address. -/
def State.viaI3c (s : State) (f : State → State) (addr : Option Nat := none) : Result :=
  if s.mgmtUp ∧ (addr = none ∨ addr = some s.i3cAddress) then done (f s) else done s

/-! ### Common commands (R417) -/

/-- n bytes of the provisional ID, BCR and DCR, which the spec does not state: fixed for the module, and free. -/
def i3cBytes (lo n : Nat) : List Byte := (List.range n).map (fun i => Config.i3cByte (lo + i))

/-- ENTDAA: a module without a dynamic address sends its ID and takes one. -/
def execEntdaa (dynamicAddr : Nat) (s : State) : Result :=
  s.viaI3c (fun u =>
    if u.mod.dynAddr.isSome then u
    else ({ u with mod := { u.mod with dynAddr := some (dynamicAddr % 128) } }).emit (.i3c (i3cBytes 0 8)))

/-- SETDASA: to the static address, while no dynamic address is held. -/
def execSetdasa (dynamicAddr : Nat) (s : State) (addr : Option Nat := none) : Result :=
  s.viaI3c (fun u => if u.mod.dynAddr.isSome then u else { u with mod := { u.mod with dynAddr := some (dynamicAddr % 128) } }) addr

/-- RSTDAA: the static address answers again. -/
def execRstdaa (s : State) : Result := s.viaI3c (fun u => { u with mod := { u.mod with dynAddr := none } })

/-- GETPID. -/
def execGetpid (s : State) (addr : Option Nat := none) : Result := s.viaI3c (fun u => u.emit (.i3c (i3cBytes 0 6))) addr

/-- GETBCR. -/
def execGetbcr (s : State) (addr : Option Nat := none) : Result := s.viaI3c (fun u => u.emit (.i3c (i3cBytes 6 1))) addr

/-- GETDCR. -/
def execGetdcr (s : State) (addr : Option Nat := none) : Result := s.viaI3c (fun u => u.emit (.i3c (i3cBytes 7 1))) addr

/-- GETSTATUS: two bytes whose content the spec does not state (a free value each time). -/
def execGetstatus (s : State) (addr : Option Nat := none) : Result :=
  s.viaI3c (fun u => ({ u with freeCtr := u.freeCtr + 2 }).emit (.i3c [Config.freeByte u.freeCtr, Config.freeByte (u.freeCtr + 1)])) addr

/-- ENEC: in-band interrupts on. -/
def execEnec (s : State) (addr : Option Nat := none) : Result := s.viaI3c (fun u => { u with mod := { u.mod with ibiEn := true } }) addr

/-- DISEC: in-band interrupts off. -/
def execDisec (s : State) (addr : Option Nat := none) : Result := s.viaI3c (fun u => { u with mod := { u.mod with ibiEn := false } }) addr

/-! ### Commands of the byte map (R418, R419) -/

/-- RESULT of the last command. -/
def State.mgmtResult (s : State) (r : Nat) : State := { s with mod := { s.mod with result := r } }

/-- COMMAND 0x01: rejected while STATE is 0, 1, 3 or 6; one that comes together with a write of PLT_RESET is one warm start with it, and LAST names the management interface (R425). -/
def State.mgmtWarm (s : State) : State :=
  if s.pwr.starting = 2 ∧ s.pwr.startAt = s.now ∧ !s.pwr.quiesced then (s.mgmtResult 0).setField 0x000 0x110 0 2 2
  else if [0, 1, 3, 6].contains s.modState then s.mgmtResult 1 else (s.mgmtResult 0).startWarm 2

/-- COMMAND 0x02. -/
def State.mgmtArm (s : State) : State := ({ s with mod := { s.mod with armedAt := some s.now } }).mgmtResult 2

/-- COMMAND 0x03 (R419): within 100 ms of arming every rail but VSTBY falls, and the cold start follows a second later. -/
def State.mgmtCycle (s : State) : State :=
  match s.mod.armedAt with
  | some t =>
    if s.now ≤ t + 100 * ms then
      let u := s.railsDown
      ({ u with mod := { u.mod with armedAt := none, cycleAt := some u.now } }).mgmtResult 0
    else s.mgmtResult 1
  | none => s.mgmtResult 1

/-- COMMAND 0x04. -/
def State.mgmtLocate (s : State) : State := ({ s with mod := { s.mod with locate := !s.mod.locate } }).mgmtResult 0

/-- Any COMMAND. -/
def State.mgmtCommand (s : State) (code : Nat) : State :=
  match code with
  | 1 => s.mgmtWarm
  | 2 => s.mgmtArm
  | 3 => s.mgmtCycle
  | 4 => s.mgmtLocate
  | _ => s.mgmtResult 1

/-- WARM_RESET. -/
def execWarmReset (s : State) : Result := s.viaI3c (fun u => u.mgmtWarm.watch)

/-- ARM_POWER_CYCLE. -/
def execArmPowerCycle (s : State) : Result := s.viaI3c State.mgmtArm

/-- POWER_CYCLE. -/
def execPowerCycle (s : State) : Result := s.viaI3c (fun u => u.mgmtCycle.watch)

/-- LOCATE. -/
def execLocate (s : State) : Result := s.viaI3c State.mgmtLocate

/-- MANAGEMENT_RESERVED_COMMAND: a code that R418 does not list is rejected; a listed one has its own command. -/
def execManagementReservedCommand (code : Nat) (s : State) : Result :=
  s.viaI3c (fun u => if [1, 2, 3, 4].contains (code % 256) then u else u.mgmtResult 1)

/-! ### The byte map (R418) -/

/-- A byte of the map but for the coolant temperatures. -/
def State.mapByte (s : State) (off : Nat) : Nat :=
  let hot := (List.range 16).foldl (fun a k => max a (s.field (0x050 + k) 0x100 0 8)) 0
  let watts := s.field 0x001 0x108 0 12
  match off with
  | 0x00 => 0x7A
  | 0x01 => s.modState
  | 0x02 => s.tru.lcNow
  | 0x03 => s.modTrip
  | 0x06 => hot
  | 0x08 => watts % 256
  | 0x09 => watts / 256
  | 0x0A => s.modFlags
  | 0x11 => s.mod.result
  | _ => if 0x18 ≤ off ∧ off < 0x20 then s.tru.serial / 2 ^ (8 * (off - 0x18)) % 256 else 0

/-- count bytes read from an offset on; INLET_C and OUTLET_C are what the module measures, free here. -/
def State.mapBytes (s : State) (off count : Nat) : List Byte :=
  (List.range count).map (fun i =>
    let o := off + i
    if o = 4 ∨ o = 5 then Config.freeByte (s.freeCtr + (o - 4)) else BitVec.ofNat 8 (s.mapByte o))

/-- PRIVATE_READ: from the current offset onward; the offset stays. -/
def execPrivateRead (count : Nat) (s : State) (addr : Option Nat := none) : Result :=
  s.viaI3c (fun u => ({ u with freeCtr := u.freeCtr + 2 }).emit (.i3c (u.mapBytes u.mod.offset count))) addr

/-- PRIVATE_WRITE (R418): one byte sets the offset; more bytes are stored from it on, of which only COMMAND takes one. -/
def execPrivateWrite (bytes : List Byte) (s : State) (addr : Option Nat := none) : Result :=
  s.viaI3c (fun u =>
    match bytes with
    | [] => u
    | [o] => { u with mod := { u.mod with offset := o.toNat } }
    | l => match l.zipIdx.find? (fun e => decide (u.mod.offset + e.2 = 0x10)) with
      | some e => (u.mgmtCommand e.1.toNat).watch
      | none => u) addr

/-! ### Leak and indicators -/

/-- LEAK (R422, R425): moisture sensed sets LEAK, which stays while VSTBY is up. -/
def execLeak (sensed : Bool) (s : State) : Result :=
  if s.mgmtUp && sensed then done ({ s with mod := { s.mod with leak := true } }).watch else done s

/-- What an indicator shows (R421). -/
inductive Lamp where
  | off | green | amber | blinkGreen | blinkAmber
deriving DecidableEq, Repr, Inhabited

/-- The Presence contact of every socket is tied to ground while VSTBY is up, so that the partner sees a module present (R415). -/
def State.presenceGrounded (s : State) : Bool := s.pwr.rails.getLsbD 0

/-- POWER (R421). -/
def State.powerLamp (s : State) : Lamp :=
  if !(s.pwr.rails.getLsbD 0) then .off else if s.pwr.rails = BitVec.allOnes 9 then .green else .blinkGreen

/-- STATUS (R421). -/
def State.statusLamp (s : State) : Lamp :=
  if !s.pwr.input then .off
  else match s.modState with
    | 4 => .amber
    | 5 => .blinkAmber
    | 6 => .blinkAmber
    | _ => if s.field 0x000 0x104 7 1 = 1 then .green else .off

/-- ATTENTION (R421): LEAK, TAMPERED or DEGRADED steady; else the locate indication. -/
def State.attentionLamp (s : State) : Lamp :=
  if !s.pwr.input then .off else if s.modFlags % 8 ≠ 0 then .amber else if s.mod.locate then .blinkAmber else .off

end Sys2Proof.Machine
end

