-- ==== Sys2Proof/Machine/CoreRegs.lean ====
section
/-! DEFINITION. What a write of a register does (R5, R285, R286, R388, R404, R408), by a port, a control core or the debug port: each word goes to the command that its register and its bits name, or is a plain write; and what a load from a register page reads. -/

namespace Sys2Proof.Machine

/-! ### Commands of CTL_CORE_CMD (R292, R293) -/

/-- CMD 1 (R293): CTL_SPARE_ENTRY is sampled (R408), and an idle spare starts as a vacant logical number; anything else is a configuration error. Only a control core's write takes effect. -/
def State.startSpare (s0 : State) (req : Requester) (phys l : Nat) : State :=
  match req with
  | .core _ =>
    let s := s0.sampleHalf 0x0C0 0x1A8 (reqCode req)
    if s.idleSpares.contains phys && decide (l < 16) && !(s.active l) then s.fillVacancy phys l
    else s.errInfo 0x0C0 0 0x1A0 (reqCode req)
  | _ => s0

/-- START_SPARE (R293). -/
def execStartSpare (req : Requester) (phys : Nat) (logical : Fin 16) (s : State) : Result :=
  s.reg' (.startSpare req phys logical) req 0x0C0 0x1A0 (fun u => u.startSpare req phys logical.val)

/-- CMD 2 (R292): a core stops and retires itself, or a halted core; for any other it is a configuration error. -/
def State.stopRetire (s : State) (req : Requester) (phys : Nat) : State :=
  match req with
  | .core l =>
    if phys = s.physOf l.val ∨ (phys < 18 ∧ (s.core phys).state = 3) then s.retireCore phys true
    else s.errInfo 0x0C0 0 0x1A0 (reqCode req)
  | _ => s

/-- STOP_RETIRE (R292). -/
def execStopRetire (req : Requester) (phys : Nat) (s : State) : Result := s.reg' (.stopRetire req phys) req 0x0C0 0x1A0 (fun u => u.stopRetire req phys)

/-! ### Register words -/

/-- The state that a command leaves. -/
def outState (r : Result) (s : State) : State :=
  match r with
  | .next t => t
  | _ => s

/-- Commands of a page's header: CNT_CLEAR and STAGE_DISCARD beside the freeze bit, COMMIT, the error status and its mask. -/
def State.storeHeader (s : State) (req : Requester) (page off v : Nat) : Option Result :=
  if off = 0x008 ∧ (v.testBit 1 ∨ v.testBit 2) then
    let s1 := s.writeWord req page off v
    let s2 := if v.testBit 1 then outState (execCntClear req page s1) s1 else s1
    some (if v.testBit 2 then execStageDiscard req page s2 else done s2)
  else if off = 0x014 then some (execCommit req page (v % 65536) s)
  else if off = 0x018 then some (execErrStatusClear req page (BitVec.ofNat 32 v) 0 s)
  else if off = 0x01C then some (execErrMaskWrite req page (BitVec.ofNat 32 v) s)
  else none

/-- The object of a GO that a register write gives: a core's lies in shared memory; what a port's partner holds there is not known to the block (free values, log entry 53). -/
def State.freeObject (s : State) (req : Requester) : TrustObject × State :=
  match req with
  | .port _ =>
    let n := s.rcvLen
    ({ fetchOk := true, bytes := (List.range n).map (fun i => Config.freeByte (s.freeCtr + i)), flashOk := true }, { s with freeCtr := s.freeCtr + n })
  | _ => ({ fetchOk := true, bytes := [], flashOk := true }, s)

/-- TRU_RCV_CMD (R375). -/
def State.storeRcv (s : State) (req : Requester) (v : Nat) : Option Result :=
  let (o, u) := s.freeObject req
  if v.testBit 31 then
    match bits v 0 3 with
    | 1 => some (execRun req o u)
    | 2 => some (execProgram req o u)
    | 3 => some (execVintage req o u)
    | 4 => some (execLifeCycle req o u)
    | 5 => some (execDebugUnlock req o u)
    | _ => none
  else none

/-- Commands of the region, racking, press and sharing pages. -/
def State.storeMapCmd (s : State) (req : Requester) (page off v : Nat) : Option Result :=
  let index : Fin 4096 := Fin.ofNat 4096 v
  match pageClass page with
  | some .rgn =>
    if off = 0x114 ∧ s.rgn.pending.isNone then
      match bits v 16 3 with
      | 1 => some (execWriteEntry req index s)
      | 2 => some (execReadEntry req index s)
      | 3 => some (execInvalidate req index s)
      | 4 => some (execRenewLease req index s)
      | _ => none
    else if off = 0x194 ∧ v.testBit 0 then some (execLeasePop req s)
    else none
  | some .rck0 =>
    match portOf ((off - 0x14C) / 0x10) with
    | some p =>
      if 0x14C ≤ off ∧ (off - 0x14C) % 0x10 = 0 ∧ (v.testBit 2 ∨ v.testBit 3) then
        let s1 := s.writeWord req page off v
        let s2 := if v.testBit 2 then outState (execResume req p s1) s1 else s1
        some (if v.testBit 3 then execDiscard req p s2 else done s2)
      else none
    | none => none
  | some .rck1 => if off = 0x114 ∧ v.testBit 0 then some (execExhPop req s) else none
  | some .prs =>
    let press : Fin 48 := Fin.ofNat 48 (page - 0x020)
    if off = 0x100 ∧ v.testBit 0 then some (execFlush req press s)
    else if off = 0x11C ∧ v.testBit 0 then some (execQlogPop req press s)
    else if page = 0x020 ∧ off = 0x184 ∧ v.testBit 31 then some (execTrainReq req index s)
    else if page = 0x020 ∧ off = 0x194 ∧ v.testBit 1 then some (execTblRelease req (v.testBit 0) s)
    else if page = 0x020 ∧ off = 0x194 ∧ v.testBit 0 then some (execLoad req s)
    else none
  | some .dir => if off = 0x11C ∧ v.testBit 0 then some (execLostPop req s) else none
  | _ => none

/-- Commands of the queue, core, interrupt and store pages. -/
def State.storeCoreCmd (s : State) (req : Requester) (page off v : Nat) : Option Result :=
  match pageClass page with
  | some .qmg0 => if off = 0x114 then some (execOwnerWrite req (bits v 0 2) (bits v 2 8) s) else none
  | some .qmg1 =>
    if off = 0x120 then
      match bits v 0 3 with
      | 1 => some (execEnable req s)
      | 2 => some (execDisable req s)
      | 4 => some (execRestart req s)
      | _ => none
    else none
  | some .ctl =>
    if off = 0x1A0 then
      match bits v 9 2 with
      | 1 => some (execStartSpare req (bits v 0 5) (Fin.ofNat 16 (bits v 5 4)) s)
      | 2 => some (execStopRetire req (bits v 0 5) s)
      | _ => none
    else none
  | some .icu1 =>
    if off = 0x100 then some (execMsg req (Fin.ofNat 16 v) (Fin.ofNat 32 (bits v 4 5)) s)
    else if off = 0x104 then some (execRaise req (Fin.ofNat 4096 v) s)
    else if off = 0x108 then some (execGlobalDisWrite req (v.testBit 0) s)
    else if off = 0x114 ∧ v.testBit 0 then some (execRedirPop req s)
    else none
  | some .icuBank =>
    if 0x100 ≤ off ∧ off < 0x900 ∧ (off - 0x100) % 0x200 = 4 then
      some (execEoi req (Fin.ofNat 16 (4 * (page - 0x0C2) + (off - 0x100) / 0x200)) (bits v 0 16) s)
    else none
  | some .icuSrc =>
    if off = 0x104 then some (execSrcCfgWrite req (BitVec.ofNat 32 v) s)
    else if off = 0x108 ∧ v.testBit 31 then some (execSrcClear req s)
    else none
  | some .sto => if off = 0x100 ∧ v.testBit 1 then some (execWipe req s) else none
  | _ => none

/-- Commands of the remaining pages. -/
def State.storeUnitCmd (s : State) (req : Requester) (page off v : Nat) : Option Result :=
  match pageClass page with
  | some .plt =>
    if off = 0x100 ∧ v.testBit 0 then some (execWarm req s) else if off = 0x104 ∧ v.testBit 7 then some (execFwReady req s) else none
  | some .prt =>
    match portOf (page - 8) with
    | some p =>
      if off = 0x104 ∧ v.testBit 3 then
        let s1 := s.writeWord req page off v
        some (execRetrain req p (s1.maxRate p) s1)
      else if off = 0x108 ∧ v.testBit 8 then some (execContainRelease req p (v.testBit 9) s)
      else if off = 0x108 ∧ v.testBit 9 then some (execContain req p s)
      else if 0x180 ≤ off ∧ off < 0x280 then some (execIntxPendClear req p (Fin.ofNat 64 ((off - 0x180) / 4)) (BitVec.ofNat 32 v) s)
      else none
    | none => none
  | some .igr0 => if off = 0x12C ∧ v.testBit 0 then some (execBktPop req s) else none
  | some .igr1 =>
    if off = 0x104 then
      if v.testBit 1 then some (execMarchStop req (if v.testBit 0 then outState (execMarchStart req s) s else s))
      else if v.testBit 0 then some (execMarchStart req s)
      else none
    else none
  | some .cls =>
    if off = 0x104 ∧ v.testBit 0 then
      some (execRetireReq req (Fin.ofNat 16 ((page - 0x200) / 64)) (Fin.ofNat 34 ((page - 0x200) % 64)) s)
    else none
  | some .tru => if off = 0x16C then s.storeRcv req v else none
  | _ => none

/-- The outcome of a 32-bit write whose register and bits name a command; none of a plain write. -/
def State.named (s : State) (req : Requester) (page off v : Nat) : Option Result :=
  if off < 0x100 then s.storeHeader req page off v
  else (s.storeMapCmd req page off v).orElse (fun _ => (s.storeCoreCmd req page off v).orElse (fun _ => s.storeUnitCmd req page off v))

/-- The places of dir.waiting after a request whose turn has come was carried out: those of its own port, which it did not see, stand where they stood unless others left meanwhile. -/
def backInLine (before now : List (WaitWhy × MemReq)) (mine : WaitWhy × MemReq → Bool) : List (WaitWhy × MemReq) :=
  let others := before.filter (fun w => !(mine w))
  if now.take others.length = others then before ++ now.drop others.length else now ++ before.filter mine

/-- A command that a port's register write names is carried out in the write's own turn (R242): what the port asked for later does not stand before it. -/
def State.inTurn (s : State) (req : Requester) (f : State → State) : State :=
  match req with
  | .port p =>
    let mine (w : WaitWhy × MemReq) : Bool := decide (w.2.port = p.val)
    let t := f { s with dir := { s.dir with waiting := s.dir.waiting.filter (fun w => !(mine w)) } }
    { t with dir := { t.dir with waiting := backInLine s.dir.waiting t.dir.waiting mine } }
  | _ => f s

/-- A 32-bit write of a register word (R5): the command its register and its bits name, or a plain write. -/
def State.storeWord (s : State) (req : Requester) (page off v : Nat) : State :=
  if (s.named req page off v).isSome then
    s.inTurn req (fun u => match u.named req page off v with | some r => outState r u | none => u)
  else s.writeWord req page off v

/-- A write of a register, 32 bits, or 64 bits over two adjacent registers, the lower offset in bits [31:0] (R404). -/
def State.writeReg (s : State) (req : Requester) (page off : Nat) (wide : Bool) (v : Nat) : State :=
  if !wide then s.storeWord req page off (v % 2 ^ 32)
  else match unstaged page off with
    | some lo => s.writePair req page lo v
    | none => (s.storeWord req page off (v % 2 ^ 32)).storeWord req page (off + 4) (v / 2 ^ 32)

/-- REGISTER_WRITE (R5). A width of 4 or 8 bytes at an offset that is not aligned to it is a bad access. -/
def execRegisterWrite (req : Requester) (page off : Nat) (wide : Bool) (value : DWord) (s : State) : Result :=
  let o := off % 4096
  if goodAccess o (if wide then 8 else 4) then s.reg' (.registerWrite req page off wide value) req page o (fun u => u.writeReg req page o wide value.toNat)
  else done (s.inOrder (.registerWrite req page off wide value) req (fun u => u.badAccess req page o))

/-- HALF_WRITE (R408): of a register that is no unstaged pair, a write of its word. -/
def execHalfWrite (req : Requester) (page off : Nat) (high : Bool) (value : Word) (s : State) : Result :=
  let lo := off % 4096 / 8 * 8
  let o := if high then lo + 4 else lo
  s.reg' (.halfWrite req page off high value) req page o (fun u => u.storeWord req page o value.toNat)

/-- A store to a register page (R8, R286, R404): a bad width or place is recorded and writes nothing. -/
def State.storePage (s : State) (req : Requester) (page off width v : Nat) : State :=
  if !(goodAccess off width) then s.badAccess req page off
  else outState (execRegisterWrite req page off (decide (width = 8)) (BitVec.ofNat 64 v) s) s

/-- A load from a register page: a read of ICU_CLAIM claims (R297); a bad width or place reads zero and is recorded, an absent page reads zero (R402). -/
def State.loadPage (s : State) (req : Requester) (page off width : Nat) : Nat × State :=
  if !(goodAccess off width) then (0, s.badAccess req page off)
  else if pageClass page = some .icuBank ∧ 0x100 ≤ off ∧ off < 0x900 ∧ (off - 0x100) % 0x200 = 0 then
    s.claimRead req (4 * (page - 0x0C2) + (off - 0x100) / 0x200)
  else
    let (v, u) := (s.touch page).readReg req page off (decide (width = 8))
    if s.sees req page off then (v, u.readGuard req page off) else (0, s)

end Sys2Proof.Machine
end

