-- ==== Sys2Proof/Machine/RvFloat.lean ====
section
/-! DEFINITION. The F and D arithmetic of the control cores' RV64GC (R283) as pure functions: IEEE 754 with the five rounding modes and the five flags, on the exact numbers of Machine/Float.lean. The spec names RV64GC and states none of it: PRESUMED, log entry 178. -/

namespace Sys2Proof.Machine

/-! ### Rounding -/

/-- The flags of fcsr: invalid, division by zero, overflow, underflow, inexact. -/
def flagNV : Nat := 16
def flagDZ : Nat := 8
def flagOF : Nat := 4
def flagUF : Nat := 2
def flagNX : Nat := 1

/-- m × 2^d rounded to an integer in a rounding mode (0 to nearest even, 1 to zero, 2 down, 3 up, 4 to nearest away from zero), and whether that was inexact. -/
def roundMode (rm : Nat) (neg : Bool) (m : Nat) (d : Int) : Nat × Bool :=
  if 0 ≤ d then (m * 2 ^ d.toNat, false)
  else
    let unit := 2 ^ (-d).toNat
    let q := m / unit
    let r := m % unit
    let up : Bool := match rm with
      | 0 => decide (unit < 2 * r ∨ (unit = 2 * r ∧ q % 2 = 1))
      | 1 => false
      | 2 => neg
      | 3 => !neg
      | _ => decide (unit ≤ 2 * r)
    if r = 0 then (q, false) else (if up then q + 1 else q, true)

/-- The pattern of an infinity or of the largest finite number, which stands for a number beyond the range in a rounding mode. -/
def Fmt.beyond (f : Fmt) (rm : Nat) (neg : Bool) : Nat :=
  let finite : Bool := match rm with | 1 => true | 2 => !neg | 3 => neg | _ => false
  if finite then f.top + (if neg then 2 ^ (f.eb + f.mb) else 0) else f.infinity neg

/-- A number rounded to a format of IEEE kind, and the flags: tininess is found after rounding. -/
def Fmt.round (f : Fmt) (rm : Nat) (x : Num) : Nat × Nat :=
  match x with
  | .nan => (f.nan, 0)
  | .inf neg => (f.infinity neg, 0)
  | .fin neg m e =>
    let sign := if neg then 2 ^ (f.eb + f.mb) else 0
    if m = 0 then (sign, 0)
    else
      let qmin : Int := 1 - (f.bias : Int) - f.mb
      let free : Int := (Nat.log2 m : Int) + e - f.mb
      let q : Int := max qmin free
      let (n, inexact) := roundMode rm neg m (e - q)
      let code := (q - qmin).toNat * 2 ^ f.mb + n
      let tiny := decide (free < qmin) && !(decide (free + 1 = qmin) && decide ((roundMode rm neg m (e - free)).1 = 2 ^ (f.mb + 1)))
      if f.top < code then (f.beyond rm neg, flagOF + flagNX)
      else (code + sign, if inexact then flagNX + (if tiny then flagUF else 0) else 0)

/-! ### Patterns -/

/-- A signalling NaN. -/
def Fmt.signalling (f : Fmt) (v : Nat) : Bool := decide (f.value v = .nan) && !(v.testBit (f.mb - 1))

/-- The sign of a number. -/
def Num.negative : Num → Bool
  | .nan => false
  | .inf n => n
  | .fin n _ _ => n

/-- The number with its sign turned. -/
def Num.negated : Num → Num
  | .nan => .nan
  | .inf n => .inf (!n)
  | .fin n m e => .fin (!n) m e

/-- The exact sum, whose zero from unlike signs is -0 when rounding down. -/
def Num.addIn (rm : Nat) (a b : Num) : Num :=
  match a.add b with
  | .fin n 0 k => .fin (if rm = 2 then a.negative || b.negative else n) 0 k
  | v => v

/-- A result from operands: NaN is the canonical one, and the invalid flag tells of a signalling operand, or of a NaN that no operand was. -/
def Fmt.result (f : Fmt) (rm : Nat) (ops : List Nat) (invalid : Bool) (x : Num) : Nat × Nat :=
  let bad := invalid || ops.any f.signalling || (decide (x = .nan) && ops.all (fun v => decide (f.value v ≠ .nan)))
  let (v, fl) := f.round rm x
  (v, if bad then fl ||| flagNV else fl)

/-! ### Operations -/

def Fmt.fadd (f : Fmt) (rm a b : Nat) : Nat × Nat := f.result rm [a, b] false ((f.value a).addIn rm (f.value b))
def Fmt.fsub (f : Fmt) (rm a b : Nat) : Nat × Nat := f.result rm [a, b] false ((f.value a).addIn rm (f.value b).negated)
def Fmt.fmul (f : Fmt) (rm a b : Nat) : Nat × Nat := f.result rm [a, b] false ((f.value a).mul (f.value b))

/-- ±(a × b) ± c, rounded once; infinity times zero is invalid whatever c is. -/
def Fmt.fmadd (f : Fmt) (rm : Nat) (negProduct negAddend : Bool) (a b c : Nat) : Nat × Nat :=
  let p := (f.value a).mul (f.value b)
  let q := if negProduct then p.negated else p
  let r := if negAddend then (f.value c).negated else f.value c
  f.result rm [a, b, c] (decide (p = .nan) && decide (f.value a ≠ .nan) && decide (f.value b ≠ .nan)) (q.addIn rm r)

/-- The quotient, from an integer division to more places than a format has, with a sticky bit. -/
def Fmt.fdiv (f : Fmt) (rm a b : Nat) : Nat × Nat :=
  match f.value a, f.value b with
  | .fin x m d, .fin y n e =>
    if n = 0 then
      if m = 0 then (f.nan, flagNV) else (f.infinity (x != y), flagDZ)
    else f.result rm [] false (.fin (x != y) (2 * (m * 2 ^ 128 / n) + (if m * 2 ^ 128 % n = 0 then 0 else 1)) (d - e - 129))
  | .inf x, .fin y _ _ => (f.infinity (x != y), 0)
  | .fin x _ _, .inf y => f.round rm (.fin (x != y) 0 0)
  | _, _ => f.result rm [a, b] false .nan

/-- The integer square root, from that of a quarter. -/
def isqrt : Nat → Nat → Nat
  | 0, _ => 0
  | n + 1, v =>
    let r := 2 * isqrt n (v / 4)
    if (r + 1) * (r + 1) ≤ v then r + 1 else r

/-- The square root, to more places than a format has, with a sticky bit. -/
def Fmt.fsqrt (f : Fmt) (rm a : Nat) : Nat × Nat :=
  match f.value a with
  | .nan => f.result rm [a] false .nan
  | .inf neg => if neg then (f.nan, flagNV) else (f.infinity false, 0)
  | .fin neg m e =>
    if m = 0 then (a, 0)
    else if neg then (f.nan, flagNV)
    else
      let odd := e % 2
      let v := m * 2 ^ (odd.toNat + 128)
      let r := isqrt 128 v
      f.round rm (.fin false (2 * r + (if r * r = v then 0 else 1)) ((e - odd) / 2 - 65))

/-- The lesser or the greater of two numbers; a NaN gives way to a number. -/
def Fmt.fminmax (f : Fmt) (greater : Bool) (a b : Nat) : Nat × Nat :=
  let fl := if f.signalling a || f.signalling b then flagNV else 0
  let x := f.value a
  let y := f.value b
  (if x = .nan then (if y = .nan then f.nan else b) else if y = .nan then a else if (y.below x) != greater then b else a, fl)

/-- Two numbers are equal; +0 and -0 are. -/
def Num.equal : Num → Num → Bool
  | .nan, _ => false
  | _, .nan => false
  | .fin a m d, .fin b n e => (decide (m = 0) && decide (n = 0)) || (!(Num.below (.fin a m d) (.fin b n e)) && !(Num.below (.fin b n e) (.fin a m d)))
  | x, y => !(x.below y) && !(y.below x)

/-- FEQ, FLT and FLE, by funct3 2, 1 and 0: an unordered comparison is false, and invalid where it is signalling. -/
def Fmt.fcompare (f : Fmt) (f3 a b : Nat) : Nat × Nat :=
  let x := f.value a
  let y := f.value b
  if x = .nan ∨ y = .nan then (0, if f3 ≠ 2 ∨ f.signalling a ∨ f.signalling b then flagNV else 0)
  else
    let eq := x.equal y
    let v : Bool := match f3 with | 2 => eq | 1 => x.below y && !eq | _ => x.below y || eq
    (if v then 1 else 0, 0)

/-- FCLASS. -/
def Fmt.fclass (f : Fmt) (a : Nat) : Nat :=
  let normal := decide (bits a f.mb f.eb ≠ 0)
  2 ^ (match f.value a with
    | .nan => if f.signalling a then 8 else 9
    | .inf neg => if neg then 0 else 7
    | .fin neg m _ => if m = 0 then (if neg then 3 else 4) else if neg then (if normal then 1 else 2) else if normal then 6 else 5)

/-- To an integer of w bits, held within its range: beyond it, and from a NaN, which counts as the greatest, the conversion is invalid. -/
def Fmt.toInteger (f : Fmt) (rm w : Nat) (unsigned : Bool) (a : Nat) : Int × Nat :=
  let lo : Int := if unsigned then 0 else -(2 ^ (w - 1))
  let hi : Int := if unsigned then 2 ^ w - 1 else 2 ^ (w - 1) - 1
  match f.value a with
  | .nan => (hi, flagNV)
  | .inf neg => (if neg then lo else hi, flagNV)
  | .fin neg m e =>
    let (n, inexact) := roundMode rm neg m e
    let v := signed neg n
    if v < lo then (lo, flagNV) else if hi < v then (hi, flagNV) else (v, if inexact then flagNX else 0)

/-- From an integer. -/
def Fmt.ofInteger (f : Fmt) (rm : Nat) (v : Int) : Nat × Nat := f.round rm (.fin (decide (v < 0)) v.natAbs 0)

/-- From another format. -/
def Fmt.ofFormat (f g : Fmt) (rm a : Nat) : Nat × Nat :=
  let (v, fl) := f.round rm (g.value a)
  (v, if g.signalling a then fl ||| flagNV else fl)

/-! ### Singles in 64-bit registers -/

/-- A single lies in a register under 32 ones; what lies otherwise counts as the canonical NaN. -/
def unboxed (v : Nat) : Nat := if v / 2 ^ 32 = 2 ^ 32 - 1 then v % 2 ^ 32 else fmtFP32.nan
def boxed (v : Nat) : Nat := (2 ^ 32 - 1) * 2 ^ 32 + v % 2 ^ 32

end Sys2Proof.Machine
end

