-- ==== Sys2Proof/Machine/Rv64.lean ====
section
/-! DEFINITION. What a control core does with an instruction that it has fetched (R283): RV64GC with Zicsr and Zifencei in machine and user mode. The spec names these and states none of their instructions: PRESUMED from the RISC-V manuals, log entry 178. Loads, stores, atomics, LR, SC, FENCE.I and WFI have commands of their own, which carry them out; here they are only checked to be legal. -/

namespace Sys2Proof.Machine

/-! ### Fields and immediates -/

/-- The low n bits of a value, sign-extended. -/
def sext (n v : Nat) : DWord := BitVec.ofInt 64 (toInt n v)

def immI (w : Nat) : DWord := sext 12 (bits w 20 12)
def immB (w : Nat) : DWord := sext 13 (2 * bits w 8 4 + 2 ^ 5 * bits w 25 6 + 2 ^ 11 * bits w 7 1 + 2 ^ 12 * bits w 31 1)
def immU (w : Nat) : DWord := sext 32 (2 ^ 12 * bits w 12 20)
def immJ (w : Nat) : DWord := sext 21 (2 * bits w 21 10 + 2 ^ 11 * bits w 20 1 + 2 ^ 12 * bits w 12 8 + 2 ^ 20 * bits w 31 1)

/-! ### Compressed instructions, as the full ones they stand for -/

def encR (op rd f3 rs1 rs2 f7 : Nat) : Nat := op + 2 ^ 7 * rd + 2 ^ 12 * f3 + 2 ^ 15 * rs1 + 2 ^ 20 * rs2 + 2 ^ 25 * f7
def encI (op rd f3 rs1 imm : Nat) : Nat := op + 2 ^ 7 * rd + 2 ^ 12 * f3 + 2 ^ 15 * rs1 + 2 ^ 20 * (imm % 4096)
def encS (op f3 rs1 rs2 imm : Nat) : Nat := op + 2 ^ 7 * bits imm 0 5 + 2 ^ 12 * f3 + 2 ^ 15 * rs1 + 2 ^ 20 * rs2 + 2 ^ 25 * bits imm 5 7
def encB (f3 rs1 imm : Nat) : Nat := 0x63 + 2 ^ 7 * (bits imm 11 1 + 2 * bits imm 1 4) + 2 ^ 12 * f3 + 2 ^ 15 * rs1 + 2 ^ 25 * bits imm 5 6 + 2 ^ 31 * bits imm 12 1
def encJ (rd imm : Nat) : Nat := 0x6F + 2 ^ 7 * rd + 2 ^ 12 * bits imm 12 8 + 2 ^ 20 * bits imm 11 1 + 2 ^ 21 * bits imm 1 10 + 2 ^ 31 * bits imm 20 1

/-- The low n bits of a value, sign-extended to m bits. -/
def widen (n m v : Nat) : Nat := ofInt m (toInt n v)

/-- Quadrant 0: the stack address, and loads and stores of the eight registers from x8 or f8 on. -/
def expand0 (h : Nat) : Option Nat :=
  let r1 := 8 + bits h 7 3
  let r2 := 8 + bits h 2 3
  let word := 8 * bits h 10 3 + 4 * bits h 6 1 + 64 * bits h 5 1
  let dword := 8 * bits h 10 3 + 64 * bits h 5 2
  let sp := 16 * bits h 11 2 + 64 * bits h 7 4 + 4 * bits h 6 1 + 8 * bits h 5 1
  match bits h 13 3 with
  | 0 => if sp = 0 then none else some (encI 0x13 r2 0 2 sp)
  | 1 => some (encI 0x07 r2 3 r1 dword)
  | 2 => some (encI 0x03 r2 2 r1 word)
  | 3 => some (encI 0x03 r2 3 r1 dword)
  | 5 => some (encS 0x27 3 r1 r2 dword)
  | 6 => some (encS 0x23 2 r1 r2 word)
  | 7 => some (encS 0x23 3 r1 r2 dword)
  | _ => none

/-- Quadrant 1: arithmetic with immediates and of the eight registers, jumps and branches. -/
def expand1 (h : Nat) : Option Nat :=
  let rd := bits h 7 5
  let r1 := 8 + bits h 7 3
  let r2 := 8 + bits h 2 3
  let six := bits h 2 5 + 32 * bits h 12 1
  let imm := widen 6 12 six
  let jump := widen 12 21 (2 * bits h 3 3 + 16 * bits h 11 1 + 32 * bits h 2 1 + 64 * bits h 7 1 + 128 * bits h 6 1 + 256 * bits h 9 2 + 1024 * bits h 8 1 + 2048 * bits h 12 1)
  let branch := widen 9 13 (2 * bits h 3 2 + 8 * bits h 10 2 + 32 * bits h 2 1 + 64 * bits h 5 2 + 256 * bits h 12 1)
  let sp := widen 10 12 (16 * bits h 6 1 + 32 * bits h 2 1 + 64 * bits h 5 1 + 128 * bits h 3 2 + 512 * bits h 12 1)
  match bits h 13 3 with
  | 0 => some (encI 0x13 rd 0 rd imm)
  | 1 => if rd = 0 then none else some (encI 0x1B rd 0 rd imm)
  | 2 => some (encI 0x13 rd 0 0 imm)
  | 3 =>
    if six = 0 then none
    else if rd = 2 then some (encI 0x13 2 0 2 sp)
    else some (0x37 + 2 ^ 7 * rd + 2 ^ 12 * widen 6 20 six)
  | 4 =>
    match bits h 10 2 with
    | 0 => some (encI 0x13 r1 5 r1 six)
    | 1 => some (encI 0x13 r1 5 r1 (1024 + six))
    | 2 => some (encI 0x13 r1 7 r1 imm)
    | _ =>
      match bits h 12 1, bits h 5 2 with
      | 0, 0 => some (encR 0x33 r1 0 r1 r2 0x20)
      | 0, 1 => some (encR 0x33 r1 4 r1 r2 0)
      | 0, 2 => some (encR 0x33 r1 6 r1 r2 0)
      | 0, _ => some (encR 0x33 r1 7 r1 r2 0)
      | _, 0 => some (encR 0x3B r1 0 r1 r2 0x20)
      | _, 1 => some (encR 0x3B r1 0 r1 r2 0)
      | _, _ => none
  | 5 => some (encJ 0 jump)
  | 6 => some (encB 0 r1 branch)
  | _ => some (encB 1 r1 branch)

/-- Quadrant 2: shifts, loads and stores on the stack, moves, and jumps to registers. -/
def expand2 (h : Nat) : Option Nat :=
  let rd := bits h 7 5
  let r2 := bits h 2 5
  let dload := 8 * bits h 5 2 + 32 * bits h 12 1 + 64 * bits h 2 3
  match bits h 13 3 with
  | 0 => some (encI 0x13 rd 1 rd (r2 + 32 * bits h 12 1))
  | 1 => some (encI 0x07 rd 3 2 dload)
  | 2 => if rd = 0 then none else some (encI 0x03 rd 2 2 (4 * bits h 4 3 + 32 * bits h 12 1 + 64 * bits h 2 2))
  | 3 => if rd = 0 then none else some (encI 0x03 rd 3 2 dload)
  | 4 =>
    if bits h 12 1 = 0 then
      if r2 = 0 then (if rd = 0 then none else some (encI 0x67 0 0 rd 0)) else some (encR 0x33 rd 0 0 r2 0)
    else if r2 = 0 then (if rd = 0 then some 0x00100073 else some (encI 0x67 1 0 rd 0))
    else some (encR 0x33 rd 0 rd r2 0)
  | 5 => some (encS 0x27 3 2 r2 (8 * bits h 10 3 + 64 * bits h 7 3))
  | 6 => some (encS 0x23 2 2 r2 (4 * bits h 9 4 + 64 * bits h 7 2))
  | _ => some (encS 0x23 3 2 r2 (8 * bits h 10 3 + 64 * bits h 7 3))

/-- The instruction that a halfword stands for; none where it is illegal. -/
def expand (h : Nat) : Option Nat := match h % 4 with | 0 => expand0 h | 1 => expand1 h | 2 => expand2 h | _ => none

/-! ### Integer arithmetic -/

/-- The operation of funct3 on 64 bits; alt is bit 30: SUB, SRA. -/
def aluOp (f3 : Nat) (alt : Bool) (a b : DWord) : DWord :=
  match f3 with
  | 0 => if alt then a - b else a + b
  | 1 => a <<< (b.toNat % 64)
  | 2 => if a.toInt < b.toInt then 1 else 0
  | 3 => if a.toNat < b.toNat then 1 else 0
  | 4 => a ^^^ b
  | 5 => if alt then a.sshiftRight (b.toNat % 64) else a >>> (b.toNat % 64)
  | 6 => a ||| b
  | _ => a &&& b

/-- The same on the low 32 bits, sign-extended: addition, subtraction and shifts. -/
def aluOpW (f3 : Nat) (alt : Bool) (a b : DWord) : DWord :=
  let x : Word := a.setWidth 32
  let y : Word := b.setWidth 32
  let r : Word := match f3 with
    | 0 => if alt then x - y else x + y
    | 1 => x <<< (y.toNat % 32)
    | _ => if alt then x.sshiftRight (y.toNat % 32) else x >>> (y.toNat % 32)
  sext 32 r.toNat

/-- The M operations on integers of n bits: by zero, the quotient is -1 and the remainder the dividend. -/
def mulDiv (f3 n : Nat) (a b : Nat) : Int :=
  let x := toInt n a
  let y := toInt n b
  match f3 with
  | 0 => x * y
  | 1 => x * y / 2 ^ n
  | 2 => x * (b : Int) / 2 ^ n
  | 3 => (a : Int) * b / 2 ^ n
  | 4 => if b = 0 then -1 else x.tdiv y
  | 5 => if b = 0 then -1 else (a : Int) / b
  | 6 => if b = 0 then x else x.tmod y
  | _ => if b = 0 then x else (a : Int) % b

/-- A branch is taken, by funct3; none where it names no branch. -/
def branches (f3 : Nat) (a b : DWord) : Option Bool :=
  match f3 with
  | 0 => some (decide (a = b))
  | 1 => some (decide (a ≠ b))
  | 4 => some (decide (a.toInt < b.toInt))
  | 5 => some (decide (b.toInt ≤ a.toInt))
  | 6 => some (decide (a.toNat < b.toNat))
  | 7 => some (decide (b.toNat ≤ a.toNat))
  | _ => none

/-! ### The end of an instruction -/

/-- Integer register n, x0 being zero, and floating-point register n. -/
def Core.getX (k : Core) (n : Nat) : DWord := if n = 0 then 0#64 else k.x.toList.getD n 0#64
def Core.getF (k : Core) (n : Nat) : DWord := k.f.toList.getD n 0#64

/-- An instruction ends with a value in rd. -/
def State.putX (s : State) (c rd : Nat) (v : DWord) (short : Bool) : State := (s.modCore c (fun k => k.setX (Fin.ofNat 32 rd) v)).retired c short

/-- An instruction ends with a value in rd and goes on elsewhere. -/
def State.jumped (s : State) (c rd : Nat) (v target : DWord) (short : Bool) : State := (s.putX c rd v short).modCore c (fun k => { k with pc := target })

/-- An instruction is illegal: trap 2, with the instruction's bits. -/
def State.illegal (s : State) (c raw : Nat) : State := s.trap c 2 raw

/-- Floating point is on: FS of mstatus is not 0. -/
def Core.fpOn (k : Core) : Bool := decide (bits k.mstatus.toNat 13 2 ≠ 0)

/-- Flags are raised in fcsr, and FS becomes dirty. -/
def Core.raiseFlags (k : Core) (fl : Nat) : Core :=
  { k with fcsr := k.fcsr ||| BitVec.ofNat 32 (fl % 32), mstatus := k.mstatus ||| 0x6000#64 }

/-- An instruction ends with a pattern in floating-point register rd, single or double, and flags. -/
def State.putF (s : State) (c rd : Nat) (double : Bool) (r : Nat × Nat) (short : Bool) : State :=
  (s.modCore c (fun k => ({ k with f := k.f.set! rd (BitVec.ofNat 64 (if double then r.1 else boxed r.1)) } : Core).raiseFlags r.2)).retired c short

/-! ### CSR instructions (Zicsr) -/

/-- The CSRs that the cores have: those of floating point while it is on, machine mode's, counters but for all others reading zero (R284), sixteen PMP entries. -/
def Core.hasCsr (k : Core) (n : Nat) : Bool :=
  (decide (1 ≤ n ∧ n ≤ 3) && k.fpOn) || [0x300, 0x301, 0x304, 0x305, 0x306, 0x30A, 0x320, 0x3A0, 0x3A2].contains n
    || decide ((0x323 ≤ n ∧ n < 0x345) ∨ (0x3B0 ≤ n ∧ n < 0x3C0) ∨ n = 0xB00 ∨ (0xB02 ≤ n ∧ n < 0xB20) ∨ (0xC00 ≤ n ∧ n < 0xC20) ∨ (0xF11 ≤ n ∧ n < 0xF16))

/-- A CSR may be used in the core's mode: user mode reaches its own, of the counters those that mcounteren lets it. -/
def Core.mayCsr (k : Core) (n : Nat) (write : Bool) : Bool :=
  k.hasCsr n && (k.machine || decide (n / 256 % 4 = 0)) && !(write && decide (3072 ≤ n))
    && (k.machine || decide (n < 0xC00) || k.mcounteren.getLsbD (n % 32))

/-- CSRRW, CSRRS and CSRRC, with a register or an immediate: the old value goes to rd, and the write stands above what the instruction's own end counts. CSRRW to x0 reads nothing, and the others with a source of x0 or 0 write nothing. -/
def State.csrOp (s : State) (c w : Nat) : State :=
  let k := s.core c
  let n := bits w 20 12
  let f3 := bits w 12 3
  let rs := bits w 15 5
  let src := if f3 < 4 then k.getX rs else BitVec.ofNat 64 rs
  let write := decide (f3 % 4 = 1 ∨ rs ≠ 0)
  if k.mayCsr n write then
    let old := s.csr c n
    let new := match f3 % 4 with | 1 => src | 2 => old ||| src | _ => old &&& ~~~src
    let u := s.putX c (bits w 7 5) old false
    if write then u.modCore c (fun k =>
      let v := k.setCsr n new
      if 1 ≤ n ∧ n ≤ 3 then v.raiseFlags 0 else v) else u
  else s.illegal c w

/-- MRET: the mode and MIE before the trap return, MPP becomes user mode, MPRV clears on a return to it, and the core goes on at mepc. -/
def State.mret (s : State) (c w : Nat) : State :=
  let k := s.core c
  let ms := k.mstatus.toNat
  let user := decide (bits ms 11 2 ≠ 3)
  let back := setBits (setBits (setBits ms 3 1 (bits ms 7 1)) 7 1 1) 11 2 0
  if k.machine then
    (s.retired c false).modCore c (fun k => { k with
      mstatus := BitVec.ofNat 64 (if user then setBits back 17 1 0 else back), machine := !user, pc := k.mepc })
  else s.illegal c w

/-- The SYSTEM opcode: ECALL, EBREAK, MRET, WFI, which has its own command, and the CSR instructions. -/
def State.systemOp (s : State) (c w : Nat) : State :=
  match bits w 12 3 with
  | 0 =>
    match w with
    | 0x00000073 => s.trap c (if (s.core c).machine then 11 else 8) 0
    | 0x00100073 => s.trap c 3 (s.core c).pc.toNat
    | 0x30200073 => s.mret c w
    | 0x10500073 => if (s.core c).machine ∨ bits (s.core c).mstatus.toNat 21 1 = 0 then s else s.illegal c w
    | _ => s.illegal c w
  | 4 => s.illegal c w
  | _ => s.csrOp c w

/-! ### Floating point -/

/-- The rounding mode of an instruction, its own or that of frm; none where it is none. -/
def Core.rounding (k : Core) (w : Nat) : Option Nat :=
  let own := bits w 12 3
  let rm := if own = 7 then bits k.fcsr.toNat 5 3 else own
  if rm < 5 then some rm else none

/-- A source register as a pattern of the format: a double whole, a single from its box. -/
def Core.fsource (k : Core) (double : Bool) (n : Nat) : Nat := if double then (k.getF n).toNat else unboxed (k.getF n).toNat

/-- FMADD, FMSUB, FNMSUB and FNMADD, by opcode bits [3:2]. -/
def State.fusedOp (s : State) (c w : Nat) : State :=
  let k := s.core c
  let double := decide (bits w 25 2 = 1)
  let f := if double then fmtFP64 else fmtFP32
  match k.rounding w with
  | some rm =>
    if k.fpOn ∧ bits w 25 2 < 2 then
      let v := k.fsource double
      s.putF c (bits w 7 5) double (f.fmadd rm (decide (2 ≤ bits w 2 2)) (decide (bits w 2 2 = 1 ∨ bits w 2 2 = 3)) (v (bits w 15 5)) (v (bits w 20 5)) (v (bits w 27 5))) false
    else s.illegal c w
  | none => s.illegal c w

/-- An instruction ends with an integer from floating point in rd, and flags. -/
def State.putFlagged (s : State) (c rd : Nat) (v : DWord) (fl : Nat) : State :=
  if fl = 0 then s.putX c rd v false else (s.modCore c (fun k => k.raiseFlags fl)).putX c rd v false

/-- The OP-FP opcode. -/
def State.fpOp (s : State) (c w : Nat) : State :=
  let k := s.core c
  let bad := s.illegal c w
  let fmt := bits w 25 2
  let double := decide (fmt = 1)
  let f := if double then fmtFP64 else fmtFP32
  let rd := bits w 7 5
  let f3 := bits w 12 3
  let sel := bits w 20 5
  let a := k.fsource double (bits w 15 5)
  let b := k.fsource double sel
  let x := k.getX (bits w 15 5)
  let put (r : Nat × Nat) : State := s.putF c rd double r false
  let rounded (g : Nat → Nat × Nat) : State := match k.rounding w with | some rm => put (g rm) | none => bad
  let wide := decide (2 ≤ sel)
  let unsigned := decide (sel % 2 = 1)
  if !k.fpOn ∨ 2 ≤ fmt then bad
  else match bits w 27 5 with
    | 0 => rounded (fun rm => f.fadd rm a b)
    | 1 => rounded (fun rm => f.fsub rm a b)
    | 2 => rounded (fun rm => f.fmul rm a b)
    | 3 => rounded (fun rm => f.fdiv rm a b)
    | 4 =>
      let top := f.eb + f.mb
      let sign := match f3 with | 0 => some (b.testBit top) | 1 => some (!(b.testBit top)) | 2 => some (a.testBit top != b.testBit top) | _ => none
      match sign with | some n => put (setBits a top 1 (if n then 1 else 0), 0) | none => bad
    | 5 => if f3 < 2 then put (f.fminmax (decide (f3 = 1)) a b) else bad
    | 8 =>
      if sel = (if double then 0 else 1) then
        let g := if double then fmtFP32 else fmtFP64
        rounded (fun rm => f.ofFormat g rm (k.fsource (!double) (bits w 15 5)))
      else bad
    | 11 => if sel = 0 then rounded (fun rm => f.fsqrt rm a) else bad
    | 20 => if f3 < 3 then (let r := f.fcompare f3 a b; s.putFlagged c rd (BitVec.ofNat 64 r.1) r.2) else bad
    | 24 =>
      if sel < 4 then
        match k.rounding w with
        | some rm =>
          let n := if wide then 64 else 32
          let r := f.toInteger rm n unsigned a
          s.putFlagged c rd (sext n (ofInt n r.1)) r.2
        | none => bad
      else bad
    | 26 =>
      if sel < 4 then
        let n := if wide then 64 else 32
        let v : Int := if unsigned then (bits x.toNat 0 n : Int) else toInt n x.toNat
        rounded (fun rm => f.ofInteger rm v)
      else bad
    | 28 =>
      if sel ≠ 0 then bad
      else match f3 with
        | 0 => s.putX c rd (if double then k.getF (bits w 15 5) else sext 32 (k.getF (bits w 15 5)).toNat) false
        | 1 => s.putX c rd (BitVec.ofNat 64 (f.fclass a)) false
        | _ => bad
    | 30 => if sel = 0 ∧ f3 = 0 then put (if double then x.toNat else x.toNat % 2 ^ 32, 0) else bad
    | _ => bad

/-! ### One instruction -/

/-- The full instruction w, which stood as raw in memory, compressed or not, is carried out: of one that has a command of its own nothing but that it is legal. -/
def State.perform (s : State) (c w raw : Nat) (short : Bool) : State :=
  let k := s.core c
  let bad := s.illegal c raw
  let rd := bits w 7 5
  let f3 := bits w 12 3
  let f7 := bits w 25 7
  let a := k.getX (bits w 15 5)
  let b := k.getX (bits w 20 5)
  let next := k.pc + (if short then 2#64 else 4#64)
  let put (v : DWord) : State := s.putX c rd v short
  let alt := decide (f7 = 0x20)
  match w % 128 with
  | 0x37 => put (immU w)
  | 0x17 => put (k.pc + immU w)
  | 0x6F => s.jumped c rd next (k.pc + immJ w) short
  | 0x67 => if f3 = 0 then s.jumped c rd next ((a + immI w) &&& ~~~1#64) short else bad
  | 0x63 =>
    match branches f3 a b with
    | some true => s.jumped c 0 0#64 (k.pc + immB w) short
    | some false => s.retired c short
    | none => bad
  | 0x13 =>
    match f3 with
    | 1 => if f7 / 2 = 0 then put (aluOp 1 false a (immI w)) else bad
    | 5 => if f7 / 2 = 0 ∨ f7 / 2 = 0x10 then put (aluOp 5 (decide (f7 / 2 = 0x10)) a (immI w)) else bad
    | _ => put (aluOp f3 false a (immI w))
  | 0x1B =>
    match f3 with
    | 0 => put (aluOpW 0 false a (immI w))
    | 1 => if f7 = 0 then put (aluOpW 1 false a (immI w)) else bad
    | 5 => if f7 = 0 ∨ alt then put (aluOpW 5 alt a (immI w)) else bad
    | _ => bad
  | 0x33 =>
    if f7 = 1 then put (BitVec.ofInt 64 (mulDiv f3 64 a.toNat b.toNat))
    else if f7 = 0 ∨ (alt ∧ (f3 = 0 ∨ f3 = 5)) then put (aluOp f3 alt a b)
    else bad
  | 0x3B =>
    if f7 = 1 ∧ (f3 = 0 ∨ 4 ≤ f3) then put (sext 32 (ofInt 32 (mulDiv f3 32 (a.toNat % 2 ^ 32) (b.toNat % 2 ^ 32))))
    else if (f7 = 0 ∧ (f3 = 0 ∨ f3 = 1 ∨ f3 = 5)) ∨ (alt ∧ (f3 = 0 ∨ f3 = 5)) then put (aluOpW f3 alt a b)
    else bad
  | 0x0F => match f3 with | 0 => s.retired c short | 1 => s | _ => bad
  | 0x73 => s.systemOp c w
  | 0x03 => if f3 = 7 then bad else s
  | 0x23 => if 4 ≤ f3 then bad else s
  | 0x2F => if (f3 = 2 ∨ f3 = 3) ∧ [0, 1, 3, 4, 8, 12, 16, 20, 24, 28].contains (f7 / 4) ∨ (f3 = 2 ∨ f3 = 3) ∧ f7 / 4 = 2 ∧ bits w 20 5 = 0 then s else bad
  | 0x07 => if k.fpOn ∧ (f3 = 2 ∨ f3 = 3) then s else bad
  | 0x27 => if k.fpOn ∧ (f3 = 2 ∨ f3 = 3) then s else bad
  | 0x43 => s.fusedOp c w
  | 0x47 => s.fusedOp c w
  | 0x4B => s.fusedOp c w
  | 0x4F => s.fusedOp c w
  | 0x53 => s.fpOp c w
  | _ => bad

/-- The instruction that starts with a parcel of 16 bits, and has a second one where that says so, is carried out. -/
def State.performParcels (s : State) (c first second : Nat) : State :=
  if first % 4 = 3 then s.perform c (first + 2 ^ 16 * second) (first + 2 ^ 16 * second) false
  else match expand first with
    | some w => s.perform c w first true
    | none => s.illegal c first

end Sys2Proof.Machine
end

