-- ==== Sys2Proof/Machine/Cores.lean ====
section
/-! DEFINITION. The control cores' commands (R283 to R293, R300, R308 to R312): release, fetches, loads and stores, atomics and reservations, FENCE.I and WFI, dormancy, halts and retirements; and the debug port (R388). -/

namespace Sys2Proof.Machine

/-! ### Release -/

/-- A core whose local memory failed the start-up march counts as halted, and is retired at release (R291, R393). -/
def State.retireHalted (s : State) (c : Nat) : State :=
  if (s.core c).state = 3 then (((s.count 0x0C0 3).err 0x0C0 9).raise (3872 + c)).retireCore c false else s

/-- RELEASED is set (R288, R289): RELEASE_TIME enters the hand-off block, every active core starts at CTL_ENTRY, and the cooper acts on what it held (R398). -/
def State.releaseCores (s : State) : State :=
  let s1 := (s.setField 0x0C0 0x108 0 1 1).stoWrite ⟨2, 0, handOffAt + 8⟩ 8 s.now
  let start (u : State) (l : Nat) : State :=
    let c := u.physOf l
    if (u.core c).state = 3 then u else u.startCore c l (u.word64 0x0C0 0x100)
  let s2 := s1.activeCores.foldl start s1
  let warm := decide (s2.pwr.starting = 2)
  let s3 := { s2 with pwr := { s2.pwr with starting := 0 } }
  let s4 := if warm then s3.err 0x000 9 else s3
  ((List.range 18).foldl State.retireHalted s4).actEarly

/-- CORE_RELEASE (R288, R372). -/
def execCoreRelease (s : State) : Result :=
  if s.stage = 7 ∧ !s.released ∧ !s.pwr.off then done s.releaseCores.watch else done s

/-! ### Loads and stores -/

/-- The requester that a physical core is: its logical number. -/
def State.asCore (s : State) (c : Nat) : Requester := .core (Fin.ofNat 16 (s.core c).logical)

/-- A load's value, extended to the register. -/
def extended (width : Nat) (signed : Bool) (v : Nat) : DWord :=
  if signed then BitVec.ofInt 64 (toInt (8 * width) v) else BitVec.ofNat 64 v

/-- A load ends: its register is written and the core goes on. -/
def State.loaded (s : State) (c : Nat) (rd : Fin 32) (short : Bool) (v : DWord) : State :=
  (s.modCore c (fun k => k.setX rd v)).retired c short

/-- What a load brings to its register: an integer one, or a floating-point one, where a single is boxed (RV64GC, PRESUMED, log entry 178). -/
structure LoadTo where
  width : Nat
  signed : Bool
  rd : Fin 32
  short : Bool
  fp : Bool
deriving DecidableEq, Repr

/-- A load ends with the bytes that it found. -/
def State.loadEnd (s : State) (c : Nat) (l : LoadTo) (v : Nat) : State :=
  if l.fp then s.putF c l.rd.val (decide (l.width = 8)) (v, 0) l.short
  else s.loaded c l.rd l.short (extended l.width l.signed v)

/-- A load from an on-die store (R290, R312). While the partition is wiped its words read zero (R313). A mesh error on the way is an uncorrectable or a poisoned word to the core (R316). -/
def State.loadStore (s : State) (c : Nat) (x : Spot) (a : Nat) (l : LoadTo) (ue : Bool) (upset : Upset) : State :=
  if s.barred x then s.secRefused.trap c 5 a
  else if x.secure && s.wiping then s.loadEnd c l 0
  else
    let (hit, s') := s.meshAt c x
    let ((v, poison, bad), u) := s'.seeWord x l.width ue upset
    if bad ∨ poison ∨ hit.isSome then ((if bad then u.coreUe x 2 else u).coreEvent c 2 a).trap c 5 a
    else u.loadEnd c l v

/-- A doorbell word's value where the access is 4 or 8 bytes wide (R266); another width is an access error. -/
def State.loadBell (s : State) (req : Requester) (q off width : Nat) : Nat × State :=
  if width = 8 ∨ width = 4 then (s.bellWord q off width, s) else (0, s.errInfo 0x0B0 1 ((8 * q + off) % 4096) (reqCode req))

/-- CORE_LOAD (R283, R285 to R287, R290). fp says that the register is a floating-point one: such a load is of 4 or 8 bytes, and there is none while floating point is off. -/
def execCoreLoad (core : Fin 18) (addr width : Nat) (signed : Bool) (rd : Fin 32) (short : Bool) (ue : Bool) (host : HostLines) (s : State) (upset : Upset := .none) (fp : Bool := false) : Result :=
  let c := core.val
  let dst : LoadTo := ⟨width, signed, rd, short, fp⟩
  if !(s.executes c) ∨ !([1, 2, 4, 8].contains width) ∨ (fp ∧ (width < 4 ∨ !(s.core c).fpOn)) then done s
  else if addr % width ≠ 0 then done (s.trap c 4 addr)
  else if s.pmpData c addr width false = false then done (s.trap c 5 addr)
  else match corePlace c addr with
    | .store x => done (s.loadStore c x addr dst ue upset)
    | .page page off =>
      let (v, u) := s.loadPage (s.asCore c) page off width
      done (u.loadEnd c dst v)
    | .bank off =>
      let l := (s.core c).logical
      let (v, u) := s.loadPage (s.asCore c) (bankPage l) (bankBase l + off) width
      done (u.loadEnd c dst v)
    | .doorbell q off =>
      let (v, u) := s.loadBell (s.asCore c) q off width
      done (u.loadEnd c dst v)
    | .unified a =>
      let (wait, s1) := s.engHoldRun ⟨internal, 1, some (.coreLoad core addr width signed rd short ue host upset fp), 0⟩ a width false
      if wait then done s1
      else
        let (hit, s2) := s1.meshMeets c
        let (l, u) := s2.engBytes internal 1 a width host true
        let t := if l.poison ∨ hit.isSome then (u.coreEvent c 3 addr).trap c 5 addr else u.loadEnd c dst (leNat l.data)
        done (t.settle)
    | .nothing => done (s.trap c 5 addr)

/-- A store to an on-die store that goes to its bank (R290, R310, R311). meet is a write over the bank's other port in the same cycle. A remote store loses to the owner's and is told by a fault. In shared memory the cores have port A and win: the trust core's write is refused as COLLIDED, and its ROM repeats it. -/
def State.storeBank (s : State) (c : Nat) (x : Spot) (a width v : Nat) (short ue : Bool) (meet : BankMeet) (upset : Upset) : State :=
  let y : Spot := { x with off := x.off / 8 * 8 }
  let put (u : State) : State :=
    let u1 := if x.store = 2 ∨ x.inst = c then u.marchNote x else u
    let u2 := (if width < 8 then u1.putWord x width v upset else u1.stoWrite x width v).breakRes x.word (some c)
    match meet with
    | .against _ value =>
      if x.store = 2 then (((u2.collide x .trust 0).stoWrite y 8 value.toNat).breakRes x.word none).retired c short else u2.retired c short
    | .alone => u2.retired c short
  let lost : Option DWord := match meet with
    | .against _ value => if x.store = 3 ∧ x.inst ≠ c then some value else none
    | .alone => none
  match lost with
  | some value => (((s.stoWrite y 8 value.toNat).breakRes x.word (some x.inst)).collide x .transfer c).trap c 7 a
  | none =>
    if width < 8 then
      let ((_, poison, bad), u) := s.seeWord x width ue upset
      if bad ∨ poison then ((if bad then u.coreUe x 4 else u).coreEvent c 4 a).trap c 7 a else put u
    else put s

/-- A store to an on-die store (R290, R310 to R313). A mesh error on the way (R316): of a header, the store is not performed and faults as on an uncorrectable word; of the data, the word is written as poison (DEDUCED, log entry 177). -/
def State.storeStore (s : State) (c : Nat) (x : Spot) (a width v : Nat) (short ue : Bool) (meet : BankMeet) (upset : Upset) : State :=
  if s.barred x then s.secRefused.trap c 7 a
  else if x.secure && s.wiping then s.retired c short
  else match s.meshAt c x with
    | (some true, u) => (u.coreEvent c 4 a).trap c 7 a
    | (some false, u) => ((u.stoPoison x).breakRes x.word (some c)).retired c short
    | (none, u) => u.storeBank c x a width v short ue meet upset

/-- A store to a doorbell word (R266, R267, R287). -/
def State.storeBell (s : State) (req : Requester) (q off width v : Nat) : State :=
  if width = 8 then outState (execDoorbellWrite req q (some (v % 2 ^ 32)) (some (v / 2 ^ 32)) s) s
  else if width = 4 then
    (if off = 0 then outState (execDoorbellWrite req q (some v) none s) s else outState (execDoorbellWrite req q none (some v) s) s)
  else s.errInfo 0x0B0 1 ((8 * q + off) % 4096) (reqCode req)

/-- CORE_STORE (R283, R285 to R287, R290, R311). -/
def execCoreStore (core : Fin 18) (addr width : Nat) (value : DWord) (short : Bool) (ue : Bool) (meet : BankMeet) (host : HostLines) (s : State) (upset : Upset := .none) : Result :=
  let c := core.val
  let v := value.toNat % 2 ^ (8 * width)
  if !(s.executes c) ∨ !([1, 2, 4, 8].contains width) then done s
  else if addr % width ≠ 0 then done (s.trap c 6 addr)
  else if s.pmpData c addr width true = false then done (s.trap c 7 addr)
  else match corePlace c addr with
    | .store x => done (s.storeStore c x addr width v short ue meet upset)
    | .page page off => done (((s.storePage (s.asCore c) page off width v).retired c short).settle)
    | .bank off =>
      let l := (s.core c).logical
      done (((s.storePage (s.asCore c) (bankPage l) (bankBase l + off) width v).retired c short).settle)
    | .doorbell q off => done ((s.storeBell (s.asCore c) q off width v).retired c short)
    | .unified a =>
      let (wait, s1) := s.engHoldRun ⟨internal, 1, some (.coreStore core addr width value short ue meet host upset), 0⟩ a width true
      if wait then done s1
      else done ((((s1.engPut internal 1 a (leBytes width v) host true).2).retired c short).settle)
    | .nothing => done (s.trap c 7 addr)

/-! ### Atomics and reservations -/

/-- The word of shared or local memory that an atomic of a core reaches, none elsewhere (R286). -/
def State.atomicPlace (_s : State) (c a : Nat) : Option Spot := match corePlace c a with | .store x => some x | _ => none

/-- AMO (R283, R286, R308): the bank reads, modifies and writes the word, and the old value returns. A word that is poisoned or cannot be corrected is not changed, as for a narrow store (R290; for 8 bytes DEDUCED, log entry 174). -/
def execAmo (core : Fin 18) (op : AmoOp) (addr width : Nat) (value : DWord) (rd : Fin 32) (s : State) (ue : Bool := false) (upset : Upset := .none) : Result :=
  let c := core.val
  if !(s.executes c) ∨ !([4, 8].contains width) then done s
  else if addr % width ≠ 0 then done (s.trap c 6 addr)
  else if s.pmpData c addr width true = false then done (s.trap c 7 addr)
  else match s.atomicPlace c addr with
    | none => done (s.trap c 7 addr)
    | some x =>
      if s.barred x then done (s.secRefused.trap c 7 addr)
      else if x.secure && s.wiping then done (s.loaded c rd false 0#64)
      else
        let (hit, s') := s.meshAt c x
        let ((old, poison, bad), v) := s'.seeWord x width ue upset
        if bad ∨ poison ∨ hit.isSome then done (((if bad then v.coreUe x 4 else v).coreEvent c 4 addr).trap c 7 addr)
        else
          let u := ((v.putWord x width (amoResult op width old value.toNat) upset).breakRes x.word (some c)).countAtomic x
          done (u.loaded c rd false (extended width true old))

/-- LR (R283, R286, R309). While the partition is wiped its words read zero and are not reserved (R313). -/
def execLr (core : Fin 18) (addr width : Nat) (rd : Fin 32) (s : State) (ue : Bool := false) (upset : Upset := .none) : Result :=
  let c := core.val
  if !(s.executes c) ∨ !([4, 8].contains width) then done s
  else if addr % width ≠ 0 then done (s.trap c 4 addr)
  else if s.pmpData c addr width false = false then done (s.trap c 5 addr)
  else match s.atomicPlace c addr with
    | none => done (s.trap c 7 addr)
    | some x =>
      if s.barred x then done (s.secRefused.trap c 5 addr)
      else if x.secure && s.wiping then done ((s.modCore c (fun k => { k with reservation := none })).loaded c rd false 0#64)
      else
        let (hit, s') := s.meshAt c x
        let ((v, poison, bad), u) := s'.seeWord x width ue upset
        if bad ∨ poison ∨ hit.isSome then done (((if bad then u.coreUe x 2 else u).coreEvent c 2 addr).trap c 5 addr)
        else done ((u.modCore c (fun k => { k with reservation := some x.word })).loaded c rd false (extended width true v))

/-- SC (R286, R309): where the reservation holds, an atomic swap whose old value is discarded, and rd reads 0; otherwise nothing is written, and rd reads 1. While the partition is wiped no reservation on it stands, so it fails there (R313). -/
def execSc (core : Fin 18) (addr width : Nat) (value : DWord) (rd : Fin 32) (s : State) (ue : Bool := false) (upset : Upset := .none) : Result :=
  let c := core.val
  if !(s.executes c) ∨ !([4, 8].contains width) then done s
  else if addr % width ≠ 0 then done (s.trap c 6 addr)
  else if s.pmpData c addr width true = false then done (s.trap c 7 addr)
  else match s.atomicPlace c addr with
    | none => done (s.trap c 7 addr)
    | some x =>
      let free (u : State) : State := u.modCore c (fun k => { k with reservation := none })
      if s.barred x then done (s.secRefused.trap c 7 addr)
      else if (s.core c).reservation = some x.word ∧ !(x.secure && s.wiping) then
        let (hit, s') := s.meshAt c x
        let ((_, poison, bad), v) := s'.seeWord x width ue upset
        if ((bad ∨ poison) ∧ width < 8) ∨ hit.isSome then done (((if bad then v.coreUe x 4 else v).coreEvent c 4 addr).trap c 7 addr)
        else
          let w := if width < 8 then v.putWord x width (value.toNat % 2 ^ (8 * width)) upset else v.stoWrite x width (value.toNat % 2 ^ (8 * width))
          done ((free ((w.breakRes x.word (some c)).countAtomic x)).loaded c rd false 0#64)
      else done ((free s).loaded c rd false 1#64)

/-! ### Fetching -/

/-- Drop the instruction-cache line of an address. -/
def State.dropLine (s : State) (c a : Nat) : State :=
  s.modCore c (fun k => { k with icache := k.icache.filter (fun l => decide (l.1 ≠ a / 64)) })

/-- The 64-byte line of an instruction fetch, from the cache or from memory; the cache takes it where every word of it is good, so that a later fetch of a bad one meets its error (R290). -/
def State.fetchLine (s : State) (c a : Nat) (x : Spot) : State :=
  let k := s.core c
  if k.icache.any (fun l => decide (l.1 = a / 64)) then s
  else
    let y : Spot := { x with off := x.off / 64 * 64 }
    let bytes := Memory.bytes (s.storeMem x.store) y.addr 64
    if (List.range 8).any (fun i => (s.stoRead { y with off := y.off + 8 * i } 8).2) then s
    else s.modCore c (fun k => { k with icache := ((a / 64, bytes) :: k.icache).take 512 })

/-- A fetch for the instruction at start meets an instruction access fault at a (R290): where start is the address in mtvec the core halts, elsewhere it traps. -/
def State.fetchFault (s : State) (c start a : Nat) : State :=
  if start = ((s.core c).mtvec &&& ~~~3#64).toNat then s.haltCore c else s.trap c 1 a

/-- The place that an address may be fetched from: local or shared memory (R285). -/
def fetchPlace (c a : Nat) : Option Spot := match corePlace c a with | .store x => some x | _ => none

/-- Two bytes of an instruction, from the line that the cache holds or from memory; none where they may not or cannot be fetched (R285, R290). ue says that memory or the cached line holds an uncorrectable error there. While the secure partition is wiped its words read zero (R313). -/
def State.fetchParcel (s : State) (c a : Nat) (ue : Bool) (upset : Upset) : Option Nat × State :=
  if s.pmpFetch c a = false then (none, s)
  else match fetchPlace c a with
  | none => (none, s)
  | some x =>
    if s.barred x then (none, s.secRefused)
    else
      let bad (u : State) (known : Bool) : State := ((if known then u.coreUe x 1 else u).coreEvent c 1 a).dropLine c a
      match (s.core c).icache.find? (fun l => decide (l.1 = a / 64)) with
      | some l => if ue then (none, bad s true) else (some (leNat ((l.2.drop (a % 64)).take 2)), s)
      | none =>
        if x.secure && s.wiping then (some 0, s)
        else
          let (hit, s1) := s.meshAt c x
          let ((v, poison, wrong), u) := s1.seeWord x 2 ue upset
          if wrong ∨ poison ∨ hit.isSome then (none, bad u wrong) else (some v, u.fetchLine c a x)

/-- INSTRUCTION_FETCH (R283 to R285, R290, R297): the core fetches the instruction at an even address, which becomes its pc, and carries it out but for what a command of its own does; or it first takes the external interrupt that it has enabled. ue tells of an uncorrectable error in the first two bytes, ueTail of one in the last two of four. -/
def execInstructionFetch (core : Fin 18) (addr : Nat) (ue : Bool) (s : State) (upset : Upset := .none) (ueTail : Bool := false) : Result :=
  let c := core.val
  if !(s.executes c) ∨ addr % 2 = 1 then done s
  else
    let s0 := s.modCore c (fun k => { k with pc := BitVec.ofNat 64 addr })
    if s.takesMeip c then done (s0.trap c meipCause 0)
    else match s0.fetchParcel c addr ue upset with
    | (none, u) => done (u.fetchFault c addr addr)
    | (some first, u) =>
      if first % 4 = 3 then
        match u.fetchParcel c (addr + 2) ueTail .none with
        | (none, v) => done (v.fetchFault c addr (addr + 2))
        | (some second, v) => done (v.performParcels c first second)
      else done (u.performParcels c first 0)

/-- FENCE_I (R284): the instruction cache holds nothing. -/
def execFenceI (core : Fin 18) (s : State) : Result :=
  if s.executes core.val then done ((s.modCore core.val (fun k => { k with icache := [] })).retired core.val false) else done s

/-! ### Sleep (R300) -/

/-- WFI: a core without a deliverable source stops fetching. -/
def execWfi (core : Fin 18) (s : State) : Result :=
  let c := core.val
  if !(s.executes c) then done s
  else
    let s1 := s.retired c false
    done (if (s.claimable (s.core c).logical).isSome then s1 else s1.modCore c (fun k => { k with wfiAt := some s.now }))

/-- DORMANT_EN of a core's bank. -/
def State.dormantEn (s : State) (l : Nat) : Bool := decide (s.field (bankPage l) (bankBase l + 8) 4 1 = 1)

/-- CORE_DORMANT: 200 ns after the WFI, up to which mcycle counts (R284). -/
def execCoreDormant (core : Fin 18) (s : State) : Result :=
  let c := core.val
  let k := s.core c
  match k.wfiAt with
  | some t =>
    if k.state = 1 ∧ s.dormantEn k.logical then
      let s1 := s.until (t + 200)
      done (s1.modCore c (fun k => { k with state := 2, mcycle := k.mcycle + BitVec.ofNat 64 (k.cycles s1.now), cycleAt := s1.now }))
    else done s
  | none => done s

/-- CORE_WAKE: 2.0 µs after the delivery, MEIP is asserted and the core goes on after its WFI; its clock ran in none of the time between (R284, R300). -/
def execCoreWake (core : Fin 18) (s : State) : Result :=
  let c := core.val
  match (s.core c).wakeAt with
  | some t =>
    if (s.core c).state = 2 then
      let s0 := s.until t
      let s1 := s0.modCore c (fun k => { k with state := 1, wfiAt := none, wakeAt := none, cycleAt := s0.now })
      done (if (s1.claimable (s.core c).logical).isSome then s1.emit (.meip c) else s1)
    else done s
  | none => done s

/-! ### Halt and retirement -/

/-- CORE_HALT (R291): the core fetches at its mtvec and meets an instruction access fault. -/
def execCoreHalt (core : Fin 18) (s : State) : Result := if s.executes core.val then done (s.haltCore core.val) else done s

/-- RETIRE_NOTICE_EXPIRY (R292): a core that has not stopped itself within 1 ms is stopped. -/
def execRetireNoticeExpiry (core : Fin 18) (s : State) : Result :=
  match (s.core core.val).notice with
  | some t => done ((s.until (t + ms)).retireCore core.val true)
  | none => done s

/-! ### The debug port (R388) -/

/-- Register n of core c: x0 to x31, pc, f0 to f31, and from 4,096 on the CSRs (the numbering is the model's, PRESUMED, log entry 54). -/
def State.debugReg (s : State) (c n : Nat) : DWord :=
  let k := s.core c
  if n < 32 then k.x.toList.getD n 0#64 else if n = 32 then k.pc else if n < 65 then k.f.toList.getD (n - 33) 0#64
  else if 4096 ≤ n then s.csr c (n - 4096) else 0#64
def Core.setDebugReg (k : Core) (n : Nat) (v : DWord) : Core :=
  if n = 0 then k else if n < 32 then { k with x := k.x.set! n v } else if n = 32 then { k with pc := v }
  else if n < 65 then { k with f := k.f.set! (n - 33) v } else if 4096 ≤ n then k.setCsr (n - 4096) v else k

/-- A place that the debug port reaches: any store but the secure partition. -/
def debugSpot (store inst byte : Nat) : Option Spot :=
  let x : Spot := ⟨store, inst, byte / 8 * 8⟩
  if storeInst store inst && decide (byte < storeBytes store) && !x.secure then some x else none

/-- A place that the debug port may write: until the release only the trust core writes the hand-off block (R371). -/
def State.debugWrites (s : State) (store inst byte : Nat) : Option Spot :=
  if store = 2 ∧ handOffAt ≤ byte ∧ !s.released then none else debugSpot store inst byte

/-- A private instruction, which takes effect only while they are open (R382, R388). -/
def State.viaDebug (s : State) (f : State → State) : Result := if s.debugOpen && s.pwr.input then done (f s) else done s

/-- What the debug port shifts out for a word of a store: its 64 bits, and above them its poison mark (R305; the place of the mark is a DESIGN CHOICE, log entry 174). -/
def shownWord (v : Nat × Bool) : Nat := v.1 + (if v.2 then 2 ^ 64 else 0)

/-- DEBUG_INSTRUCTION (R388, R420). ue says that a word read has an uncorrectable error: it is delivered as poison and counted (R305, R338). -/
def execDebugInstruction (op : DebugOp) (s : State) : Result :=
  match op with
  | .bypass => done s
  | .idcode => done (if s.pwr.input then s.emit (.jtag 0x1A30F4C7) else s)
  | .samplePreload => done (if s.pwr.input then ({ s with freeCtr := s.freeCtr + 1 }).emit (.jtag (Config.freeWord s.freeCtr).toNat) else s)
  | .extest => done s
  | .coreHalt c => s.viaDebug (fun u => u.modCore c (fun k => { k with debugHalt := true, debugStep := false }))
  | .coreStep c => s.viaDebug (fun u => if (u.core c).debugHalt then u.modCore c (fun k => { k with debugStep := true }) else u)
  | .coreRegRead c r => s.viaDebug (fun u => u.emit (.jtag (u.debugReg c r).toNat))
  | .coreRegWrite c r v => s.viaDebug (fun u => u.modCore c (fun k => k.setDebugReg r v))
  | .pageRead page off =>
    s.viaDebug (fun u => let (v, w) := u.loadPage .debug page (off % 4096) 4; w.emit (.jtag v))
  | .pageWrite page off v => s.viaDebug (fun u => (u.storePage .debug page (off % 4096) 4 v.toNat).settle)
  | .storeRead store inst byte ue =>
    s.viaDebug (fun u => match debugSpot store inst byte with
      | some x => if ue then (u.recordUe (storeWhere x.store) 0 x.ueAddr).emit (.jtag (shownWord (0, true))) else u.emit (.jtag (shownWord (u.stoRead x 8)))
      | none => u)
  | .storeWrite store inst byte v =>
    s.viaDebug (fun u => match u.debugWrites store inst byte with | some x => (u.stoWrite x 8 v.toNat).breakRes x.word none | none => u)

end Sys2Proof.Machine
end

