-- ==== Sys2Proof/Machine/Dispatch.lean ====
section
/-! DEFINITION. One arm for each command of the block, in the order of spec/opcode_table.json: a direct call of its meaning. -/

namespace Sys2Proof.Machine

/-- The effect of a command on everything but the queue of waiting commands. -/
def exec (i : Instr) (s : State) : Host.Outcome State Fault Refusal :=
  match i with
  | .registerWrite req page off wide value => Sys2Proof.Machine.execRegisterWrite req page off wide value s
  | .bar0BadAccess req page off width write => Sys2Proof.Machine.execBar0BadAccess req page off width write s
  | .lowHalfRead req page off wide => Sys2Proof.Machine.execLowHalfRead req page off s wide
  | .halfWrite req page off high value => Sys2Proof.Machine.execHalfWrite req page off high value s
  | .errStatusClear req page mask rising => Sys2Proof.Machine.execErrStatusClear req page mask rising s
  | .errMaskWrite req page mask => Sys2Proof.Machine.execErrMaskWrite req page mask s
  | .commit req page gen => Sys2Proof.Machine.execCommit req page gen s
  | .commitTakesEffect page => Sys2Proof.Machine.execCommitTakesEffect page s
  | .cntClear req page => Sys2Proof.Machine.execCntClear req page s
  | .stageDiscard req page => Sys2Proof.Machine.execStageDiscard req page s
  | .memRd p tag haddr mv upset => Sys2Proof.Machine.execMemRd p tag haddr mv upset s
  | .memWr p tag haddr mv data be poison upset => Sys2Proof.Machine.execMemWr p tag haddr mv data be poison s upset
  | .memInv p tag haddr mv => Sys2Proof.Machine.execMemInv p tag haddr mv s
  | .memClnEvct p tag haddr => Sys2Proof.Machine.execMemClnEvct p tag haddr s
  | .memSpecRd p haddr => Sys2Proof.Machine.execMemSpecRd p haddr s
  | .unsupportedM2sRequest p tag readLike => Sys2Proof.Machine.execUnsupportedM2sRequest p tag readLike s
  | .birsp p biId biTag kind => Sys2Proof.Machine.execBirsp p biId biTag kind s
  | .biTimeout p biTag => Sys2Proof.Machine.execBiTimeout p biTag s
  | .lostOwnerWalk p => Sys2Proof.Machine.execLostOwnerWalk p s
  | .lostPop req => Sys2Proof.Machine.execLostPop req s
  | .writeEntry req index => Sys2Proof.Machine.execWriteEntry req index s
  | .readEntry req index => Sys2Proof.Machine.execReadEntry req index s
  | .invalidate req index => Sys2Proof.Machine.execInvalidate req index s
  | .renewLease req index => Sys2Proof.Machine.execRenewLease req index s
  | .regionOpComplete => Sys2Proof.Machine.execRegionOpComplete s
  | .leaseExpiry index => Sys2Proof.Machine.execLeaseExpiry index s
  | .regionFreeingEnd index => Sys2Proof.Machine.execRegionFreeingEnd index s
  | .leasePop req => Sys2Proof.Machine.execLeasePop req s
  | .moveDequeue => Sys2Proof.Machine.execMoveDequeue s
  | .moveDestHeld tile => Sys2Proof.Machine.execMoveDestHeld tile s
  | .moveCopyEnd tile host writeFails => Sys2Proof.Machine.execMoveCopyEnd tile host writeFails s
  | .moveDeadline tile => Sys2Proof.Machine.execMoveDeadline tile s
  | .heatWalk tile upset => Sys2Proof.Machine.execHeatWalk tile s upset
  | .heatEpoch host => Sys2Proof.Machine.execHeatEpoch s host
  | .exhPop req => Sys2Proof.Machine.execExhPop req s
  | .resume req p => Sys2Proof.Machine.execResume req p s
  | .discard req p => Sys2Proof.Machine.execDiscard req p s
  | .reencode cask => Sys2Proof.Machine.execReencode cask s
  | .reencodeEnd cask host => Sys2Proof.Machine.execReencodeEnd cask s host
  | .caskReadReturn cask badSector host => Sys2Proof.Machine.execCaskReadReturn cask badSector s host
  | .sealTimeout cask => Sys2Proof.Machine.execSealTimeout cask s
  | .sealAgeLimit cask => Sys2Proof.Machine.execSealAgeLimit cask s
  | .flush req press => Sys2Proof.Machine.execFlush req press s
  | .sealEnd cask host => Sys2Proof.Machine.execSealEnd cask s host
  | .trainReq req region => Sys2Proof.Machine.execTrainReq req region s
  | .trainPassEnd region => Sys2Proof.Machine.execTrainPassEnd region s
  | .load req => Sys2Proof.Machine.execLoad req s
  | .tblRelease req andLoad => Sys2Proof.Machine.execTblRelease req andLoad s
  | .qlogPop req press => Sys2Proof.Machine.execQlogPop req press s
  | .importTimeout queue => Sys2Proof.Machine.execImportTimeout queue s
  | .importCommit queue => Sys2Proof.Machine.execImportCommit queue s
  | .doorbellWrite req queue tail head => Sys2Proof.Machine.execDoorbellWrite req queue tail head s
  | .enable req => Sys2Proof.Machine.execEnable req s
  | .disable req => Sys2Proof.Machine.execDisable req s
  | .restart req => Sys2Proof.Machine.execRestart req s
  | .disableDone queue => Sys2Proof.Machine.execDisableDone queue s
  | .ownerWrite req kind id => Sys2Proof.Machine.execOwnerWrite req kind id s
  | .sqFetch queue host => Sys2Proof.Machine.execSqFetch queue host s
  | .entryStart queue => Sys2Proof.Machine.execEntryStart queue s
  | .nop queue seq => Sys2Proof.Machine.execNop queue seq s
  | .hostRead queue seq => Sys2Proof.Machine.execHostRead queue seq s
  | .hostWrite queue seq host => Sys2Proof.Machine.execHostWrite queue seq host s
  | .denChain queue seq host => Sys2Proof.Machine.execDenChain queue seq host s
  | .jobSubmit queue seq host => Sys2Proof.Machine.execJobSubmit queue seq host s
  | .jobAbort queue seq => Sys2Proof.Machine.execJobAbort queue seq s
  | .caskExport queue seq host => Sys2Proof.Machine.execCaskExport queue seq host s
  | .caskImport queue seq segment ep => Sys2Proof.Machine.execCaskImport queue seq segment s ep
  | .caskImportData queue seq segment ep => Sys2Proof.Machine.execCaskImportData queue seq segment s ep
  | .publish queue seq => Sys2Proof.Machine.execPublish queue seq s
  | .draftDiscard queue seq => Sys2Proof.Machine.execDraftDiscard queue seq s
  | .editionQuery queue seq => Sys2Proof.Machine.execEditionQuery queue seq s
  | .editionWait queue seq => Sys2Proof.Machine.execEditionWait queue seq s
  | .editionWaitTimeout queue seq => Sys2Proof.Machine.execEditionWaitTimeout queue seq s
  | .svcCall queue seq host => Sys2Proof.Machine.execSvcCall queue seq host s
  | .entryComplete queue seq => Sys2Proof.Machine.execEntryComplete queue seq s
  | .aggTimeout queue => Sys2Proof.Machine.execAggTimeout queue s
  | .dmaCompletion p tag offset data ep => Sys2Proof.Machine.execDmaCompletion p tag offset data ep s
  | .dmaReadTimeout p tag => Sys2Proof.Machine.execDmaReadTimeout p tag s
  | .tagQuarantineEnd p tag => Sys2Proof.Machine.execTagQuarantineEnd p tag s
  | .jobWindowGranted job host => Sys2Proof.Machine.execJobWindowGranted job host s
  | .jobRunning job host => Sys2Proof.Machine.execJobRunning job host s
  | .fillBegin job recNo host => Sys2Proof.Machine.execFillBegin job recNo s host
  | .weightsInPlace job recNo host => Sys2Proof.Machine.execWeightsInPlace job recNo host s
  | .lockGroupStart job host => Sys2Proof.Machine.execLockGroupStart job s host
  | .chunkBoundary job row host => Sys2Proof.Machine.execChunkBoundary job row host s
  | .splitPassStart job host => Sys2Proof.Machine.execSplitPassStart job host s
  | .layerEnd job => Sys2Proof.Machine.execLayerEnd job s
  | .layerDeadline job => Sys2Proof.Machine.execLayerDeadline job s
  | .lateWaitExpiry job => Sys2Proof.Machine.execLateWaitExpiry job s
  | .overrun job => Sys2Proof.Machine.execOverrun job s
  | .rowFault row phys cause collision => Sys2Proof.Machine.execRowFault row phys cause s collision
  | .jobAbortDone job => Sys2Proof.Machine.execJobAbortDone job s
  | .descriptorStart chain host ue => Sys2Proof.Machine.execDescriptorStart chain host ue s
  | .fill chain desc unit host => Sys2Proof.Machine.execFill chain desc unit s host
  | .copy chain desc unit host ue => Sys2Proof.Machine.execCopy chain desc unit host ue s
  | .compare chain desc unit host ue => Sys2Proof.Machine.execCompare chain desc unit host ue s
  | .reduce chain desc unit host ue => Sys2Proof.Machine.execReduce chain desc unit host ue s
  | .caskCopy chain desc unit host ue => Sys2Proof.Machine.execCaskCopy chain desc unit host ue s
  | .descriptorEnd chain desc => Sys2Proof.Machine.execDescriptorEnd chain desc s
  | .kvOpen queue seq region layers heads headSize fmt capacity host => Sys2Proof.Machine.execKvOpen queue seq region layers heads headSize fmt capacity host s
  | .kvAppend queue seq region layer count keyAddr valueAddr host ue => Sys2Proof.Machine.execKvAppend queue seq region layer count keyAddr valueAddr host ue s
  | .kvAttend queue seq region layer groups scale queryAddr outAddr host ue => Sys2Proof.Machine.execKvAttend queue seq region layer groups scale queryAddr outAddr host ue s
  | .kvTruncate queue seq region layer count host => Sys2Proof.Machine.execKvTruncate queue seq region layer count host s
  | .kvClose queue seq region host => Sys2Proof.Machine.execKvClose queue seq region host s
  | .gather queue seq table rows width fmt indices offsets bags mode out host ue => Sys2Proof.Machine.execGather queue seq table rows width fmt indices offsets bags mode out host ue s
  | .groupOpen queue seq group mask fmt count region offset mode timeoutUs => Sys2Proof.Machine.execGroupOpen queue seq group mask fmt count region offset mode timeoutUs s
  | .contribute queue seq group edition addr host ue => Sys2Proof.Machine.execContribute queue seq group edition addr host ue s
  | .groupClose queue seq group => Sys2Proof.Machine.execGroupClose queue seq group s
  | .roundTimeout group => Sys2Proof.Machine.execRoundTimeout group s
  | .modelLoad queue seq handle header => Sys2Proof.Machine.execModelLoad queue seq handle header s
  | .call queue seq handle input output host => Sys2Proof.Machine.execCall queue seq handle input output host s
  | .modelUnload queue seq handle => Sys2Proof.Machine.execModelUnload queue seq handle s
  | .receiverDetect p result => Sys2Proof.Machine.execReceiverDetect p result s
  | .linkDown p => Sys2Proof.Machine.execLinkDown p s
  | .hotReset p => Sys2Proof.Machine.execHotReset p s
  | .perstAssert p => Sys2Proof.Machine.execPerstAssert p s
  | .perstDeassert p => Sys2Proof.Machine.execPerstDeassert p s
  | .portStateReset p => Sys2Proof.Machine.execPortStateReset p s
  | .portReady p cxl => Sys2Proof.Machine.execPortReady p cxl s
  | .retrain req p rate => Sys2Proof.Machine.execRetrain req p rate s
  | .linkFatalError p kind => Sys2Proof.Machine.execLinkFatalError p kind s
  | .portInternalUe p => Sys2Proof.Machine.execPortInternalUe p s
  | .ideCheckFailure p kind cxl => Sys2Proof.Machine.execIdeCheckFailure p kind cxl s
  | .contain req p => Sys2Proof.Machine.execContain req p s
  | .containRelease req p alsoContain => Sys2Proof.Machine.execContainRelease req p alsoContain s
  | .busMasterEnableWrite p on => Sys2Proof.Machine.execBusMasterEnableWrite p on s
  | .powerStateWrite p d3 => Sys2Proof.Machine.execPowerStateWrite p d3 s
  | .msixControlWrite p what => Sys2Proof.Machine.execMsixControlWrite p what s
  | .intxPendClear req p index mask => Sys2Proof.Machine.execIntxPendClear req p index mask s
  | .decoderCommit p n base size skip hdmH iw lock ig => Sys2Proof.Machine.execDecoderCommit p n base size skip hdmH iw lock s ig
  | .decoderUncommit p n => Sys2Proof.Machine.execDecoderUncommit p n s
  | .c0HeldRelease p => Sys2Proof.Machine.execC0HeldRelease p s
  | .identify p => Sys2Proof.Machine.execIdentify p s
  | .getEventRecords p => Sys2Proof.Machine.execGetEventRecords p s
  | .clearEventRecords p => Sys2Proof.Machine.execClearEventRecords p s
  | .getTimestamp p => Sys2Proof.Machine.execGetTimestamp p s
  | .setTimestamp p value => Sys2Proof.Machine.execSetTimestamp p value s
  | .getSupportedLogs p => Sys2Proof.Machine.execGetSupportedLogs p s
  | .getLog p => Sys2Proof.Machine.execGetLog p s
  | .identifyMemoryDevice p => Sys2Proof.Machine.execIdentifyMemoryDevice p s
  | .getHealthInfo p => Sys2Proof.Machine.execGetHealthInfo p s
  | .mailboxUnsupported p opcode => Sys2Proof.Machine.execMailboxUnsupported p opcode s
  | .doeDiscovery p index => Sys2Proof.Machine.execDoeDiscovery p index s
  | .cxlTableAccess p => Sys2Proof.Machine.execCxlTableAccess p s
  | .doeAbort p => Sys2Proof.Machine.execDoeAbort p s
  | .getVersion p => Sys2Proof.Machine.execGetVersion p s
  | .getCapabilities p => Sys2Proof.Machine.execGetCapabilities p s
  | .negotiateAlgorithms p => Sys2Proof.Machine.execNegotiateAlgorithms p s
  | .getDigests p => Sys2Proof.Machine.execGetDigests p s
  | .getCertificate p slot => Sys2Proof.Machine.execGetCertificate p slot s
  | .challenge p nonce => Sys2Proof.Machine.execChallenge p nonce s
  | .getMeasurements p index signed => Sys2Proof.Machine.execGetMeasurements p index signed s
  | .keyExchange p => Sys2Proof.Machine.execKeyExchange p s
  | .finish p verifyOk => Sys2Proof.Machine.execFinish p verifyOk s
  | .keyUpdate p => Sys2Proof.Machine.execKeyUpdate p s
  | .heartbeat p => Sys2Proof.Machine.execHeartbeat p s
  | .endSession p => Sys2Proof.Machine.execEndSession p s
  | .vendorDefinedRequest p km => Sys2Proof.Machine.execVendorDefinedRequest p km s
  | .ptmDialog p => Sys2Proof.Machine.execPtmDialog p s
  | .ptmResponseD p t4 masterTime delay => Sys2Proof.Machine.execPtmResponseD p t4 masterTime delay s
  | .ptmTimeout p => Sys2Proof.Machine.execPtmTimeout p s
  | .coreRelease => Sys2Proof.Machine.execCoreRelease s
  | .coreLoad core addr width signed rd short ue host upset fp => Sys2Proof.Machine.execCoreLoad core addr width signed rd short ue host s upset fp
  | .coreStore core addr width value short ue meet host upset => Sys2Proof.Machine.execCoreStore core addr width value short ue meet host s upset
  | .amo core op addr width value rd ue upset => Sys2Proof.Machine.execAmo core op addr width value rd s ue upset
  | .lr core addr width rd ue upset => Sys2Proof.Machine.execLr core addr width rd s ue upset
  | .sc core addr width value rd ue upset => Sys2Proof.Machine.execSc core addr width value rd s ue upset
  | .fenceI core => Sys2Proof.Machine.execFenceI core s
  | .wfi core => Sys2Proof.Machine.execWfi core s
  | .coreHalt core => Sys2Proof.Machine.execCoreHalt core s
  | .coreDormant core => Sys2Proof.Machine.execCoreDormant core s
  | .coreWake core => Sys2Proof.Machine.execCoreWake core s
  | .msg req target source => Sys2Proof.Machine.execMsg req target source s
  | .raise req source => Sys2Proof.Machine.execRaise req source s
  | .claim req bank => Sys2Proof.Machine.execClaim req bank s
  | .eoi req bank id => Sys2Proof.Machine.execEoi req bank id s
  | .srcCfgWrite req value => Sys2Proof.Machine.execSrcCfgWrite req value s
  | .srcClear req => Sys2Proof.Machine.execSrcClear req s
  | .globalDisWrite req on => Sys2Proof.Machine.execGlobalDisWrite req on s
  | .timecmpWrite req bank value => Sys2Proof.Machine.execTimecmpWrite req bank value s
  | .timer core => Sys2Proof.Machine.execTimer core s
  | .redirPop req => Sys2Proof.Machine.execRedirPop req s
  | .startSpare req phys logical => Sys2Proof.Machine.execStartSpare req phys logical s
  | .stopRetire req phys => Sys2Proof.Machine.execStopRetire req phys s
  | .retireNoticeExpiry core => Sys2Proof.Machine.execRetireNoticeExpiry core s
  | .wipe req => Sys2Proof.Machine.execWipe req s
  | .wipeEnd readsZero => Sys2Proof.Machine.execWipeEnd readsZero s
  | .meshFlitError stop header victim corrected work => Sys2Proof.Machine.execMeshFlitError stop header victim s corrected work
  | .dramRequestIssue ch => Sys2Proof.Machine.execDramRequestIssue ch s
  | .classInterval ch => Sys2Proof.Machine.execClassInterval ch s
  | .refreshDue ch rank bank => Sys2Proof.Machine.execRefreshDue ch rank bank s
  | .mr4Read package rank rate => Sys2Proof.Machine.execMr4Read package rank rate s
  | .stackTemperature stack temp => Sys2Proof.Machine.execStackTemperature stack temp s
  | .powerDownEntry ch rank => Sys2Proof.Machine.execPowerDownEntry ch rank s
  | .selfRefreshEntry ch => Sys2Proof.Machine.execSelfRefreshEntry ch s
  | .dqsOscillatorRead package channel => Sys2Proof.Machine.execDqsOscillatorRead package channel s
  | .channelRetrainEnd stack channel rdMargin wrMargin => Sys2Proof.Machine.execChannelRetrainEnd stack channel rdMargin wrMargin s
  | .scrubRead place upset laterWrite collides => Sys2Proof.Machine.execScrubRead place upset laterWrite s collides
  | .bucketLeak kind index => Sys2Proof.Machine.execBucketLeak kind index s
  | .bktPop req => Sys2Proof.Machine.execBktPop req s
  | .marchStart req => Sys2Proof.Machine.execMarchStart req s
  | .marchStop req => Sys2Proof.Machine.execMarchStop req s
  | .marchEnd fails disturbed => Sys2Proof.Machine.execMarchEnd fails disturbed s
  | .cooperTrigger unit counted => Sys2Proof.Machine.execCooperTrigger unit s counted
  | .cooperAction acknowledged host => Sys2Proof.Machine.execCooperAction acknowledged s host
  | .retireReq req row cluster => Sys2Proof.Machine.execRetireReq req row cluster s
  | .remapCopyStep upset => Sys2Proof.Machine.execRemapCopyStep upset s
  | .inputSample voltDv ampDa watts => Sys2Proof.Machine.execInputSample voltDv ampDa watts s
  | .heatEvaluation temps => Sys2Proof.Machine.execHeatEvaluation temps s
  | .trip cause => Sys2Proof.Machine.execTrip cause s
  | .railTimeout rail => Sys2Proof.Machine.execRailTimeout rail s
  | .refLost => Sys2Proof.Machine.execRefLost s
  | .refRestored => Sys2Proof.Machine.execRefRestored s
  | .dormantEnter engine index => Sys2Proof.Machine.execDormantEnter engine index s
  | .dormantWake engine index => Sys2Proof.Machine.execDormantWake engine index s
  | .coldStart ppr fails untrained absent => Sys2Proof.Machine.execColdStart ppr fails untrained s absent
  | .inputRemoved => Sys2Proof.Machine.execInputRemoved s
  | .bootStage found object => Sys2Proof.Machine.execBootStage found object s
  | .vatReady => Sys2Proof.Machine.execVatReady s
  | .packageInitDone package => Sys2Proof.Machine.execPackageInitDone package s
  | .fwReady req => Sys2Proof.Machine.execFwReady req s
  | .warm req => Sys2Proof.Machine.execWarm req s
  | .warmStartQuiesced => Sys2Proof.Machine.execWarmStartQuiesced s
  | .run req object => Sys2Proof.Machine.execRun req object s
  | .program req object => Sys2Proof.Machine.execProgram req object s
  | .vintage req object => Sys2Proof.Machine.execVintage req object s
  | .lifeCycle req object => Sys2Proof.Machine.execLifeCycle req object s
  | .debugUnlock req object => Sys2Proof.Machine.execDebugUnlock req object s
  | .rcvCommandEnd flashOk => Sys2Proof.Machine.execRcvCommandEnd flashOk s
  | .tamper sensor => Sys2Proof.Machine.execTamper sensor s
  | .debugInstruction op => Sys2Proof.Machine.execDebugInstruction op s
  | .entdaa dynamicAddr => Sys2Proof.Machine.execEntdaa dynamicAddr s
  | .setdasa dynamicAddr addr => Sys2Proof.Machine.execSetdasa dynamicAddr s addr
  | .rstdaa => Sys2Proof.Machine.execRstdaa s
  | .getpid addr => Sys2Proof.Machine.execGetpid s addr
  | .getbcr addr => Sys2Proof.Machine.execGetbcr s addr
  | .getdcr addr => Sys2Proof.Machine.execGetdcr s addr
  | .getstatus addr => Sys2Proof.Machine.execGetstatus s addr
  | .enec addr => Sys2Proof.Machine.execEnec s addr
  | .disec addr => Sys2Proof.Machine.execDisec s addr
  | .privateWrite bytes addr => Sys2Proof.Machine.execPrivateWrite bytes s addr
  | .privateRead count addr => Sys2Proof.Machine.execPrivateRead count s addr
  | .warmReset => Sys2Proof.Machine.execWarmReset s
  | .armPowerCycle => Sys2Proof.Machine.execArmPowerCycle s
  | .powerCycle => Sys2Proof.Machine.execPowerCycle s
  | .locate => Sys2Proof.Machine.execLocate s
  | .managementReservedCommand code => Sys2Proof.Machine.execManagementReservedCommand code s
  | .leak sensed => Sys2Proof.Machine.execLeak sensed s
  | .publicationFold region => Sys2Proof.Machine.execPublicationFold region s
  | .instructionFetch core addr ue upset ueTail => Sys2Proof.Machine.execInstructionFetch core addr ue s upset ueTail
  | .bar2BadAccess p offset width write => Sys2Proof.Machine.execBar2BadAccess p offset width write s
  | .configurationWrite p field value => Sys2Proof.Machine.execConfigurationWrite p field value s

end Sys2Proof.Machine
end

