-- ==== Sys2Proof/Machine/Step.lean ====
section
/-! DEFINITION. One step: the command at the front of the queue runs on the state with the queue's rest; with an empty queue, a command that had to wait for its turn and whose turn has come is carried out (log entry 149), or else a nanosecond of the time base passes (log entry 1). -/

namespace Sys2Proof.Machine

/-- A step on an empty queue: the first command whose turn has come, or else a nanosecond passes. -/
def State.idle (s : State) : Host.Outcome State Fault Refusal :=
  match s.nextDue with
  | none => .next { s with now := s.now + 1 }
  | some c => match exec c (s.takeDue c) with
    | .next t => .next (t.afterDue c)
    | other => other

/-- The block takes the command at the front of its queue; on an empty queue it idles. -/
def step (s : State) : Host.Outcome State Fault Refusal :=
  match s.pending with
  | [] => s.idle
  | c :: rest => exec c { s with pending := rest }

/-- The state with the command that a word spells put at the front of its queue; unchanged where the word spells none. -/
def State.withFetchWord (s : State) (nbits w : Nat) : State :=
  match decodeTableWord nbits w with
  | some c => { s with pending := c :: s.pending }
  | none => s

end Sys2Proof.Machine
end

