-- ==== Sys2Proof/Safety.lean ====
section
/-! DEFINITION. The terms in which claims about the block are made: who is admitted to a register, which components of the state a command may change, and what the one-time-programmable memory keeps for good. -/

namespace Sys2Proof.Machine

/-! ### Access -/

/-- A requester is there to act, is not refused for lack of a secure stream, and has nothing waiting before it (R242, R246, R254, R288). -/
def State.acting (s : State) (req : Requester) : Bool := s.present req && !(s.reqIdeRefused req) && s.atTurn req

/-- A requester that may act sees the register (R410, R411). -/
def State.admits (s : State) (req : Requester) (page off : Nat) : Bool := s.acting req && s.sees req page off

/-- An admitted requester reaches the register: of the queue window's header only the full set does (chapter 10). What it asks for is carried out in s.touch page: an access to a TNS, CLS or DEN page wakes its island first (R362). -/
def State.reached (s : State) (req : Requester) (page off : Nat) : Bool := s.admits req page off && s.reaches req page off

/-- A requester is admitted to a register of a page whose access wakes no island and that lies outside the queue window's header: reads and writes reach it as they stand (R362, chapter 10). -/
def State.direct (s : State) (req : Requester) (page off : Nat) : Bool :=
  s.admits req page off && s.reaches req page off
    && !(decide (pageClass page = some .tns) || decide (pageClass page = some .cls) || decide (pageClass page = some .den))

/-! ### Fields -/

/-- The fields of a register word lie within it and apart from each other. -/
abbrev fieldsApart (rows : List Row) : Prop :=
  (∀ r ∈ rows, r.lo + r.width ≤ 32) ∧ rows.Pairwise (fun a b => a.lo + a.width ≤ b.lo ∨ b.lo + b.width ≤ a.lo)

/-- A field that a plain write sets: RW, RWS, or held for each requester (R5, R409). -/
def Row.plainWrite (r : Row) : Bool := decide (r.acc = .rw ∨ r.acc = .rws ∨ r.acc = .sel)

/-- The value that a plain write of a field sets: the staged value of an RWS field, the requester's own of a selection, else the live value (R5, R405, R409). -/
def State.fieldValue (s : State) (req : Requester) (page off : Nat) (r : Row) : Nat :=
  match r.acc with
  | .rws => bits (s.stagedWord page off) r.lo r.width
  | .sel => bits (s.sel req page off) r.lo r.width
  | _ => s.field page off r.lo r.width

/-- An error of a page's first four bits is recorded in a state: its bit of ERR_STATUS is set, and ERR_INFO names the offset, the requester and the KIND (R402, R403). On page 0x0C1, whose own interrupt may set further bits, and elsewhere exactly, no other bit has changed since s. -/
def State.recorded (s t : State) (page kind off : Nat) (req : Requester) : Prop :=
  (t.word page 0x018).testBit kind = true ∧ (page ≠ 0x0C1 → t.word page 0x018 = s.word page 0x018 ||| 2 ^ kind)
    ∧ t.word page 0x024 = off + reqCode req * 2 ^ 12 + kind * 2 ^ 16

/-! ### Waiting requests -/

/-- No request waits, no answer to a snoop is held back, and no write to a draft waits for the line of its home: there is nothing to look at again, and no port's request stands behind another. -/
def State.calm (s : State) : Prop := s.dir.waiting = [] ∧ (∀ n ∈ s.dir.snoops, n.answer = none) ∧ ∀ p, s.draftPending p = false

/-- Nothing of a port waits: its next request is looked at when it arrives (R242). -/
def State.clearOf (s : State) (p : Port) : Prop := (∀ w ∈ s.dir.waiting, w.2.port ≠ p.val) ∧ s.draftPending p.val = false

/-- Nor does a completion entry wait for its line, nor a copy of the cooper for its queue. -/
def State.atRest (s : State) : Prop := s.calm ∧ (∀ e ∈ s.qmg.queues, e.2.held = []) ∧ s.igr.copies = 0

/-- No surrogate call that runs belongs to an entry (R225). -/
def State.servesNot (s : State) (q seq : Nat) : Prop := ∀ m ∈ s.svc.models, ∀ r, m.2.running = some r → ¬(r.1 = q ∧ r.2.1 = seq)

/-! ### Frames -/

/-- The components of State. -/
inductive Part where
  | order | now | reg | rgn | mem | rck | prs | dir | edn | ports | qmg | lst | den | svc | cores | icu | sto | dram
  | igr | tns | pwr | tru | mod | out | freeCtr | pending
deriving DecidableEq, Repr, Inhabited

/-- A component of one state equals that of another. -/
def Part.same : Part → State → State → Prop
  | .order, s, t => t.order = s.order
  | .now, s, t => t.now = s.now
  | .reg, s, t => t.reg = s.reg
  | .rgn, s, t => t.rgn = s.rgn
  | .mem, s, t => t.mem = s.mem
  | .rck, s, t => t.rck = s.rck
  | .prs, s, t => t.prs = s.prs
  | .dir, s, t => t.dir = s.dir
  | .edn, s, t => t.edn = s.edn
  | .ports, s, t => t.ports = s.ports
  | .qmg, s, t => t.qmg = s.qmg
  | .lst, s, t => t.lst = s.lst
  | .den, s, t => t.den = s.den
  | .svc, s, t => t.svc = s.svc
  | .cores, s, t => t.cores = s.cores
  | .icu, s, t => t.icu = s.icu
  | .sto, s, t => t.sto = s.sto
  | .dram, s, t => t.dram = s.dram
  | .igr, s, t => t.igr = s.igr
  | .tns, s, t => t.tns = s.tns
  | .pwr, s, t => t.pwr = s.pwr
  | .tru, s, t => t.tru = s.tru
  | .mod, s, t => t.mod = s.mod
  | .out, s, t => t.out = s.out
  | .freeCtr, s, t => t.freeCtr = s.freeCtr
  | .pending, s, t => t.pending = s.pending

/-- The state t differs from s in the listed components at most. -/
def State.changesOnly (s t : State) (parts : List Part) : Prop := ∀ q : Part, q ∉ parts → q.same s t

/-- What raising an interrupt, a message or an error flag may touch: register words, the interrupt controller, the cores it wakes, the ports' pending bits and the links. -/
def signals : List Part := [.reg, .icu, .cores, .ports, .out]

/-- What an access to a line may touch beside the line: the tile's heat and the caches of map entries, a move of the tile, the queues of the memory controllers with a command on a bus that wakes a channel, event counters, and the count of free values, since which entry a full cache gives up is left open. -/
def lineTraffic : List Part := [.reg, .mem, .rck, .dram, .out, .freeCtr]

/-- The bytes and the poison of every slot and sector are as before. -/
def State.keepsBytes (s t : State) : Prop := t.mem.vat = s.mem.vat ∧ t.mem.vatPoison = s.mem.vatPoison ∧ t.mem.cellar = s.mem.cellar

/-- Every register word of a page is as before, but for those whose offset is listed. -/
def State.keepsWords (s t : State) (page : Nat) (but : List Nat) : Prop := ∀ off, off < 4096 → off ∉ but → t.word page off = s.word page off

/-- Every register word is as before, but for those of one page whose offset is listed, for page 0x0C1's, whose counters and log an interrupt moves, and for the ports' pending INTx bits (R252, R296). -/
def State.keepsRegs (s t : State) (page : Nat) (but : List Nat) : Prop :=
  ∀ p off, p < 0x600 → off < 4096 → p ≠ 0x0C1 → (p = page → off ∉ but) → ¬(8 ≤ p ∧ p < 14 ∧ 0x180 ≤ off ∧ off < 0x280) → t.word p off = s.word p off

/-! ### Commits -/

/-- A rule of the owning chapter bars the value that a commit of the word w would give a field: RANGE_GIB changed while a region is valid or its space is being freed, or while the map would grow over a slot of a streaming window (R26, R48); PRIV taken from a writer of a read-shared region (R31); LIMIT_GIB below what is pinned (R34); a watermark pair out of order (R66); a host window that holds tiles changed (R73); the power steps out of order (R363); LIMIT below the draft tiles in use (R131); LIMIT_MIB below the windows held (R180). -/
def State.commitBarred (s : State) (page off w : Nat) (r : Row) : Prop :=
  let new := bits w r.lo r.width
  let old := s.field page off r.lo r.width
  (page = 0x012 ∧ off = 0x100 ∧ ((new ≠ old ∧ (0 < s.validRegions ∨ 0 < s.freeingRegions)) ∨
      (new ≠ old ∧ ∃ e ∈ s.mem.slotUse, e.2 = .window ∧ e.1 < 160 * new))) ∨
  (page = 0x012 ∧ off = 0x104 ∧ ∃ e ∈ s.rgn.entries, e.2.valid = true ∧ e.2.kind = 3 ∧
      ∃ p, p < 6 ∧ e.2.writeMask.getLsbD p = true ∧ old.testBit p = true ∧ new.testBit p = false) ∨
  (page = 0x012 ∧ off = 0x108 ∧ 1024 * new < s.pinMib) ∨
  (page = 0x018 ∧ off = 0x104 ∧ bits w 0 8 ≤ bits w 8 8) ∨ (page = 0x018 ∧ off = 0x10C ∧ bits w 8 8 ≤ bits w 0 8) ∨
  (page = 0x018 ∧ ∃ p, p < 6 ∧ off ∈ [0x140 + 0x10 * p, 0x144 + 0x10 * p, 0x148 + 0x10 * p] ∧ w ≠ s.word page off ∧ s.hostTiles p ≠ []) ∨
  (page = 0x001 ∧ off = 0x110 ∧ ¬(bits w 0 8 < bits w 8 8 ∧ bits w 8 8 < bits w 16 8 ∧ bits w 16 8 ≤ 94)) ∨
  (page = 0x011 ∧ off = 0x104 ∧ new < s.draftsUsed) ∨ (page = 0x090 ∧ off = 0x108 ∧ new < s.windowMib)

/-- A commit of a page goes on to work of its own when it has taken effect: a port's allowances, a data engine's admission, the racking unit's watermarks and windows, and the range. -/
def commitActs (page : Nat) (c : Taken) : Bool :=
  decide (pageClass page = some .prt ∨ pageClass page = some .den ∨ page = 0x018)
    || (decide (page = 0x012) && c.vals.any (fun e => decide (e.1 % 4096 = 0x100)))

/-! ### One-time-programmable memory (R371, R379, R382, R383) -/

/-- Each bit that was written stays written. -/
def marksKept (a b : BitVec 8) : Prop := ∀ i : Nat, a.getLsbD i = true → b.getLsbD i = true

/-- A vintage slot once written, whole or torn, is never written again. -/
def slotsKept (a b : Vector (List Byte) 4) : Prop := ∀ i : Fin 4, otpWritten a[i] = true → b[i] = a[i]

/-- What OTP holds in s it still holds in t: the ordering code, the serial number, the ROM digest and the unique secret as made, every life-cycle mark that is set, and every vintage slot that is written. -/
def OtpKept (s t : State) : Prop :=
  t.order = s.order ∧ t.tru.serial = s.tru.serial ∧ t.tru.romDigest = s.tru.romDigest ∧ t.tru.uds = s.tru.uds
    ∧ marksKept s.tru.lc t.tru.lc ∧ slotsKept s.tru.slots t.tru.slots

/-- What the region unit accepts (R31, R33, R34, R36): a run of whole 2 MiB units that is not empty, writers among the readers, one reader of a private region, and legal codes. -/
def Region.sound (r : Region) : Bool :=
  decide (r.base % 2 ^ 21 = 0) && decide (r.size % 2 ^ 21 = 0) && decide (r.size ≠ 0)
    && decide (r.writeMask &&& ~~~r.readMask = 0#6)
    && (decide (r.kind ≠ 0) || decide (((List.range 6).filter (fun p => r.readMask.getLsbD p)).length = 1))
    && decide (r.kind ≤ 3) && decide (r.policy ≤ 4) && decide (r.hint ≤ 4)

/-- The region table is sound: each valid entry is, the writers of each read-shared one are among the privileged ports (R31), and no two valid entries overlap. -/
def RegionsSound (s : State) : Prop :=
  (∀ i, (s.region i).valid = true → (s.region i).sound = true) ∧
  (∀ i, (s.region i).valid = true → (s.region i).kind = 3 → (s.region i).writeMask &&& ~~~(BitVec.ofNat 6 (s.field 0x012 0x104 0 6)) = 0#6) ∧
  ∀ i j, i ≠ j → (s.region i).valid = true → (s.region j).valid = true →
    runsMeet (s.region i).base (s.region i).size (s.region j).base (s.region j).size = false

/-- The state's region table is the same but for entry i. -/
def State.regionsBut (s t : State) (i : Nat) : Prop := ∀ j, j ≠ i → t.region j = s.region j

/-- The map entries of the line at a, and the line itself where its tile is in the vat, lie in vat channels in service (R350). -/
def State.inService (s : State) (a : Nat) : Prop :=
  let out (place : Nat × Nat) : Bool := s.lineOut place.1 place.2
  out (s.tmapPlace (tileOf a)) = false ∧ out (s.cmapPlace (caskOf a)) = false
    ∧ (s.home (tileOf a) = 1 → s.lineOut (s.loc (tileOf a)) (lineOf a) = false)

/-- No channel of the vat is out of service: no map entry is lost for want of its channel (R50, R350). -/
abbrev State.vatWhole (s : State) : Prop := s.mem.channelOut = []

/-- No flit of a request of the port is hit on the mesh (R316). -/
def State.meshSpares (s : State) (p : Port) : Prop := ∀ e ∈ s.dir.meshHits, e.1 ≠ p.val

/-- A slot for a use is free wherever the block begins to look for one (R45, R54). -/
def State.slotFor (s : State) (u : SlotUse) : Prop := ∀ n, (({ s with freeCtr := n }).takeSlot u).isSome = true

/-- A CXL.mem request of a port at a host address is taken up at once and lands at the unified address a through decoder d: the port takes requests, no IDE rule refuses it nor does a key-set switch await it, none of the port's requests waits, and no class-0 allowance regulates it, and no flit of it is hit on the mesh (R27, R242, R253, R254, R257, R316). -/
def State.opens (s : State) (p : Port) (haddr : Nat) (d : Decoder) (a : Nat) : Prop :=
  s.portTakes p = true ∧ s.ideRefuses p true = false ∧ sget none (s.port p).ideGo 1 = none ∧ s.clearOf p ∧ s.meshSpares p
    ∧ s.decodeHost p haddr = some (d, a) ∧ a % 64 = 0 ∧ a < 2 ^ 64 ∧ s.classOf a ≠ 0

/-- A checked request of a port at a host address lands at the unified address a of region k, with the right it needs, on channels in service. -/
def State.lands (s : State) (p : Port) (haddr a : Nat) (k : Region) (write : Bool) : Prop :=
  s.inService a ∧ ∃ d g, s.opens p haddr d a ∧ s.refusal p.val write (d.hdmH || !(s.port p).biEnable) a = none ∧ s.findRegion a = some (g, k)

/-- 64 zero bytes. -/
def zeroLine : List Byte := List.replicate 64 0#8

/-- Every vat line but one is as before. -/
def State.vatBut (s t : State) (slot i : Nat) : Prop :=
  ∀ x j, j < 256 → (x ≠ slot ∨ j ≠ i) → t.vatLine x j = s.vatLine x j

/-- No line is held by a port, none has a snoop in flight, and nothing waits for one or was let pass under an entry that has changed, and no flit of engine work is hit: an access within the block waits for nobody, is checked as the table stands and comes unhurt (R37, R116, R118, R316). -/
def State.unheld (s : State) : Prop := s.dir.entries = [] ∧ s.dir.snoops = [] ∧ (∀ w ∈ s.dir.waiting, waitedLine w = none) ∧ s.dir.passed = [] ∧ s.dir.meshData = []

/-- The line at unified address a as its vat slot holds it, with its poison mark. -/
def State.lineAt (s : State) (a : Nat) : List Byte × Bool := s.vatLine (s.loc (tileOf a)) (lineOf a)

/-- The line at a is one that an actor may read, of a region that is not published, at home in the vat on a channel in service. -/
def State.readable (s : State) (actor a : Nat) : Prop :=
  a % 64 = 0 ∧ s.refusal actor false false a = none ∧ (∀ g r, s.findRegion a = some (g, r) → r.kind ≠ 2) ∧ s.home (tileOf a) = 1
    ∧ s.inService a

/-- The line at a is one that an actor may write, of a region that is not published, at home in the vat on a channel in service. -/
def State.writable (s : State) (actor a : Nat) : Prop :=
  a % 64 = 0 ∧ s.refusal actor true false a = none ∧ (∀ g r, s.findRegion a = some (g, r) → r.kind ≠ 2) ∧ s.home (tileOf a) = 1
    ∧ s.inService a

/-- Every job but one is as before. -/
def State.jobsBut (s t : State) (id : Nat) : Prop := ∀ i, i ≠ id → t.job i = s.job i

/-- A service call ends: Shombe holds it no longer, and its entry, where it has not ended, ends with status 0, the result and the value. -/
def State.callEnds (s t : State) (q seq result value : Nat) : Prop :=
  (∀ c ∈ t.svc.calls, ¬(c.queue = q ∧ c.seq = seq))
    ∧ ∀ e, s.entry q seq = some e → e.opcode = 0x50 → e.stage ≠ 3 →
        ∃ x, t.entry q seq = some x ∧ x.stage = 3 ∧ x.status = 0 ∧ x.v0 = result % 2 ^ 32 ∧ x.v1 = value % 2 ^ 32

/-- Every physical core but one is as before. -/
def State.coresBut (s t : State) (c : Nat) : Prop := ∀ d, d < 18 → d ≠ c → t.core d = s.core d

/-- Every byte of the on-die stores is as before, but for n bytes at a place (R302). -/
def State.storesBut (s t : State) (x : Spot) (n : Nat) : Prop :=
  ∀ b a, b < 4 → (b ≠ x.store ∨ a < x.addr ∨ x.addr + n ≤ a) → (t.storeMem b).rd a = (s.storeMem b).rd a

/-- A core has taken a trap: its cause and value show, mepc holds the pc of the instruction, the core goes on in machine mode at the base of mtvec, its registers are as before and its reservation has ended (R290, R309). -/
def State.trapped (s t : State) (c cause tval : Nat) : Prop :=
  (t.core c).mcause = BitVec.ofNat 64 cause ∧ (t.core c).mtval = BitVec.ofNat 64 tval ∧ (t.core c).mepc = (s.core c).pc
    ∧ (t.core c).pc = (s.core c).mtvec &&& ~~~3#64 ∧ (t.core c).machine = true ∧ (t.core c).reservation = none ∧ (t.core c).x = (s.core c).x
    ∧ t.sto = s.sto

/-- A core's instruction has ended: the pc has passed it, minstret has counted it, and no integer register has changed but rd, which holds v; register 0 takes no value (R284). -/
def State.finished (s t : State) (c : Nat) (rd : Option (Fin 32 × DWord)) (short : Bool) : Prop :=
  (t.core c).pc = (s.core c).pc + (if short then 2#64 else 4#64) ∧ (t.core c).minstret = (s.core c).minstret + 1#64
    ∧ ∀ r : Fin 32, (t.core c).x[r] = (match rd with | some (d, v) => if r = d ∧ r ≠ 0 then v else (s.core c).x[r] | none => (s.core c).x[r])

/-- A core has started (R288): running in machine mode at an entry, with its logical and physical numbers and the hand-off block's address in a0, a2 and a1, every other integer register zero, no interrupt enabled, and an empty instruction cache. -/
def State.coreStarted (t : State) (c l entry : Nat) : Prop :=
  (t.core c).state = 1 ∧ (t.core c).logical = l ∧ (t.core c).pc = BitVec.ofNat 64 entry ∧ (t.core c).machine = true ∧ (t.core c).mie = 0#64
    ∧ (t.core c).mstatus = 0#64 ∧ (t.core c).icache = [] ∧ ∀ r : Fin 32, (t.core c).x[r] =
      (if r = 10 then BitVec.ofNat 64 l else if r = 11 then 0x10BFF000#64 else if r = 12 then BitVec.ofNat 64 c else 0#64)

/-- A core has been retired (R291 to R293): it is stopped, its logical number, where it held it, is vacant or that of the idle spare which the repair log promises, and CORE_LOST of it has been raised once. -/
def State.retiredCore (s t : State) (c : Nat) : Prop :=
  let l := (s.core c).logical
  let n := (s.src (3872 + c)).count
  (t.core c).state = 4 ∧ (t.core c).reservation = none ∧ (s.physOf l = c → t.active l = (s.active l && (s.promisedSpare c).isSome) ∧ ∀ p, s.active l = true → s.promisedSpare c = some p → t.physOf l = p)
    ∧ (t.src (3872 + c)).count = (if 255 ≤ n then n else n + 1)

/-- The rails but VSTBY are down and what they fed is lost (R366, R416, R419): the module is off, memory holds nothing, no region is valid and no core runs; the ordering code, the time base and the repair log stay. -/
def State.railsFell (s t : State) : Prop :=
  t.pwr.off = true ∧ t.pwr.starting = 0 ∧ t.mem = {} ∧ t.rgn = {} ∧ t.sto = {} ∧ t.order = s.order ∧ t.now = s.now ∧ t.igr.log = s.igr.log ∧ t.pending = s.pending

end Sys2Proof.Machine
end

