-- ==== Sys2Proof/Certificates/Slice0/Obligations.lean ====
section
/-! DEFINITION. What is claimed of the block: one proposition per obligation of OBLIGATIONS.json. -/

open Sys2Proof Sys2Proof.Machine

/-- For every command and state, the step of the state with that command at the front of its queue is the command's effect on the state with the queue's rest. With the queue empty, the step carries out the first waiting command whose turn has come, as its exec has it, and lets what waited behind it go on (log entry 149); where no command waits for its turn, it answers a next state that differs from the present one in the time base alone, which has moved by one nanosecond: that an idle step is one nanosecond is the model's choice (log entry 1). -/
def Obligations.StepRunsTheFrontCommand : Prop :=
  (∀ (c : Instr) (rest : List Instr) (s : State), step { s with pending := c :: rest } = exec c { s with pending := rest }) ∧
  (∀ s : State, s.pending = [] → s.nextDue = none → ∃ t, step s = .next t ∧ t.now = s.now + 1 ∧ s.changesOnly t [.now]) ∧
  ∀ (s t : State) (c : Instr), s.pending = [] → s.nextDue = some c → exec c (s.takeDue c) = .next t → step s = .next (t.afterDue c)

/-- Every command in every state answers a next state: no command of the block ends in a fault or a refusal. -/
def Obligations.EveryCommandCompletes : Prop := ∀ (c : Instr) (s : State), ∃ t, exec c s = .next t

/-- REGISTER_WRITE by a requester that reaches the register. Of a register word of plain fields: every field that a write sets takes the value written where that is legal (RW its live value, RWS its staged value, a selection the requester's own) and keeps its value where it is reserved; every field that a write does not set keeps its value. Where every value is legal, only registers change, and no live word but this one and no staged word but this one does; a word without RW fields keeps its live value. (In a timer bank of the interrupt controller a core may then be told again of a deliverable source.) A reserved value is recorded in ERR_INFO with KIND CONFIG, the offset and the requester, and in the CONFIG bit of ERR_STATUS, and only the recording and the fields with legal values change. Of a word that acts when written: its rule's effect. A register and bits that name a command of its page: that command's effect. Of 64 bits over two registers that are no unstaged pair: the two halves in turn, the lower offset taking bits [31:0]. -/
def Obligations.WriteOfStagedFieldOrConfigError : Prop :=
  (∀ (s : State) (req : Requester) (page off : Nat) (v : DWord),
    off < 4096 → off % 4 = 0 → s.reached req page off = true → (s.touch page).named req page off (v.toNat % 2 ^ 32) = none →
    (s.touch page).writeCommand req page off (v.toNat % 2 ^ 32) = none → unstaged page off = none → fieldsApart (wordRows s.order page off) →
    let u := s.touch page
    let rows := wordRows s.order page off
    let f (r : Row) := bits v.toNat r.lo r.width
    ∃ t, exec (.registerWrite req page off false v) s = .next t ∧
      (∀ r ∈ rows,
        t.fieldValue req page off r = (if r.plainWrite && r.takes (f r) then f r else u.fieldValue req page off r)) ∧
      ((∀ r ∈ rows, r.plainWrite = true → r.takes (f r) = true) →
        (pageClass page ≠ some .icuBank → u.changesOnly t [.reg] ∧ t.reg.taken = u.reg.taken
          ∧ (∀ p o, p < 0x600 → o < 4096 → (p ≠ page ∨ o ≠ off) → t.word p o = u.word p o ∧ t.stagedWord p o = u.stagedWord p o)
          ∧ ((∀ r ∈ rows, r.acc ≠ .rw) → t.reg.live = u.reg.live) ∧ ((∀ r ∈ rows, r.acc ≠ .rws) → t.reg.staged = u.reg.staged)
          ∧ ((∀ r ∈ rows, r.acc ≠ .sel) → t.reg.sel = u.reg.sel)) ∧
        (pageClass page = some .icuBank → u.changesOnly t [.reg, .cores, .out])) ∧
      ((∃ r ∈ rows, r.plainWrite = true ∧ r.takes (f r) = false) → 0x100 ≤ off → pageClass page ≠ some .icuBank →
        u.recorded t (errPage page) 0 off req ∧ u.changesOnly t signals)) ∧
  (∀ (s t : State) (req : Requester) (page off : Nat) (v : DWord), off < 4096 → off % 4 = 0 → s.reached req page off = true →
    (s.touch page).named req page off (v.toNat % 2 ^ 32) = none →
    (s.touch page).writeCommand req page off (v.toNat % 2 ^ 32) = some t → exec (.registerWrite req page off false v) s = .next t) ∧
  (∀ (s : State) (req : Requester) (page off : Nat) (v : DWord) (r : Result), off < 4096 → off % 4 = 0 → s.reached req page off = true →
    (s.touch page).named req page off (v.toNat % 2 ^ 32) = some r → ∃ t, r = .next t ∧ exec (.registerWrite req page off false v) s = .next t) ∧
  ∀ (s u : State) (req : Requester) (page off : Nat) (v : DWord), off < 4096 → off % 8 = 0 → s.reached req page off = true → unstaged page off = none →
    exec (.registerWrite req page off false v) s = .next u → u.reached req page (off + 4) = true → u.touch page = u →
    exec (.registerWrite req page off true v) s = exec (.registerWrite req page (off + 4) false (v >>> 32)) u

/-- An access of a width or alignment other than 32 or 64 bits naturally aligned, BAR0_BAD_ACCESS or a REGISTER_WRITE at an offset that its width does not divide, by a requester that may act. At a page it sees: the ACCESS bit of the page's ERR_STATUS is set (page 0x0B1 records in page 0x0B0) and ERR_INFO names the offset, the requester and KIND ACCESS. A read answers zero, a write answers nothing, and neither has an effect but the recording: no other register word, no staged value and no selection changes. Where the page is absent, or its requester does not see it, PageHeaderCommandsHaveTheirEffect says what happens. -/
def Obligations.BadAccessReadsZeroAndIsRecorded : Prop :=
  ∀ (s : State) (req : Requester) (page off width : Nat), off < 4096 → s.admits req page off = true →
    (goodAccess off width = false →
      ∃ t u, exec (.bar0BadAccess req page off width false) s = .next t ∧ exec (.bar0BadAccess req page off width true) s = .next u
        ∧ t = u.emit (.readData req 0#64)
        ∧ s.recorded u (errPage page) 1 off req ∧ s.changesOnly u signals ∧ s.keepsRegs u (errPage page) [0x018, 0x020, 0x024]
        ∧ u.reg.staged = s.reg.staged ∧ u.reg.taken = s.reg.taken ∧ u.reg.sel = s.reg.sel) ∧
    (∀ (wide : Bool) (v : DWord), goodAccess off (if wide then 8 else 4) = false →
      exec (.registerWrite req page off wide v) s = exec (.bar0BadAccess req page off (if wide then 8 else 4) true) s)

/-- LOW_HALF_READ by a requester that reaches the register, in the state in which the access has woken its island. Of the low half of a 64-bit RO register: it answers the low half and changes nothing but the latch and the link; whatever the register shows later, the same requester's next 32-bit read of the high half answers the half that was latched. A 64-bit read answers both halves and latches nothing. Of any other register, with no half latched for it: a 32-bit read answers the register, and where it is one of the queue window for a queue that is not open to its requester it records an access error of page 0x0B0; else only the link changes. A register that the requester does not reach reads zero. HALF_WRITE of the low half of an unstaged pair, with no half of it held and nothing against a write of it: no register takes a new live value and only the held half changes. In any later state that holds the same halves, in which the requester reaches the register and nothing stands against it, its HALF_WRITE of the high half makes the register the two halves written, without the bits that are reserved (the low 2 of CTL_SPARE_ENTRY, 6 of TRU_RCV_ADDR, 12 of a queue's bases), and no half of it is held any more. With another requester's half held, a low half replaces it and sets SKEW, and a high half joins the live low half, leaves the held half and sets SKEW; with no half held a high half joins the live low half. -/
def Obligations.RegisterHalvesAreTakenTogether : Prop :=
  (∀ (s : State) (req : Requester) (page off : Nat), off < 4096 → off % 4 = 0 → s.acting req = true →
    let u := s.touch page
    (s.reached req page off = true → wideRo page off = true → off + 4 < 4096 →
      ∃ t, exec (.lowHalfRead req page off) s = .next t ∧ u.changesOnly t [.reg, .out]
        ∧ t.out = s.out ++ [.readData req (BitVec.ofNat 64 (u.readVisible req page off))]
        ∧ t.reg.live = u.reg.live ∧ t.reg.staged = u.reg.staged ∧ t.reg.sel = u.reg.sel
        ∧ ∀ x : State, x.reg.latch = t.reg.latch → x.reached req page (off + 4) = true →
            ∃ w, exec (.lowHalfRead req page (off + 4)) x = .next w
              ∧ w.out = x.out ++ [.readData req (BitVec.ofNat 64 (u.readVisible req page (off + 4) % 2 ^ 32))]) ∧
    (s.reached req page off = true → wideRo page off = false → (∀ e ∈ s.reg.latch, e.1 ≠ latchKey req page (off - 4) ∨ off < 4) →
      (∃ t, exec (.lowHalfRead req page off) s = .next t ∧ t.out.getLast? = some (.readData req (BitVec.ofNat 64 (u.readVisible req page off)))) ∧
      ((page = 0x0B1 → s.windowOpen req = true) →
        exec (.lowHalfRead req page off) s = .next (u.emit (.readData req (BitVec.ofNat 64 (u.readVisible req page off)))))) ∧
    (s.reached req page off = true → off % 8 = 0 → (page = 0x0B1 → s.windowOpen req = true) →
      exec (.lowHalfRead req page off true) s
        = .next (u.emit (.readData req (BitVec.ofNat 64 (u.readVisible req page off + 2 ^ 32 * u.readVisible req page (off + 4)))))) ∧
    (s.reaches req page off = false → exec (.lowHalfRead req page off) s = .next (s.emit (.readData req 0#64)))) ∧
  (∀ (s : State) (req : Requester) (page lo : Nat) (a b : Word),
    lo < 4096 → lo % 8 = 0 → unstaged page lo = some lo → s.reached req page lo = true → s.pairBarred req page = none →
    (∀ h ∈ s.reg.half, h.1 ≠ s.pairKey req page lo) →
    let low := if page = 0x0C0 then 2 else if page = 0x003 then 6 else if page = 0x0B1 then 12 else 0
    (∃ t, exec (.halfWrite req page lo false a) s = .next t ∧ t.reg.live = s.reg.live ∧ t.reg.staged = s.reg.staged ∧ s.changesOnly t [.reg]
      ∧ t.reg.half = s.reg.half ++ [(s.pairKey req page lo, reqIndex req, a)]) ∧
    (∀ x : State, x.reg.half = s.reg.half ++ [(s.pairKey req page lo, reqIndex req, a)] → x.reached req page (lo + 4) = true →
      x.pairBarred req page = none → x.pairKey req page lo = s.pairKey req page lo →
      ∃ w, exec (.halfWrite req page lo true b) x = .next w ∧ w.reg.half = s.reg.half
        ∧ w.pairValue req page lo = (a.toNat + 2 ^ 32 * b.toNat) / 2 ^ low * 2 ^ low
        ∧ (page = 0x0B1 → x.changesOnly w [.reg, .qmg]) ∧ (page = 0x0C0 ∨ page = 0x003 → x.changesOnly w [.reg])
        ∧ (pageClass page = some .icuBank → x.changesOnly w [.reg, .icu, .cores, .out])) ∧
    (s.reached req page (lo + 4) = true →
      ∃ w, exec (.halfWrite req page lo true b) s = .next w ∧ w.reg.half = s.reg.half
        ∧ w.pairValue req page lo = (s.pairValue req page lo % 2 ^ 32 + 2 ^ 32 * b.toNat) / 2 ^ low * 2 ^ low)) ∧
  ∀ (s : State) (req : Requester) (page lo : Nat) (a b old : Word) (i : Nat),
    lo < 4096 → lo % 8 = 0 → unstaged page lo = some lo → s.reached req page lo = true → s.pairBarred req page = none →
    s.reg.half = [(s.pairKey req page lo, i, old)] → i ≠ reqIndex req →
    let low := if page = 0x0C0 then 2 else if page = 0x003 then 6 else if page = 0x0B1 then 12 else 0
    (∃ t, exec (.halfWrite req page lo false a) s = .next t ∧ t.reg.half = [(s.pairKey req page lo, reqIndex req, a)]
      ∧ s.recorded t (errPage page) 2 lo req ∧ s.changesOnly t signals) ∧
    (s.reached req page (lo + 4) = true →
      ∃ t, exec (.halfWrite req page lo true b) s = .next t ∧ t.reg.half = s.reg.half ∧ (t.word (errPage page) 0x018).testBit 2 = true
        ∧ t.pairValue req page lo = (s.pairValue req page lo % 2 ^ 32 + 2 ^ 32 * b.toNat) / 2 ^ low * 2 ^ low)

/-- By a requester that reaches the page header, on a page other than the queue window and page 0x0C1: ERR_STATUS_CLEAR with no bit rising clears just the W1C bits whose mask bit is set, and where none is left ERR_FIRST becomes zero, with VALID 0 (that it does is the model's reading, log entry 10); ERR_MASK_WRITE writes ERR_MASK and no other word, and where it unmasks no set bit nothing else changes; CNT_CLEAR makes the six event counters zero and keeps every other word of every page; STAGE_DISCARD makes every staged word of the page its live word and keeps the other pages' staged words. An access that R8 does not take, at an absent page by a requester of the full set, sets ACCESS in the PLT page's ERR_STATUS, ERR_INFO naming the offset and the requester, and changes only the recording (R402); at a page that its requester does not see, it records nothing (R258); either way a read answers zero. -/
def Obligations.PageHeaderCommandsHaveTheirEffect : Prop :=
  (∀ (s : State) (req : Requester) (page off width : Nat), off < 4096 → s.acting req = true → goodAccess off width = false →
    s.sees req page off = false →
    ∃ t u, exec (.bar0BadAccess req page off width false) s = .next t ∧ exec (.bar0BadAccess req page off width true) s = .next u
      ∧ t = u.emit (.readData req 0#64)
      ∧ (pageExists s.order page = false → s.fullSet req = true →
          s.recorded u 0x000 1 off req ∧ s.changesOnly u signals ∧ s.keepsRegs u 0x000 [0x018, 0x020, 0x024])
      ∧ (pageExists s.order page = true ∨ s.fullSet req = false → u = s)) ∧
  ∀ (s : State) (req : Requester) (page : Nat) (mask : Word), page ≠ 0x0B1 → page ≠ 0x0C1 →
    (s.direct req page 0x018 = true →
      ∃ t, exec (.errStatusClear req page mask 0#32) s = .next t ∧ s.changesOnly t [.reg, .mod, .out]
        ∧ (∀ i : Nat, i < 32 → (t.word page 0x018).testBit i
            = ((s.word page 0x018).testBit i && !(mask.toNat.testBit i && decide (i < 4 ∨ 8 ≤ i))))
        ∧ (t.word page 0x018 = 0 → t.word page 0x020 = 0)
        ∧ (∀ off, off < 4096 → off ≠ 0x018 → off ≠ 0x020 → t.word page off = s.word page off)) ∧
    (s.direct req page 0x01C = true →
      ∃ t, exec (.errMaskWrite req page mask) s = .next t ∧ t.word page 0x01C = mask.toNat ∧ s.changesOnly t signals
        ∧ s.keepsRegs t page [0x01C]
        ∧ ((∀ i : Nat, (s.word page 0x018).testBit i = true → (s.word page 0x01C).testBit i = true → mask.toNat.testBit i = true) →
            s.changesOnly t [.reg] ∧ ∀ p off, p < 0x600 → off < 4096 → (p ≠ page ∨ off ≠ 0x01C) → t.word p off = s.word p off)) ∧
    (s.direct req page 0x008 = true →
      (∃ t, exec (.cntClear req page) s = .next t ∧ s.changesOnly t [.reg]
        ∧ (∀ i, i < 6 → t.word page (0x028 + 4 * i) = 0)
        ∧ (∀ p off, p < 0x600 → off < 4096 → (p ≠ page ∨ off < 0x028 ∨ 0x040 ≤ off) → t.word p off = s.word p off)) ∧
      (∃ t, exec (.stageDiscard req page) s = .next t ∧ s.changesOnly t [.reg] ∧ t.reg.live = s.reg.live
        ∧ (∀ off, off < 4096 → t.stagedWord page off = s.word page off)
        ∧ (∀ p off, p ≠ page → off < 4096 → t.stagedWord p off = s.stagedWord p off)))

/-- COMMIT by a requester that reaches the page's COMMIT register, on any page, in the state in which the access has woken its island. While a commit of the page has not taken effect: no effect but the ACCESS bit, ERR_FIRST and ERR_INFO. With a GEN that differs from STAGE_GEN: no effect but the STALE_COMMIT bit, ERR_FIRST and ERR_INFO. With the right GEN: STAGE_GEN adds 1 modulo 65,536, the staged words that differ from the live ones are taken as they stand, the page shows COMMIT_BUSY, and no other live word and no staged value changes. -/
def Obligations.CommitIsBusyStaleOrAccepted : Prop :=
  ∀ (s : State) (req : Requester) (page gen : Nat), gen < 65536 → s.reached req page 0x014 = true →
    let u := s.touch page
    (s.commitBusy page = true →
      ∃ t, exec (.commit req page gen) s = .next t ∧ u.recorded t (errPage page) 1 0x014 req ∧ t.reg.taken = u.reg.taken
        ∧ u.keepsRegs t (errPage page) [0x018, 0x020, 0x024] ∧ t.reg.sel = u.reg.sel
        ∧ t.reg.staged = u.reg.staged ∧ u.changesOnly t signals) ∧
    (s.commitBusy page = false → u.field page 0x010 0 16 ≠ gen →
      ∃ t, exec (.commit req page gen) s = .next t ∧ u.recorded t (errPage page) 3 0x014 req ∧ t.reg.taken = u.reg.taken
        ∧ u.keepsRegs t (errPage page) [0x018, 0x020, 0x024] ∧ t.reg.sel = u.reg.sel
        ∧ t.reg.staged = u.reg.staged ∧ u.changesOnly t signals) ∧
    (s.commitBusy page = false → u.field page 0x010 0 16 = gen →
      ∃ t, exec (.commit req page gen) s = .next t ∧ t.field page 0x010 0 16 = (gen + 1) % 65536 ∧ t.commitBusy page = true
        ∧ t.reg.taken = u.reg.taken ++ [⟨page, reqCode req, u.dirtyWords page⟩] ∧ t.reg.staged = u.reg.staged ∧ u.changesOnly t [.reg]
        ∧ (∀ p off, p < 0x600 → off < 4096 → (p ≠ page ∨ off ≠ 0x010) → t.word p off = u.word p off))

/-- COMMIT_TAKES_EFFECT of the oldest accepted commit of any page, however many registers and fields it took. Every RWS field that it took and no rule refuses takes the taken value, all together; a refused one keeps its live value, its staged value, where no later write has changed it, returns to that, and CONFIG is set with the commit's requester. That commit is no longer waiting. Where no field is refused and the page's commit starts no work of its own, no other register word changes, nor another component (but the idle times that DORM_EN starts). Of a commit that took one register, a rule refuses a field just where R26 and R48, R31, R34, R66, R73, R131, R180 or R363 bars the value. A page whose commit goes on to work of its own is looked at with nothing waiting. -/
def Obligations.CommittedFieldTakesEffectOrIsRefused : Prop :=
  (∀ (s : State) (page : Nat) (c : Taken), s.reg.taken.find? (fun k => decide (k.page = page)) = some c →
    (∀ e ∈ c.vals, e.1 / 4096 = page ∧ 0x100 ≤ e.1 % 4096 ∧ fieldsApart (wordRows s.order page (e.1 % 4096))) → (c.vals.map (fun e => e.1)).Nodup →
    (commitActs page c = true → s.atRest) →
    ∃ t, exec (.commitTakesEffect page) s = .next t ∧ t.reg.taken = s.reg.taken.eraseP (fun k => decide (k.page = page))
      ∧ (∀ e ∈ c.vals, ∀ r ∈ wordRows s.order page (e.1 % 4096), r.acc = .rws →
          let off := e.1 % 4096
          let kept := s.refuses c off r
          t.field page off r.lo r.width = (if kept then s.field page off r.lo r.width else bits e.2.toNat r.lo r.width)
          ∧ (bits (s.stagedWord page off) r.lo r.width = bits e.2.toNat r.lo r.width →
              bits (t.stagedWord page off) r.lo r.width = t.field page off r.lo r.width)
          ∧ (kept = true → (t.word page 0x018).testBit 0 = true
              ∧ (commitActs page c = false → bits (t.word page 0x024) 12 20 = c.req % 2 ^ 20)))
      ∧ (commitActs page c = false → (∀ e ∈ c.vals, ∀ r ∈ wordRows s.order page (e.1 % 4096), r.acc = .rws → s.refuses c (e.1 % 4096) r = false) →
          s.changesOnly t (if page = 0x001 then [.reg, .pwr] else [.reg])
          ∧ ∀ p o, p < 0x600 → o < 4096 → 4096 * p + o ∉ c.vals.map (fun e => e.1) → t.word p o = s.word p o)) ∧
  ∀ (s : State) (page off : Nat) (w : Word) (r : Row) (c : Taken), c.page = page → c.vals = [(4096 * page + off, w)] → off < 4096 →
    r ∈ wordRows s.order page off → r.acc = .rws → (s.refuses c off r = true ↔ s.commitBarred page off w.toNat r)

/-- From every state whose valid regions are each sound (2 MiB units, not empty, writers among the readers, one reader of a private region, writers of a read-shared region within RGN_PRIV_PORTS, legal codes) and pairwise apart, a step answers only states whose region table is sound in the same sense. -/
def Obligations.RegionTableStaysSound : Prop := ∀ s t : State, RegionsSound s → step s = .next t → RegionsSound t

/-- WRITE_ENTRY by a requester admitted to RGN_OP while no operation runs. A result other than OK is shown in RGN_OP_STATUS with the index and nothing but register words changes. An accepted write leaves the entry as written, but for GEN, which is one more modulo 65,536, for EDITION_PORT, CUR_TABLE and (in a valid entry) EDITION, which the Izxaca keeps, and for EDITION_PORT 7 and CUR_TABLE 0 of a region it creates; every other entry stays; and where no recall delays its completion RGN_OP_STATUS shows OK with the index. While an operation runs, RGN_OP has no effect but an access error. -/
def Obligations.EntryWriteIsRejectedOrMerged : Prop :=
  ∀ (s : State) (req : Requester) (i : Fin 4096), s.admits req 0x012 0x114 = true →
    (s.rgn.pending.isSome = true →
      ∃ t, exec (.writeEntry req i) s = .next t ∧ t.word 0x012 0x018 = s.word 0x012 0x018 ||| 2 ∧ t.rgn = s.rgn ∧ s.changesOnly t signals) ∧
    (s.rgn.pending = none → s.entryResult i (s.entryData req) ≠ 0 →
      ∃ t, exec (.writeEntry req i) s = .next t ∧ t.word 0x012 0x118 = s.entryResult i (s.entryData req) * 2 ^ 4 + i.val * 2 ^ 8
        ∧ t.rgn = s.rgn ∧ s.changesOnly t [.reg]) ∧
    (s.rgn.pending = none → s.entryResult i (s.entryData req) = 0 →
      ∃ t, exec (.writeEntry req i) s = .next t
        ∧ s.regionsBut t i ∧ t.rgn.freeing = s.rgn.freeing ∧ t.rgn.leaseLog = s.rgn.leaseLog
        ∧ (let w := Region.ofWords (s.entryData req)
           let old := s.region i
           t.region i = { w with
             gen := (old.gen + 1) % 65536
             edition := if old.valid && w.valid then old.edition else w.edition
             editionPort := if old.valid || !w.valid then old.editionPort else 7
             curTable := if old.valid || !w.valid then old.curTable else 0 })
        ∧ (t.rgn.pending = none → t.word 0x012 0x118 = i.val * 2 ^ 8))

/-- READ_ENTRY puts the eight words of the entry, valid or kept, into the requester's own data registers, shows OK with the index, and changes only registers. A written entry without reserved bits: that would clear VALID or change BASE, SIZE or KIND of a valid entry gets result 6; else one whose BASE or SIZE is not a multiple of 2 MiB, whose SIZE is 0 or that ends beyond the range gets 2; else one with a writer that is no reader gets 3; else one that overlaps another valid region gets 1. The order in which the results apply is the model's choice (log entry 21). -/
def Obligations.EntryReadAndRefusedWritesNameTheirReason : Prop :=
  (∀ (s : State) (req : Requester) (i : Fin 4096), s.admits req 0x012 0x114 = true → s.rgn.pending = none →
    ∃ t, exec (.readEntry req i) s = .next t ∧ t.entryData req = (s.region i).words.map (fun w => w % 2 ^ 64)
      ∧ t.word 0x012 0x118 = i.val * 2 ^ 8 ∧ s.changesOnly t [.reg]) ∧
  (∀ (s : State) (i : Nat) (w : List Nat), entryReserved w = false → (Region.ofWords w).edition = 0 →
    let r := Region.ofWords w
    let old := s.region i
    (old.valid = true → (r.valid = false ∨ r.base ≠ old.base ∨ r.size ≠ old.size ∨ r.kind ≠ old.kind) → s.entryResult i w = 6) ∧
    (r.valid = true → (old.valid = true → r.base = old.base ∧ r.size = old.size ∧ r.kind = old.kind) →
      ((r.base % 2 ^ 21 ≠ 0 ∨ r.size % 2 ^ 21 ≠ 0 ∨ r.size = 0 ∨ s.rangeBytes < r.base + r.size) → s.entryResult i w = 2) ∧
      (s.rangeBad r = false → r.writeMask &&& ~~~r.readMask ≠ 0#6 → s.entryResult i w = 3) ∧
      (s.rangeBad r = false → s.masksBad r = false →
        (∃ j, j ≠ i ∧ (s.region j).valid = true ∧ runsMeet (s.region j).base (s.region j).size r.base r.size = true) → s.entryResult i w = 1)))

/-- INVALIDATE of a valid entry, and LEASE_EXPIRY of a valid entry with a lease, clear its VALID and keep the rest of it and every other entry; the lease's expiry brings the time base to LEASE_END at least and pushes the index into the lease log, or with 64 entries there already drops it. INVALIDATE and RENEW_LEASE of an invalid entry report NOT_VALID (7) and change nothing else. RENEW_LEASE with the time base below both the old and the new LEASE_END changes LEASE_END of that entry alone and reports OK; otherwise it reports PAST (9) and changes nothing else. LEASE_EXPIRY of an invalid entry, or of one with no lease, has no effect. -/
def Obligations.RegionEndsByInvalidateOrLease : Prop :=
  ∀ (s : State) (req : Requester) (i : Fin 4096),
    (s.admits req 0x012 0x114 = true → s.rgn.pending = none →
      ((s.region i).valid = true →
        ∃ t, exec (.invalidate req i) s = .next t ∧ t.region i = { s.region i with valid := false } ∧ s.regionsBut t i
          ∧ ⟨i.val, (s.region i).base, (s.region i).size⟩ ∈ t.rgn.freeing) ∧
      ((s.region i).valid = false →
        ∃ t u, exec (.invalidate req i) s = .next t ∧ exec (.renewLease req i) s = .next u
          ∧ t.word 0x012 0x118 = 7 * 2 ^ 4 + i.val * 2 ^ 8 ∧ s.changesOnly t [.reg]
          ∧ u.word 0x012 0x118 = 7 * 2 ^ 4 + i.val * 2 ^ 8 ∧ s.changesOnly u [.reg]) ∧
      ((s.region i).valid = true →
        (s.now < (s.region i).leaseEnd → s.now < (s.entryData req).getD 3 0 →
          ∃ t, exec (.renewLease req i) s = .next t ∧ t.region i = { s.region i with leaseEnd := (s.entryData req).getD 3 0 }
            ∧ s.regionsBut t i ∧ t.word 0x012 0x118 = i.val * 2 ^ 8 ∧ s.changesOnly t [.reg, .rgn]) ∧
        (¬ (s.now < (s.region i).leaseEnd ∧ s.now < (s.entryData req).getD 3 0) →
          ∃ t, exec (.renewLease req i) s = .next t ∧ t.word 0x012 0x118 = 9 * 2 ^ 4 + i.val * 2 ^ 8 ∧ s.changesOnly t [.reg]))) ∧
    ((s.region i).valid = true → (s.region i).leaseEnd ≠ 0 →
      ∃ t, exec (.leaseExpiry i) s = .next t ∧ t.region i = { s.region i with valid := false } ∧ s.regionsBut t i
        ∧ t.now = max s.now (s.region i).leaseEnd
        ∧ t.rgn.leaseLog = (if s.rgn.leaseLog.length < 64 then s.rgn.leaseLog ++ [i.val] else s.rgn.leaseLog)) ∧
    ((s.region i).valid = false ∨ (s.region i).leaseEnd = 0 → exec (.leaseExpiry i) s = .next s)

/-- REGION_OP_COMPLETE of a delayed write, once no line of the region is pending and none is held by a port without read right, ends the operation, reports OK with its index, and changes nothing else; with no operation running it has no effect. REGION_FREEING_END removes every freeing of its index from the list of freed space, so that a new region may be created there, and leaves the region entries. LEASE_POP removes the oldest entry of the lease log and sets OVF to zero where there was one; an empty log keeps its OVF. -/
def Obligations.RegionBackgroundWorkEnds : Prop :=
  (∀ (s : State) (i : Nat), i < 4096 → s.rgn.pending = some i → ((s.region i).valid = true → s.recallOpen (s.region i) = false) →
    ∃ t, exec .regionOpComplete s = .next t ∧ t.rgn = { s.rgn with pending := none } ∧ t.word 0x012 0x118 = i * 2 ^ 8
      ∧ s.changesOnly t [.reg, .rgn]) ∧
  (∀ s : State, s.rgn.pending = none → exec .regionOpComplete s = .next s) ∧
  (∀ (s : State) (i : Fin 4096), ∃ t, exec (.regionFreeingEnd i) s = .next t
    ∧ t.rgn = { s.rgn with freeing := s.rgn.freeing.filter (fun f => decide (f.index ≠ i.val)) }) ∧
  (∀ (s : State) (req : Requester), s.admits req 0x012 0x194 = true →
    ∃ t, exec (.leasePop req) s = .next t ∧ t.rgn.leaseLog = s.rgn.leaseLog.tail
      ∧ t.rgn.leaseOvf = (if s.rgn.leaseLog = [] then s.rgn.leaseOvf else 0) ∧ t.rgn.entries = s.rgn.entries ∧ s.changesOnly t [.rgn])

/-- MEM_RD by a port with read right, of a line of a private or read-shared region. On vat channels in service: where its tile has no home the port gets 64 zero bytes and no heat is counted. Where the tile is in the vat, with no wrong bits, the port gets the slot's line with its poison mark. Where the tile's contents are lost (HOME 4) the port gets a poisoned line. Each of those times the memories keep all their bytes, each tile keeps its home, and beside the answer only the traffic of the look-up and of the line is left. Where the tile is in the cellar: a line in its cask's open buffer, of a quarantined or a cached cask or of one without sectors is answered at once; for any other the request joins the read of its cask and is not answered yet (CASK_READ_RETURN answers it, CasksAreReadAndReencoded). Where the tile is in the host tier, an offline window or a poison bit gives a poisoned line at once; else, where the lending port may issue and has a tag free, one read of the line's 64 bytes goes out to it and awaits its data for the request. MEM_SPEC_RD at a port that meets no IDE rule and no key-set switch leaves the state as it is. -/
def Obligations.MemReadReturnsTheHomesLine : Prop :=
  (∀ (s : State) (p : Port) (tag haddr a : Nat) (mv : MetaValue) (k : Region), s.lands p haddr a k false → k.kind ≠ 1 → k.kind ≠ 2 →
    (s.home (tileOf a) = 0 →
      ∃ t, exec (.memRd p tag haddr mv .none) s = .next t ∧ t.out.getLast? = some (.memData p.val tag zeroLine false)
        ∧ t.mem.tierMap = s.mem.tierMap ∧ s.keepsBytes t ∧ s.changesOnly t [.mem, .dram, .out, .freeCtr]) ∧
    (s.home (tileOf a) = 1 →
      ∃ t, exec (.memRd p tag haddr mv .none) s = .next t
        ∧ t.out.getLast? = some (.memData p.val tag (s.vatLine (s.loc (tileOf a)) (lineOf a)).1 (s.vatLine (s.loc (tileOf a)) (lineOf a)).2)
        ∧ (∀ x, t.home x = s.home x) ∧ s.keepsBytes t ∧ s.changesOnly t lineTraffic) ∧
    (s.home (tileOf a) = 4 →
      ∃ t, exec (.memRd p tag haddr mv .none) s = .next t ∧ t.out.getLast? = some (.memData p.val tag zeroLine true)
        ∧ t.mem.tierMap = s.mem.tierMap ∧ s.keepsBytes t ∧ s.changesOnly t [.reg, .mem, .dram, .out, .freeCtr]) ∧
    (s.home (tileOf a) = 2 →
      let c := caskOf a
      let i := lineOf a % 64
      let line := s.caskLine c i ⟨k.cls, p.val⟩
      let here := (∃ b, s.bufOf c = some b ∧ b.mask.getLsbD i = true) ∨ (s.cask c).quarantined = true ∨ (s.cached c).isSome = true ∨ (s.cask c).length = 0
      ∃ t, exec (.memRd p tag haddr mv .none) s = .next t ∧ s.keepsBytes t ∧ (∀ x, t.home x = s.home x)
        ∧ (here → t.out.getLast? = some (.memData p.val tag (if line.2.1 then zeroLine else line.1) line.2.1))
        ∧ (¬ here → (∃ x ∈ t.prs.reads, x.cask = c ∧ ∃ r, x.reqs.getLast? = some r ∧ r.port = p.val ∧ r.tag = tag)
            ∧ ∃ o, t.out = s.out ++ o ∧ ∀ q n d b, Out.memData q n d b ∉ o)) ∧
    (s.home (tileOf a) = 3 →
      let lost := s.windowOnline (s.hostPort (tileOf a)) = false ∨ s.hostPoison (tileOf a) (lineOf a) = true
      (lost → ∃ t, exec (.memRd p tag haddr mv .none) s = .next t ∧ t.out.getLast? = some (.memData p.val tag zeroLine true) ∧ s.keepsBytes t) ∧
      (∀ q, ¬ lost → portOf (s.hostPort (tileOf a)) = some q → s.canMaster q = true → (nextTagOf (s.port q)).isSome = true →
        ∃ t g r, exec (.memRd p tag haddr mv .none) s = .next t ∧ s.keepsBytes t
          ∧ t.out.getLast? = some (.dmaRead q.val g (s.hostAddr (tileOf a) (64 * lineOf a)) 64)
          ∧ (∃ x ∈ (t.port q).tags, x.tag = g ∧ x.consumer = .demand r) ∧ r.port = p.val ∧ r.tag = tag))) ∧
  (∀ (s : State) (p : Port) (haddr : Nat), (s.portTakes p = true → s.ideRefuses p true = false ∧ sget none (s.port p).ideGo 1 = none) →
    exec (.memSpecRd p haddr) s = .next s)

/-- MEM_WR by a port with write right, of a line of a private or read-shared region whose tile is in the vat, on channels in service. The line of the tile's slot becomes: poisoned where the write is; else the written bytes where all are enabled; else poisoned still where it was; else the enabled bytes over the old. Every other line of every slot, and the cellar, are as before, and the port gets its completion. With every vat channel in service: a write to a tile without a home, where the vat gives it a slot (of the pin reservation to a vat-pinned region, of the pool to one whose policy sends it there while more than LOW_GIB of it is free), makes that slot, free before, the tile's home; the line is the enabled bytes over zeros, or poisoned, and every other line of the slot is zero. A write to a cellar tile whose cask has no buffer and whose press has one opens it with just that line: poisoned, the bytes of a full write, or the enabled bytes over the stored line; the sectors stay. A write to a published region by a port without a draft of it goes into a draft slot, free before, over the line its home holds (in the vat, or zeros where it has none), and marks just that line; at the limit of draft tiles it is dropped and the draft is marked broken. In each of these every other line of the vat is as before and the port gets its completion. -/
def Obligations.MemWriteMergesIntoTheVatLine : Prop :=
  (∀ (s : State) (p : Port) (tag haddr a : Nat) (mv : MetaValue) (k : Region) (data : List Byte) (be : BitVec 64) (poison : Bool),
    s.lands p haddr a k true → k.kind ≠ 1 → k.kind ≠ 2 → s.home (tileOf a) = 1 → data.length = 64 →
    ∃ t, exec (.memWr p tag haddr mv data be poison .none) s = .next t
      ∧ t.vatLine (s.loc (tileOf a)) (lineOf a)
          = (if poison then (zeroLine, true)
             else if be = BitVec.allOnes 64 then (data, false)
             else if (s.vatLine (s.loc (tileOf a)) (lineOf a)).2 then (zeroLine, true)
             else (mergeLine (s.vatLine (s.loc (tileOf a)) (lineOf a)).1 data be, false))
      ∧ s.vatBut t (s.loc (tileOf a)) (lineOf a) ∧ t.mem.cellar = s.mem.cellar ∧ t.home (tileOf a) = 1
      ∧ t.out.getLast? = some (.cmp p.val tag .I) ∧ s.changesOnly t lineTraffic) ∧
  ∀ (s : State) (p : Port) (tag haddr a g : Nat) (mv : MetaValue) (k : Region) (data : List Byte) (be : BitVec 64) (poison : Bool),
    s.lands p haddr a k true → s.findRegion a = some (g, k) → s.vatWhole → data.length = 64 →
    let tile := tileOf a
    let i := lineOf a
    let written (old : List Byte × Bool) := writeOver old data be poison
    (k.kind ≠ 1 → k.kind ≠ 2 → s.home tile = 0 → s.tileRegion tile = some (g, k) →
      (k.policy = 1 ∧ s.slotFor .pin) ∨ (k.policy ≠ 1 ∧ k.policy ≠ 2 ∧ 65536 * s.field 0x018 0x10C 0 8 < s.poolFree ∧ s.slotFor .tile) →
      ∃ t slot, exec (.memWr p tag haddr mv data be poison .none) s = .next t ∧ s.useOf slot = .free ∧ t.home tile = 1 ∧ t.loc tile = slot
        ∧ t.useOf slot = (if k.policy = 1 then .pin else .tile) ∧ (∀ x, x ≠ tile → t.home x = s.home x)
        ∧ (∀ j, j < 256 → t.vatLine slot j = if j = i then written (zeroLine, false) else (zeroLine, false))
        ∧ (∀ x j, x ≠ slot → j < 256 → t.vatLine x j = s.vatLine x j) ∧ t.mem.cellar = s.mem.cellar
        ∧ t.out.getLast? = some (.cmp p.val tag .I)) ∧
    (k.kind ≠ 1 → k.kind ≠ 2 → s.home tile = 2 → s.bufOf (caskOf a) = none → s.cellarBlocked (caskOf a) = none →
      let old := s.caskLine (caskOf a) (i % 64) ⟨k.cls, p.val⟩
      let new := written (old.1, old.2.1)
      ∃ t b, exec (.memWr p tag haddr mv data be poison .none) s = .next t ∧ t.bufOf (caskOf a) = some b ∧ b.sealing = false
        ∧ b.mask = BitVec.ofNat 64 (2 ^ (i % 64)) ∧ (b.line (i % 64)).2 = new.2 ∧ (new.2 = false → (b.line (i % 64)).1 = new.1)
        ∧ (∀ x, x ≠ caskOf a → t.bufOf x = s.bufOf x) ∧ s.keepsBytes t ∧ (∀ x, t.home x = s.home x)
        ∧ t.out.getLast? = some (.cmp p.val tag .I)) ∧
    (k.kind = 2 → s.draftOf g p.val = none → s.publishedLine g tile i = none → (s.home tile = 0 ∨ s.home tile = 1) →
      (s.draftsUsed < s.field 0x011 0x104 0 21 → 0 < s.poolFree → s.slotFor .draft →
        ∃ t d e, exec (.memWr p tag haddr mv data be poison .none) s = .next t ∧ t.draftOf g p.val = some d ∧ d.broken = false ∧ d.tiles = [e]
          ∧ e.tile = tile ∧ e.mask = BitVec.ofNat 256 (2 ^ i) ∧ s.useOf e.slot = .free ∧ t.useOf e.slot = .draft
          ∧ t.vatLine e.slot i = written (if s.home tile = 1 then s.lineAt a else (zeroLine, false))
          ∧ (∀ x j, x ≠ e.slot → j < 256 → t.vatLine x j = s.vatLine x j) ∧ t.edn.pubs = s.edn.pubs ∧ (∀ x, t.home x = s.home x)
          ∧ t.out.getLast? = some (.cmp p.val tag .I)) ∧
      (s.field 0x011 0x104 0 21 ≤ s.draftsUsed →
        ∃ t d, exec (.memWr p tag haddr mv data be poison .none) s = .next t ∧ t.draftOf g p.val = some d ∧ d.broken = true ∧ d.tiles = []
          ∧ (t.word 0x011 0x018).testBit 8 = true ∧ s.keepsBytes t ∧ (∀ x, t.home x = s.home x) ∧ t.out.getLast? = some (.cmp p.val tag .I)))

/-- A CXL.mem read, write or invalidation that R42 refuses: RGN_VIOL_ADDR holds the unified address, RGN_VIOL_INFO the port, the direction and the reason, the violation's bit of ERR_STATUS is set (9 for an address in no region or beyond the range, 8 otherwise), a read is answered by a poisoned line, a write and an invalidation by a completion, and no state but the recording changes. A request that no committed decoder maps is recorded in its port's page with its host address and answered in the same ways. That an invalidation refused or undecoded, and an undecoded clean-eviction notice, get a completion is the model's choice (log entry 17: R241 names reads and writes). -/
def Obligations.RefusedRequestsAreRecorded : Prop :=
  ∀ (s : State) (p : Port) (tag haddr : Nat) (mv : MetaValue) (data : List Byte) (be : BitVec 64) (poison : Bool),
    (∀ (a reason : Nat) (d : Decoder) (write : Bool), s.opens p haddr d a →
      s.refusal p.val write (d.hdmH || !(s.port p).biEnable) a = some reason →
      ∀ c ∈ (if write then [Instr.memWr p tag haddr mv data be poison .none] else [.memRd p tag haddr mv .none, .memInv p tag haddr mv]),
        ∃ t, exec c s = .next t ∧ s.changesOnly t signals
          ∧ t.word64 0x012 0x180 = a ∧ t.word 0x012 0x188 = p.val + (if write then 8 else 0) + reason * 16
          ∧ (t.word 0x012 0x018).testBit (if reason = 0 ∨ reason = 4 then 9 else 8) = true
          ∧ t.out.getLast? = some (match c with
              | .memRd .. => .memData p.val tag zeroLine true
              | _ => .cmp p.val tag .I)) ∧
    (s.portTakes p = true → s.ideRefuses p true = false → sget none (s.port p).ideGo 1 = none → s.clearOf p → s.meshSpares p →
      s.decodeHost p haddr = none →
      ∀ c ∈ [Instr.memWr p tag haddr mv data be poison .none, .memRd p tag haddr mv .none, .memInv p tag haddr mv, .memClnEvct p tag haddr],
        ∃ t, exec c s = .next t ∧ s.changesOnly t signals ∧ t.word64 (prtPage p) 0x130 = haddr % 2 ^ 64
          ∧ (t.word (prtPage p) 0x018).testBit 9 = true
          ∧ t.out.getLast? = some (match c with
              | .memRd .. => .memData p.val tag zeroLine true
              | _ => .cmp p.val tag .I))

/-- A line of a coherent region, with no snoop for it in flight and no request that waits for it. MEM_RD and MEM_INV of a line that no port holds, in a set with a way that is free and promised to no other, the read's tile having no home: with MetaValue I no port holds it after, with S the port holds it shared, with A owned; MEM_RD answers a completion and zeros, MEM_INV a completion that grants the MetaValue. MEM_CLN_EVCT, with no lost-owner walk running, takes the port out of the line's entry and leaves the other holders, sends no snoop, and completes. A read, an invalidation or a write of a line that other ports hold, none of them walked and each with a decoder that maps it: where the owner must be asked, or for a write or MetaValue A every other holder, each of them is sent a snoop (BISnpInv for a write or A, BISnpData for S, BISnpCur for I), the request waits behind them, and no entry and no memory changes yet. Outside a coherent region MEM_INV and MEM_CLN_EVCT only complete. That a coherent read is answered by a completion beside its data is the model's choice (log entry 17). -/
def Obligations.DirectoryTracksHolders : Prop :=
  ∀ (s : State) (p : Port) (tag haddr a : Nat) (mv : MetaValue) (d : Decoder) (g : Nat) (k : Region),
    s.opens p haddr d a → s.findRegion a = some (g, k) →
    (k.kind = 1 → s.dirPending (a / 64) = false → (∀ w ∈ s.dir.waiting, waitedLine w ≠ some (a / 64)) →
      (s.refusal p.val false (d.hdmH || !(s.port p).biEnable) a = none → (s.dirEntry (a / 64)).holders = [] →
        (s.dir.entries.filter (fun e => sameSet e.1 (a / 64))).length + s.waysPromised (a / 64) [] < dirWays →
        (∃ t, exec (.memInv p tag haddr mv) s = .next t ∧ t.out = s.out ++ [.cmp p.val tag mv]
          ∧ (t.dirEntry (a / 64)).holders = (if mv = .I then [] else [p.val])
          ∧ ((t.dirEntry (a / 64)).owner = if mv = .A then some p.val else none)
          ∧ (∀ l, l ≠ a / 64 → t.dirEntry l = s.dirEntry l) ∧ s.changesOnly t [.dir, .out]) ∧
        (s.home (tileOf a) = 0 → s.inService a →
          ∃ t, exec (.memRd p tag haddr mv .none) s = .next t
            ∧ (∃ l, t.out = s.out ++ l ++ [.cmp p.val tag mv, .memData p.val tag zeroLine false])
            ∧ (t.dirEntry (a / 64)).holders = (if mv = .I then [] else [p.val])
            ∧ ((t.dirEntry (a / 64)).owner = if mv = .A then some p.val else none)
            ∧ (∀ l, l ≠ a / 64 → t.dirEntry l = s.dirEntry l) ∧ s.keepsBytes t ∧ s.changesOnly t [.dir, .mem, .dram, .out, .freeCtr])) ∧
      (s.dir.walks = 0#6 → ((s.dirEntry (a / 64)).owner = none ∨ (s.dirEntry (a / 64)).sharers = 0#6) →
        ∃ t, exec (.memClnEvct p tag haddr) s = .next t ∧ t.out = s.out ++ [.cmp p.val tag .I]
          ∧ (t.dirEntry (a / 64)).holders = (s.dirEntry (a / 64)).holders.filter (fun q => decide (q ≠ p.val))
          ∧ (∀ l, l ≠ a / 64 → t.dirEntry l = s.dirEntry l) ∧ t.dir.snoops = s.dir.snoops ∧ s.changesOnly t [.dir, .out]) ∧
      (∀ (write : Bool) (data : List Byte) (be : BitVec 64) (poison : Bool), s.refusal p.val write (d.hdmH || !(s.port p).biEnable) a = none →
        let e := s.dirEntry (a / 64)
        let others := e.holders.filter (fun q => decide (q ≠ p.val))
        let all := write = true ∨ mv = .A
        let asked := if all ∨ e.owner.isSome = true then others else []
        let kind := if all then 2 else if mv = .S then 1 else 0
        asked ≠ [] → (∀ q ∈ e.holders, s.walking q = false) → (∀ q ∈ asked, ∃ o, portOf q = some o ∧ (s.hostOf o (a / 64)).isSome = true) →
        ∀ c ∈ (if write then [Instr.memWr p tag haddr mv data be poison .none] else [.memRd p tag haddr mv .none, .memInv p tag haddr mv]),
          ∃ t, exec c s = .next t ∧ s.changesOnly t [.reg, .dir, .out] ∧ t.dir.entries = s.dir.entries
            ∧ (∃ r, t.dir.waiting = s.dir.waiting ++ [(.snoop (a / 64), r)] ∧ r.port = p.val ∧ r.tag = tag)
            ∧ t.dir.snoops.length = s.dir.snoops.length + asked.length
            ∧ ∀ q ∈ asked, ∃ n ∈ t.dir.snoops, n.port = q ∧ n.line = a / 64 ∧ n.kind = kind
                ∧ ∃ h, Out.biSnp q kind h n.biId n.biTag ∈ t.out)) ∧
    (k.kind ≠ 1 →
      (s.refusal p.val false (d.hdmH || !(s.port p).biEnable) a = none →
        exec (.memInv p tag haddr mv) s = .next { s with out := s.out ++ [.cmp p.val tag .I] }) ∧
      exec (.memClnEvct p tag haddr) s = .next { s with out := s.out ++ [.cmp p.val tag .I] })

/-- BIRSP with nothing waiting, from a port that takes requests. An answer that matches the snoop in flight to the port under its BITag, by BI-ID too, and that its kind permits: that snoop is no longer in flight, only the directory changes, and of its entries only the line's: BIRspI takes the port out of it; BIRspS makes an owner the one sharer; else it stays (BIRspE, and a sharer's BIRspS). An answer that matches none, or whose kind the snoop does not permit, contains the port with cause 2. UNSUPPORTED_M2S_REQUEST from a port that takes requests, meets no IDE rule and has nothing waiting: UNSUP_OP is set, a read-like one is answered by a poisoned line and then a completion, a write-like one by a completion, and only the recording changes. -/
def Obligations.SnoopAnswersAndUnsupportedRequests : Prop :=
  (∀ (s : State) (p : Port) (biId biTag : Nat) (kind : BIRspKind), s.portTakes p = true → s.atRest →
    (∀ n, s.dir.snoops.filter (fun n => decide (n.port = p.val ∧ n.biTag = biTag)) = [n] → n.biId = biId →
      (rspPermitted n.kind kind = true →
        ∃ t, exec (.birsp p biId biTag kind) s = .next t ∧ s.changesOnly t [.dir]
          ∧ t.dir.snoops = s.dir.snoops.filter (fun x => !(decide (x.port = p.val ∧ x.biTag = biTag)))
          ∧ (∀ l, l ≠ n.line → t.dirEntry l = s.dirEntry l)
          ∧ (kind = .invalid → p.val ∉ (t.dirEntry n.line).holders)
          ∧ (kind = .shared → (s.dirEntry n.line).owner = some p.val → (t.dirEntry n.line).holders = [p.val] ∧ (t.dirEntry n.line).owner = none)
          ∧ ((kind = .shared ∧ (s.dirEntry n.line).owner ≠ some p.val) ∨ kind = .exclusive → t.dirEntry n.line = s.dirEntry n.line)) ∧
      (rspPermitted n.kind kind = false →
        ∃ t, exec (.birsp p biId biTag kind) s = .next t ∧ t.word (prtPage p) 0x108 = 1 + 2 * 2)) ∧
    ((∀ n ∈ s.dir.snoops, ¬(n.port = p.val ∧ n.biId = biId ∧ n.biTag = biTag)) →
      ∃ t, exec (.birsp p biId biTag kind) s = .next t ∧ t.word (prtPage p) 0x108 = 1 + 2 * 2)) ∧
  (∀ (s : State) (p : Port) (tag : Nat) (readLike : Bool), s.portTakes p = true → s.ideRefuses p true = false → sget none (s.port p).ideGo 1 = none →
    s.clearOf p →
    ∃ t, exec (.unsupportedM2sRequest p tag readLike) s = .next t ∧ (t.word (prtPage p) 0x018).testBit 14 = true ∧ s.changesOnly t signals
      ∧ ∃ l, t.out = s.out ++ l ++ (if readLike then [.memData p.val tag zeroLine true, .cmp p.val tag .I] else [.cmp p.val tag .I]))

/-- BI_TIMEOUT of a snoop in flight to a port that is neither contained nor walked, with nothing waiting: the time base has reached the snoop's issue and TIMEOUT_US at least, BI_TIMEOUT is set, and the port is contained with cause 4. LOST_OWNER_WALK of a walked port with nothing waiting: the walk ends; where the port owns no line, it is taken out of every entry, the other holders stay, and no memory changes; where the directory's one entry is a line of a vat tile, on channels in service, that it owns, the line is poisoned, its entry is gone, and the loss is logged with the walk's cause while the log has room. LOST_POP by an admitted requester removes the oldest entry of the log, and clears OVF where there was one. -/
def Obligations.LostHoldersAreSettled : Prop :=
  (∀ (s : State) (p : Port) (biTag : Nat) (n : Snoop), s.contained p = false → s.walking p.val = false → s.atRest →
    s.dir.snoops.find? (fun n => decide (n.port = p.val ∧ n.biTag = biTag)) = some n →
    ∃ t, exec (.biTimeout p biTag) s = .next t ∧ t.now = max s.now (n.issuedAt + 1000 * s.field 0x010 0x100 0 14)
      ∧ (t.word 0x010 0x018).testBit 10 = true ∧ t.word (prtPage p) 0x108 = 1 + 4 * 2) ∧
  (∀ (s : State) (p : Port), s.walking p.val = true → s.atRest →
    ((∀ e ∈ s.dir.entries, e.2.owner ≠ some p.val) →
      ∃ t, exec (.lostOwnerWalk p) s = .next t ∧ t.walking p.val = false ∧ s.changesOnly t [.reg, .dir]
        ∧ (∀ l, (t.dirEntry l).holders = (s.dirEntry l).holders.filter (fun q => decide (q ≠ p.val)))) ∧
    (∀ (line : Nat) (e : DirEntry), s.dir.entries = [(line, e)] → e.owner = some p.val → e.sharers = 0#6 → s.home (line / 256) = 1 → s.inService (64 * line) →
      s.dir.lostLog.length < 4096 →
      ∃ t, exec (.lostOwnerWalk p) s = .next t ∧ t.walking p.val = false ∧ t.dir.entries = []
        ∧ t.dir.lostLog = s.dir.lostLog ++ [⟨64 * line, p.val, sget 0 s.dir.walkCause p.val⟩]
        ∧ t.vatLine (s.loc (line / 256)) (line % 256) = (zeroLine, true) ∧ s.vatBut t (s.loc (line / 256)) (line % 256))) ∧
  (∀ (s : State) (req : Requester), s.admits req 0x010 0x11C = true →
    ∃ t, exec (.lostPop req) s = .next t ∧ t.dir.lostLog = s.dir.lostLog.tail
      ∧ t.dir.lostOvf = (if s.dir.lostLog = [] then s.dir.lostOvf else 0) ∧ t.dir.entries = s.dir.entries ∧ s.changesOnly t [.dir])

/-- MOVE_DEQUEUE while fewer than MAX_MOVES are active puts the oldest queued move into ALLOC now, and otherwise changes nothing. Every channel in service, MOVE_DEST_HELD of a promotion from the cellar that was accepted under a policy other than vat-pinned, where the pool gives a slot: the move enters COPY with a slot that was free and is now a tile's, and the tile's home stays. MOVE_COPY_END of a demotion from the vat whose mask is not empty, with fewer than two rounds begun, its channels in service and nothing waiting: the buffer holds the slot's 256 lines with their poison, and the move enters a RECOPY round of just the lines of the mask. MOVE_DEADLINE, every channel in service, of a vat tile's move that has left the queue: the time base has reached ALLOC and MOVE_DEADLINE_US at least, the tile keeps home and slot, and HOLD is set. -/
def Obligations.MovesProgressOrAreAbandoned : Prop :=
  (∀ (s : State) (m : Move), s.activeMoves < s.field 0x018 0x114 0 11 → s.rck.moves.find? (fun m => decide (m.phase = .queued)) = some m →
    ∃ t, exec .moveDequeue s = .next t ∧ s.changesOnly t [.rck]
      ∧ t.rck = { s.rck with moves := s.rck.moves.map (fun x => if x.tile = m.tile then { x with phase := .alloc, allocAt := s.now } else x) }) ∧
  (∀ s : State, s.field 0x018 0x114 0 11 ≤ s.activeMoves ∨ (∀ m ∈ s.rck.moves, m.phase ≠ .queued) → exec .moveDequeue s = .next s) ∧
  (∀ (s : State) (tile g : Nat) (r : Region) (m : Move), s.moveOf tile = some m → m.phase = .alloc → m.kind = .promotion →
    s.tileRegion tile = some (g, r) → m.policy ≠ 1 → s.home tile = 2 → s.vatWhole → (s.takePool .tile).isSome = true →
    ∃ t x, exec (.moveDestHeld tile) s = .next t ∧ t.moveOf tile = some { m with phase := .copy, dest := .slot x, mask := 0 }
      ∧ s.useOf x = .free ∧ t.useOf x = .tile ∧ t.home tile = 2) ∧
  (∀ (s : State) (tile : Nat) (m : Move) (places : List (Nat × Nat)), s.moveOf tile = some m → m.phase = .copy → m.dest = .casks places →
    m.mask ≠ 0 → m.rounds < 2 → s.home tile = 1 → (∀ i, i < 256 → s.inService (16384 * tile + 64 * i)) → s.atRest → s.prs.flushing = 0#48 →
    ∃ t b q, exec (.moveCopyEnd tile [] false) s = .next t ∧ s.keepsBytes t ∧ s.changesOnly t [.mem, .rck, .dram, .out, .freeCtr]
      ∧ t.moveOf tile = some { m with buf := b, bufPoison := q, phase := .recopy, todo := m.mask, mask := 0, rounds := m.rounds + 1 }
      ∧ ∀ i, i < 256 → Memory.bytes b (64 * i) 64 = (s.vatLine (s.loc tile) i).1 ∧ q.getLsbD i = (s.vatLine (s.loc tile) i).2) ∧
  (∀ (s : State) (tile : Nat) (m : Move), s.moveOf tile = some m → m.phase ≠ .queued → s.home tile = 1 → s.atRest → s.vatWhole →
    ∃ t, exec (.moveDeadline tile) s = .next t ∧ t.now = max s.now (m.allocAt + us * s.field 0x018 0x110 0 16)
      ∧ t.home tile = 1 ∧ t.loc tile = s.loc tile ∧ t.hold tile = true)

/-- Every vat channel in service, HEAT_WALK of a tile with heat writes the decayed heat and stamps the present epoch, and every tile keeps its home; of a tile without heat it reads the map entry and changes none. HEAT_EPOCH, with no package being evacuated, no row being retired, no stack left and nothing waiting, brings the time base to the next epoch's begin at least; each tile of a vat-pinned region that waited for another try and is in the cellar or the host tier is moving after it, or where another move of it runs waits behind that; no tile's home changes. -/
def Obligations.HeatIsWalkedByEpochs : Prop :=
  (∀ (s : State) (tile : Nat), s.vatWhole →
    (s.heat tile ≠ 0 →
      ∃ t, exec (.heatWalk tile) s = .next t ∧ t.heat tile = s.decayed tile ∧ t.stamp tile = s.epoch % 256
        ∧ (∀ x, t.home x = s.home x) ∧ s.keepsBytes t ∧ s.changesOnly t [.mem, .rck, .dram, .out, .freeCtr]) ∧
    (s.heat tile = 0 →
      ∃ t, exec (.heatWalk tile) s = .next t ∧ t.mem.tierMap = s.mem.tierMap ∧ t.mem.caskMap = s.mem.caskMap ∧ s.keepsBytes t
        ∧ s.changesOnly t [.mem, .dram, .out, .freeCtr])) ∧
  (∀ s : State, s.mem.evacuating = 0#48 → s.mem.stackOut = 0#16 → s.vatWhole → s.igr.rowsLeaving = [] → s.atRest →
    ∃ t, exec .heatEpoch s = .next t ∧ t.now = max s.now ((s.epoch + 1) * (1000 * s.field 0x018 0x108 16 16)) ∧ t.rck.pinRetry = []
      ∧ (∀ x ∈ s.rck.pinRetry, s.tilePolicy x = some 1 → (s.home x = 2 ∨ s.home x = 3) →
          (s.moveOf x = none → t.moving x = true) ∧ (∀ m, s.moveOf x = some m → m.kind ≠ .promotion → x ∈ t.rck.promoteWait))
      ∧ (∀ x, t.home x = s.home x) ∧ s.keepsBytes t ∧ s.changesOnly t [.now, .mem, .rck, .dram, .out, .freeCtr])

/-- By an admitted requester. RESUME with nothing waiting: where ENABLE, link, no containment and Bus Master Enable allow, the window is online after it and only registers change; otherwise nothing changes. DISCARD with nothing waiting: of an online window, no effect; of an offline one, every vat channel in service, every tile homed in it takes HOME 4 and every other tile keeps its home. EXH_POP removes the oldest entry of the exhaustion log and clears its OVF; an empty log stays as it is. -/
def Obligations.HostWindowsResumeAndDiscard : Prop :=
  ∀ (s : State) (req : Requester) (p : Port),
    (s.admits req 0x018 (0x14C + 0x10 * p.val) = true → s.calm →
      (s.windowMay p = true → ∃ t, exec (.resume req p) s = .next t ∧ t.windowOnline p.val = true ∧ s.changesOnly t [.reg]) ∧
      (s.windowMay p = false → exec (.resume req p) s = .next s) ∧
      (s.windowOnline p.val = true → exec (.discard req p) s = .next s) ∧
      (s.windowOnline p.val = false → s.vatWhole →
        ∃ t, exec (.discard req p) s = .next t ∧ ∀ x, t.home x = if s.home x = 3 ∧ s.hostPort x = p.val then 4 else s.home x)) ∧
    (s.admits req 0x019 0x114 = true →
      ∃ t, exec (.exhPop req) s = .next t ∧ t.rck.exhLog = s.rck.exhLog.tail
        ∧ t.rck.exhOvf = (if s.rck.exhLog = [] then s.rck.exhOvf else 0) ∧ t.rck.moves = s.rck.moves ∧ s.changesOnly t [.rck])

/-- SEAL_TIMEOUT and SEAL_AGE_LIMIT of an open buffer that no seal runs for and whose tile no promotion or spill moves: the time base has reached the last write, or the end of the move that held the timer back, and SEAL_TIMEOUT, or the opening and 16 times it, at least, and the buffer is sealing; of another buffer, no effect. FLUSH by an admitted requester of a press with open buffers: each of them is sealing and marked, the press is FLUSHING, and nothing else changes; of a press without buffers, no effect. SEAL_END of a sealing buffer whose cask is not being re-encoded, with nothing waiting, every vat channel in service and no row or package being emptied: the buffer is closed, and where the merged content is zero and unpoisoned, in the cellar and not quarantined, the cask holds no sectors after it; while the cask is re-encoded the seal waits. -/
def Obligations.BuffersAreSealed : Prop :=
  (∀ (s : State) (cask : Nat) (b : AsmBuf), s.bufOf cask = some b →
    (s.timerSeals b = true →
      (∃ t, exec (.sealTimeout cask) s = .next t ∧ t.bufOf cask = some { b with sealing := true } ∧ s.changesOnly t [.now, .prs]
        ∧ t.now = max s.now (b.idleFrom + us * s.field (prsPage (s.cask cask).package) 0x104 0 14)) ∧
      (∃ t, exec (.sealAgeLimit cask) s = .next t ∧ t.bufOf cask = some { b with sealing := true } ∧ s.changesOnly t [.now, .prs]
        ∧ t.now = max s.now (b.openedAt + 16 * (us * s.field (prsPage (s.cask cask).package) 0x104 0 14)))) ∧
    (s.timerSeals b = false → exec (.sealTimeout cask) s = .next s ∧ exec (.sealAgeLimit cask) s = .next s) ∧
    (b.sealing = true → s.rck.reencodes.contains cask = true → exec (.sealEnd cask) s = .next s) ∧
    (b.sealing = true → s.rck.reencodes.contains cask = false → s.atRest → s.vatWhole → s.igr.rowsLeaving = [] → s.mem.evacuating = 0#48 →
      ∃ t, exec (.sealEnd cask) s = .next t ∧ t.bufOf cask = none
        ∧ ∀ g r, s.home (cask / 4) = 2 → s.tileRegion (cask / 4) = some (g, r) → (s.cask cask).quarantined = false →
            (s.caskContent cask ⟨r.cls, 6⟩).1.all (fun x => decide (x = 0#8)) = true → (s.caskContent cask ⟨r.cls, 6⟩).2.1 = 0#64 →
            ((s.caskContent cask ⟨r.cls, 6⟩).2.2.cask cask).quarantined = false → (t.cask cask).length = 0)) ∧
  (∀ (s : State) (req : Requester) (press : Fin 48), s.admits req (prsPage press.val) 0x100 = true →
    ((∃ b ∈ s.prs.bufs, (s.cask b.cask).package = press.val) →
      ∃ t, exec (.flush req press) s = .next t ∧ s.changesOnly t [.prs] ∧ t.prs.flushing.getLsbD press.val = true
        ∧ t.prs.bufs = s.prs.bufs.map (fun b => if (s.cask b.cask).package = press.val then { b with sealing := true, flush := true } else b)) ∧
    ((∀ b ∈ s.prs.bufs, (s.cask b.cask).package ≠ press.val) → exec (.flush req press) s = .next s))

/-- With every vat channel in service. CASK_READ_RETURN of a read with one request of a port that takes requests, whose cask is stored in the cellar and not quarantined. A cask that decodes: the port gets its line as it stood when the request was served (that it is this line is the model's choice, log entry 22), and the cask is in its press's cache. A damaged cask: the port gets a poisoned line and the cask is quarantined. Either way the read is over. REENCODE of a stale cask, within the rate and with no move, buffer or re-encode of it: it is being re-encoded, one more was sent in this millisecond, and nothing else changes; of a cask that is not stale, no effect. REENCODE_END of a re-encode, with nothing waiting: it is over; where the tile has left the cellar or the cask is quarantined nothing else changes; a cached cask of zeros holds no sectors after it and is cached no more. -/
def Obligations.CasksAreReadAndReencoded : Prop :=
  (∀ (s : State) (cask : Nat) (bad : Bool) (c : CaskRead) (r : MemReq) (p : Port),
    s.prs.reads.find? (fun c => decide (c.cask = cask)) = some c → c.reqs = [r] → r.port = p.val → s.portTakes p = true →
    s.home (cask / 4) = 2 → (s.cask cask).length ≠ 0 → (s.cask cask).quarantined = false → s.vatWhole →
    let e := s.cask cask
    let stored := s.getSectors e.package e.sector e.length
    ∃ t, exec (.caskReadReturn cask bad) s = .next t ∧ (∀ x ∈ t.prs.reads, x.cask ≠ cask) ∧
      (∀ raw poison stale, decodeCask (some (e.method, e.table, e.poisonAny)) e.length stored.1 (stored.2 || bad) s.tableLens = .ok raw poison stale →
        t.out.getLast? = some (.memData p.val r.tag (if r.poison then zeroLine else r.data) r.poison) ∧ (t.cached cask).isSome = true) ∧
      (∀ code, decodeCask (some (e.method, e.table, e.poisonAny)) e.length stored.1 (stored.2 || bad) s.tableLens = .damaged code →
        t.out.getLast? = some (.memData p.val r.tag zeroLine true) ∧ (t.cask cask).quarantined = true)) ∧
  (∀ (s : State) (cask : Nat),
    (let sent := if s.rck.reencodeMs.1 = s.now / ms then s.rck.reencodeMs.2 else 0
     s.field 0x018 0x100 2 1 = 1 → sent < s.field 0x018 0x118 0 16 → s.home (cask / 4) = 2 →
      (s.cask cask).stale = true → (s.cask cask).quarantined = false → s.moving (cask / 4) = false → s.bufOf cask = none →
      s.rck.reencodes.contains cask = false →
      ∃ t, exec (.reencode cask) s = .next t ∧ s.changesOnly t [.rck]
        ∧ t.rck = { s.rck with reencodes := s.rck.reencodes ++ [cask], reencodeMs := (s.now / ms, sent + 1) }) ∧
    ((s.cask cask).stale = false → exec (.reencode cask) s = .next s)) ∧
  (∀ (s : State) (cask : Nat), s.rck.reencodes.contains cask = true → s.atRest → s.vatWhole →
    ∃ t, exec (.reencodeEnd cask) s = .next t ∧ t.rck.reencodes = s.rck.reencodes.filter (fun x => decide (x ≠ cask))
      ∧ (s.home (cask / 4) ≠ 2 ∨ (s.cask cask).quarantined = true → s.changesOnly t [.rck])
      ∧ (∀ c, s.home (cask / 4) = 2 → (s.tileRegion (cask / 4)).isSome = true → (s.cask cask).quarantined = false → s.cached cask = some c →
          c.data = [] → c.poison = 0#64 → (t.cask cask).length = 0 ∧ t.cached cask = none))

/-- TRAIN_REQ of a valid region with COMP_HINT other than 4 that does not train starts a training pass, and the region waits for no slot any more; any other request is ignored (one for a region whose pass runs by the model's choice, log entry 172). TRAIN_PASS_END ends the pass. Where the region is invalid, or its sample gives no table, the regions waiting for a slot train, as many as there are free slots for, the longest waiting first (log entry 177); no table changes, and of an invalid region nothing else does. Where the sample gives a table and a slot is free, every vat channel in service, the trained lengths stand in a slot that was free, with the region's reference, CUR_TABLE names it, and no other table changes but the one CUR_TABLE named. Where no slot is free the region waits for one and TABLE_FULL is set. LOAD of lengths that break R89 reports 2 and changes no table; of legal ones, where a slot is free, they stand in one that was free, held by software, and RESULT 0 shows its id; where none is free it reports 1. RELEASE of a held table ends the hold: the slot is free where no other reference is left, else one reference fewer; of a table that is not held it reports 3 and, LOAD asked for or not, does nothing else; RELEASE with LOAD is the RELEASE and then the LOAD. QLOG_POP removes the press's oldest entry, clears its OVF, and frees the sectors of a detached one. -/
def Obligations.TablesAreTrainedLoadedAndReleased : Prop :=
  (∀ (s : State) (req : Requester) (region : Fin 4096), s.admits req 0x020 0x184 = true →
    (((s.region region.val).valid = true ∧ (s.region region.val).hint ≠ 4 ∧ s.prs.training.contains region.val = false) →
      ∃ t, exec (.trainReq req region) s = .next t ∧ s.changesOnly t [.prs]
        ∧ t.prs = { s.prs with training := s.prs.training ++ [region.val],
                                trainPending := s.prs.trainPending.filter (fun g => decide (g ≠ region.val)) }) ∧
    (((s.region region.val).valid = false ∨ (s.region region.val).hint = 4 ∨ s.prs.training.contains region.val = true) →
      exec (.trainReq req region) s = .next s)) ∧
  (∀ (s : State) (region : Fin 4096), s.prs.training.contains region.val = true →
    let g := region.val
    let r := s.region g
    let others := s.prs.training.filter (fun x => decide (x ≠ g))
    let s1 := { s with prs := { s.prs with training := others } }
    let n := s.tableFree - others.length
    ((r.valid = false ∨ trainTable r.hint (s1.sample r).1 = none) →
      ∃ t, exec (.trainPassEnd region) s = .next t ∧ t.prs.training = others ++ s.prs.trainPending.take n
        ∧ t.prs.trainPending = s.prs.trainPending.drop n ∧ t.prs.tables = s.prs.tables ∧ t.rgn = s.rgn
        ∧ (r.valid = false → s.changesOnly t [.prs])) ∧
    (∀ lens shape, r.valid = true → trainTable r.hint (s1.sample r).1 = some (lens, shape) →
      ((r.curTable < 16 ∨ (s.table r.curTable).lens ≠ []) → (s1.sample r).2.freeTable.1.isSome = true → s.vatWhole →
        ∃ t id, exec (.trainPassEnd region) s = .next t ∧ 16 ≤ id ∧ (s.table id).lens = []
          ∧ t.table id = { lens := lens, shape := shape, refs := 1, region := g }
          ∧ t.region g = { r with curTable := id } ∧ s.regionsBut t g
          ∧ (∀ x, x ≠ id → x ≠ r.curTable → t.table x = s.table x)
          ∧ s.changesOnly t ([.rgn, .prs, .mem, .dram, .freeCtr] ++ signals)) ∧
      ((s1.sample r).2.freeTable.1 = none →
        ∃ t, exec (.trainPassEnd region) s = .next t ∧ t.prs.training = others ∧ t.prs.trainPending = s.prs.trainPending ++ [g]
          ∧ (t.word 0x020 0x018).testBit 10 = true ∧ t.prs.tables = s.prs.tables ∧ t.rgn = s.rgn))) ∧
  (∀ (s : State) (req : Requester), s.admits req 0x020 0x194 = true →
    let lens := lensOfBytes ((List.range 32).flatMap (fun n => leBytes 4 (s.sel req 0x020 (0x1C0 + 4 * n))))
    let id := bits (s.sel req 0x020 0x190) 0 12
    (tableOk lens = false → ∃ t, exec (.load req) s = .next t ∧ t.field 0x020 0x198 0 4 = 2 ∧ t.prs = s.prs ∧ s.changesOnly t signals) ∧
    (tableOk lens = true → s.freeTable.1.isSome = true →
      ∃ t x, exec (.load req) s = .next t ∧ 16 ≤ x ∧ x < 4096 ∧ (s.table x).lens = []
        ∧ t.table x = { lens := lens, shape := bits (s.sel req 0x020 0x190) 16 4, refs := 1, held := true }
        ∧ (∀ y, y ≠ x → t.table y = s.table y)
        ∧ t.field 0x020 0x198 0 4 = 0 ∧ t.field 0x020 0x198 16 12 = x ∧ s.changesOnly t [.reg, .prs, .freeCtr]) ∧
    (tableOk lens = true → s.freeTable.1 = none →
      ∃ t, exec (.load req) s = .next t ∧ t.field 0x020 0x198 0 4 = 1 ∧ t.prs = s.prs ∧ s.changesOnly t (.freeCtr :: signals)) ∧
    (16 ≤ id → (s.table id).held = true → (s.table id).lens ≠ [] →
      ∃ t, exec (.tblRelease req false) s = .next t ∧ t.field 0x020 0x198 0 4 = 0 ∧ s.changesOnly t [.reg, .prs]
        ∧ t.table id = (if (s.table id).refs ≤ 1 then {} else { s.table id with held := false, refs := (s.table id).refs - 1 })
        ∧ (∀ y, y ≠ id → t.table y = s.table y)
        ∧ exec (.tblRelease req true) s = exec (.load req) t) ∧
    (id < 16 ∨ (s.table id).held = false →
      ∃ t, exec (.tblRelease req false) s = .next t ∧ exec (.tblRelease req true) s = .next t ∧ t.field 0x020 0x198 0 4 = 3 ∧ s.changesOnly t [.reg])) ∧
  (∀ (s : State) (req : Requester) (press : Fin 48), s.admits req (prsPage press.val) 0x11C = true →
    ((∀ e ∈ s.prs.qlog, e.press ≠ press.val) → exec (.qlogPop req press) s = .next s) ∧
    (∀ e, s.prs.qlog.find? (fun e => decide (e.press = press.val)) = some e →
      ∃ t, exec (.qlogPop req press) s = .next t ∧ t.prs.qlog = s.prs.qlog.eraseP (fun x => decide (x.press = press.val))
        ∧ sget 0 t.prs.qlogOvf press.val = 0
        ∧ (e.detached = false → s.changesOnly t [.prs])
        ∧ (e.detached = true → ∀ i, i < e.length → sget false t.mem.sectorUse (sectorKey e.package (e.sector + i)) = false)))

/-- DOORBELL_WRITE by a requester that may act: it is there, meets no IDE rule and has nothing waiting. Of a queue it may not ring: bit 9 of the queue manager's ERR_STATUS is set and no queue changes. Of a disabled queue: no effect. Of a queue in another state (a disabling one among them, by the model's choice, log entry 177) with no watch completion waiting: a tail below the depth becomes the tail and a head within the posted completions becomes the head, and only the queue changes; a tail at or above the depth leaves the tail and halts a running queue with status 26. BAR2_BAD_ACCESS by a port that may act, of a wrong width or alignment, is recorded as an ACCESS error of page 0x0B0 with its offset and port and changes nothing else, and a read of that kind answers zero; a well-formed read answers the words last written to the doorbell, where the port's function owns the queue, else zero; a well-formed write acts through DOORBELL_WRITE and has no effect here. -/
def Obligations.DoorbellsMoveTheRing : Prop :=
  (∀ (s : State) (req : Requester) (q v : Nat), q < 65536 → s.acting req = true →
    ((s.queue q).refusesBell req = true →
      ∀ tail head, ∃ t, exec (.doorbellWrite req q tail head) s = .next t ∧ (t.word 0x0B0 0x018).testBit 9 = true ∧ s.changesOnly t signals) ∧
    ((s.queue q).refusesBell req = false → (s.queue q).state = 0 → ∀ tail head, exec (.doorbellWrite req q tail head) s = .next s) ∧
    ((s.queue q).refusesBell req = false → (s.queue q).state ≠ 0 → (s.queue q).watch = [] →
      (v < (s.queue q).depth →
        ∃ t, exec (.doorbellWrite req q (some v) none) s = .next t ∧ s.changesOnly t [.qmg] ∧ (∀ x, x ≠ q → t.queue x = s.queue x)
          ∧ t.queue q = { s.queue q with sqTail := v, doorbell := BitVec.ofNat 64 (setBits (s.queue q).doorbell.toNat 0 32 v) }) ∧
      (v < (s.queue q).depth → (v + (s.queue q).depth - (s.queue q).cqHead) % (s.queue q).depth ≤ (s.queue q).posted →
        ∃ t, exec (.doorbellWrite req q none (some v)) s = .next t ∧ s.changesOnly t [.qmg] ∧ (∀ x, x ≠ q → t.queue x = s.queue x)
          ∧ t.queue q = { s.queue q with cqHead := v, doorbell := BitVec.ofNat 64 (setBits (s.queue q).doorbell.toNat 32 32 v) }) ∧
      ((s.queue q).depth ≤ v → (s.queue q).state = 1 →
        ∃ t, exec (.doorbellWrite req q (some v) none) s = .next t ∧ (t.queue q).state = 2 ∧ (t.queue q).haltStatus = 26
          ∧ (t.queue q).sqTail = (s.queue q).sqTail ∧ (∀ x, x ≠ q → t.queue x = s.queue x)))) ∧
  (∀ (s : State) (p : Port) (offset width : Nat), s.acting (.port p) = true →
    let q := offset / 8 % 65536
    (goodAccess (offset % 8) width = false →
      ∃ u, exec (.bar2BadAccess p offset width true) s = .next u ∧ exec (.bar2BadAccess p offset width false) s = .next (u.emit (.readData (.port p) 0#64))
        ∧ s.recorded u 0x0B0 1 (offset % 4096) (.port p) ∧ s.changesOnly u signals) ∧
    (goodAccess (offset % 8) width = true →
      exec (.bar2BadAccess p offset width true) s = .next s
        ∧ exec (.bar2BadAccess p offset width false) s = .next (s.emit (.readData (.port p)
            (BitVec.ofNat 64 (if (s.queue q).ownedBy (.port p) then s.bellWord q (offset % 8) width else 0))))))

/-- By a requester admitted to QMG_Q_CMD that has the full set or owns the queue it selects. ENABLE of a disabled, owned queue with a legal configuration: it runs with its pointers and counters at their start and PHASE 1, a chain or a surrogate call whose entry the streamer or Shombe had put into its ring is held to be in no ring any more, so that the command that starts it next puts it into a queue anew (log entry 165), and where a half of one of its bases is held SKEW is set; with a ring in host memory or a vector that its owner does not allow: a CONFIG error; of a queue that is not disabled or has no owner: an ACCESS error. DISABLE of a running or halted queue for which no completion is held and whose import session, if any, has committed nothing: it is disabling, each of its fetched EDITION_WAITs ends with status 25, and an import session of it ends. RESTART of a halted queue whose port is not contained and for which nothing is held: it runs, HALT_STATUS 0; of one that is not halted, or whose port is contained: an ACCESS error. Each of the three by a requester that reaches neither: an ACCESS error. DISABLE_DONE of a disabling queue with nothing in flight, nothing held and no watch copy waiting (that it waits for the copies is the model's choice, log entry 172): it is disabled; of any other, no effect. OWNER_WRITE by an admitted port or core: a disabled queue takes a legal KIND and ID, else a CONFIG error is recorded and no queue changes; the trust core and the debug port have no effect. -/
def Obligations.QueuesAreEnabledAndDisabled : Prop :=
  (∀ (s : State) (req : Requester), s.admits req 0x0B1 0x120 = true →
    let q := bits (s.sel req 0x0B1 0x100) 0 16
    let k := s.queue q
    (s.fullSet req || k.ownedBy req) = true →
    (k.state = 0 → k.ownKind ≠ 0 → ((k.sqHost = false ∧ k.cqHost = false) ∨ k.ownKind = 1) → (k.ownKind = 1 → k.vector < 2048) →
      ∃ t, exec (.enable req) s = .next t ∧ (∀ x, x ≠ q → t.queue x = s.queue x)
        ∧ t.queue q = { k with state := 1, haltStatus := 0, sqHead := 0, sqTail := 0, cqTail := 0, cqHead := 0, phase := true,
                                unsignalled := 0, firstUnsig := none, refusedCpl := false, pendHalt := none }
        ∧ ((∀ h ∈ s.reg.half, h.1 ≠ baseHalfKey q 0x110 ∧ h.1 ≠ baseHalfKey q 0x118) → s.changesOnly t [.qmg, .lst, .svc])
        ∧ ((∃ h ∈ s.reg.half, h.1 = baseHalfKey q 0x110 ∨ h.1 = baseHalfKey q 0x118) →
            s.recorded t 0x0B0 2 0x120 req ∧ s.changesOnly t (.qmg :: .lst :: .svc :: signals))
        ∧ t.lst = { s.lst with jobs := s.lst.jobs.map (fun j =>
            if j.chainEntry.any (fun e => decide (e.1 = q)) then { j with chainEntry := none } else j) }
        ∧ t.svc = { s.svc with models := s.svc.models.map (fun m =>
            if m.2.entry.any (fun e => decide (e.1 = q)) then (m.1, { m.2 with entry := some (65536, 0) }) else m) }) ∧
    (k.state = 0 → k.ownKind ≠ 0 → (((k.sqHost = true ∨ k.cqHost = true) ∧ k.ownKind ≠ 1) ∨ (k.ownKind = 1 ∧ 2048 ≤ k.vector)) →
      ∃ t, exec (.enable req) s = .next t ∧ s.recorded t 0x0B0 0 0x120 req ∧ s.changesOnly t signals) ∧
    (k.state ≠ 0 ∨ k.ownKind = 0 →
      ∃ t, exec (.enable req) s = .next t ∧ s.recorded t 0x0B0 1 0x120 req ∧ s.changesOnly t signals) ∧
    (k.state = 1 ∨ k.state = 2 → k.held = [] → (∀ y, s.sessionOf q = some y → y.committed = 0) →
      ∃ t, exec (.disable req) s = .next t ∧ (∀ x, x ≠ q → t.queue x = s.queue x)
        ∧ t.queue q = { k with state := 3, haltStatus := 0, pendHalt := none, refusedCpl := false }
        ∧ t.sessionOf q = none ∧ (s.sessionOf q = none → s.changesOnly t [.qmg, .ports])
        ∧ ∀ e, e ∈ s.entriesOf q → e.opcode = 0x43 → e.stage ≤ 2 → s.entry q e.seq = some e →
            ∃ x, t.entry q e.seq = some x ∧ x.stage = 3 ∧ x.status = 25) ∧
    (k.state = 2 → (∀ p, k.port = some p → s.contained p = false) → k.held = [] → k.watch = [] →
      ∃ t, exec (.restart req) s = .next t ∧ s.changesOnly t [.qmg] ∧ (∀ x, x ≠ q → t.queue x = s.queue x)
        ∧ t.queue q = { k with state := 1, haltStatus := 0, refusedCpl := false }) ∧
    (k.state ≠ 2 ∨ (∃ p, k.port = some p ∧ s.contained p = true) →
      ∃ t, exec (.restart req) s = .next t ∧ s.recorded t 0x0B0 1 0x120 req ∧ s.changesOnly t signals)) ∧
  (∀ (s : State) (req : Requester), s.admits req 0x0B1 0x120 = true →
    (s.fullSet req || (s.queue (bits (s.sel req 0x0B1 0x100) 0 16)).ownedBy req) = false →
    ∀ c ∈ [Instr.enable req, .disable req, .restart req],
      ∃ t, exec c s = .next t ∧ s.recorded t 0x0B0 1 0x120 req ∧ s.changesOnly t signals) ∧
  (∀ (s : State) (q : Nat), q < 65536 →
    ((s.queue q).state = 3 → s.entriesOf q = [] → (s.queue q).held = [] → (s.queue q).watch = [] →
      ∃ t, exec (.disableDone q) s = .next t ∧ s.changesOnly t [.qmg] ∧ t.queue q = { s.queue q with state := 0 }
        ∧ ∀ x, x ≠ q → t.queue x = s.queue x) ∧
    ((s.queue q).state ≠ 3 ∨ s.entriesOf q ≠ [] ∨ (s.queue q).held ≠ [] ∨ (s.queue q).watch ≠ [] → exec (.disableDone q) s = .next s)) ∧
  (∀ (s : State) (req : Requester) (kind id : Nat), s.admits req 0x0B0 0x114 = true → (∃ p, req = .port p) ∨ (∃ l, req = .core l) →
    let q := bits (s.sel req 0x0B0 0x110) 0 16
    kind < 4 → id < 256 →
    ((s.queue q).state = 0 → ownReserved kind id = false →
      ∃ t, exec (.ownerWrite req kind id) s = .next t ∧ s.changesOnly t [.qmg] ∧ t.queue q = { s.queue q with ownKind := kind, ownId := id }
        ∧ ∀ x, x ≠ q → t.queue x = s.queue x) ∧
    ((s.queue q).state ≠ 0 ∨ ownReserved kind id = true →
      ∃ t, exec (.ownerWrite req kind id) s = .next t ∧ s.recorded t 0x0B0 0 0x114 req ∧ s.changesOnly t signals)) ∧
  (∀ (s : State) (req : Requester) (kind id : Nat), s.admits req 0x0B0 0x114 = true → req = .trust ∨ req = .debug →
    exec (.ownerWrite req kind id) s = .next s)

/-- SQ_FETCH of the queue whose turn it is. With its ring in the vat, its line readable and no line held or waited for: the entry in the line at SQ_HEAD joins those in flight and SQ_HEAD advances modulo the depth, but a JOB_SUBMIT that the layer streamer has no place for stays on its ring; a poisoned line halts the queue with status 27. With its ring in host memory, where its port may issue and has a tag never used: a read of the entry's 64 bytes goes out. Of any other queue that took no place in a line's order, no effect. ENTRY_START of the oldest unstarted entry, which with FENCE must be the oldest of its queue, with fewer started entries than MAX_INFLIGHT (that it counts those is the model's reading of R271, log entry 30) and not held back: it has started, or where it breaks the opcode table it has ended with status 2. NOP of a started NOP ends it with status 0 and changes nothing else. ENTRY_COMPLETE of an ended entry, no import session's entries before it, of a queue with its completion ring in host memory, no signals and nothing held: the 32 bytes are sent to the slot at CQ_TAIL, which advances and flips PHASE at the ring's end; where the port may not issue, the completion is held. AGG_TIMEOUT of a queue with unsignalled completions: the time base has reached the first of them and AGG_US at least, and none is unsignalled. -/
def Obligations.EntriesAreFetchedStartedAndCompleted : Prop :=
  (∀ (s : State) (q : Nat), q < 65536 → s.fetchTurn = some q → (s.queue q).sqHost = false → s.unheld →
    let k := s.queue q
    let a := k.sqBase + 64 * k.sqHead
    let line := s.lineAt a
    let entry := entryOf q k.nextSeq line.1
    let full := s.submitsFull = true ∧ entry.opcode = 0x20
    s.readable k.actor a → k.state = 1 →
    ∃ t, exec (.sqFetch q []) s = .next t ∧ t.qmg.lastFetch = q ∧ s.keepsBytes t ∧
      (line.2 = false → ¬ full →
        t.qmg.entries = s.qmg.entries ++ [entry] ∧ s.changesOnly t (.qmg :: lineTraffic)
          ∧ t.queue q = { k with sqHead := (k.sqHead + 1) % k.depth, nextSeq := k.nextSeq + 1 }) ∧
      (line.2 = false → full → t.qmg.entries = s.qmg.entries ∧ t.qmg.queues = s.qmg.queues ∧ s.changesOnly t (.qmg :: lineTraffic)) ∧
      (line.2 = true → (t.queue q).state = 2 ∧ (t.queue q).haltStatus = 27 ∧ t.qmg.entries = s.qmg.entries)) ∧
  (∀ (s : State) (q : Nat) (p : Port), q < 65536 → s.fetchTurn = some q → (s.queue q).sqHost = true → (s.queue q).port = some p → s.canMaster p = true →
    (s.port p).nextTag < tagLimit →
    ∃ t, exec (.sqFetch q []) s = .next t ∧ s.changesOnly t [.qmg, .ports, .out] ∧ t.qmg = { s.qmg with lastFetch := q }
      ∧ t.out = s.out ++ [.dmaRead p.val (s.port p).nextTag ((s.queue q).sqBase + 64 * (s.queue q).sqHead) 64]) ∧
  (∀ (s : State) (q : Nat) (host : HostLines), q < 65536 → s.fetchTurn ≠ some q → (∀ w ∈ s.dir.waiting, placeOf (.sqFetch q host) w = false) →
    exec (.sqFetch q host) s = .next s) ∧
  (∀ (s : State) (q : Nat) (e : Entry), q < 65536 → (s.entriesOf q).find? (fun e => decide (e.stage = 0)) = some e → s.entry q e.seq = some e →
    (e.fence = true → ((s.entriesOf q).head?.map (fun x => x.seq)) = some e.seq) → ((s.entriesOf q).filter (fun x => decide (x.stage ≠ 0))).length < (s.queue q).maxInflight → s.startHeld e = false →
    ∃ t, exec (.entryStart q) s = .next t ∧ s.changesOnly t [.qmg] ∧ t.qmg.queues = s.qmg.queues ∧
      ((entryBad (s.queue q) e || s.proxyBad e) = false → t.entry q e.seq = some { e with stage := 1, startedAt := s.now }) ∧
      ((entryBad (s.queue q) e || s.proxyBad e) = true → ∃ x, t.entry q e.seq = some x ∧ x.stage = 3 ∧ x.status = 2 ∧ x.endedAt = s.now)) ∧
  (∀ (s : State) (q seq : Nat) (e : Entry), s.entry q seq = some e → e.stage = 1 → e.opcode = 0 →
    ∃ t, exec (.nop q seq) s = .next t ∧ s.changesOnly t [.qmg] ∧ t.qmg.queues = s.qmg.queues
      ∧ t.entry q seq = some { e with stage := 3, status := 0, v0 := 0, v1 := 0, v2 := 0, endedAt := s.now }) ∧
  (∀ (s : State) (q seq : Nat) (e : Entry) (p : Port), s.entry q seq = some e → e.stage = 3 → haltsOn e.status = false →
    (s.queue q).cqHost = true → (s.queue q).port = some p → (s.queue q).intEn = false → (s.queue q).held = [] → (s.queue q).watch = [] →
    (s.queue q).pendHalt = none → ((s.queue q).refusedCpl = false ∨ (s.queue q).state ≠ 2) → s.importBefore e = false →
    let k := s.queue q
    let c : Cpl := { cid := e.cid, src := q, status := e.status, watch := false, v0 := e.v0, v1 := e.v1, v2 := e.v2, time := e.endedAt, noInt := e.noInt }
    let wraps := decide (k.cqTail + 1 = k.depth)
    ∃ t, exec (.entryComplete q seq) s = .next t ∧ t.qmg.entries = s.qmg.entries.filter (fun x => !(decide (x.queue = q ∧ x.seq = seq))) ∧
      (s.canMaster p = true →
        t.out = s.out ++ [.dmaWrite p.val (k.cqBase + 32 * k.cqTail) (cplBytes c k.sqHead k.phase) false k.cls] ∧ s.changesOnly t [.reg, .qmg, .out]
          ∧ t.queue q = { k with cqTail := if wraps then 0 else k.cqTail + 1, phase := if wraps then !k.phase else k.phase }) ∧
      (s.canMaster p = false → t.queue q = { k with held := [c] } ∧ s.changesOnly t [.qmg])) ∧
  (∀ (s : State) (q t0 : Nat), (s.queue q).firstUnsig = some t0 → (s.queue q).aggUs ≠ 0 →
    ∃ t, exec (.aggTimeout q) s = .next t ∧ t.now = max s.now (t0 + us * (s.queue q).aggUs) ∧ (t.queue q).unsignalled = 0
      ∧ (t.queue q).firstUnsig = none ∧ t.qmg.entries = s.qmg.entries)

/-- A started HOST_READ or HOST_WRITE of a queue owned by a port. While the port is contained it ends with status 6; with Bus Master Enable clear it ends with status 5. Where the port may issue and no line is held or waited for: HOST_READ of a run that fits one read sends that read with a fresh tag and awaits its bytes; HOST_WRITE of one readable vat line sends the line, with EP where it is poisoned, and ends with status 0 and 64 bytes. DMA_COMPLETION for a tag that is not in use is counted in EVT_CNT3 and recorded in AER, a poisoned one as received poison too, and nothing else changes (R279 speaks of tags in quarantine: log entry 177); the 64 bytes that a waiting CXL.mem read asked for reach its port, and the tag is free. DMA_READ_TIMEOUT of a ring fetch of a running queue: the time base has reached its limit, the tag is quarantined, and the queue is halted with status 7. TAG_QUARANTINE_END, with nothing waiting, no entry in flight and no move copying: twice the limit has passed and the tag is free. -/
def Obligations.DmaReadsAndWritesAreCarriedOut : Prop :=
  (∀ (s : State) (q seq : Nat) (e : Entry) (p : Port), s.entry q seq = some e → e.stage = 1 → (s.queue q).port = some p →
    (∀ c ∈ [Instr.hostRead q seq, .hostWrite q seq []], e.opcode = (match c with | .hostRead .. => 1 | _ => 2) →
      (s.contained p = true → ∃ t x, exec c s = .next t ∧ t.entry q seq = some x ∧ x.stage = 3 ∧ x.status = 6 ∧ s.changesOnly t [.qmg]) ∧
      (s.contained p = false → (s.port p).bme = false →
        ∃ t x, exec c s = .next t ∧ t.entry q seq = some x ∧ x.stage = 3 ∧ x.status = 5 ∧ (t.word (prtPage p) 0x018).testBit 12 = true)) ∧
    (s.contained p = false → s.canMaster p = true → s.unheld →
      (e.opcode = 1 → e.issued = 0 → 0 < e.a2 → e.a2 ≤ max 64 (s.port p).mrrs → (s.port p).nextTag < 4096 →
        ∃ t, exec (.hostRead q seq) s = .next t ∧ t.out = s.out ++ [.dmaRead p.val (s.port p).nextTag e.a0 e.a2]
          ∧ t.entry q seq = some { e with stage := 2, issued := e.a2 } ∧ s.changesOnly t [.ports, .qmg, .out]
          ∧ (t.port p).nextTag = (s.port p).nextTag + 1) ∧
      (e.opcode = 2 → e.a2 = 64 → s.readable (s.queue q).actor e.a0 →
        ∃ t, exec (.hostWrite q seq []) s = .next t
          ∧ t.out.getLast? = some (.dmaWrite p.val e.a1 (s.lineAt e.a0).1 (s.lineAt e.a0).2 (s.queue q).cls) ∧ s.keepsBytes t
          ∧ t.entry q seq = some { e with stage := 3, status := 0, v0 := 0, v1 := 0, v2 := 64, endedAt := s.now }
          ∧ s.changesOnly t (.qmg :: lineTraffic)))) ∧
  (∀ (s : State) (p : Port) (tag offset : Nat) (data : List Byte) (ep : Bool),
    (s.tagOf p tag = none →
      ∃ t, exec (.dmaCompletion p tag offset data ep) s = .next t ∧ (t.port p).aer.getLsbD 3 = true ∧ s.changesOnly t signals
        ∧ t.word 0x0B0 0x034 = (if s.field 0x0B0 0x008 0 1 = 1 then s.word 0x0B0 0x034 else (s.word 0x0B0 0x034 + 1) % 2 ^ 32)
        ∧ (ep = false → s.changesOnly t [.reg, .ports]) ∧ (ep = true → (t.word (prtPage p) 0x018).testBit 15 = true ∧ (t.port p).aer.getLsbD 1 = true)) ∧
    (∀ (old : Tag) (r : MemReq) (o : Port), s.tagOf p tag = some old → old.quarantined = false → old.consumer = .demand r → old.bytes = 64 →
      old.got = [] → data.length = 64 → offset = 0 → ep = false → old.ep = [] → r.op = 0 → r.poison = false → r.port = o.val → s.portTakes o = true → s.calm → s.qmg.entries = [] →
      (∀ m ∈ s.rck.moves, m.phase ≠ .copy) →
      ∃ t, exec (.dmaCompletion p tag offset data ep) s = .next t ∧ t.out.getLast? = some (.memData o.val r.tag data false)
        ∧ t.tagOf p tag = none ∧ s.changesOnly t [.ports, .out])) ∧
  (∀ (s : State) (p : Port) (tag q seq : Nat) (x : Tag), s.tagOf p tag = some x → x.quarantined = false → x.consumer = .ring q seq →
    (s.queue q).state = 1 → s.calm →
    ∃ t, exec (.dmaReadTimeout p tag) s = .next t ∧ t.now = max s.now (x.issuedAt + us * x.timeoutUs) ∧ (t.queue q).state = 2
      ∧ (t.queue q).haltStatus = 7 ∧ ∃ y, t.tagOf p tag = some y ∧ y.quarantined = true) ∧
  (∀ (s : State) (p : Port) (tag : Nat) (x : Tag), s.tagOf p tag = some x →
    (x.quarantined = true → s.calm → s.qmg.entries = [] → (∀ m ∈ s.rck.moves, m.phase ≠ .copy) →
      ∃ t, exec (.tagQuarantineEnd p tag) s = .next t ∧ t.now = max s.now (x.issuedAt + 2 * us * x.timeoutUs) ∧ t.tagOf p tag = none
        ∧ s.changesOnly t [.now, .ports]) ∧
    (x.quarantined = false → exec (.tagQuarantineEnd p tag) s = .next s))

/-- A started edition entry for a region, whose actor is the owner of its queue. PUBLISH of a valid published region by a writer, with no broken draft and fewer than two publications to fold: with d the distance of the new edition ahead of the region's, modulo 2^32, d of 1 to MAX_JUMP is accepted, the region shows the edition and its writer, the writer's draft becomes a publication, and the entry ends with status 0; d of 0 ends with 22 for the same writer, else 19; a larger d ends with 21 up to 2^31 and 20 beyond, and the region is as before; a broken draft is discarded and ends it with 23; with two publications to fold it waits. PUBLISH and DRAFT_DISCARD of an invalid region end with 24, of one that is not published with 18, by a port that may not write with 1. DRAFT_DISCARD frees the draft's slots and reports their number, 0 where there is no draft. EDITION_QUERY reports edition and writer. EDITION_WAIT ends at once where the edition is reached, else it waits; EDITION_WAIT_TIMEOUT ends it with 25 after its limit. -/
def Obligations.EditionsArePublished : Prop :=
  ∀ (s : State) (q seq : Nat) (e : Entry), s.entry q seq = some e →
    let k := s.queue q
    let g := e.a0
    let r := s.region g
    let d := (e.dw1 + 2 ^ 32 - r.edition) % 2 ^ 32
    (e.stage = 1 → e.opcode = 0x40 → s.editionCheck g k.actor = none → s.publishWaits g = false →
      (∀ x, s.draftOf g k.actor = some x → x.broken = false) →
      ∃ t x, exec (.publish q seq) s = .next t ∧ t.entry q seq = some x ∧ x.stage = 3 ∧ s.changesOnly t [.reg, .rgn, .edn, .qmg] ∧
        (d ≠ 0 → d ≤ s.word 0x011 0x100 →
          x.status = 0 ∧ t.region g = { r with edition := e.dw1, editionPort := k.actor } ∧ s.regionsBut t g
            ∧ t.edn.pubs = s.edn.pubs ++ [⟨g, e.dw1, k.actor, (match s.draftOf g k.actor with | some y => y.tiles | none => [])⟩]
            ∧ t.draftOf g k.actor = none) ∧
        (d = 0 → x.status = (if k.actor = r.editionPort then 22 else 19) ∧ t.rgn = s.rgn ∧ t.edn = s.edn) ∧
        (d ≠ 0 → s.word 0x011 0x100 < d → x.status = (if d ≤ 2 ^ 31 then 21 else 20) ∧ t.rgn = s.rgn ∧ t.edn = s.edn)) ∧
    (e.stage = 1 → e.opcode = 0x40 → s.editionCheck g k.actor = none →
      (s.publishWaits g = true → exec (.publish q seq) s = .next s) ∧
      (s.publishWaits g = false → ∀ y, s.draftOf g k.actor = some y → y.broken = true →
        ∃ t x, exec (.publish q seq) s = .next t ∧ t.entry q seq = some x ∧ x.stage = 3 ∧ x.status = 23 ∧ t.rgn = s.rgn
          ∧ t.draftOf g k.actor = none ∧ t.edn.pubs = s.edn.pubs ∧ ∀ z ∈ y.tiles, t.useOf z.slot = .free)) ∧
    (e.stage = 1 → ∀ c ∈ [(Instr.publish q seq, 0x40), (.draftDiscard q seq, 0x41)], e.opcode = c.2 →
      ∀ st, s.editionCheck g k.actor = some st →
        st = (if r.valid = false then 24 else if r.kind ≠ 2 then 18 else 1)
          ∧ ∃ t x, exec c.1 s = .next t ∧ t.entry q seq = some x ∧ x.stage = 3 ∧ x.status = st ∧ s.changesOnly t [.qmg]) ∧
    (e.stage = 1 → e.opcode = 0x41 → s.editionCheck g k.actor = none → ∀ y, s.draftOf g k.actor = some y →
      ∃ t x, exec (.draftDiscard q seq) s = .next t ∧ t.entry q seq = some x ∧ x.stage = 3 ∧ x.status = 0 ∧ x.v2 = y.tiles.length % 2 ^ 64
        ∧ t.draftOf g k.actor = none ∧ t.edn.pubs = s.edn.pubs ∧ ∀ z ∈ y.tiles, t.useOf z.slot = .free) ∧
    (e.stage = 1 → e.opcode = 0x41 → s.editionCheck g k.actor = none → s.draftOf g k.actor = none →
      ∃ t x, exec (.draftDiscard q seq) s = .next t ∧ t.entry q seq = some x ∧ x.stage = 3 ∧ x.status = 0 ∧ x.v2 = 0 ∧ s.changesOnly t [.qmg]) ∧
    (e.stage = 1 → e.opcode = 0x42 →
      ∃ t x, exec (.editionQuery q seq) s = .next t ∧ t.entry q seq = some x ∧ x.stage = 3 ∧ x.status = (if r.valid then 0 else 24)
        ∧ x.v0 = r.edition % 2 ^ 32 ∧ x.v1 = r.editionPort % 2 ^ 32 ∧ s.changesOnly t [.qmg]) ∧
    (e.stage = 1 → e.opcode = 0x43 →
      ∃ t x, exec (.editionWait q seq) s = .next t ∧ t.entry q seq = some x ∧ s.changesOnly t [.qmg] ∧
        (r.valid = false → x.stage = 3 ∧ x.status = 24) ∧
        (r.valid = true → (r.edition + 2 ^ 32 - e.dw1) % 2 ^ 32 < 2 ^ 31 → x.stage = 3 ∧ x.status = 0) ∧
        (r.valid = true → 2 ^ 31 ≤ (r.edition + 2 ^ 32 - e.dw1) % 2 ^ 32 → x = { e with stage := 2 })) ∧
    (e.stage = 2 → e.opcode = 0x43 →
      (e.a1 ≠ 0 →
        ∃ t x, exec (.editionWaitTimeout q seq) s = .next t ∧ t.now = max s.now (e.startedAt + us * e.a1) ∧ t.entry q seq = some x
          ∧ x.stage = 3 ∧ x.status = 25 ∧ s.changesOnly t [.now, .qmg]) ∧
      (e.a1 = 0 → exec (.editionWaitTimeout q seq) s = .next s))

/-- PUBLICATION_FOLD of a region with nothing waiting: its oldest publication and every one accepted before that are gone from the list, in the order of their acceptance, and the rest stay. Where the region's oldest publication is the oldest of all and has one tile, at home in another slot of the vat, their channels in service: each line the publication marks is, with its poison, the home's line; every other line of the home's slot is as before; and the draft's slot is free. With no publication of the region to fold it has no effect. -/
def Obligations.PublicationsAreFolded : Prop :=
  ∀ (s : State) (region : Fin 4096),
    ((∀ p ∈ s.edn.pubs, p.region ≠ region.val) → exec (.publicationFold region) s = .next s) ∧
    (s.calm → (∃ p ∈ s.edn.pubs, p.region = region.val) →
      ∃ t, exec (.publicationFold region) s = .next t
        ∧ t.edn.pubs = (s.edn.pubs.dropWhile (fun x => decide (x.region ≠ region.val))).tail ∧ t.edn.drafts = s.edn.drafts) ∧
    (∀ (p : Publication) (rest : List Publication) (d : DraftTile), s.edn.pubs = p :: rest → p.region = region.val → p.tiles = [d] →
      s.home d.tile = 1 → s.loc d.tile ≠ d.slot → (∀ i, i < 256 → s.inService (16384 * d.tile + 64 * i) ∧ s.lineOut d.slot i = false) → s.calm →
      ∃ t, exec (.publicationFold region) s = .next t ∧ t.edn.pubs = rest
        ∧ t.useOf d.slot = .free ∧ t.home d.tile = 1 ∧ t.loc d.tile = s.loc d.tile
        ∧ ∀ i, i < 256 → t.vatLine (s.loc d.tile) i = if d.mask.getLsbD i then s.vatLine d.slot i else s.vatLine (s.loc d.tile) i)

/-- With no line held or waited for, for a started entry of a queue whose port may issue and has a tag free, and a buffer in host memory. CASK_EXPORT of one cellar cask of an unpublished region with no buffer, readable, its channels in service: it sends the stored sectors as they stand, after whatever commands the memory's channels need, and ends with status 0, one cask and their bytes; a quarantined cask ends it with status 9 and no cask; a room too small ends it with status 10 and no cask. CASK_IMPORT with no session and fewer than 16 open, of a segment that holds a legal header and not yet a whole image: a session holds the bytes; a header that breaks R83 ends it with status 12 and no session. CASK_IMPORT_DATA adds to the session and ends with status 0 and the casks staged. IMPORT_TIMEOUT of an incomplete session: its limit has passed, the session is gone and its entry ends with status 11, no cask and the index of the cask that is missing; of a complete one, no effect. IMPORT_COMMIT of a complete session of one cask, of which none is committed or dropped, into a cellar tile that does not move, its channels in service: the staged cask is the stored one, and the session's entry ends with status 0 and 1 cask. -/
def Obligations.CasksAreExportedAndImported : Prop :=
  (∀ (s : State) (q seq : Nat) (e : Entry) (p : Port) (l : List Byte), s.entry q seq = some e → e.stage = 1 → e.host1 = true →
    (s.queue q).port = some p → s.canMaster p = true → (nextTagOf (s.port p)).isSome = true → s.unheld →
    (∀ (g : Nat) (r : Region), e.opcode = 0x30 → e.dw1 = 1 → s.refusal (s.queue q).actor false false e.a0 = none → s.findRegion e.a0 = some (g, r) → r.kind ≠ 2 →
      s.home (tileOf e.a0) = 2 → s.inService e.a0 →
      let c := s.cask (e.a0 / 4096)
      (c.quarantined = true →
        ∃ t x, exec (.caskExport q seq []) s = .next t ∧ t.entry q seq = some x ∧ x.stage = 3 ∧ x.status = 9 ∧ x.v0 = 0 ∧ s.changesOnly t [.qmg, .mem, .dram, .out, .freeCtr]
          ∧ s.keepsBytes t) ∧
      (c.quarantined = false → s.bufOf (e.a0 / 4096) = none → c.length ≠ 0 → (s.getSectors c.package c.sector c.length).2 = false →
        (64 * c.length ≤ e.a2 →
          ∃ t x, exec (.caskExport q seq []) s = .next t ∧ t.entry q seq = some x ∧ x.stage = 3 ∧ x.status = 0 ∧ x.v0 = 1 ∧ x.v2 = 64 * c.length
            ∧ (∃ o, t.out = s.out ++ o ++ ((chunks 64 c.length (s.getSectors c.package c.sector c.length).1).zipIdx).map
                (fun z => .dmaWrite p.val (e.a1 + 64 * z.2) z.1 false (s.queue q).cls))) ∧
        (e.a2 < 64 * c.length →
          ∃ t x, exec (.caskExport q seq []) s = .next t ∧ t.entry q seq = some x ∧ x.stage = 3 ∧ x.status = 10 ∧ x.v0 = 0 ∧ s.changesOnly t [.qmg]))) ∧
    (e.opcode = 0x31 → e.final = false → 0 < e.dw1 → l.length = e.a2 → 64 ≤ l.length → s.sessionOf q = none → s.prs.sessions.length < 16 →
      ((readHead l).wellFormed = true → (readHead l).valuesOk = true → l.length < 64 * (readHead l).sectors →
        ∃ t, exec (.caskImport q seq (some l)) s = .next t ∧ t.entry q seq = some { e with stage := 2 }
          ∧ t.sessionOf q = some { queue := q, seq := seq, dest := e.a0 / 4096, count := e.dw1, tail := l, lastAt := s.now }) ∧
      ((readHead l).wellFormed = false ∨ (readHead l).valuesOk = false →
        ∃ t x, exec (.caskImport q seq (some l)) s = .next t ∧ t.entry q seq = some x ∧ x.stage = 3 ∧ x.status = 12 ∧ t.sessionOf q = none)) ∧
    (∀ y, e.opcode = 0x32 → e.final = false → l.length = e.a2 → s.sessionOf q = some y → y.seq ≠ seq → y.staged.length < y.count → 64 ≤ (y.tail ++ l).length →
      (readHead (y.tail ++ l)).wellFormed = true → (readHead (y.tail ++ l)).valuesOk = true → (y.tail ++ l).length < 64 * (readHead (y.tail ++ l)).sectors →
      ∃ t x, exec (.caskImportData q seq (some l)) s = .next t ∧ t.entry q seq = some x ∧ x.stage = 3 ∧ x.status = 0
        ∧ x.v0 = y.staged.length % 2 ^ 32 ∧ t.sessionOf q = some { y with tail := y.tail ++ l, lastAt := s.now })) ∧
  (∀ (s : State) (q : Nat) (y : Session) (e : Entry), s.sessionOf q = some y → s.entry q y.seq = some e → e.stage ≠ 3 →
    (y.complete = false →
      ∃ t x, exec (.importTimeout q) s = .next t ∧ t.now = max s.now (y.lastAt + us * s.field 0x020 0x240 0 20) ∧ t.sessionOf q = none
        ∧ t.entry q y.seq = some x ∧ x.stage = 3 ∧ x.status = 11 ∧ x.v0 = 0 ∧ x.v1 = y.staged.length % 2 ^ 32) ∧
    (y.complete = true → exec (.importTimeout q) s = .next s) ∧
    (∀ (c : Staged) (g : Nat) (r : Region), y.final = true → y.count = 1 → y.staged = [c] → y.committed = 0 → y.dropped = false → s.moving (y.dest / 4) = false →
      s.refusal (s.queue q).actor true false (4096 * y.dest) = none → s.findRegion (4096 * y.dest) = some (g, r) → r.kind ≠ 2 →
      s.unheld → s.dir.waiting = [] → s.home (y.dest / 4) = 2 → s.inService (4096 * y.dest) → s.bufOf y.dest = none →
      c.package < 64 → c.sector < 2 ^ 30 → 0 < c.bytes.length / 64 → c.bytes.length / 64 < 128 → (readHead c.bytes).method ≠ 1 →
      ∃ t x, exec (.importCommit q) s = .next t ∧ t.sessionOf q = none ∧ t.entry q y.seq = some x ∧ x.stage = 3 ∧ x.status = 0 ∧ x.v0 = 1
        ∧ t.cask y.dest = { sector := c.sector, package := c.package, length := c.bytes.length / 64, method := (readHead c.bytes).method,
                            table := (readHead c.bytes).table, poisonAny := decide ((readHead c.bytes).poison ≠ 0#64) }))

/-- With no line held by a port and nothing waiting. JOB_SUBMIT of a started entry whose header lies in two readable, unpoisoned vat lines, while fewer than 1,024 jobs are QUEUED: a header that obeys the table joins the jobs as QUEUED with those 128 bytes and the rights and class of the queue that its DW1 names or, where that is 0, of its own, and the entry runs; one that does not ends the entry with OUTCOME 3 and CAUSE 1 and adds no job. With 1,024 jobs QUEUED the entry waits. JOB_ABORT of an entry that names no job of its owner ends with status 8 and nothing else changes; one that names an admitted job makes it ABORTING with CAUSE 11, its rows idle and its fills gone, and ends with status 0; one that names a queued job removes it. JOB_WINDOW_GRANTED for the oldest queued job, with FW_READY and RUN set, fewer than 256 jobs admitted, its window within the ceilings, the pool giving the slots, and a readable chain that passes the checks: the job is ADMITTING with that window and a copy of the chain. Without one of the first four, or for another job, it does nothing; while the pool has too few free slots no job changes. JOB_ABORT_DONE of an ABORTING job whose report lies in writable vat lines and whose entry no surrogate call awaits: the job is gone, its slots are free, its report is written, and its entry ends with its outcome and cause. It does nothing for a job in another state that has not ended. -/
def Obligations.JobsAreSubmittedGrantedAndEnded : Prop :=
  ∀ s : State, s.unheld → s.calm →
    (∀ (q seq : Nat) (e : Entry), q < 65536 → s.entry q seq = some e → e.stage = 1 →
      (e.opcode = 0x20 → s.submitsFull = true → exec (.jobSubmit q seq []) s = .next s) ∧
      (e.opcode = 0x20 → s.submitsFull = false → (∀ j ∈ s.lst.jobs, j.id < s.lst.nextJob) → s.servesNot q seq →
        let k := s.queue q
        let r := if e.dw1 = 0 then k else s.queue (bits e.dw1 0 16)
        s.readable r.actor e.a0 → s.readable r.actor (e.a0 + 64) →
        (s.lineAt e.a0).2 = false → (s.lineAt (e.a0 + 64)).2 = false →
        let c := Memory.store [] 0 ((s.lineAt e.a0).1 ++ (s.lineAt (e.a0 + 64)).1)
        ((headOf c).ok = true →
          ∃ t, exec (.jobSubmit q seq []) s = .next t ∧ t.entry q seq = some { e with stage := 2 } ∧ t.lst.nextJob = s.lst.nextJob + 1
            ∧ t.lst.jobs = s.lst.jobs ++ [{ id := s.lst.nextJob, queue := q, seq := seq, cid := e.cid, actor := r.actor, cls := r.cls, ownKind := k.ownKind, ownId := k.ownId, hdrAddr := e.a0, chain := c }]
            ∧ s.changesOnly t (lineTraffic ++ [.qmg, .lst, .svc]) ∧ s.keepsBytes t) ∧
        ((headOf c).ok = false →
          ∃ t x, exec (.jobSubmit q seq []) s = .next t ∧ t.entry q seq = some x ∧ x.stage = 3 ∧ x.status ≤ 1 ∧ x.v0 = 3 + 2 ^ 8
            ∧ t.lst.jobs = s.lst.jobs)) ∧
      (e.opcode = 0x21 → s.jobToAbort (s.queue q) e.a0 = none →
        ∃ t x, exec (.jobAbort q seq) s = .next t ∧ t.entry q seq = some x ∧ x.stage = 3 ∧ x.status = 8 ∧ s.changesOnly t [.qmg]
          ∧ t.qmg.queues = s.qmg.queues) ∧
      (e.opcode = 0x21 → ∀ j, s.jobToAbort (s.queue q) e.a0 = some j → s.job j.id = some j → (j.queue ≠ q ∨ j.seq ≠ seq) →
        (∀ c ∈ s.den.chains, c.entry ≠ some (q, seq)) → s.servesNot q seq →
        (j.state = 1 ∨ j.state = 2 →
          ∃ t x y, exec (.jobAbort q seq) s = .next t ∧ t.entry q seq = some x ∧ x.stage = 3 ∧ x.status = 0
            ∧ t.job j.id = some y ∧ y.state = 3 ∧ y.cause = 11 ∧ y.outcome = 2 ∧ y.endTime = s.now ∧ y.running = 0#16 ∧ y.fills = []
            ∧ s.jobsBut t j.id ∧ (∀ r : Fin 16, nth16 t.tns.runBy r.val ≠ j.id + 1) ∧ (t.word lstPage 0x018).testBit 8 = true) ∧
        (j.state = 0 →
          ∃ t x, exec (.jobAbort q seq) s = .next t ∧ t.entry q seq = some x ∧ x.stage = 3 ∧ x.status = 0
            ∧ t.job j.id = none ∧ s.jobsBut t j.id))) ∧
    (∀ (id : Nat) (j : Job), s.oldestQueued = some j → s.job j.id = some j →
      (id ≠ j.id ∨ s.fwReady = false ∨ s.field lstPage 0x100 0 1 = 0 ∨ 256 ≤ s.admitted.length ∨ s.windowFits j = false → exec (.jobWindowGranted id []) s = .next s) ∧
      (id = j.id → s.fwReady = true → s.field lstPage 0x100 0 1 = 1 → s.admitted.length < 256 → s.windowFits j = true → s.poolFree < j.windowTiles →
        ∃ t, exec (.jobWindowGranted id []) s = .next t ∧ t.lst = s.lst ∧ s.changesOnly t lineTraffic ∧ s.keepsBytes t) ∧
      (id = j.id → s.fwReady = true → s.field lstPage 0x100 0 1 = 1 → s.admitted.length < 256 → s.windowFits j = true → j.windowTiles ≤ s.poolFree →
        (s.takeWindow j.windowTiles).1.length = j.windowTiles → j.hdrAddr % 64 = 0 →
        ∀ lines : List (List Byte), lines.length = 2 * (j.head.count + 1) →
        (∀ i (h : i < lines.length), s.readable j.actor (j.hdrAddr + 64 * i) ∧ s.lineAt (j.hdrAddr + 64 * i) = (lines[i], false)
            ∧ s.useOf (s.loc (tileOf (j.hdrAddr + 64 * i))) ≠ .free) →
        s.chainCause { j with chain := Memory.store [] 0 lines.flatten } false = none →
        ∃ t x, exec (.jobWindowGranted id []) s = .next t ∧ t.job id = some x ∧ x.state = 1 ∧ x.slots.length = j.windowTiles
          ∧ x.chain = Memory.store [] 0 lines.flatten ∧ (∀ y ∈ x.slots, s.useOf y = .free ∧ t.useOf y = .window) ∧ s.jobsBut t id)) ∧
    (∀ (id : Nat) (j : Job), s.job id = some j →
      (j.state ≠ 3 → exec (.jobAbortDone id) s = .next s) ∧
      (j.state = 3 → s.igr.heldSubst = [] → j.queue < 65536 → j.head.watchEn = false → s.servesNot j.queue j.seq →
        s.writable j.actor j.head.report → s.writable j.actor (j.head.report + 64) →
        ∃ t, exec (.jobAbortDone id) s = .next t ∧ t.job id = none ∧ s.jobsBut t id ∧ (∀ y ∈ j.slots, t.useOf y = .free)
          ∧ t.lineAt j.head.report = ((reportBytes { j with outcome := 2 }).take 64, false)
          ∧ t.lineAt (j.head.report + 64) = ((reportBytes { j with outcome := 2 }).drop 64, false)
          ∧ ∀ e, s.entry j.queue j.seq = some e → e.stage ≠ 3 →
              ∃ x, t.entry j.queue j.seq = some x ∧ x.stage = 3 ∧ x.status = (if j.refused then 1 else 0) ∧ x.v0 = (2 + j.cause * 2 ^ 8) % 2 ^ 32))

/-- With no line held by a port. JOB_RUNNING of an ADMITTING job: it is RUNNING from now, its first layer's weights are in place, it asks for that layer's rows, and those are awake; of a job in another state, no effect. FILL_BEGIN of a running layer's next unpinned layer, not begun, with room in the streaming part for its first pass and its spill beside what the job's fills and the running record hold: the job has a fill of it by its plan, in tiles that no other fill or spill holds; without room, no effect. WEIGHTS_IN_PLACE of a fill that runs: it is in place, and holds, unless its reads were issued before, the content of each readable unpoisoned vat line of its slice; a job that waited for it, or was late for it, now asks for its rows and its waiting is counted. LOCK_GROUP_START of a group that may form, all its rows with active clusters: the time base reaches the group's tick, a multiple of 64 ns at least 256 ns after the layer asked; exactly its members run the job, at one level, and the layer begins at pass 0 with no chunk done, its activations kept, spilled or read again as the streamer decided for it, and unless they spill, the lines of its first chunk, where all are readable, unpoisoned vat lines, are loaded; a row with no active cluster aborts a running job with CAUSE 9; a group that may not form is left waiting. -/
def Obligations.LayersAreFilledAndBegun : Prop :=
  ∀ (s : State) (id : Nat) (j : Job), s.unheld → s.job id = some j →
    (j.state ≠ 1 → exec (.jobRunning id []) s = .next s) ∧
    (j.state = 1 →
      let n := (j.nextLayer 0).getD 1
      ∃ t x, exec (.jobRunning id []) s = .next t ∧ t.job id = some x ∧ x.state = 2 ∧ x.startTime = s.now ∧ x.layer = n ∧ x.recNo = n
        ∧ x.inPlace n = true ∧ x.phase = .waitRows ∧ x.askedAt = s.now ∧ t.now = s.now ∧ s.jobsBut t id
        ∧ ∀ r ∈ (j.record n).members, r < 16 → t.rowDormant r = false) ∧
    (∀ (i : Nat) (r : LayerRec), j.state = 2 → j.phase = .running → j.recNo = j.layer → j.layer ≠ 0 → 1 ≤ j.head.prefetch →
      j.records.find? (fun e => decide (j.layer < e.1 ∧ e.2.kind = 1) && !e.2.pin) = some (i, r) → j.fillOf i = none →
      let p := s.planOf j r
      let room := p.1.buffer + p.2 + j.streamUsed
      (room ≤ j.streamTiles →
        ∃ t, exec (.fillBegin id i) s = .next t ∧ s.changesOnly t [.lst] ∧ s.jobsBut t id
          ∧ t.job id = some { j with fills := j.fills ++ [{ recNo := i, q := p.1.q, buffer := p.1.buffer, whole := p.1.whole, spill := p.2, place := j.freeTiles (p.1.buffer + p.2) }] }) ∧
      (j.streamTiles < room → exec (.fillBegin id i) s = .next s)) ∧
    (∀ (i : Nat) (f : Fill), j.fillOf i = some f → f.inPlace = false → j.state = 2 →
      ∃ t x g, exec (.weightsInPlace id i []) s = .next t ∧ t.job id = some x ∧ s.jobsBut t id ∧ x.fillOf i = some g ∧ g.inPlace = true
        ∧ (i ≠ j.recNo → x.phase = j.phase)
        ∧ (i = j.recNo → j.phase = .waitWeights ∨ j.phase = .late →
            x.phase = .waitRows ∧ x.askedAt = s.now ∧ x.waitNs = j.waitNs + (s.now - j.endedAt)
              ∧ x.waited = (if j.phase = .late then j.waited + 1 else j.waited))
        ∧ (f.issued = false → (∀ a ∈ (j.record i).sliceTiles (s.runPlan j i) 0, a % 16384 = 0) →
            ∀ a ∈ (j.record i).sliceTiles (s.runPlan j i) 0, ∀ l, l < 256 → s.readable j.actor (a + 64 * l) → (s.lineAt (a + 64 * l)).2 = false →
              Memory.bytes g.data (a + 64 * l) 64 = (s.lineAt (a + 64 * l)).1)) ∧
    (s.groupReady j = false → exec (.lockGroupStart id []) s = .next s) ∧
    (s.groupReady j = true →
      let m := (j.record j.recNo).members
      ((∀ r ∈ m, s.activeCount r ≠ 0) →
        ∃ t x, exec (.lockGroupStart id []) s = .next t ∧ t.now = s.groupTick j ∧ s.now ≤ t.now ∧ j.askedAt + 256 ≤ t.now ∧ t.now % 64 = 0 ∧ s.jobsBut t id
          ∧ t.job id = some x ∧ x.phase = .running ∧ x.pass = 0 ∧ x.chunks = [] ∧ x.lastRecord = j.recNo ∧ (x.keep, x.spillHeld) = s.actsFor j
          ∧ (x.keep ≤ 1 → (∀ l ∈ (j.record j.recNo).chunkLines 0, s.readable j.actor (64 * l) ∧ (s.lineAt (64 * l)).2 = false) →
              ∀ l ∈ (j.record j.recNo).chunkLines 0, Memory.bytes x.acts (64 * l + x.keepBase (j.record j.recNo).lockBase) 64 = (s.lineAt (64 * l)).1)
          ∧ (∀ r : Fin 16, x.running.getLsbD r.val = decide (r.val ∈ m)
              ∧ nth16 t.tns.runBy r.val = (if r.val ∈ m then id + 1 else nth16 s.tns.runBy r.val))
          ∧ (∀ a ∈ m, ∀ b ∈ m, a < 16 → b < 16 → nth16 t.tns.level a = nth16 t.tns.level b)) ∧
      ((∃ r ∈ m, s.activeCount r = 0) → j.state = 2 →
        ∃ t x, exec (.lockGroupStart id []) s = .next t ∧ t.job id = some x ∧ x.state = 3 ∧ x.cause = 9 ∧ s.jobsBut t id))

/-- With no line held by a port and nothing waiting. CHUNK_BOUNDARY of a row that runs a layer, with chunks left, no member held or a chunk behind it and no codebook number beyond the set: that row has finished one chunk more and no other row has; once every member has finished the pass, a pass that is not the last waits for the next one, and after the last the layer's data-engine chain, where it has one and while no queue is assigned to the streamer (log entry 165), has been started. The first member that ends a chunk has by then loaded the activations of the next, where their homes are read and are readable, unpoisoned vat lines (log entry 63). Of a layer without a chain, where the row writes its own results and the chunk has one result line, a writable vat line, that line holds the layer's outputs of the activations loaded, none of them or of the weights poisoned. With a held member, or one a chunk behind, it has no effect; of a layer whose chain has yet to start, it starts it. SPLIT_PASS_START of a job that waits for its next pass, with no member held, begins it, with no chunk done and, where each pass reads the homes, its first chunk's lines loaded; otherwise no effect. LAYER_END of a layer that has ended, not a fallback's: no row runs the job any more; the next layer asks for its rows where its weights are in place, else waits for them while its deadline is not reached; after the last layer the job is gone. Of a fallback's, the next fallback record asks for its rows; after the last, the layer counts as degraded and the next layer follows. Of a layer that has not ended, no effect. -/
def Obligations.ChunksPassesAndLayersFollow : Prop :=
  ∀ (s : State) (id : Nat) (j : Job), s.unheld → s.calm → s.job id = some j →
    (∀ row : Fin 16,
      let r := j.record j.recNo
      let c := sget 0 j.chunks row.val
      j.phase = .running → j.running.getLsbD row.val = true → c < r.chunks → s.codebookFault j row.val = none →
      ((∃ x ∈ r.members, s.rowHeld x = true) → exec (.chunkBoundary id row []) s = .next s) ∧
      ((∃ x ∈ r.members, sget 0 j.chunks x < c) → exec (.chunkBoundary id row []) s = .next s) ∧
      ((∀ x ∈ r.members, s.rowHeld x = false ∧ c ≤ sget 0 j.chunks x) →
        ∃ t x, exec (.chunkBoundary id row []) s = .next t ∧ t.job id = some x ∧ s.jobsBut t id ∧ sget 0 x.chunks row.val = c + 1
          ∧ (∀ k, k ≠ row.val → sget 0 x.chunks k = sget 0 j.chunks k) ∧ x.pass = j.pass ∧ x.running = j.running
          ∧ x.phase = (if !x.passDone then .running else if !(s.lastPass j) then .waitPass else if r.denCount = 0 then .running else .chain)
          ∧ (x.phase = .chain → s.ownQueues 3 (fun i => decide (i = 0)) = [] → x.chainDue = false ∧ t.den.nextChain = s.den.nextChain + 1)
          ∧ (let p := s.runPlan j j.recNo
             let lo := 256 * c
             let hi := min (256 * (c + 1)) r.m
             let b := elemBits r.oF
             ∀ a n0 m, r.denCount = 0 → r.split = 0 → r.outLines lo hi (r.rowShare p j.pass (row.val - r.lockBase)).1 = [(a, n0, m)] →
               (∀ i, sget false j.actPoison i = false) → (∀ i, sget false (j.weightsOf j.recNo).2 i = false) → s.writable j.actor a →
               t.lineAt a = (packLine b (((List.range (512 / b)).map (fun i => n0 + i) |>.filter (fun n => decide (n < r.n))).map (fun n =>
                 r.finish (s.layerSum r p j.pass (fun a => (Memory.rd (j.weightsOf j.recNo).1 a).toNat) (fun a => (Memory.rd j.acts (a + j.keepBase row.val)).toNat) row.val m n).1)), false))
          ∧ ((∀ y ∈ r.members, sget 0 j.chunks y ≤ c) → c + 1 < r.chunks → j.actsHeld = false →
              (∀ l ∈ r.chunkLines (c + 1), s.readable j.actor (64 * l) ∧ (s.lineAt (64 * l)).2 = false) →
              ∀ l ∈ r.chunkLines (c + 1), Memory.bytes x.acts (64 * l + j.keepBase r.lockBase) 64 = (s.lineAt (64 * l)).1))) ∧
    (∀ row : Fin 16, j.phase = .chain → j.chainDue = true → j.chainEntry = none → s.ownQueues 3 (fun i => decide (i = 0)) = [] →
      ∃ t x, exec (.chunkBoundary id row []) s = .next t ∧ t.job id = some x ∧ s.jobsBut t id ∧ x.phase = .chain ∧ x.chainDue = false
        ∧ t.den.nextChain = s.den.nextChain + 1) ∧
    (j.phase = .waitPass → (∃ x ∈ (j.record j.recNo).members, s.rowHeld x = true) → exec (.splitPassStart id []) s = .next s) ∧
    (j.phase = .waitPass → (∀ x ∈ (j.record j.recNo).members, s.rowHeld x = false) →
      ∃ t x, exec (.splitPassStart id []) s = .next t ∧ t.job id = some x ∧ s.jobsBut t id ∧ x.phase = .running ∧ x.pass = j.pass + 1 ∧ x.chunks = []
        ∧ x.extraPasses = j.extraPasses + 1 ∧ x.splitLayers = (if j.pass = 0 then j.splitLayers + 1 else j.splitLayers)
        ∧ (let r := j.record j.recNo
           j.keep = 0 → (∀ l ∈ r.chunkLines 0, s.readable j.actor (64 * l) ∧ (s.lineAt (64 * l)).2 = false) →
             ∀ l ∈ r.chunkLines 0, Memory.bytes x.acts (64 * l + j.keepBase r.lockBase) 64 = (s.lineAt (64 * l)).1)) ∧
    (j.phase ≠ .waitPass → exec (.splitPassStart id []) s = .next s) ∧
    (s.layerEnded j = false → exec (.layerEnd id) s = .next s) ∧
    (s.layerEnded j = true → j.fallback = false →
      ∃ t, exec (.layerEnd id) s = .next t ∧ s.jobsBut t id ∧ (∀ r : Fin 16, nth16 t.tns.runBy r.val ≠ id + 1) ∧
        (j.nextLayer j.layer = none → t.job id = none) ∧
        (∀ n, j.nextLayer j.layer = some n →
          (j.inPlace n = true → ∃ x, t.job id = some x ∧ x.layer = n ∧ x.recNo = n ∧ x.phase = .waitRows ∧ x.askedAt = s.now ∧ x.running = 0#16) ∧
          (j.inPlace n = false → s.deadlineReached { j with layer := n } = false →
            ∃ x, t.job id = some x ∧ x.layer = n ∧ x.recNo = n ∧ x.phase = .waitWeights ∧ x.endedAt = s.now ∧ x.running = 0#16))) ∧
    (s.layerEnded j = true → j.fallback = true →
      ∃ t, exec (.layerEnd id) s = .next t ∧ s.jobsBut t id ∧ (∀ r : Fin 16, nth16 t.tns.runBy r.val ≠ id + 1) ∧
        (0 < j.fbLeft → ∃ x, t.job id = some x ∧ x.layer = j.layer ∧ x.recNo = j.recNo + 1 ∧ x.fbLeft = j.fbLeft - 1 ∧ x.phase = .waitRows
          ∧ x.askedAt = s.now ∧ x.degraded = j.degraded) ∧
        (j.fbLeft = 0 → j.nextLayer j.layer = none → t.job id = none) ∧
        (∀ n, j.fbLeft = 0 → j.nextLayer j.layer = some n → n ≠ j.recNo → j.inPlace n = true →
          ∃ x, t.job id = some x ∧ x.layer = n ∧ x.recNo = n ∧ x.phase = .waitRows ∧ x.askedAt = s.now
            ∧ x.degraded = j.degraded + 1 ∧ x.lastDeg = j.layer))

/-- For a RUNNING job. LAYER_DEADLINE of a layer that waits for its weights: the time base reaches the deadline and bit 11 of the LST page is set; under policy 0 the layer is late from now, under policy 1 the first fallback record asks for its rows with the others to follow and the layer's fill is gone, else the job is aborted with CAUSE 6. LATE_WAIT_EXPIRY of a late layer: its limit is reached and the job is aborted with CAUSE 5. OVERRUN of a layer that runs aborts it with CAUSE 12. Each has no effect in another phase. ROW_FAULT of cause 1, 2, 3 or 5 of a row that runs a job, or of cause 4 where a weight of the row's share has a codebook number beyond the set: the job is aborted with CAUSE 7 and names the row, cause and cluster (0 for causes 3 and 5), and the row's page shows cause, cluster and time, and of cause 3 from a collision COLLISION is set; of cause 4 without such a number it has no effect. Of a row whose job another row's fault has aborted in this nanosecond, the row's page shows its own fault and no job changes; of a row whose layer ended in this nanosecond with a late decision for the next, the fault governs: the job is aborted with CAUSE 7. With none of these it has no effect. An aborted job is ABORTING, its rows idle and its fills gone, and no other job changes. -/
def Obligations.LateLayersAndFaultsFollowTheirPolicy : Prop :=
  (∀ (s : State) (id : Nat) (j : Job), s.job id = some j → j.state = 2 →
    let stops (t : State) (cause : Nat) : Prop := ∃ x, t.job id = some x ∧ x.state = 3 ∧ x.outcome = 2 ∧ x.cause = cause ∧ x.running = 0#16 ∧ x.fills = []
    let r := j.record j.layer
    (j.phase = .waitWeights →
      ∃ t, exec (.layerDeadline id) s = .next t ∧ t.now = max s.now ((j.layerAt / 1000 + r.deadline) * 1000) ∧ s.jobsBut t id
        ∧ (t.word lstPage 0x018).testBit 11 = true
        ∧ (r.policy = 0 → ∃ x, t.job id = some x ∧ x.state = 2 ∧ x.phase = .late ∧ x.lateAt = t.now)
        ∧ (r.policy = 1 → ∃ x, t.job id = some x ∧ x.state = 2 ∧ x.phase = .waitRows ∧ x.recNo = r.fbFirst ∧ x.fbLeft = r.fbCount - 1
            ∧ x.layer = j.layer ∧ x.fillOf j.layer = none ∧ x.askedAt = t.now)
        ∧ (2 ≤ r.policy → stops t 6)) ∧
    (j.phase ≠ .waitWeights → exec (.layerDeadline id) s = .next s) ∧
    (j.phase = .late →
      ∃ t, exec (.lateWaitExpiry id) s = .next t ∧ t.now = max s.now (j.lateAt + us * r.maxWait) ∧ s.jobsBut t id ∧ stops t 5) ∧
    (j.phase ≠ .late → exec (.lateWaitExpiry id) s = .next s) ∧
    (j.phase = .running ∨ j.phase = .waitPass ∨ j.phase = .chain →
      ∃ t, exec (.overrun id) s = .next t ∧ t.now = max s.now (j.layerAt + us * (2 ^ 31 - 1)) ∧ s.jobsBut t id ∧ stops t 12) ∧
    (j.phase ≠ .running → j.phase ≠ .waitPass → j.phase ≠ .chain → exec (.overrun id) s = .next s)) ∧
  (∀ (s : State) (row : Fin 16) (phys cause : Nat) (collision : Bool),
    let shows (t : State) (p : Nat) : Prop :=
      t.word (tnsPage row.val) 0x130 = p + cause * 2 ^ 6 ∧ t.word64 (tnsPage row.val) 0x138 = s.now % 2 ^ 64
    let named := if cause = 3 ∨ cause = 5 then 0 else phys % 34
    (∀ j, s.lst.jobs.find? (fun j => decide (nth16 s.tns.runBy row.val = j.id + 1)) = some j → s.job j.id = some j → j.state = 2 →
      (∀ p, ((cause = 1 ∨ cause = 2 ∨ cause = 3 ∨ cause = 5) ∧ p = named) ∨ (cause = 4 ∧ s.codebookFault j row.val = some p ∧ p < 34) →
        ∃ t x, exec (.rowFault row phys cause collision) s = .next t ∧ t.job j.id = some x ∧ s.jobsBut t j.id ∧ x.state = 3 ∧ x.cause = 7
          ∧ x.running = 0#16 ∧ x.fills = [] ∧ x.faultPhys = p ∧ x.faultCause = cause ∧ x.faultRow = row.val ∧ shows t p
          ∧ (cause = 3 → collision = true → (t.word 0x0D0 0x018).testBit 8 = true)) ∧
      (cause = 4 → s.codebookFault j row.val = none → exec (.rowFault row phys cause collision) s = .next s)) ∧
    (s.lst.jobs.find? (fun j => decide (nth16 s.tns.runBy row.val = j.id + 1)) = none →
      let late (j : Job) : Prop := j.state = 3 ∧ j.cause = 7 ∧ j.endTime = s.now ∧ j.rows.getLsbD row.val = true
      ((∀ j ∈ s.lst.jobs, ¬ late j ∧ s.lateNow row.val j = false) → exec (.rowFault row phys cause collision) s = .next s) ∧
      (∀ j, s.lst.jobs.find? (s.lateNow row.val) = some j → s.job j.id = some j → j.state = 2 ∨ j.state = 3 →
        cause = 1 ∨ cause = 2 ∨ cause = 3 ∨ cause = 5 ∨ (cause = 4 ∧ (j.record j.lastRecord).wf = 0) →
        ∃ t x, exec (.rowFault row phys cause collision) s = .next t ∧ t.job j.id = some x ∧ s.jobsBut t j.id ∧ x.state = 3 ∧ x.cause = 7
          ∧ x.faultPhys = named ∧ x.faultCause = cause ∧ x.faultRow = row.val ∧ shows t named) ∧
      (1 ≤ cause → cause ≤ 5 → (∀ j ∈ s.lst.jobs, s.lateNow row.val j = false) → (∃ j ∈ s.lst.jobs, late j ∧ (cause = 4 → (j.record j.recNo).wf = 0)) →
        ∃ t, exec (.rowFault row phys cause collision) s = .next t ∧ shows t named ∧ t.lst = s.lst)) ∧
    (cause = 0 ∨ 5 < cause → exec (.rowFault row phys cause collision) s = .next s))

/-- With no line held by a port. DEN_CHAIN of a started entry whose descriptors lie in readable, unpoisoned vat lines: a chain with those descriptors joins those running, with the queue's rights, or on a queue of the layer streamer as the chain of the job whose entry it is, with that job's; while every engine is in hold it has no effect. For a chain of one descriptor, begun by an entry that has not ended or by the layer of a running job, at an engine not in hold. DESCRIPTOR_START of one that is not bad and lists no sources: with sources that may be used it runs, and each unit waits at the engine that its destination tile gives; with others, or where it is bad, the chain ends, and the entry ends with status 3 and the descriptor's tag, or the job is aborted with CAUSE 8; where a line of it was uncorrectable, the same with status 4, bit 8 of the engine's page is set, its page names the address and what held it, and a vat line there is poisoned; a line of it that was found so as the chain was read does the same. DESCRIPTOR_END with every unit done ends chain and entry with status 0, or 1 where an access was refused, which a job keeps for its report, and a COMPARE has written its result line; before that, or at an engine in hold, neither has an effect. -/
def Obligations.ChainsAreStartedAndEnded : Prop :=
  (∀ (s : State) (q seq : Nat) (e : Entry), s.unheld → s.entry q seq = some e → e.stage = 1 → e.opcode = 0x10 →
    let k := s.queue q
    let job := if k.ownKind = 3 then s.chainJob q e else none
    let actor := match job with | some j => j.actor | none => k.actor
    let cls := match job with | some j => j.cls | none => k.cls
    (s.enginesHeld = true → exec (.denChain q seq []) s = .next s) ∧
    (s.enginesHeld = false → (k.ownKind = 3 → job ≠ none) →
    (∀ i, i < e.dw1 → s.readable actor (e.a0 + 64 * i) ∧ (s.lineAt (e.a0 + 64 * i)).2 = false) →
    ∃ t, exec (.denChain q seq []) s = .next t ∧ t.entry q seq = some { e with stage := 2 } ∧ t.den.nextChain = s.den.nextChain + 1 ∧ t.den.units = s.den.units
      ∧ s.changesOnly t (lineTraffic ++ [.qmg, .lst, .den]) ∧ s.keepsBytes t ∧ (job = none → t.lst = s.lst)
      ∧ t.den.chains = s.den.chains ++ [{ id := s.den.nextChain, entry := some (q, seq), job := job.map (fun j => j.id), actor := actor, cls := cls,
                                          descs := (List.range e.dw1).map (fun i => descOf (s.lineAt (e.a0 + 64 * i)).1) }])) ∧
  (∀ (s : State) (id : Nat) (c : Chain) (d : Desc), s.unheld → s.chain id = some c → c.descs = [d] →
    (∀ q seq, c.entry = some (q, seq) → ∃ en, s.entry q seq = some en ∧ en.stage ≠ 3) → (∀ k, c.job = some k → ∃ j, s.job k = some j ∧ j.state = 2) →
    let srcs := if d.op = 0 then [] else (List.range (d.srcLess1 + 1)).map (fun i => (d.src + i * d.stride) % 2 ^ 64)
    let d1 := { d with srcs := srcs, stage := 1 }
    let fails (t : State) (status : Nat) : Prop :=
      t.chain id = none
        ∧ (∀ q seq, c.entry = some (q, seq) → ∃ x, t.entry q seq = some x ∧ x.stage = 3 ∧ x.status = status ∧ x.v0 = 0 ∧ x.v1 = d.tag % 2 ^ 32)
        ∧ (∀ k, c.job = some k → ∃ x, t.job k = some x ∧ x.state = 3 ∧ x.cause = 8)
    (s.rowHeld (s.descEngine d) = true → exec (.descriptorStart id [] none) s = .next s ∧ exec (.descriptorEnd id 0) s = .next s) ∧
    (s.rowHeld (s.descEngine d) = false → d.stage = 0 → d.list = false →
      (d.bad = false → d.ueAt = none → d1.badSources = false →
        ∃ t, exec (.descriptorStart id [] none) s = .next t ∧ t.chain id = some { c with descs := [d1] } ∧ t.den.units.length = s.den.units.length + d.units
          ∧ (∀ u, u < d.units → (⟨id, 0, u, s.engineFor (d.dst / 16384 + u)⟩ : UnitRef) ∈ t.den.units) ∧ s.changesOnly t [.reg, .pwr, .den]) ∧
      (d.ueAt = none → d.bad = true ∨ d1.badSources = true → ∃ t, exec (.descriptorStart id [] none) s = .next t ∧ fails t 3) ∧
      (∀ a, d.ueAt = some a → ∃ t, exec (.descriptorStart id [] none) s = .next t ∧ fails t 4 ∧ (t.word (denPage (s.descEngine d)) 0x018).testBit 8 = true
        ∧ t.word64 (denPage (s.descEngine d)) 0x110 = a % 2 ^ 64 ∧ t.word (denPage (s.descEngine d)) 0x118 = 1) ∧
      (∀ a, ∃ t, exec (.descriptorStart id [] (some a)) s = .next t ∧ fails t 4 ∧ (t.word (denPage (s.descEngine d)) 0x018).testBit 8 = true
        ∧ t.word64 (denPage (s.descEngine d)) 0x110 = a % 2 ^ 64
        ∧ t.word (denPage (s.descEngine d)) 0x118 = (if s.home (a / 16384) = 1 then 1 else 2)
        ∧ (s.home (a / 16384) = 1 → c.job = none → (t.vatLine (s.loc (a / 16384)) (a % 16384 / 64)).2 = true))) ∧
    (s.rowHeld (s.descEngine d) = false → d.stage = 1 → d.units ≤ d.done.length → d.op ≠ 2 ∨ s.writable c.actor d.result →
      ∃ t, exec (.descriptorEnd id 0) s = .next t ∧ t.chain id = none
        ∧ (∀ q seq, c.entry = some (q, seq) → ∃ x, t.entry q seq = some x ∧ x.stage = 3 ∧ x.status = (if d.refused then 1 else 0) ∧ x.v0 = 1)
        ∧ (∀ k j, c.job = some k → s.job k = some j → t.job k = some { j with refused := j.refused || d.refused })
        ∧ (d.op = 2 → c.job = none → t.lineAt d.result = (compareResult d, false))) ∧
    (d.stage ≠ 1 ∨ d.done.length < d.units → exec (.descriptorEnd id 0) s = .next s))

/-- With no line held by a port and nothing waiting, for a unit that may run now, of a descriptor that has met no uncorrectable read, whose destination lines are writable vat lines. FILL leaves in each of them the immediate's eight bytes repeated from the destination's first byte, where the descriptor covers it; COPY of whole lines from readable vat lines leaves the sources' lines with their poison; REDUCE of whole lines from readable, unpoisoned vat lines leaves the reduction of each element in the order of the sources, which for a 64-bit integer SUM of two is the saturated sum; each keeps every other vat line. (Where there are several lines, no source lies in the destination's slot.) COMPARE of two unpoisoned lines keeps every vat line, notes no difference of equal lines, and notes the first byte and the line of different ones. CASK_COPY of a cask from a vat tile to another leaves the 64 lines of the source; of a zero-length stored cask to a cellar tile leaves a zero-length cask of method 1. The unit then waits no more, and its descriptor counts it done. A COPY, COMPARE, REDUCE or CASK_COPY whose read is uncorrectable ends its chain, and its entry with status 4. A unit that may not run now is left alone. -/
def Obligations.EngineUnitsHaveTheirEffect : Prop :=
  ∀ (s : State) (id n u : Nat), s.unheld → s.calm →
    (s.unitReady id n u 0 = none → exec (.fill id n u) s = .next s) ∧
    (s.unitReady id n u 1 = none → exec (.copy id n u [] none) s = .next s) ∧
    (s.unitReady id n u 2 = none → exec (.compare id n u [] none) s = .next s) ∧
    (s.unitReady id n u 3 = none → exec (.reduce id n u [] none) s = .next s) ∧
    (s.unitReady id n u 4 = none → exec (.caskCopy id n u [] none) s = .next s) ∧
    (∀ (op : Nat) (c : Chain) (d : Desc) (e : Nat), s.unitReady id n u op = some (c, d, e) → d.ueAt = none →
      let ran (t : State) : Prop := (∀ r ∈ t.den.units, ¬(r.chain = id ∧ r.desc = n ∧ r.unit = u)) ∧ t.now = max s.now (nth16 s.pwr.denWakeAt e)
        ∧ ∃ x, (t.chain id).bind (fun c => c.desc n) = some x ∧ sget false x.done u = true
      let lines := d.unitLines u
      let slot := s.loc (d.dst / 16384 + u)
      let keeps (t : State) : Prop := ∀ x i, i < 256 → (x ≠ slot ∨ ∀ l ∈ lines, lineOf l.1 ≠ i) → t.vatLine x i = s.vatLine x i
      let from' (x : Nat) (l : Nat × Nat × Nat) : Nat := x + (l.1 - d.dst)
      ((∀ l ∈ lines, s.writable c.actor l.1) →
        (op = 0 →
          ∃ t, exec (.fill id n u) s = .next t ∧ ran t ∧ keeps t
            ∧ ∀ l ∈ lines, t.lineAt l.1 = writeOver (s.lineAt l.1) (List.replicate l.2.1 0#8
                ++ (List.range l.2.2).map (fun j => BitVec.ofNat 8 (bits d.imm (8 * ((l.1 + l.2.1 + j - d.dst) % 8)) 8))) (beOf l.2.1 l.2.2) false) ∧
        ((∀ l ∈ lines, l.2 = (0, 64)) →
          (op = 1 → (∀ l ∈ lines, s.readable c.actor (from' (d.srcs.headD 0) l) ∧ (lines.length = 1 ∨ s.loc (tileOf (from' (d.srcs.headD 0) l)) ≠ slot)) →
            ∃ t, exec (.copy id n u [] none) s = .next t ∧ ran t ∧ keeps t ∧ ∀ l ∈ lines, t.lineAt l.1 = s.lineAt (from' (d.srcs.headD 0) l)) ∧
          (op = 3 → (∀ l ∈ lines, ∀ x ∈ d.srcs, s.readable c.actor (from' x l) ∧ (s.lineAt (from' x l)).2 = false
              ∧ (lines.length = 1 ∨ s.loc (tileOf (from' x l)) ≠ slot)) →
            (∃ t, exec (.reduce id n u [] none) s = .next t ∧ ran t ∧ keeps t
              ∧ ∀ l ∈ lines, t.lineAt l.1 = ((List.range (64 / typeBytes d.typ)).flatMap (fun i =>
                  leBytes (typeBytes d.typ) (reduceElem d.typ d.redOp d.scale d.imm (d.srcs.map (fun x =>
                    leNat (((s.lineAt (from' x l)).1.drop (typeBytes d.typ * i)).take (typeBytes d.typ))))).1), false)) ∧
            (∀ x y, d.typ = 4 → d.redOp = 0 → d.scale = false → d.srcs = [x, y] →
              let num (l : List Byte) (j : Nat) : Int := toInt 64 (leNat ((l.drop (8 * j)).take 8))
              ∃ t, exec (.reduce id n u [] none) s = .next t ∧ ∀ l ∈ lines, t.lineAt l.1 = ((List.range 8).flatMap (fun j =>
                leBytes 8 (ofInt 64 (satInt 64 (num (s.lineAt (from' x l)).1 j + num (s.lineAt (from' y l)).1 j)).1)), false))))) ∧
      (∀ a, lines = [(a, 0, 64)] → op = 2 →
        let b := from' (d.srcs.headD 0) (a, 0, 64)
        s.readable c.actor a → s.readable c.actor b → (s.lineAt a).2 = false → (s.lineAt b).2 = false →
        ∃ t x, exec (.compare id n u [] none) s = .next t ∧ ran t ∧ (t.chain id).bind (fun c => c.desc n) = some x ∧ x.cmpPoison = d.cmpPoison
          ∧ s.keepsBytes t
          ∧ ((s.lineAt a).1 = (s.lineAt b).1 → x.firstDiff = d.firstDiff ∧ x.diffLines = d.diffLines)
          ∧ ∀ k, k < 64 → (s.lineAt a).1.getD k 0#8 ≠ (s.lineAt b).1.getD k 0#8 → (∀ j, j < k → (s.lineAt a).1.getD j 0#8 = (s.lineAt b).1.getD j 0#8) →
              x.firstDiff = some (match d.firstDiff with | some f => min f (a - d.dst + k) | none => a - d.dst + k)
                ∧ x.diffLines = d.diffLines ++ [a / 64]) ∧
      (∀ a, op = 4 → lines = (List.range 64).map (fun i => (a + 64 * i, 0, 64)) → a % 4096 = 0 →
        let b := from' (d.srcs.headD 0) (a, 0, 64)
        s.moving (a / 16384) = false → s.moving (b / 16384) = false →
        ((∀ i, i < 64 → s.readable c.actor (b + 64 * i) ∧ s.writable c.actor (a + 64 * i)) → b % 4096 = 0 → s.loc (tileOf b) ≠ s.loc (tileOf a) →
          ∃ t, exec (.caskCopy id n u [] none) s = .next t ∧ ran t ∧ ∀ i, i < 64 → t.lineAt (a + 64 * i) = s.lineAt (b + 64 * i)) ∧
        (s.storable c.actor b a = true → s.inService a → s.inService b → s.home (b / 16384) = 2 → s.home (a / 16384) = 2 → (s.cask (b / 4096)).quarantined = false →
          (s.cask (b / 4096)).length = 0 → s.bufOf (b / 4096) = none → s.bufOf (a / 4096) = none → (∀ g r, s.findRegion a = some (g, r) → r.policy ≠ 1) →
          ∃ t, exec (.caskCopy id n u [] none) s = .next t ∧ ran t ∧ (t.cask (a / 4096)).length = 0 ∧ (t.cask (a / 4096)).method = 1
            ∧ (t.cask (a / 4096)).quarantined = false ∧ (t.cask (a / 4096)).package = (s.cask (a / 4096)).package)) ∧
      (∀ (b q seq : Nat) (en : Entry), c.entry = some (q, seq) → s.entry q seq = some en → en.stage ≠ 3 →
        (∀ l ∈ lines, s.moving (l.1 / 16384) = false ∧ s.moving (from' (d.srcs.headD 0) (l.1 / 4096 * 4096, 0, 64) / 16384) = false) →
        ∀ i ∈ [(1, Instr.copy id n u [] (some b)), (2, .compare id n u [] (some b)), (3, .reduce id n u [] (some b)), (4, .caskCopy id n u [] (some b))], i.1 = op →
          ∃ t x, exec i.2 s = .next t ∧ t.chain id = none ∧ t.entry q seq = some x ∧ x.stage = 3 ∧ x.status = 4 ∧ x.v1 = d.tag % 2 ^ 32))

/-- SVC_CALL of a started entry whose block begins in a readable vat line, with no line held by a port: of a service and function of the table, unpoisoned, it joins the calls that Shombe has received, with the rights and class of its queue; poisoned, it ends with UNCORRECTABLE; of another service or function it ends with BAD_REQUEST. A block that its actor may not read reads as poisoned and ends it with UNCORRECTABLE, which is the model's reading (log entry 70). A key-value command for a call that is not the oldest of that service, of whatever session (log entry 177), or is of another function has no effect, and neither has another service command for a call that has not been received. -/
def Obligations.ServiceCallsAreReceived : Prop :=
  (∀ (s : State) (q seq : Nat) (e : Entry), s.unheld → s.entry q seq = some e → e.stage = 1 → e.opcode = 0x50 →
    let k := s.queue q
    let known := serviceKnown (bits e.dw1 0 8) (bits e.dw1 8 8)
    let a := e.a0 / 64 * 64
    (s.readable k.actor a →
      (known = true → (s.lineAt a).2 = false →
        ∃ t, exec (.svcCall q seq []) s = .next t ∧ t.entry q seq = some { e with stage := 2 }
          ∧ t.svc = { s.svc with calls := s.svc.calls ++ [⟨q, seq, bits e.dw1 0 8, bits e.dw1 8 8, e.a0, k.actor, k.cls⟩] }
          ∧ s.changesOnly t (lineTraffic ++ [.qmg, .svc]) ∧ s.keepsBytes t) ∧
      (known = true → (s.lineAt a).2 = true → ∃ t, exec (.svcCall q seq []) s = .next t ∧ s.callEnds t q seq 15 0) ∧
      (known = false → ∃ t, exec (.svcCall q seq []) s = .next t ∧ s.callEnds t q seq 2 0)) ∧
    (known = true → (s.refusal k.actor false false a).isSome = true →
      ∃ t, exec (.svcCall q seq []) s = .next t ∧ s.callEnds t q seq 15 0 ∧ s.changesOnly t [.reg, .icu, .cores, .ports, .out, .qmg, .svc])) ∧
  (∀ (s : State) (q seq a b c d e f g h : Nat) (i : Fin 5),
    (s.kvTurn q seq i.val = none →
      ∀ x ∈ [(0, Instr.kvOpen q seq a b c d e f []), (1, .kvAppend q seq a b c d e [] none), (2, .kvAttend q seq a b c d e f [] none),
             (3, .kvTruncate q seq a b c []), (4, .kvClose q seq a [])], x.1 = i.val → exec x.2 s = .next s) ∧
    (∀ x ∈ [((2, 0), Instr.gather q seq a b c d e f g h a [] none), ((3, 0), .groupOpen q seq a b c d e f g h), ((3, 1), .contribute q seq a b c [] none),
            ((3, 2), .groupClose q seq a), ((4, 0), .modelLoad q seq a b), ((4, 1), .call q seq a b c []), ((4, 2), .modelUnload q seq a)],
      s.callOf q seq x.1.1 x.1.2 = none → exec x.2 s = .next s))

/-- For the key-value call whose turn it is, with no line held by a port and nothing waiting. KV_OPEN of a region with no lease, or with parameters not named, ends with BAD_REQUEST; of one too small with FULL; else the session is that region with those parameters, also where it was open (log entry 177), and in a writable session tile the counts of up to 16 layers are zero. Without a session APPEND, ATTEND, TRUNCATE and CLOSE end with NOT_OPEN, and beyond the session's layers the first three with BAD_REQUEST. Where the layer's count c lies in a readable, writable, unpoisoned vat line: KV_APPEND past the capacity ends with FULL and writes nothing; of one token of one head, from readable lines into writable lines that share no vat slot with them, it copies the key and the value vector to the places of token c and makes the count c + 1. KV_TRUNCATE to at most c makes that the count, to more it ends with BAD_REQUEST. KV_ATTEND of one query head of 64 BF16 elements in a session of one head, with readable unpoisoned query, keys and values, writes the attention of the query over the layer's tokens, which for a count of zero is zeros, and while every engine is in hold the call goes on; a number of query heads that the heads do not divide ends with BAD_REQUEST. KV_CLOSE ends the session and clears a writable session tile. -/
def Obligations.KeyValueSessionsKeepTheirTokens : Prop :=
  ∀ (s : State) (q seq g : Nat) (c : SvcCall), s.unheld → s.calm →
    let r := s.region g
    let ends (i : Instr) (result : Nat) : Prop := ∃ t, exec i s = .next t ∧ s.callEnds t q seq result 0
    (s.kvTurn q seq 0 = some c → g < 4096 → ∀ layers heads size fmt cap : Nat,
      let k : KvSession := ⟨layers, heads, size, fmt, cap⟩
      let i := Instr.kvOpen q seq g layers heads size fmt cap []
      (r.valid = false ∨ r.leaseEnd = 0 ∨ k.ok = false → ends i 2) ∧
      (r.valid = true → r.leaseEnd ≠ 0 → k.ok = true → r.size < k.size → ends i 4) ∧
      (r.valid = true → r.leaseEnd ≠ 0 → k.ok = true → k.size ≤ r.size →
        ∃ t res, exec i s = .next t ∧ s.callEnds t q seq res 0 ∧ (res = 0 ∨ res = 5) ∧ t.session g = some (r, k)
          ∧ (layers ≤ 16 → s.writable c.actor r.base → s.writable c.actor (r.base + 64) → (s.lineAt (r.base + 64)).2 = false →
              res = 0 ∧ ∀ j, j < 4 * layers → (t.lineAt (r.base + 64)).1.getD j 0#8 = 0#8))) ∧
    (∀ (layer n ka va gs sc qa oa : Nat),
      let append := Instr.kvAppend q seq g layer n ka va [] none
      let attend := Instr.kvAttend q seq g layer gs sc qa oa [] none
      let truncate := Instr.kvTruncate q seq g layer n []
      (s.session g = none →
        (s.kvTurn q seq 1 = some c → ends append 3) ∧ (s.kvTurn q seq 2 = some c → ends attend 3)
          ∧ (s.kvTurn q seq 3 = some c → ends truncate 3) ∧ (s.kvTurn q seq 4 = some c → ends (.kvClose q seq g []) 3)) ∧
      (∀ k, s.session g = some (r, k) → k.layers ≤ layer →
        (s.kvTurn q seq 1 = some c → ends append 2) ∧ (s.kvTurn q seq 2 = some c → ends attend 2) ∧ (s.kvTurn q seq 3 = some c → ends truncate 2)) ∧
      (∀ k, s.session g = some (r, k) → layer < k.layers → layer < 1024 → r.base % 64 = 0 →
        let a := r.base + 64 + 4 * layer
        let line := a / 64 * 64
        let count (u : State) : Nat := leNat (((u.lineAt line).1.drop (a % 64)).take 4)
        s.readable c.actor line → s.writable c.actor line → (s.lineAt line).2 = false →
        (s.kvTurn q seq 1 = some c → k.capacity < count s + n →
          ∃ t, exec append s = .next t ∧ s.callEnds t q seq 4 0 ∧ ∀ x j, j < 256 → t.vatLine x j = s.vatLine x j) ∧
        (s.kvTurn q seq 1 = some c → n = 1 → k.heads = 1 → k.vec % 64 = 0 → count s + 1 ≤ k.capacity →
          let key := k.place r.base layer 0 (count s) 0
          let value := k.place r.base layer 0 (count s) 1
          (∀ j, j < k.vec / 64 → s.readable c.actor (ka + 64 * j) ∧ s.readable c.actor (va + 64 * j)
            ∧ s.writable c.actor (key + 64 * j) ∧ s.writable c.actor (value + 64 * j)) →
          (∀ x y j l, x ∈ [line, key + 64 * j, value + 64 * j] → y ∈ [line, key + 64 * l, value + 64 * l, ka + 64 * l, va + 64 * l] →
            j < k.vec / 64 → l < k.vec / 64 → x ≠ y → s.loc (tileOf x) = s.loc (tileOf y) → lineOf x ≠ lineOf y) →
          (∀ j l, j < k.vec / 64 → l < k.vec / 64 → ka + 64 * l ≠ key + 64 * j ∧ ka + 64 * l ≠ value + 64 * j ∧ va + 64 * l ≠ key + 64 * j
            ∧ va + 64 * l ≠ value + 64 * j) →
          ∃ t, exec append s = .next t ∧ s.callEnds t q seq 0 0 ∧ count t = (count s + 1) % 2 ^ 32
            ∧ ∀ j, j < k.vec / 64 → t.lineAt (key + 64 * j) = s.lineAt (ka + 64 * j) ∧ t.lineAt (value + 64 * j) = s.lineAt (va + 64 * j)) ∧
        (s.kvTurn q seq 3 = some c →
          (n ≤ count s → ∃ t, exec truncate s = .next t ∧ s.callEnds t q seq 0 0 ∧ count t = n) ∧
          (count s < n → ends truncate 2)) ∧
        (s.kvTurn q seq 2 = some c →
          (gs = 0 ∨ gs % k.heads ≠ 0 → ends attend 2) ∧
          (0 < gs → gs % k.heads = 0 → s.enginesHeld = true → ∃ t, exec attend s = .next t ∧ t.svc = s.svc ∧ s.keepsBytes t) ∧
          (gs = 1 → k.heads = 1 → k.headSize = 64 → k.fmt = 7 → s.enginesHeld = false →
            let good (x : Nat) : Prop := s.readable c.actor x ∧ s.readable c.actor (x + 64) ∧ (s.lineAt x).2 = false ∧ (s.lineAt (x + 64)).2 = false
            let vector (x : Nat) : List Nat := kvElems 7 ((s.lineAt x).1 ++ (s.lineAt (x + 64)).1)
            let out := Sys2Proof.Machine.attend sc (vector qa) ((List.range (count s)).map (fun n =>
              (1, vector (k.place r.base layer 0 n 0), vector (k.place r.base layer 0 n 1))))
            good qa → (∀ n, n < count s → good (k.place r.base layer 0 n 0) ∧ good (k.place r.base layer 0 n 1)) →
            (∀ j, j < 4 → s.writable c.actor (oa + 64 * j)) →
            ∃ t, exec attend s = .next t ∧ s.callEnds t q seq 0 0
              ∧ ∀ j, j < 4 → t.lineAt (oa + 64 * j) = (((out.flatMap (leBytes 4)).drop (64 * j)).take 64, false)))) ∧
      (∀ k, s.session g = some (r, k) → s.kvTurn q seq 4 = some c →
        ∃ t res, exec (.kvClose q seq g []) s = .next t ∧ s.callEnds t q seq res 0 ∧ (res = 0 ∨ res = 5) ∧ t.session g = none
          ∧ ((∀ i, i < 256 → s.writable c.actor (r.base + 64 * i)) → res = 0 ∧ ∀ i, i < 256 → t.lineAt (r.base + 64 * i) = (zeroLine, false))))

/-- GROUP_OPEN, of a call received: of a closed group with legal parameters on a published region that holds the result, the group is open with them; of an open one, BUSY. CONTRIBUTE by a call that is not in the group yet: to a group that is not open, NOT_OPEN; by a port outside its mask, BAD_REQUEST (both the model's choice, log entry 177); while the round is not full after it, it opens a round of its edition at this moment, joins the round of that edition, or waits for a later one, and the call goes on; a second of one port to the round ends with DUPLICATE, an older edition with STALE. The one that fills the round, with no line held by a port, no more than one publication to fold, and an engine ready for each unit of the reduction: it waits in the full round where one of the last two lacks; else, with nobody waiting for a later round, every contributor ends with the same result, the round is closed, and the region shows the round's edition, published by the internal writer, exactly where that result is OK or REFUSED; where a line was uncorrectable it is UNCORRECTABLE. GROUP_CLOSE closes the group, its round ends with MEMBER_LOST and contributions for a later one with NOT_OPEN; while a full round waits for its reduction it has no effect, which is the model's choice (log entry 168); ROUND_TIMEOUT of an open round that is not full: the timeout has passed and the round ends with TIMEOUT; of a group without one, no effect. -/
def Obligations.GradientRoundsAreHeldByEdition : Prop :=
  ∀ (s : State) (q seq g : Nat), g < 64 →
    let x := s.group g
    (∀ (c : SvcCall) (mask fmt count region offset mode tmo : Nat), s.callOf q seq 3 0 = some c →
      let r := s.region region
      0 < mask → mask < 64 → 1 ≤ fmt → fmt ≤ 3 → 0 < count → region < 4096 → r.valid = true → r.kind = 2 → offset % groupElem fmt = 0 →
      offset + count * groupElem fmt ≤ r.size → mode < 2 → 0 < tmo → tmo ≤ 10000000 →
      (x.isOpen = false →
        ∃ t, exec (.groupOpen q seq g mask fmt count region offset mode tmo) s = .next t ∧ s.callEnds t q seq 0 0 ∧ s.changesOnly t [.svc, .qmg]
          ∧ t.group g = { isOpen := true, mask := BitVec.ofNat 6 mask, fmt := fmt, count := count, region := region, offset := offset,
                          mean := decide (mode = 1), timeoutUs := tmo } ∧ ∀ y, y ≠ g → t.group y = s.group y) ∧
      (x.isOpen = true →
        ∃ t, exec (.groupOpen q seq g mask fmt count region offset mode tmo) s = .next t ∧ s.callEnds t q seq 14 0 ∧ ∀ y, t.group y = s.group y)) ∧
    (∀ (c : SvcCall) (ed addr : Nat), s.callOf q seq 3 1 = some c → s.calm → ed < 2 ^ 32 →
      (∀ p ∈ x.parts ++ x.later, ¬(p.queue = q ∧ p.seq = seq)) →
      let p : Contribution := ⟨q, seq, c.actor, c.cls, addr, ed⟩
      let fit := c.actor < 6 ∧ x.mask.getLsbD c.actor = true ∧ addr % groupElem x.fmt = 0
      let i := Instr.contribute q seq g ed addr [] none
      let stays (y : Group) : Prop := ∃ t, exec i s = .next t ∧ s.changesOnly t [.svc] ∧ t.svc.calls = s.svc.calls ∧ t.group g = y
      let misses (result : Nat) : Prop := ∃ t, exec i s = .next t ∧ s.callEnds t q seq result 0 ∧ s.changesOnly t [.svc, .qmg] ∧ t.group g = x
      (x.isOpen = false → misses 3) ∧
      (x.isOpen = true → ¬fit → misses 2) ∧
      (∀ e, x.isOpen = true → fit → x.round = some e → x.full = false →
        (ed = e → (∃ y ∈ x.parts, y.port = c.actor) → misses 12) ∧
        (ed ≠ e → (2 ^ 31 < (ed + 2 ^ 32 - e) % 2 ^ 32 → misses 10) ∧ ((ed + 2 ^ 32 - e) % 2 ^ 32 ≤ 2 ^ 31 → stays { x with later := x.later ++ [p] }))) ∧
      (∀ y : Group, x.isOpen = true → fit →
        (x.round = none ∧ y = { x with round := some ed, openedAt := s.now, parts := [p] })
          ∨ (x.round = some ed ∧ x.full = false ∧ (∀ z ∈ x.parts, z.port ≠ c.actor) ∧ y = { x with parts := x.parts ++ [p] }) →
        (y.full = false → stays y) ∧
        (y.full = true → s.unheld →
          let ready := s.enginesReady (y.desc ((s.region x.region).base + x.offset))
          (s.publishWaits x.region = true ∨ ready = false → stays y) ∧
          (s.publishWaits x.region = false → ready = true → x.later = [] →
            (∃ t res, exec i s = .next t ∧ (∀ z ∈ y.parts, s.callEnds t z.queue z.seq res 0) ∧ (t.group g).round = none ∧ (t.group g).parts = []
              ∧ ((res = 0 ∨ res = 5) → (t.region x.region).edition = ed ∧ (t.region x.region).editionPort = 7)
              ∧ (res ≠ 0 → res ≠ 5 → t.region x.region = s.region x.region)) ∧
            (∀ a, ∃ t, exec (.contribute q seq g ed addr [] (some a)) s = .next t ∧ (∀ z ∈ y.parts, s.callEnds t z.queue z.seq 15 0)
              ∧ (t.group g).round = none ∧ t.region x.region = s.region x.region))))) ∧
    (∀ c : SvcCall, s.callOf q seq 3 2 = some c →
      (x.isOpen = false → ∃ t, exec (.groupClose q seq g) s = .next t ∧ s.callEnds t q seq 3 0) ∧
      (x.isOpen = true → x.full = true → exec (.groupClose q seq g) s = .next s) ∧
      (x.isOpen = true → x.full = false → (∀ y ∈ x.parts ++ x.later, ¬(y.queue = q ∧ y.seq = seq)) →
        (∀ y ∈ x.parts, ∀ z ∈ x.later, ¬(y.queue = z.queue ∧ y.seq = z.seq)) →
        ∃ t, exec (.groupClose q seq g) s = .next t ∧ s.callEnds t q seq 0 0 ∧ t.group g = {} ∧ (∀ y ∈ x.parts, s.callEnds t y.queue y.seq 8 0)
          ∧ (∀ y ∈ x.later, s.callEnds t y.queue y.seq 3 0) ∧ s.changesOnly t [.svc, .qmg])) ∧
    (x.isOpen = true → x.round.isSome = true → x.full = false → x.later = [] →
      ∃ t, exec (.roundTimeout g) s = .next t ∧ t.now = max s.now (x.openedAt + us * x.timeoutUs) ∧ t.group g = { x with round := none, parts := [] }
        ∧ ∀ y ∈ x.parts, s.callEnds t y.queue y.seq 7 0) ∧
    (x.isOpen = false ∨ x.round = none ∨ x.full = true → exec (.roundTimeout g) s = .next s)

/-- With no line held by a port and nothing waiting. GATHER of one bag of up to 16 indices, of rows of 16 FP32 elements, its two offsets, its indices and the rows named at the start of readable unpoisoned lines: the writable output line holds the sum or the mean of the rows in the order of the list, every other vat line is kept, and the result is OK, or, where indices lie beyond the table, which add nothing, INDEX_RANGE with their number; offsets that fall give BAD_REQUEST, which is the model's choice (log entry 79). MODEL_LOAD of a handle that is not loaded, with an aligned header, loads it; of a loaded one, BUSY. MODEL_UNLOAD of a loaded handle that runs nothing unloads it; while it runs a call, the unload waits. CALL, once every CALL that Shombe received before it is known to its handle, on a handle that is not loaded gives NOT_OPEN; on a loaded one that runs nothing, whose chain lies in readable unpoisoned lines with a good header and with room among the queued jobs, and while no queue is owned by a control core (log entry 165), the handle runs the call, and a job with the caller's rights and class is queued for its chain; while another call runs, it waits behind it; when its own job has completed, the call ends with DEGRADED and the count where that was the outcome, else with OK, or with REFUSED as where its input was, and the handle runs nothing. -/
def Obligations.GathersAndSurrogateCallsComplete : Prop :=
  ∀ (s : State) (q seq : Nat) (c : SvcCall), s.unheld → s.calm →
    (s.callOf q seq 2 0 = some c → ∀ (table rows indices offsets mode out n : Nat), mode < 2 →
      let i := Instr.gather q seq table rows 16 9 indices offsets 1 mode out [] none
      let word (a n : Nat) : Nat := leNat (((s.lineAt a).1.drop (4 * n)).take 4)
      let idx := (List.range n).map (word indices)
      let mine := idx.filter (fun x => decide (x < rows))
      let beyond := idx.filter (fun x => decide (rows ≤ x))
      let row (x : Nat) : List Nat := (chunks 4 16 (s.lineAt (table + 64 * x)).1).map (fun y => fmtFP32.pattern false ((codeFmt 9).value (leNat y)))
      s.readable c.actor offsets → (s.lineAt offsets).2 = false →
      (word offsets 0 = 0 → word offsets 1 = n → n ≤ 16 → (0 < n → s.readable c.actor indices ∧ (s.lineAt indices).2 = false) →
        (∀ x ∈ mine, s.readable c.actor (table + 64 * x) ∧ (s.lineAt (table + 64 * x)).2 = false) → s.writable c.actor out →
        ∃ t, exec i s = .next t ∧ s.callEnds t q seq (if beyond = [] then 0 else 6) beyond.length
          ∧ t.lineAt out = ((bagElems (decide (mode = 1)) 16 (mine.map row)).flatMap (leBytes 4), false)
          ∧ s.vatBut t (s.loc (tileOf out)) (lineOf out)) ∧
      (word offsets 1 < word offsets 0 → ∃ t, exec i s = .next t ∧ s.callEnds t q seq 2 0)) ∧
    (∀ h : Nat, h < 256 →
      let m := s.model h
      (s.callOf q seq 4 0 = some c → ∀ header : Nat, header % 128 = 0 →
        (m.loaded = false →
          ∃ t, exec (.modelLoad q seq h header) s = .next t ∧ s.callEnds t q seq 0 0 ∧ t.model h = { loaded := true, header := header } ∧ s.changesOnly t [.svc, .qmg]) ∧
        (m.loaded = true → ∃ t, exec (.modelLoad q seq h header) s = .next t ∧ s.callEnds t q seq 14 0 ∧ t.model h = m)) ∧
      (s.callOf q seq 4 2 = some c →
        (m.loaded = false → ∃ t, exec (.modelUnload q seq h) s = .next t ∧ s.callEnds t q seq 3 0) ∧
        (m.loaded = true → m.running = none → ∃ t, exec (.modelUnload q seq h) s = .next t ∧ s.callEnds t q seq 0 0 ∧ t.model h = {}) ∧
        (m.loaded = true → m.running.isSome = true → m.unload = none →
          ∃ t, exec (.modelUnload q seq h) s = .next t ∧ t.model h = { m with unload := some (q, seq) } ∧ s.changesOnly t [.svc])) ∧
      (s.callOf q seq 4 1 = some c → ∀ input output : Nat,
        let i := Instr.call q seq h input output []
        (s.callsBefore c = false → exec i s = .next s) ∧
        (s.callsBefore c = true →
        (m.loaded = false → ∃ t, exec i s = .next t ∧ s.callEnds t q seq 3 0) ∧
        (m.loaded = true → m.running = none → m.waiting = [] → m.unload = none → s.shombeQueues = [] → s.queued.length < 1024 → m.header % 64 = 0 →
          ∀ lines : List (List Byte), (∀ j (hj : j < lines.length), s.readable c.actor (m.header + 64 * j) ∧ s.lineAt (m.header + 64 * j) = (lines[j], false)) →
          2 ≤ lines.length →
          let chain := Memory.store [] 0 (lines.take 2).flatten
          (headOf chain).ok = true → lines.length = 2 * ((headOf chain).count + 1) →
          ∃ t x b, exec i s = .next t ∧ t.model h = { m with running := some (q, seq, output, s.lst.nextJob), inputRefused := b } ∧ t.lst.jobs = s.lst.jobs ++ [x]
            ∧ x.id = s.lst.nextJob ∧ x.queue = shombeQueue ∧ x.state = 0 ∧ x.actor = c.actor ∧ x.cls = c.cls ∧ x.hdrAddr = m.header ∧ x.chain = chain) ∧
        (m.loaded = true → ∀ q2 n2 o2 j2, m.running = some (q2, n2, o2, j2) → ¬(q2 = q ∧ n2 = seq) → (∀ w ∈ m.waiting, ¬(w.1 = q ∧ w.2.1 = seq)) →
          ∃ t, exec i s = .next t ∧ t.model h = { m with waiting := m.waiting ++ [(q, seq, input, output)] } ∧ s.changesOnly t [.svc]) ∧
        (m.loaded = true → ∀ o2 j2 j, m.running = some (q, seq, o2, j2) → m.ended = some j → m.unload = none →
          ∃ t res, exec i s = .next t ∧ s.callEnds t q seq res (if j.outcome = 1 then j.degraded else 0) ∧ t.model h = { m with running := none, ended := none, inputRefused := false }
            ∧ (if j.outcome = 1 then res = 1 else res = 0 ∨ res = 5) ∧ (j.outcome ≠ 1 → m.inputRefused = true → res = 5)))))

/-- RECEIVER_DETECT of a port that may train and has no link: the link is up, not ready, at the rate reached but no more than MAX_RATE and no less than 1, with its width; or it is down with the reason of the failure; 34 ms of a cold start, or 6 ms of a warm one, have passed. With a link it has no effect. PORT_READY of a port that may train, with a link that is not ready: without CXL the link is down with TRAIN_FAIL 3; with it CXL shows, and the port is ready where no lost-owner walk of it runs, VAT_READY is set, and it is not one of ports 1 to 5 at STAGE 9. RETRAIN of a link that is up takes the new rate within MAX_RATE. With nothing waiting: LINK_DOWN of a link that is up or in L2/L3 Ready, HOT_RESET of a link that is up, and PERST_ASSERT outside a warm start or once the link has come up in it, take the link down, name their cause and count it, begin the lost-owner walk, quarantine every DMA read, and drop every entry of the port's queues, which are disabled or disabling. PORT_STATE_RESET, at least 1 ms after the trigger, leaves the function reset, no containment, no INTx pending bit, and every queue of the port disabled with its owner. A PERST_ASSERT before is absorbed. PERST_DEASSERT starts the time of training. -/
def Obligations.LinksTrainAndPortsReset : Prop :=
  ∀ (s : State) (p : Port),
    let page := prtPage p
    (s.mayTrain p = true → s.linkUp p = false →
      (∀ rate wide, ∃ t, exec (.receiverDetect p (.up rate wide)) s = .next t ∧ s.changesOnly t [.now, .reg, .ports] ∧ t.linkUp p = true ∧ t.portIsReady p = false
        ∧ t.field page 0x100 1 3 = max 1 (min rate (s.maxRate p)) ∧ t.field page 0x100 4 2 = (if wide then 2 else 1) ∧ t.field page 0x100 8 4 = 0
        ∧ t.now = max s.now (match s.pwr.starting with | 1 => s.pwr.startAt + 34 * ms | 2 => s.pwr.startAt + 6 * ms | _ => 0) ∧ (t.port p).trainFrom = t.now) ∧
      (∀ f ∈ [(TrainResult.noFlitMode, 1), (.narrow, 2), (.equalisation, 4)],
        ∃ t, exec (.receiverDetect p f.1) s = .next t ∧ s.changesOnly t [.now, .reg, .ports] ∧ t.linkUp p = false ∧ t.field page 0x100 8 4 = f.2)) ∧
    (s.linkUp p = true → ∀ f, exec (.receiverDetect p f) s = .next s) ∧
    (s.linkUp p = true → s.portIsReady p = false → s.mayTrain p = true →
      (s.walking p.val = false → (s.stage = 9 → p.val = 0) → s.field 0x000 0x104 0 1 = 1 →
        ∃ t, exec (.portReady p true) s = .next t ∧ t.portIsReady p = true ∧ t.linkUp p = true ∧ t.field page 0x100 6 1 = 1) ∧
      (s.walking p.val = true ∨ (s.stage = 9 ∧ p.val ≠ 0) ∨ s.field 0x000 0x104 0 1 = 0 →
        ∃ t, exec (.portReady p true) s = .next t ∧ s.changesOnly t [.reg] ∧ t.portIsReady p = false ∧ t.linkUp p = true ∧ t.field page 0x100 6 1 = 1) ∧
      (∃ t, exec (.portReady p false) s = .next t ∧ s.changesOnly t [.reg] ∧ t.portIsReady p = false ∧ t.linkUp p = false ∧ t.field page 0x100 8 4 = 3)) ∧
    (s.linkUp p = false ∨ s.portIsReady p = true ∨ s.mayTrain p = false → ∀ cxl, exec (.portReady p cxl) s = .next s) ∧
    (∀ req rate, s.admits req page 0x104 = true → s.linkUp p = true →
      ∃ t, exec (.retrain req p rate) s = .next t ∧ s.changesOnly t [.reg] ∧ t.linkUp p = true ∧ t.field page 0x100 1 3 = max 1 (min rate (s.maxRate p))) ∧
    (s.calm →
      ∀ c ∈ [(Instr.linkDown p, 2, s.linkUp p || (s.port p).l23), (.hotReset p, 1, s.linkUp p), (.perstAssert p, 3, !(s.port p).perst && (decide (s.pwr.starting ≠ 2) || s.linkUp p))], c.2.2 = true →
        ∃ t, exec c.1 s = .next t ∧ t.linkUp p = false ∧ t.portIsReady p = false ∧ (t.port p).resetAt = some s.now ∧ (t.port p).resetCause = c.2.1
          ∧ t.field page 0x128 0 3 = c.2.1 ∧ t.field page 0x128 16 16 = min 65535 (s.field page 0x128 16 16 + 1) ∧ t.walking p.val = true
          ∧ (∀ x ∈ (t.port p).tags, x.quarantined = true)
          ∧ ∀ q, (s.queue q).ownKind = 1 → (s.queue q).ownId = p.val → t.entriesOf q = [] ∧ (t.queue q).state = (if (s.queue q).state = 0 then 0 else 3)) ∧
    (s.linkUp p = false → ((s.port p).l23 = false → exec (.linkDown p) s = .next s) ∧ exec (.hotReset p) s = .next s) ∧
    ((s.port p).perst = true → exec (.perstAssert p) s = .next s) ∧
    ((s.port p).perst = false → s.pwr.starting = 2 → s.linkUp p = false →
      ∃ t, exec (.perstAssert p) s = .next t ∧ s.changesOnly t [.ports] ∧ (t.port p).perst = true ∧ (t.port p).resetAt = (s.port p).resetAt) ∧
    (∃ t, exec (.perstDeassert p) s = .next t ∧ s.changesOnly t [.ports] ∧ (t.port p).perst = false ∧ (t.port p).trainFrom = s.now) ∧
    ((s.port p).resetAt = none → exec (.portStateReset p) s = .next s) ∧
    (∀ at', (s.port p).resetAt = some at' → s.calm →
      ∃ t, exec (.portStateReset p) s = .next t ∧ t.now = max s.now (at' + ms) ∧ (t.port p).resetAt = none ∧ (t.port p).bme = false ∧ (t.port p).d3hot = false
        ∧ (t.port p).msixEnable = false ∧ (t.port p).pba = [] ∧ (t.port p).unmasked = [] ∧ (t.port p).mps = 128 ∧ (t.port p).mrrs = 512
        ∧ (∀ n : Fin 4, (t.port p).decoders[n] = {}) ∧ (∀ n : Fin 3, (t.port p).bars[n] = 0) ∧ (t.port p).msgAddr = [] ∧ (t.port p).msgData = []
        ∧ (t.port p).ideGo = [] ∧ (t.port p).ideIo = false ∧ (t.port p).ideMem = false ∧ (t.port p).spdmSession = 0
        ∧ (t.port p).aer = (s.port p).aer ∧ t.contained p = false ∧ (∀ n, n < 64 → t.word page (0x180 + 4 * n) = 0)
        ∧ ∀ q, (s.queue q).ownKind = 1 → (s.queue q).ownId = p.val → (t.queue q).state = 0 ∧ (t.queue q).ownKind = 1 ∧ (t.queue q).ownId = p.val
            ∧ (t.queue q).held = [] ∧ (t.queue q).watch = [] ∧ (t.queue q).phase = true)

/-- With nothing waiting, of a port that is not contained: LINK_FATAL_ERROR with a link, PORT_INTERNAL_UE, an IDE check failure of a stream with a link, and CONTAIN by an admitted requester leave it contained with causes 1 or 2, 5, 3, and 6, and the time; every DMA read of it is quarantined, its lost-owner walk runs, and each running queue of it with nothing in flight and no halt to come is halted with status 6. An IDE failure also ends its stream's secure state and sets bit 13. By none of these is a contained port contained again; a cause of the same nanosecond with a lower code takes the place of the one recorded (that a cycle is a nanosecond is the model's choice, log entry 153). CONTAIN_RELEASE by the management port or a control core of a contained port whose walk has ended releases it; while the walk runs, and by any other requester, it is an ACCESS error and the port stays as it is; one that also sets CONTAIN contains. -/
def Obligations.ContainmentHoldsUntilItIsReleased : Prop :=
  ∀ (s : State) (p : Port) (req : Requester), s.calm →
    let page := prtPage p
    let contains (i : Instr) (cause : Nat) : Prop := ∃ t, exec i s = .next t ∧ t.contained p = true ∧ t.word page 0x108 = 1 + 2 * cause
      ∧ t.word64 page 0x110 = s.now % 2 ^ 64 ∧ t.walking p.val = true ∧ (∀ x ∈ (t.port p).tags, x.quarantined = true)
      ∧ ∀ q, (s.queue q).ownKind = 1 → (s.queue q).ownId = p.val → (s.queue q).state = 1 → s.entriesOf q = [] → (s.queue q).pendHalt = none →
          (t.queue q).state = 2 ∧ (t.queue q).haltStatus = 6
    (s.contained p = false →
      (s.linkUp p = true → contains (.linkFatalError p .link) 1 ∧ contains (.linkFatalError p .malformed) 2) ∧
      contains (.portInternalUe p) 5 ∧
      (s.linkUp p = true → ∀ cxl, ∀ k ∈ [IdeFailure.integrity, .sequence],
        contains (.ideCheckFailure p k cxl) 3
          ∧ ∃ t, exec (.ideCheckFailure p k cxl) s = .next t ∧ (t.word page 0x018).testBit 13 = true ∧ (if cxl then (t.port p).ideMem else (t.port p).ideIo) = false) ∧
      (s.linkUp p = true → ∀ cxl, s.ideRefuses p cxl = true → contains (.ideCheckFailure p .outsideStream cxl) 3) ∧
      (s.admits req page 0x108 = true → contains (.contain req p) 6 ∧ contains (.containRelease req p true) 6)) ∧
    (s.contained p = true →
      (∀ e ∈ [(Instr.linkFatalError p .link, 1, s.linkUp p), (.linkFatalError p .malformed, 2, s.linkUp p), (.portInternalUe p, 5, true),
              (.contain req p, 6, s.admits req page 0x108), (.containRelease req p true, 6, s.admits req page 0x108)], e.2.2 = true →
        (s.word64 page 0x110 ≠ s.now ∨ s.field page 0x108 1 4 ≤ e.2.1 → exec e.1 s = .next s) ∧
        (s.word64 page 0x110 = s.now → e.2.1 < s.field page 0x108 1 4 →
          ∃ t, exec e.1 s = .next t ∧ t.contained p = true ∧ t.field page 0x108 1 4 = e.2.1 ∧ s.changesOnly t [.reg, .ports])) ∧
      (s.linkUp p = true → ∀ cxl, ∀ k ∈ [IdeFailure.integrity, .sequence],
        ∃ t, exec (.ideCheckFailure p k cxl) s = .next t ∧ t.contained p = true ∧ (t.word page 0x018).testBit 13 = true
          ∧ t.word64 page 0x110 = s.word64 page 0x110 ∧ (if cxl then (t.port p).ideMem else (t.port p).ideIo) = false ∧ s.changesOnly t signals
          ∧ t.field page 0x108 1 4 = (if s.word64 page 0x110 = s.now ∧ 3 < s.field page 0x108 1 4 then 3 else s.field page 0x108 1 4))) ∧
    (s.linkUp p = false → (∀ k, exec (.linkFatalError p k) s = .next s) ∧ ∀ k cxl, exec (.ideCheckFailure p k cxl) s = .next s) ∧
    (s.admits req page 0x108 = true →
      (s.mayRelease req = true → s.contained p = true → s.walking p.val = false →
        ∃ t, exec (.containRelease req p false) s = .next t ∧ t.contained p = false) ∧
      (s.mayRelease req = true → s.contained p = false → exec (.containRelease req p false) s = .next s) ∧
      (s.mayRelease req = false ∨ (s.contained p = true ∧ s.walking p.val = true) →
        ∃ t, exec (.containRelease req p false) s = .next t ∧ t.word page 0x018 = s.word page 0x018 ||| 2 ∧ t.contained p = s.contained p
          ∧ s.changesOnly t signals))

/-- With nothing waiting. On a port that answers configuration requests: BUS_MASTER_ENABLE_WRITE sets or clears Bus Master Enable, and clearing it takes the host window offline; POWER_STATE_WRITE enters D3hot or D0; MSIX_CONTROL_WRITE sets MSI-X Enable and Function Mask; CONFIGURATION_WRITE sets Interrupt Disable, with the INTx level that follows, PTM Enable, Memory Space Enable, the two sizes for their codes, and a BAR above its size; a read sends the word, and a DOE object of more than 64 KiB sets the mailbox's error; the fields that the function does not act on have no effect. On a port that does not answer, each is answered with a retry where the link is up, and does nothing else. Of a port that acts: a vector's mask bit, message address and data, and BI Enable and BI-ID, are set; unmasking a pending vector, where the port may send, sends its message and clears its pending bit; a read of BAR4 sends its data, and a write of a bad width has no effect; a poisoned write sets bit 15 of the page and its AER event, an unsupported request its AER event. L2/L3 Ready of a link that is up takes the link out of L0; of no link it has no effect. INTX_PEND_CLEAR by an admitted requester clears just the bits written as 1 and leaves the level that follows. -/
def Obligations.ConfigurationWritesTakeEffect : Prop :=
  ∀ (s : State) (p : Port), s.calm →
    let page := prtPage p
    let inert : List CfgField := [.initiateFlr, .enableRelaxedOrdering, .enableNoSnoop, .idoRequestEnable, .idoCompletionEnable, .range1Base]
    (∀ (on : Bool) (n : Fin 3) (v off : Nat), s.cfgTakes p = false →
      ∀ i ∈ [Instr.busMasterEnableWrite p on, .powerStateWrite p on, .msixControlWrite p (.enable on), .msixControlWrite p (.functionMask on),
             .configurationWrite p .interruptDisable v, .configurationWrite p .ptmEnable v, .configurationWrite p .memoryEnable v,
             .configurationWrite p .maxPayloadSize v, .configurationWrite p .maxReadRequestSize v, .configurationWrite p (.bar n) v,
             .configurationWrite p (.readWord off) v, .configurationWrite p (.doeObject off) v] ++ inert.map (fun g => Instr.configurationWrite p g v),
        exec i s = .next (if s.linkUp p then s.emit (.cfgRetry p.val) else s)) ∧
    (s.cfgTakes p = true →
      (∀ v, ∀ f ∈ inert, exec (.configurationWrite p f v) s = .next s) ∧
      (∃ t, exec (.busMasterEnableWrite p true) s = .next t ∧ (t.port p).bme = true) ∧
      (∃ t, exec (.busMasterEnableWrite p false) s = .next t ∧ (t.port p).bme = false ∧ t.windowOnline p.val = false) ∧
      (∃ t, exec (.powerStateWrite p true) s = .next t ∧ (t.port p).d3hot = true ∧ s.changesOnly t [.ports, .tru]) ∧
      (∃ t, exec (.powerStateWrite p false) s = .next t ∧ (t.port p).d3hot = false) ∧
      (∀ on, ∃ t, exec (.msixControlWrite p (.enable on)) s = .next t ∧ (t.port p).msixEnable = on ∧ s.changesOnly t [.ports, .out]) ∧
      (∀ on, ∃ t, exec (.msixControlWrite p (.functionMask on)) s = .next t ∧ (t.port p).funcMask = on ∧ s.changesOnly t [.ports, .out]) ∧
      (∀ v, (∃ t, exec (.configurationWrite p .interruptDisable v) s = .next t ∧ (t.port p).intxDisable = decide (v % 2 = 1)
                ∧ (t.port p).intxAsserted = (s.intxAny p && decide (v % 2 = 0)) ∧ s.changesOnly t [.ports, .out])
          ∧ (∃ t, exec (.configurationWrite p .ptmEnable v) s = .next t ∧ (t.port p).ptmEnable = decide (v % 2 = 1) ∧ s.changesOnly t [.ports])
          ∧ (∃ t, exec (.configurationWrite p .memoryEnable v) s = .next t ∧ (t.port p).memEnable = decide (v % 2 = 1) ∧ s.changesOnly t [.ports])
          ∧ (v < 3 → ∃ t, exec (.configurationWrite p .maxPayloadSize v) s = .next t ∧ (t.port p).mps = 128 * 2 ^ v ∧ s.changesOnly t [.ports])
          ∧ (v < 6 → ∃ t, exec (.configurationWrite p .maxReadRequestSize v) s = .next t ∧ (t.port p).mrrs = 128 * 2 ^ v ∧ s.changesOnly t [.ports])
          ∧ (∀ n : Fin 3, ∃ t, exec (.configurationWrite p (.bar n) v) s = .next t ∧ (t.port p).bars[n] = v % 2 ^ 64 / barSize n * barSize n ∧ s.changesOnly t [.ports])
          ∧ (∀ off, exec (.configurationWrite p (.readWord off) v) s = .next (s.emit (.readData (.port p) (BitVec.ofNat 64 (s.configWord p (off % 4096 / 4 * 4))))))
          ∧ (∀ bytes, ∃ t, exec (.configurationWrite p (.doeObject bytes) v) s = .next t
              ∧ (t.port p).doeError = ((s.port p).doeError || decide (65536 < bytes)) ∧ s.changesOnly t [.ports]))) ∧
    (s.acting (.port p) = true →
      (∀ v masked, v < 2048 →
        ∃ t, exec (.msixControlWrite p (.vectorMask v masked)) s = .next t ∧ sget false (t.port p).unmasked v = !masked ∧ s.changesOnly t [.ports, .out]
          ∧ (masked = false → (s.port p).msixEnable = true → (s.port p).funcMask = false → s.canMaster p = true → sget false (s.port p).pba v = true →
              Out.msix p.val v ∈ t.out.drop s.out.length ∧ sget false (t.port p).pba v = false)) ∧
      (∀ v w, v < 2048 →
        (∃ t, exec (.msixControlWrite p (.vectorAddr v w)) s = .next t ∧ sget 0 (t.port p).msgAddr v = w % 2 ^ 64 / 4 * 4 ∧ s.changesOnly t [.ports]) ∧
        (∃ t, exec (.msixControlWrite p (.vectorData v w)) s = .next t ∧ sget 0 (t.port p).msgData v = w % 2 ^ 32 ∧ s.changesOnly t [.ports])) ∧
      (∀ v, (∃ t, exec (.configurationWrite p .biEnable v) s = .next t ∧ (t.port p).biEnable = decide (v % 2 = 1) ∧ s.changesOnly t [.ports])
          ∧ (∃ t, exec (.configurationWrite p .biId v) s = .next t ∧ (t.port p).biId = v % 4096 ∧ s.changesOnly t [.ports])
          ∧ (∀ off width, exec (.configurationWrite p (.bar4Read off width) v) s = .next (s.emit (.readData (.port p) (s.readBar4 p off width)))
              ∧ exec (.configurationWrite p (.bar4Write off width) v) s = .next s)
          ∧ (∀ b, ∃ t, exec (.configurationWrite p (.poisonedWrite b) v) s = .next t ∧ (t.word page 0x018).testBit 15 = true
              ∧ (t.port p).aer.getLsbD 1 = true ∧ s.changesOnly t signals)
          ∧ ∃ t, exec (.configurationWrite p .unsupportedRequest v) s = .next t ∧ (t.port p).aer.getLsbD 5 = true ∧ s.changesOnly t [.ports])) ∧
    (∀ v, (s.linkUp p = false → exec (.configurationWrite p .l23Ready v) s = .next s)
        ∧ (s.linkUp p = true → ∃ t, exec (.configurationWrite p .l23Ready v) s = .next t ∧ t.linkUp p = false ∧ (t.port p).l23 = true ∧ s.changesOnly t [.reg, .ports])) ∧
    (∀ (req : Requester) (i : Fin 64) (mask : Word), s.admits req page (0x180 + 4 * i.val) = true →
      ∃ t, exec (.intxPendClear req p i mask) s = .next t ∧ s.changesOnly t [.reg, .ports, .out]
        ∧ (∀ b : Nat, (t.word page (0x180 + 4 * i.val)).testBit b = ((s.word page (0x180 + 4 * i.val)).testBit b && !mask.toNat.testBit b))
        ∧ (∀ j : Fin 64, j ≠ i → t.word page (0x180 + 4 * j.val) = s.word page (0x180 + 4 * j.val))
        ∧ (t.port p).intxAsserted = (t.intxAny p && !(s.port p).intxDisable))

/-- Of a port whose requester may act, with fields that are multiples of 256 MiB. DECODER_COMMIT of a decoder that is not committed: it holds the fields written; it is committed, at the offset that its mode gives, unless it is interleaved, its window meets that of another committed decoder, it lies below the end of a lower-numbered one, a lower-numbered one is not committed, or its end lies beyond the range: then it stays uncommitted and unlocked and shows the error. A committed decoder keeps everything. DECODER_UNCOMMIT of a locked decoder has no effect; else the decoder is not committed and keeps its fields. Neither touches another decoder. C0_HELD_RELEASE while a read or a write of the port waits alone for its class-0 bucket: with an allowance and a depth of 64 bytes at least, the time base reaches the moment at which the bucket holds 64 bytes and 64 are taken from it; with an allowance of 0 a microsecond has passed since the buckets were last filled, and none are taken from a bucket that is short. A read of a line with no home is answered with zeros, one of a line in the vat with the slot's line; a write of a whole line in the vat leaves it in the slot and nothing else changes there, and is completed. With no such request it has no effect. -/
def Obligations.DecodersAreCommittedAndHeldRequestsGo : Prop :=
  ∀ (s : State) (p : Port),
    (s.acting (.port p) = true →
      (∀ (n : Fin 4) (base size skip ig iw : Nat) (h lock : Bool), base < 2 ^ 64 → size < 2 ^ 64 → skip < 2 ^ 64 →
        base % 2 ^ 28 = 0 → size % 2 ^ 28 = 0 → skip % 2 ^ 28 = 0 →
        let ds := (s.port p).decoders
        let last := ds.toList.getD (n.val - 1) {}
        let off := if (s.field (prtPage p) 0x120 0 4).testBit n.val = true ∨ n.val = 0 then skip else last.offset + last.size + skip
        let bad : Prop := iw % 16 ≠ 0 ∨ (∃ m : Fin 4, m ≠ n ∧ ds[m].committed = true ∧ runsMeet ds[m].base ds[m].size base size = true)
          ∨ (∃ m : Fin 4, m < n ∧ (ds[m].committed = false ∨ base < ds[m].base + ds[m].size)) ∨ s.rangeBytes < off + size
        let held : Decoder := { base := base, size := size, skip := skip, offset := 0, hdmH := h, ig := ig % 16, iw := iw % 16, committed := false, lock := false, error := true }
        (ds[n].committed = true → exec (.decoderCommit p n base size skip h iw lock ig) s = .next s) ∧
        (ds[n].committed = false →
          ∃ t, exec (.decoderCommit p n base size skip h iw lock ig) s = .next t ∧ s.changesOnly t [.ports]
            ∧ (∀ m : Fin 4, m ≠ n → (t.port p).decoders[m] = ds[m])
            ∧ (¬bad → (t.port p).decoders[n] = { held with offset := off, committed := true, lock := lock, error := false })
            ∧ (bad → (t.port p).decoders[n] = held))) ∧
      (∀ n : Fin 4,
        ((s.port p).decoders[n].lock = true → exec (.decoderUncommit p n) s = .next s) ∧
        ((s.port p).decoders[n].lock = false →
          ∃ t, exec (.decoderUncommit p n) s = .next t ∧ s.changesOnly t [.ports] ∧ (∀ m : Fin 4, m ≠ n → (t.port p).decoders[m] = (s.port p).decoders[m])
            ∧ (t.port p).decoders[n] = { (s.port p).decoders[n] with committed := false, error := false }))) ∧
    ((∀ w ∈ s.dir.waiting, w.1 ≠ .bucket p.val) → exec (.c0HeldRelease p) s = .next s) ∧
    (∀ (r : MemReq) (g : Nat) (k : Region), s.dir.waiting = [(.bucket p.val, r)] → (∀ n ∈ s.dir.snoops, n.answer = none) → r.port = p.val → s.portTakes p = true →
      r.decoded = true → s.refusal p.val (decide (r.op = 2)) (r.hdmH || !(s.port p).biEnable) r.addr = none → s.findRegion r.addr = some (g, k) →
      k.kind ≠ 1 → k.kind ≠ 2 →
      let slot := s.loc (tileOf r.addr)
      let i := lineOf r.addr
      let q := s.port p
      let write := decide (r.op = 2)
      let rate := s.allowance p write
      let level := if write then q.wrBucket else q.rdBucket
      let depth := 1024 * s.field (prtPage p) 0x11C 0 11
      let due := q.bucketAt + (if rate = 0 then us else (64 - level + rate - 1) / rate)
      let fare := if rate = 0 then 0 else 64
      (if rate = 0 then level < 64 else 64 ≤ depth) →
      let goes (t : State) : Prop := t.now = max s.now due ∧ t.dir.waiting = [] ∧ s.changesOnly t ([.now, .dir, .ports] ++ lineTraffic)
        ∧ (if write then (t.port p).wrBucket else (t.port p).rdBucket) = min depth (level + rate * (t.now - q.bucketAt)) - fare
      (r.op = 0 → r.poison = false → s.home (tileOf r.addr) = 0 → s.inService r.addr →
        ∃ t, exec (.c0HeldRelease p) s = .next t ∧ goes t ∧ s.keepsBytes t ∧ t.out.getLast? = some (.memData p.val r.tag zeroLine false)) ∧
      (r.op = 0 → r.poison = false → s.home (tileOf r.addr) = 1 → s.inService r.addr →
        ∃ t, exec (.c0HeldRelease p) s = .next t ∧ goes t ∧ s.keepsBytes t
          ∧ t.out.getLast? = some (.memData p.val r.tag (s.vatLine slot i).1 (s.vatLine slot i).2)) ∧
      (r.op = 2 → s.home (tileOf r.addr) = 1 → s.inService r.addr → r.be = BitVec.allOnes 64 → r.poison = false → r.data.length = 64 →
        ∃ t, exec (.c0HeldRelease p) s = .next t ∧ goes t ∧ t.vatLine slot i = (r.data, false) ∧ s.vatBut t slot i ∧ t.mem.cellar = s.mem.cellar
          ∧ t.out.getLast? = some (.cmp p.val r.tag .I)))

/-- Of a port whose requester may act, IDENTIFY, the event, timestamp and log commands, IDENTIFY_MEMORY_DEVICE and GET_HEALTH_INFO each send one successful completion with the values of R237, an opcode not listed one with the code Unsupported, and nothing else changes: SET_TIMESTAMP leaves the time base. A listed opcode does not come as an unsupported one. Where the port takes no request none has an effect. Where it answers configuration requests, with nothing waiting, DOE_DISCOVERY sends the list's entry and the next index, and the vendor 0xFFFF beyond it; CXL_TABLE_ACCESS sends the one memory range; DOE_ABORT leaves the DOE mailbox without error. Where it does not, each is answered with a retry if the link is up, and does nothing else. -/
def Obligations.MailboxAndDoeAnswer : Prop :=
  ∀ (s : State) (p : Port) (v op : Nat),
    let sends (i : Instr) (o : Out) : Prop := exec i s = .next { s with out := s.out ++ [o] }
    let list : List (Instr × Nat × List Nat) :=
      [(.identify p, 0x0001, [3]), (.getEventRecords p, 0x0100, [0]), (.clearEventRecords p, 0x0101, [0]), (.getTimestamp p, 0x0300, [s.now]),
       (.setTimestamp p v, 0x0301, []), (.getSupportedLogs p, 0x0400, [effectsLogId]),
       (.getLog p, 0x0401, [0x0001, 0x0100, 0x0101, 0x0300, 0x0301, 0x0400, 0x0401, 0x4000, 0x4200]),
       (.identifyMemoryDevice p, 0x4000, [s.rangeGib, s.rangeGib, 0, 0]), (.getHealthInfo p, 0x4200, [s.hottest, s.usedPct])]
    (s.acting (.port p) = true →
      (∀ x ∈ list, sends x.1 (.mailbox p.val x.2.1 0 x.2.2)) ∧ (op ∉ list.map (fun x => x.2.1) → sends (.mailboxUnsupported p op) (.mailbox p.val op 3 []))) ∧
    (op ∈ list.map (fun x => x.2.1) → exec (.mailboxUnsupported p op) s = .next s) ∧
    (s.portTakes p = false → (∀ x ∈ list, exec x.1 s = .next s) ∧ exec (.mailboxUnsupported p op) s = .next s) ∧
    (s.cfgTakes p = true → s.calm →
      (∀ x ∈ [(0, [0x0001, 0, 1]), (1, [0x0001, 1, 2]), (2, [0x0001, 2, 3]), (3, [0x1E98, 2, 0])], sends (.doeDiscovery p x.1) (.doe p.val 0 x.2)) ∧
      (3 < v → sends (.doeDiscovery p v) (.doe p.val 0 [0xFFFF, 0, 0])) ∧
      sends (.cxlTableAccess p) (.doe p.val 1 [0, s.rangeBytes, 450, 256]) ∧
      ∃ t, exec (.doeAbort p) s = .next t ∧ (t.port p).doeError = false ∧ s.changesOnly t [.ports]) ∧
    (s.cfgTakes p = false → ∀ i ∈ [Instr.doeDiscovery p v, .cxlTableAccess p, .doeAbort p],
      exec i s = .next (if s.linkUp p then s.emit (.cfgRetry p.val) else s))

/-- On a port that answers configuration requests, with nothing waiting. GET_VERSION begins the connection; GET_CAPABILITIES, NEGOTIATE_ALGORITHMS and the requests after them are answered in their phase (the phases are the model's, log entry 50) and before it get UnexpectedRequest and change nothing. KEY_EXCHANGE with no session begins one, with one gets Busy and leaves it, and CHALLENGE, KEY_EXCHANGE and signed GET_MEASUREMENTS without the alias key get Unspecified. GET_MEASUREMENTS sends the block asked for, their number for index 0 and all for 255, with a signature where it is asked for; GET_DIGESTS and GET_CERTIFICATE answer for the device certificate and the alias certificate that the start issued; with none of the latter, and for another slot, an invalid request. FINISH of a begun session establishes it, or ends it where the check fails. KEY_UPDATE, HEARTBEAT, END_SESSION and VENDOR_DEFINED_REQUEST get UnexpectedRequest outside an established session; inside, the session goes on with a new key, goes on, and ends; a key set of a stream is programmed; a stream is sent to a programmed key set, while one that is not programmed is an invalid request; on stop a stream is not secure and has no keys. A port that takes requests and has none waiting switches the stream with the first request that arrives for it: it is secure under the new set, and no switch is due any more. On a port that does not answer configuration requests, each is answered with a retry if the link is up, and does nothing else. -/
def Obligations.SessionsAreEstablishedInOrder : Prop :=
  ∀ (s : State) (p : Port) (nonce ks : Nat), s.calm →
    let q := s.port p
    let sends (i : Instr) (o : Out) : Prop := exec i s = .next { s with out := s.out ++ [o] }
    let signs (i : Instr) (code : Nat) (values : List Nat) : Prop :=
      ∃ t m, exec i s = .next t ∧ t.out = s.out ++ [.doe p.val code (values ++ m)] ∧ s.changesOnly t [.out, .freeCtr]
    let all := [1, 2, 3, 4, 5].map s.measurement
    let phased : List (Instr × Nat) := [(.getCapabilities p, 1), (.negotiateAlgorithms p, 2), (.getDigests p, 3), (.getCertificate p 0, 3), (.challenge p nonce, 3),
      (.getMeasurements p 0 false, 3), (.keyExchange p, 3)]
    let vdr (k : IdeKm) : Instr := .vendorDefinedRequest p k
    let inside : List Instr := [.keyUpdate p, .heartbeat p, .endSession p, vdr (.ideKeyGo ks), vdr (.cxlKeyGo ks), vdr (.ideKeyProg ks), vdr (.cxlKeyProg ks), vdr .ideStop, vdr .cxlStop]
    (s.cfgTakes p = false → ∀ ok, ∀ i ∈ phased.map Prod.fst ++ inside ++ [.getVersion p, .finish p ok],
      exec i s = .next (if s.linkUp p then s.emit (.cfgRetry p.val) else s)) ∧
    (s.cfgTakes p = true →
      (∃ t, exec (.getVersion p) s = .next t ∧ t.out = s.out ++ [.doe p.val 0x04 [0x13]] ∧ (t.port p).spdmPhase = 1 ∧ s.changesOnly t [.ports, .out]) ∧
      (∀ i ∈ phased, q.spdmPhase < i.2 → sends i.1 (.spdmError p.val 4)) ∧
      (1 ≤ q.spdmPhase → ∃ t, exec (.getCapabilities p) s = .next t ∧ (t.port p).spdmPhase = max 2 q.spdmPhase ∧ s.changesOnly t [.ports, .out]) ∧
      (2 ≤ q.spdmPhase → ∃ t, exec (.negotiateAlgorithms p) s = .next t ∧ (t.port p).spdmPhase = 3 ∧ s.changesOnly t [.ports, .out]) ∧
      (3 ≤ q.spdmPhase →
        sends (.getDigests p) (.doe p.val 0x01 s.certDigests) ∧ sends (.getCertificate p 0) (.doe p.val 0x02 [0, Config.deviceCertificate]) ∧
        (s.tru.aliasCert = none → sends (.getCertificate p 1) (.spdmError p.val 1)) ∧
        (∀ c, s.tru.aliasCert = some c → sends (.getCertificate p 1) (.doe p.val 0x02 [1, c])) ∧
        (∀ n, 2 ≤ n → sends (.getCertificate p n) (.spdmError p.val 1)) ∧
        (s.tru.aliasKey.isSome = true → signs (.challenge p nonce) 0x03 [nonce]) ∧
        (s.tru.aliasKey = none → sends (.challenge p nonce) (.spdmError p.val 5)) ∧
        (∀ x ∈ [(0, [5]), (255, all)] ++ [1, 2, 3, 4, 5].map (fun n => (n, [s.measurement n])),
          sends (.getMeasurements p x.1 false) (.doe p.val 0x60 x.2) ∧ (s.tru.aliasKey.isSome = true → signs (.getMeasurements p x.1 true) 0x60 x.2) ∧
          (s.tru.aliasKey = none → sends (.getMeasurements p x.1 true) (.spdmError p.val 5))) ∧
        (∀ n sig, 5 < n → n ≠ 255 → sends (.getMeasurements p n sig) (.spdmError p.val 1)) ∧
        (q.spdmSession ≠ 0 → sends (.keyExchange p) (.spdmError p.val 3)) ∧
        (q.spdmSession = 0 → s.tru.aliasKey = none → sends (.keyExchange p) (.spdmError p.val 5)) ∧
        (q.spdmSession = 0 → s.tru.aliasKey.isSome = true →
          ∃ t m, exec (.keyExchange p) s = .next t ∧ (t.port p).spdmSession = 1 ∧ t.out = s.out ++ [.doe p.val 0x64 m] ∧ s.changesOnly t [.ports, .out, .freeCtr])) ∧
      (q.spdmSession = 1 →
        (∃ t, exec (.finish p true) s = .next t ∧ (t.port p).spdmSession = 2 ∧ t.out = s.out ++ [.doe p.val 0x65 []] ∧ s.changesOnly t [.reg, .ports, .out]) ∧
        (∃ t, exec (.finish p false) s = .next t ∧ (t.port p).spdmSession = 0 ∧ t.out = s.out ++ [.spdmError p.val 6] ∧ s.changesOnly t [.ports, .out])) ∧
      (q.spdmSession ≠ 1 → ∀ ok, sends (.finish p ok) (.spdmError p.val 4)) ∧
      (q.spdmSession ≠ 2 → ∀ i ∈ inside, sends i (.spdmError p.val 4)) ∧
      (q.spdmSession = 2 →
        sends (.heartbeat p) (.doe p.val 0x68 []) ∧
        (∃ t, exec (.keyUpdate p) s = .next t ∧ (t.port p).spdmKey = q.spdmKey + 1 ∧ (t.port p).spdmSession = 2 ∧ s.changesOnly t [.ports, .out]) ∧
        (∃ t, exec (.endSession p) s = .next t ∧ (t.port p).spdmSession = 0 ∧ s.changesOnly t [.ports, .out]) ∧
        (∀ x ∈ [(0, vdr (.ideKeyProg ks), vdr (.ideKeyGo ks), vdr .ideStop), (1, vdr (.cxlKeyProg ks), vdr (.cxlKeyGo ks), vdr .cxlStop)],
          (2 ≤ ks → sends x.2.1 (.spdmError p.val 1)) ∧
          (2 ≤ ks ∨ bits q.ideKeys (4 * x.1 + ks) 1 = 0 → sends x.2.2.1 (.spdmError p.val 1)) ∧
          (ks < 2 → ∃ t, exec x.2.1 s = .next t ∧ bits (t.port p).ideKeys (4 * x.1 + ks) 1 = 1 ∧ (t.port p).ideGo = q.ideGo ∧ (t.port p).ideIo = q.ideIo
              ∧ (t.port p).ideMem = q.ideMem ∧ s.changesOnly t [.ports, .out]) ∧
          (ks < 2 → bits q.ideKeys (4 * x.1 + ks) 1 = 1 → ∃ t, exec x.2.2.1 s = .next t ∧ sget none (t.port p).ideGo x.1 = some ks
              ∧ (t.port p).ideKeys = q.ideKeys ∧ (t.port p).ideIo = q.ideIo ∧ (t.port p).ideMem = q.ideMem ∧ s.changesOnly t [.ports, .out]) ∧
          (∃ t, exec x.2.2.2 s = .next t ∧ bits (t.port p).ideKeys (4 * x.1) 3 = 0 ∧ sget none (t.port p).ideGo x.1 = none
              ∧ (t.port p).ideIo = (q.ideIo && decide (x.1 = 1)) ∧ (t.port p).ideMem = (q.ideMem && decide (x.1 = 0)) ∧ s.changesOnly t [.ports, .out])))) ∧
    (ks < 2 → s.portTakes p = true → ∀ x ∈ [(0, Instr.identify p), (1, .memSpecRd p nonce)], sget none q.ideGo x.1 = some ks →
      ∃ t, exec x.2 s = .next t ∧ sget none (t.port p).ideGo x.1 = none ∧ bits (t.port p).ideKeys (4 * x.1 + 2) 1 = ks
        ∧ (t.port p).ideIo = (q.ideIo || decide (x.1 = 0)) ∧ (t.port p).ideMem = (q.ideMem || decide (x.1 = 1)) ∧ s.changesOnly t [.ports, .out])

/-- PTM_DIALOG while PTM runs and no dialog is in flight: the time base reaches the last dialog and the interval at least, a PTM Request leaves at that moment t1, and nothing else changes; where PTM does not run, or a dialog is in flight, no effect. PTM_RESPONSE_D that arrives at t4, not before now and at most 1 ms after t1, with the master's time and delay D: OFFSET is the master's time plus D plus the half of t4 - t1 - D, less t4, as a two's complement number of 64 bits; VALID is set, a first good dialog gives a rate of 0, and a later one 10^9 times the change of OFFSET over the change of t4, to nearest, within 32,767 of either sign, as 16 bits. One that arrives later, and PTM_TIMEOUT: at t1 and 1 ms the dialog has failed, bit 9 of the page is set, and the last values stay. STALE shows, to any reader, four intervals after the last good dialog, or with none since the port's reset the first dialog. Without a dialog neither has an effect. -/
def Obligations.PtmFollowsThePartnersTime : Prop :=
  ∀ (s : State) (p : Port),
    let q := s.port p
    let page := 0x118 + 0x10 * p.val
    (s.ptmRuns p = true → q.ptmT1 = none →
      ∃ t, exec (.ptmDialog p) s = .next t ∧ t.now = max s.now (if q.ptmLastAt = 0 then s.now else q.ptmLastAt + ms * s.field 0x002 0x108 0 10)
        ∧ (t.port p).ptmT1 = some t.now ∧ (t.port p).ptmLastAt = t.now ∧ (t.port p).ptmSince = some (q.ptmSince.getD t.now) ∧ t.out = s.out ++ [.ptmRequest p.val] ∧ s.changesOnly t [.now, .ports, .out]) ∧
    (s.ptmRuns p = false ∨ q.ptmT1.isSome = true → exec (.ptmDialog p) s = .next s) ∧
    (∀ t1 t4 master delay : Nat, q.ptmT1 = some t1 → s.now ≤ t4 → t4 ≤ t1 + ms →
      let offset : Int := master + delay + ((t4 : Int) - t1 - delay) / 2 - t4
      ∃ t, exec (.ptmResponseD p t4 master delay) s = .next t ∧ t.now = t4 ∧ (t.port p).ptmT1 = none ∧ (t.port p).ptmSince = some t4
        ∧ t.word64 0x002 (0x110 + 0x10 * p.val) = (offset % 2 ^ 64).toNat ∧ t.field 0x002 page 0 1 = 1
        ∧ (s.field 0x002 page 0 1 = 0 → t.field 0x002 page 16 16 = 0)
        ∧ (s.field 0x002 page 0 1 = 1 → t.field 0x002 page 16 16 = (ratePpb (offset - q.ptmOffset) (t4 - q.ptmT4) % 2 ^ 16).toNat)
        ∧ s.changesOnly t [.now, .reg, .ports]) ∧
    (∀ t1 t4 m d, q.ptmT1 = some t1 →
      let failed (t : State) : Prop := (t.port p).ptmT1 = none ∧ (t.port p).ptmSince = q.ptmSince ∧ (t.word 0x002 0x018).testBit 9 = true
        ∧ t.word64 0x002 (0x110 + 0x10 * p.val) = s.word64 0x002 (0x110 + 0x10 * p.val) ∧ t.word 0x002 page = s.word 0x002 page
      (∃ t, exec (.ptmTimeout p) s = .next t ∧ t.now = max s.now (t1 + ms) ∧ failed t) ∧
      (t1 + ms < t4 → s.now ≤ t4 → ∃ t, exec (.ptmResponseD p t4 m d) s = .next t ∧ t.now = t4 ∧ failed t)) ∧
    (∀ req, bits (s.heldWord req 0x002 page) 1 1 = (match q.ptmSince with | some t => if t + 4 * s.ptmInterval ≤ s.now then 1 else 0 | none => 0)) ∧
    (q.ptmT1 = none → exec (.ptmTimeout p) s = .next s ∧ ∀ t4 m d, exec (.ptmResponseD p t4 m d) s = .next s)

/-- A core that executes instructions and that no mesh error awaits, at an address a with a width w of 1, 2, 4 or 8 bytes. Misaligned: a load or LR traps with cause 4, a store, AMO or SC with 6. An aligned address that PMP bars: a load or LR traps with 5, a store, AMO or SC with 7. One that it allows, outside the map: a load traps with 5, a store with 7; an AMO, LR or SC outside the stores with 7. At a place of a store, outside the secure partition or open to the cores and not being wiped: a load leaves the value, extended, in rd, or on a poisoned word, or an uncorrectable error, traps with cause 5, KIND 2 and the address; a store writes its bytes and no other byte and ends the reservations of the other cores on the word, or, narrower than 8 bytes on a poisoned or uncorrectable word, traps with cause 7 and writes nothing; an AMO of 4 or 8 bytes returns the old value, sign-extended, and leaves the result of its operation; LR returns the value and reserves the word; on an uncorrectable word an AMO traps with 7 and LR with 5; SC whose reservation names the word writes it and leaves 0 in rd, and otherwise writes nothing and leaves 1; after SC no reservation is held. A store to another core's local memory that meets a write of its owner loses: the word keeps the owner's value, the collision is recorded, and it traps with 7; one to shared memory that meets a write of the trust core wins, and the word then takes that write's repeat. While the partition is wiped a load from it gives 0 and a store to it has no effect. Place barred by SEC_CORES: traps with 5 and 7. At a line of the unified range that no port holds, with nothing waiting, which the cores may access and whose tile is in the vat: a load leaves its bytes, or on a poisoned line traps with cause 5 and KIND 3; a store puts its bytes over the line, and a poisoned line stays poisoned. A load of a register or a doorbell leaves what it shows. Nothing else changes but rd, reservations, stores, counters and a line's traffic. -/
def Obligations.CoresReachTheirStores : Prop :=
  ∀ (s : State) (core : Fin 18) (a w : Nat) (v : DWord) (rd : Fin 32) (short signed ue : Bool) (op : AmoOp) (host : HostLines),
    let c := core.val
    let load := Instr.coreLoad core a w signed rd short ue host
    let store := Instr.coreStore core a w v short ue .alone host
    let atomics := [Instr.amo core op a w v rd, .lr core a w rd, .sc core a w v rd]
    let traps (i : Instr) (cause : Nat) : Prop := ∃ t, exec i s = .next t ∧ s.trapped t c cause a ∧ s.changesOnly t signals
    (s.executes c = false → (∀ i ∈ load :: store :: atomics, exec i s = .next s)) ∧
    (s.executes c = true → (s.core c).meshHit = none → w ∈ [1, 2, 4, 8] →
      (a % w ≠ 0 → traps load 4 ∧ traps store 6) ∧
      (a % w = 0 → s.pmpData c a w false = false → traps load 5 ∧ (4 ≤ w → traps (.lr core a w rd) 5)) ∧
      (a % w = 0 → s.pmpData c a w true = false → traps store 7 ∧ (4 ≤ w → traps (.amo core op a w v rd) 7 ∧ traps (.sc core a w v rd) 7)) ∧
      (4 ≤ w → a % w ≠ 0 → traps (.amo core op a w v rd) 6 ∧ traps (.lr core a w rd) 4 ∧ traps (.sc core a w v rd) 6) ∧
      (s.pmpData c a w false = true → s.pmpData c a w true = true →
      (a % w = 0 → corePlace c a = .nothing → traps load 5 ∧ traps store 7) ∧
      (4 ≤ w → a % w = 0 → fetchPlace c a = none → ∀ i ∈ atomics, traps i 7) ∧
      (∀ x, a % w = 0 → corePlace c a = .store x →
        let old := (s.stoRead x w).1
        let bad := (s.stoRead x w).2
        let writes (i : Instr) (new : Nat) (out : Option (Fin 32 × DWord)) (sh : Bool) (own : Option Nat) : Prop :=
          ∃ t, exec i s = .next t ∧ t.stoRead x w = (new, false) ∧ s.storesBut t x w ∧ s.finished t c out sh ∧ (t.core c).reservation = own
            ∧ (∀ d, d < 18 → d ≠ c → (t.core d).reservation = (if (s.core d).reservation = some x.word then none else (s.core d).reservation)
                ∧ (t.core d).pc = (s.core d).pc ∧ (t.core d).x = (s.core d).x)
            ∧ s.changesOnly t [.reg, .sto, .cores]
        (s.barred x = true → traps load 5 ∧ traps store 7 ∧ (4 ≤ w → traps (.amo core op a w v rd) 7 ∧ traps (.lr core a w rd) 5 ∧ traps (.sc core a w v rd) 7)) ∧
        (s.barred x = false → (x.secure && s.wiping) = true →
          ∃ t u, exec load s = .next t ∧ s.finished t c (some (rd, 0#64)) short ∧ s.changesOnly t [.cores]
            ∧ exec store s = .next u ∧ s.finished u c none short ∧ s.changesOnly u [.cores]) ∧
        (s.barred x = false → (x.secure && s.wiping) = false →
          (ue = false → bad = false →
            ∃ t, exec load s = .next t ∧ s.finished t c (some (rd, extended w signed old)) short ∧ s.coresBut t c ∧ s.changesOnly t [.cores]) ∧
          (ue = true ∨ bad = true → traps load 5 ∧ ∃ t, exec load s = .next t ∧ t.word 0x0C0 0x1B8 = c + 2 * 2 ^ 5 ∧ t.word64 0x0C0 0x1B0 = a) ∧
          ((ue = false ∧ bad = false) ∨ w = 8 → writes store (v.toNat % 2 ^ (8 * w)) none short (s.core c).reservation) ∧
          (ue = true ∨ bad = true → w < 8 → traps store 7 ∧ ∃ t, exec store s = .next t ∧ t.word 0x0C0 0x1B8 = c + 4 * 2 ^ 5 ∧ t.word64 0x0C0 0x1B0 = a) ∧
          (ue = true → 4 ≤ w → traps (.amo core op a w v rd true) 7 ∧ traps (.lr core a w rd true) 5) ∧
          (∀ winner value, x.store = 3 → x.inst ≠ c →
            let y : Spot := { x with off := x.off / 8 * 8 }
            ∃ t, exec (.coreStore core a w v short ue (.against winner value) host) s = .next t ∧ t.stoRead y 8 = (value.toNat, false) ∧ s.storesBut t y 8
              ∧ (t.core c).mcause = 7#64 ∧ (t.core c).mtval = BitVec.ofNat 64 a ∧ (t.core c).mepc = (s.core c).pc ∧ (t.core c).x = (s.core c).x
              ∧ (t.core c).pc = (s.core c).mtvec &&& ~~~3#64 ∧ (t.word 0x0D0 0x018).testBit 8 = true ∧ s.changesOnly t (.sto :: signals)) ∧
          (∀ winner value, x.store = 2 → (ue = false ∧ bad = false) ∨ w = 8 →
            let y : Spot := { x with off := x.off / 8 * 8 }
            ∃ t, exec (.coreStore core a w v short ue (.against winner value) host) s = .next t ∧ t.stoRead y 8 = (value.toNat, false) ∧ s.storesBut t y 8
              ∧ s.finished t c none short ∧ (t.word 0x0D0 0x018).testBit 8 = true ∧ s.changesOnly t (.sto :: signals)) ∧
          (∀ winner value, x.store = 3 → x.inst = c → exec (.coreStore core a w v short ue (.against winner value) host) s = exec store s) ∧
          (4 ≤ w → bad = false →
            writes (.amo core op a w v rd) (amoResult op w old v.toNat) (some (rd, extended w true old)) false (s.core c).reservation
            ∧ (∃ t, exec (.lr core a w rd) s = .next t ∧ s.finished t c (some (rd, extended w true old)) false ∧ (t.core c).reservation = some x.word
                ∧ s.coresBut t c ∧ s.changesOnly t [.cores])
            ∧ ((s.core c).reservation = some x.word → writes (.sc core a w v rd) (v.toNat % 2 ^ (8 * w)) (some (rd, 0#64)) false none)) ∧
          (4 ≤ w → (s.core c).reservation ≠ some x.word →
            ∃ t, exec (.sc core a w v rd) s = .next t ∧ s.finished t c (some (rd, 1#64)) false ∧ (t.core c).reservation = none
              ∧ s.coresBut t c ∧ s.changesOnly t [.cores]))) ∧
      (∀ u, a % w = 0 → corePlace c a = .unified u → s.unheld → s.calm →
        let b := u / 64 * 64
        let l := s.lineAt b
        (s.readable internal b →
          (l.2 = false → ∃ t, exec load s = .next t ∧ s.finished t c (some (rd, extended w signed (leNat ((l.1.drop (u % 64)).take w)))) short
            ∧ s.coresBut t c ∧ s.keepsBytes t ∧ s.changesOnly t (.cores :: lineTraffic)) ∧
          (l.2 = true → ∃ t, exec load s = .next t ∧ s.trapped t c 5 a ∧ t.word 0x0C0 0x1B8 = c + 3 * 2 ^ 5 ∧ t.word64 0x0C0 0x1B0 = a)) ∧
        (s.writable internal b → ∃ t, exec store s = .next t ∧ s.finished t c none short ∧ s.coresBut t c ∧ s.vatBut t (s.loc (tileOf b)) (lineOf b)
          ∧ (t.lineAt b).2 = l.2 ∧ (l.2 = false → ∀ j, j < 64 → (t.lineAt b).1.getD j 0#8
              = (if u % 64 ≤ j ∧ j < u % 64 + w then (leBytes w v.toNat).getD (j - u % 64) 0#8 else l.1.getD j 0#8))
          ∧ s.changesOnly t (.cores :: lineTraffic))) ∧
      (∀ page off, a % w = 0 → w = 4 → corePlace c a = .page page off → pageClass page ≠ some .icuBank → s.sees (s.asCore c) page off = true → s.reg.latch = [] →
        ∃ t, exec load s = .next t ∧ s.finished t c (some (rd, extended w signed ((s.touch page).readVisible (s.asCore c) page off))) short) ∧
      (∀ q off, a % w = 0 → 4 ≤ w → corePlace c a = .doorbell q off →
        ∃ t, exec load s = .next t ∧ s.finished t c (some (rd, extended w signed (s.bellWord q off w))) short ∧ s.coresBut t c ∧ s.changesOnly t [.cores])))

/-- EOI of identity id by an admitted requester. By the core that claimed a shared source: the source is out of service and its counter is one less, so that it is pending again where that is above zero; of the CLS, TNS and other sources only that of page 0x0C1 itself (3,777) may then be raised anew, where delivering what is left logs a redirection. Of a private source in service at the writer's bank: its counter is one less and it is out of service. In every other case, another core or another requester, a source not in service by the writer, or an identity that no source has: no private source changes, no shared source but 3,777 changes and that one keeps its claim, and EOI_ERR is set. -/
def Obligations.EndOfInterruptCompletesTheClaim : Prop :=
  ∀ (s : State) (req : Requester) (bank : Fin 16) (id : Nat), id < 65536 → s.admits req (bankPage bank.val) (bankBase bank.val + 4) = true →
    let n := id - 0x1000
    let sharedMine (l : Fin 16) : Bool := decide (id < 0x1000) && (s.src id).insvc && decide ((s.src id).claimer = l.val)
    let privMine (l : Fin 16) : Bool := decide (0x1000 ≤ id) && decide (id < 0x1040) && s.privInsvc l.val n
    (∀ l, req = .core l → sharedMine l = true →
      ∃ t, exec (.eoi req bank id) s = .next t ∧ (t.src id).insvc = false ∧ (id ≠ 3777 → (t.src id).count = (s.src id).count - 1)
        ∧ (s.src id).count - 1 ≤ (t.src id).count ∧ (t.src id).pend = decide (0 < (t.src id).count)
        ∧ (∀ m, m ≠ id → m ≠ 3777 → t.src m = s.src m) ∧ t.icu.privCnt = s.icu.privCnt ∧ t.icu.privSvc = s.icu.privSvc ∧ s.changesOnly t signals) ∧
    (∀ l, req = .core l → privMine l = true →
      ∃ t, exec (.eoi req bank id) s = .next t ∧ t.privInsvc l.val n = false ∧ t.privCount l.val n = s.privCount l.val n - 1
        ∧ (∀ k m, 64 * k + m ≠ 64 * l.val + n → t.privCount k m = s.privCount k m ∧ t.privInsvc k m = s.privInsvc k m)
        ∧ t.icu.srcs = s.icu.srcs ∧ s.changesOnly t signals) ∧
    ((∀ l, req = .core l → sharedMine l = false ∧ privMine l = false) →
      ∃ t, exec (.eoi req bank id) s = .next t ∧ (t.word 0x0C1 0x018).testBit 9 = true ∧ t.icu.privCnt = s.icu.privCnt ∧ t.icu.privSvc = s.icu.privSvc
        ∧ (∀ m, m ≠ 3777 → t.src m = s.src m) ∧ (t.src 3777).insvc = (s.src 3777).insvc ∧ (t.src 3777).claimer = (s.src 3777).claimer
        ∧ s.changesOnly t signals)

/-- By an admitted requester. RAISE and MSG add one to the counter of their source, 255 staying 255, and change no other source (but 3,777, which a logged redirection raises); a message that becomes pending at an active running core, with priority above its threshold and GLOBAL_DIS clear, asserts MEIP there and ends its WFI; at a dormant core without a wake under way it starts one, due 2 µs later. CLAIM of a bank by its own core returns a deliverable source of the highest priority above the threshold and puts it in service with its counter unchanged; with none, or under GLOBAL_DIS, and by any other requester it returns 0xFFFF and claims nothing. SRC_CFG_WRITE sets the selected source's configuration, SRC_CLEAR its counter to 0, and neither its in-service flag. GLOBAL_DIS_WRITE sets the bit; cleared, it asserts MEIP at each running active core with a pending private source above its threshold. TIMECMP_WRITE, with no half of the register held, sets the value, and raises source 32 at once where it is not above the time base; TIMER raises it once when the time base reaches the value, and not again. REDIR_POP drops the oldest entry and clears OVF; an empty log stays. -/
def Obligations.InterruptsAreRaisedClaimedAndConfigured : Prop :=
  ∀ (s : State) (req : Requester) (value : Word),
    let up (k : Nat) : Nat := if 255 ≤ k then k else k + 1
    let privs (t : State) (l m : Nat) : Prop := t.privCount l m = up (s.privCount l m) ∧ t.icu.privSvc = s.icu.privSvc
      ∧ ∀ k n, 64 * k + n ≠ 64 * l + m → t.privCount k n = s.privCount k n
    let srcsBut (t : State) (n : Nat) : Prop := (∀ m, m ≠ n → m ≠ 3777 → t.src m = s.src m) ∧ t.icu.privCnt = s.icu.privCnt ∧ t.icu.privSvc = s.icu.privSvc
    (∀ n : Fin 4096, s.admits req 0x0C1 0x104 = true →
      ∃ t, exec (.raise req n) s = .next t ∧ (n.val ≠ 3777 → (t.src n.val).count = up (s.src n.val).count) ∧ up (s.src n.val).count ≤ (t.src n.val).count
        ∧ (t.src n.val).insvc = (s.src n.val).insvc ∧ (t.src n.val).claimer = (s.src n.val).claimer ∧ srcsBut t n.val ∧ s.changesOnly t signals) ∧
    (∀ (l : Fin 16) (m : Fin 32), s.admits req 0x0C1 0x100 = true →
      let c := s.physOf l.val
      ∃ t, exec (.msg req l m) s = .next t ∧ privs t l.val m.val ∧ t.icu.srcs = s.icu.srcs ∧ s.changesOnly t signals ∧
        (s.privCount l.val m.val = 0 → s.privInsvc l.val m.val = false → s.globalDis = false → s.active l.val = true → c < 18 →
          ((s.core c).state = 1 → s.threshold l.val < s.privPrio l.val m.val → t.out = s.out ++ [.meip c] ∧ (t.core c).wfiAt = none) ∧
          ((s.core c).state = 2 → (s.core c).wakeAt = none → 0 < s.privPrio l.val m.val → (t.core c).wakeAt = some (s.now + 2000)))) ∧
    (∀ b : Fin 16, s.admits req (bankPage b.val) (bankBase b.val) = true →
      let cands := s.sharedFor b.val ++ s.privateFor b.val
      (∀ id, req = .core b → s.claimable b.val = some id →
        (∃ prio, (id, prio) ∈ cands ∧ s.threshold b.val < prio ∧ ∀ e ∈ cands, e.2 ≤ prio) ∧
        ∃ t, exec (.claim req b) s = .next t ∧ t.out = s.out ++ [.readData req (BitVec.ofNat 64 id)] ∧ s.changesOnly t [.reg, .icu, .out]
          ∧ (id < 0x1000 → (t.src id).insvc = true ∧ (t.src id).claimer = b.val ∧ (t.src id).count = (s.src id).count ∧ ∀ m, m ≠ id → t.src m = s.src m)
          ∧ (0x1000 ≤ id → t.privInsvc b.val (id - 0x1000) = true ∧ t.icu.srcs = s.icu.srcs) ∧ t.icu.privCnt = s.icu.privCnt) ∧
      (s.globalDis = true ∨ (∀ e ∈ cands, e.2 ≤ s.threshold b.val) → s.claimable b.val = none) ∧
      (req ≠ .core b ∨ s.claimable b.val = none →
        ∃ t, exec (.claim req b) s = .next t ∧ t.out = s.out ++ [.readData req 0xFFFF#64] ∧ s.changesOnly t [.reg, .out])) ∧
    (s.admits req 0x0C6 0x104 = true →
      let n := bits (s.sel req 0x0C6 0x100) 0 12
      ∃ t, exec (.srcCfgWrite req value) s = .next t ∧ (t.src n).cfg = value &&& srcCfgMask ∧ (t.src n).insvc = (s.src n).insvc
        ∧ (n ≠ 3777 → (t.src n).count = (s.src n).count) ∧ srcsBut t n ∧ s.changesOnly t signals) ∧
    (s.admits req 0x0C6 0x108 = true →
      let n := bits (s.sel req 0x0C6 0x100) 0 12
      ∃ t, exec (.srcClear req) s = .next t ∧ t.src n = { s.src n with count := 0, redirected := false } ∧ (∀ m, m ≠ n → t.src m = s.src m) ∧ t.icu.privCnt = s.icu.privCnt
        ∧ t.icu.privSvc = s.icu.privSvc ∧ s.changesOnly t [.icu]) ∧
    (s.admits req 0x0C1 0x108 = true →
      (∃ t, exec (.globalDisWrite req true) s = .next t ∧ t.globalDis = true ∧ s.changesOnly t [.reg]) ∧
      (∃ t, exec (.globalDisWrite req false) s = .next t ∧ t.globalDis = false ∧ s.changesOnly t signals ∧ t.icu.privCnt = s.icu.privCnt ∧ t.icu.privSvc = s.icu.privSvc
        ∧ (s.globalDis = true → ∀ l n, l < 16 → n < 34 → s.active l = true → s.physOf l < 18 → (s.core (s.physOf l)).state = 1 → 0 < s.privCount l n →
            s.privInsvc l n = false → s.threshold l < s.privPrio l n → Out.meip (s.physOf l) ∈ t.out))) ∧
    (∀ (b : Fin 16) (v : DWord), s.admits req (bankPage b.val) (bankBase b.val + 0x10) = true → s.halfHeld (bankPage b.val) (bankBase b.val + 0x10) = false →
      ∃ t, exec (.timecmpWrite req b v) s = .next t ∧ t.timecmp b.val = v.toNat ∧ t.icu.srcs = s.icu.srcs ∧ t.icu.timerFired.getLsbD b.val = decide (v.toNat ≤ s.now)
        ∧ (if v.toNat ≤ s.now then privs t b.val 32 else t.icu.privCnt = s.icu.privCnt) ∧ s.changesOnly t signals) ∧
    (∀ l : Fin 16,
      (s.icu.timerFired.getLsbD l.val = true → exec (.timer l) s = .next s) ∧
      (s.icu.timerFired.getLsbD l.val = false →
        ∃ t, exec (.timer l) s = .next t ∧ t.now = max s.now (s.timecmp l.val) ∧ t.icu.timerFired.getLsbD l.val = true ∧ privs t l.val 32
          ∧ s.changesOnly t (.now :: signals))) ∧
    (s.admits req 0x0C1 0x114 = true →
      (s.icu.redirLog = [] → exec (.redirPop req) s = .next s) ∧
      (∀ e rest, s.icu.redirLog = e :: rest →
        ∃ t, exec (.redirPop req) s = .next t ∧ t.icu.redirLog = rest ∧ t.icu.redirOvf = 0 ∧ t.icu.srcs = s.icu.srcs ∧ s.changesOnly t [.icu]))

/-- CORE_RELEASE at STAGE 7, not released, power on: RELEASED, the start is over, RELEASE_TIME is in the hand-off block, and each physical core that is not halted and is mapped by exactly one active logical number has started at CTL_ENTRY; otherwise no effect. A fetch at an odd address has no effect (log entry 105). Another that meets no mesh error first takes the external interrupt where one is asserted and enabled; otherwise, where PMP lets it, at a place of local or shared memory that is open and not being wiped, the pc moves there; the instruction of two bytes, or of four in one line, comes from the line that the cache holds, or clean from memory, the cache then holding the line where all of it is clean, and is carried out. An uncorrectable fetch, one that PMP bars, and one elsewhere, traps with cause 1, or at the base of mtvec halts the core, which is retired. Of what is carried out (RV64GC, log entries 102 and 178): ADDI writes the sum; a branch on equality to zero goes on at its target or at the next instruction; ECALL traps with 11 or 8, an illegal instruction with 2; MRET in machine mode goes on at mepc in the mode of MPP; CSRRW exchanges mscratch with registers; MRET and CSRRW trap in user mode; FLW and FLD fill a floating-point register, a single boxed. FENCE.I empties the cache; WFI stops the core unless a source is deliverable. CORE_DORMANT, 200 ns after the WFI, of a core with DORMANT_EN keeps its registers, mcycle counted up to then; CORE_WAKE resumes it when its wake is due, its clock having stood. CORE_HALT retires the core. START_SPARE of an idle spare for a vacant number by a core starts it at CTL_SPARE_ENTRY with that number; for another pair, with no half of that register held, it is a CONFIG error; by another requester nothing. STOP_RETIRE by the core itself, or of a halted core, retires it; of another it is a CONFIG error. RETIRE_NOTICE_EXPIRY retires a core 1 ms after its notice. A core that does not execute is not changed. -/
def Obligations.CoresStartFetchSleepAndRetire : Prop :=
  ∀ (s : State) (core : Fin 18) (a : Nat) (ue : Bool) (req : Requester),
    let c := core.val
    let k := s.core c
    (s.stage = 7 → s.released = false → s.pwr.off = false →
      ∃ t, exec .coreRelease s = .next t ∧ t.released = true ∧ t.pwr.starting = 0 ∧ t.stoRead ⟨2, 0, handOffAt + 8⟩ 8 = (s.now % 2 ^ 64, false)
        ∧ ∀ l, s.activeCores.filter (fun x => decide (s.physOf x = c)) = [l] → k.state ≠ 3 → t.coreStarted c l (s.word64 0x0C0 0x100)) ∧
    (s.stage ≠ 7 ∨ s.released = true ∨ s.pwr.off = true → exec .coreRelease s = .next s) ∧
    (s.executes c = false → exec (.instructionFetch core a ue) s = .next s ∧ exec (.fenceI core) s = .next s ∧ exec (.wfi core) s = .next s ∧ exec (.coreHalt core) s = .next s) ∧
    (a % 2 = 1 → exec (.instructionFetch core a ue) s = .next s) ∧
    (s.executes c = true → a % 2 = 0 →
      let base := (k.mtvec &&& ~~~3#64).toNat
      let at' := s.modCore c (fun k => { k with pc := BitVec.ofNat 64 a })
      let faults (t : State) : Prop := (t.core c).mcause = 1#64 ∧ (t.core c).mtval = BitVec.ofNat 64 a ∧ (t.core c).mepc = BitVec.ofNat 64 a
        ∧ (t.core c).pc = k.mtvec &&& ~~~3#64 ∧ (t.core c).machine = true ∧ (t.core c).x = k.x
      (s.takesMeip c = true →
        ∃ t, exec (.instructionFetch core a ue) s = .next t ∧ (t.core c).mcause = 0x800000000000000B#64 ∧ (t.core c).mepc = BitVec.ofNat 64 a
          ∧ (t.core c).pc = k.mtvec &&& ~~~3#64 ∧ (t.core c).machine = true ∧ (t.core c).x = k.x ∧ s.coresBut t c ∧ s.changesOnly t [.cores]) ∧
      (s.takesMeip c = false → k.meshHit = none →
      (∀ x, s.pmpFetch c a = true → fetchPlace c a = some x → s.barred x = false → (x.secure && s.wiping) = false →
        (∀ line, ue = false → k.icache.find? (fun l => decide (l.1 = a / 64)) = some line →
          let part (i : Nat) : Nat := leNat ((line.2.drop (a % 64 + i)).take 2)
          (part 0 % 4 ≠ 3 → exec (.instructionFetch core a ue) s = .next (at'.performParcels c (part 0) 0)) ∧
          (part 0 % 4 = 3 → a % 64 < 62 → s.pmpFetch c (a + 2) = true → exec (.instructionFetch core a ue) s = .next (at'.performParcels c (part 0) (part 2)))) ∧
        (ue = false → k.icache.find? (fun l => decide (l.1 = a / 64)) = none → (s.stoRead x 2).2 = false →
          let u := at'.fetchLine c a x
          let part (i : Nat) : Nat := (s.stoRead { x with off := x.off + i } 2).1
          ((∀ i, i < 8 → (s.stoRead { x with off := x.off / 64 * 64 + 8 * i } 8).2 = false) → ∃ l ∈ (u.core c).icache, l.1 = a / 64) ∧
          s.coresBut u c ∧ s.changesOnly u [.cores] ∧ (u.core c).pc = BitVec.ofNat 64 a ∧ (u.core c).x = k.x ∧
          (part 0 % 4 ≠ 3 → exec (.instructionFetch core a ue) s = .next (u.performParcels c (part 0) 0)) ∧
          (part 0 % 4 = 3 → a % 64 < 62 → s.pmpFetch c (a + 2) = true → (s.stoRead { x with off := x.off + 2 } 2).2 = false →
            exec (.instructionFetch core a ue) s = .next (u.performParcels c (part 0) (part 2)))) ∧
        (ue = true → a ≠ base →
          ∃ t, exec (.instructionFetch core a ue) s = .next t ∧ faults t ∧ (∀ l ∈ (t.core c).icache, l.1 ≠ a / 64) ∧ t.word 0x0C0 0x1B8 = c + 2 ^ 5 ∧ s.changesOnly t signals) ∧
        (ue = true → a = base → ∃ t, exec (.instructionFetch core a ue) s = .next t ∧ s.retiredCore t c)) ∧
      (s.pmpFetch c a = false ∨ fetchPlace c a = none →
        (a ≠ base → ∃ t, exec (.instructionFetch core a ue) s = .next t ∧ faults t ∧ s.coresBut t c ∧ s.changesOnly t [.cores]) ∧
        (a = base → ∃ t, exec (.instructionFetch core a ue) s = .next t ∧ s.retiredCore t c)))) ∧
    (let only (t : State) : Prop := s.coresBut t c ∧ s.changesOnly t [.cores]
      let run (w : Nat) : State := s.performParcels c (w % 2 ^ 16) (w / 2 ^ 16)
      (∀ (rd rs : Fin 32) (imm : Nat), imm < 4096 →
        s.finished (run (encI 0x13 rd 0 rs imm)) c (some (rd, k.getX rs + sext 12 imm)) false ∧ only (run (encI 0x13 rd 0 rs imm))) ∧
      (∀ (rs : Fin 32) (off : Nat), off < 8192 → off % 2 = 0 →
        let t := run (encB 0 rs off)
        (t.core c).pc = k.pc + (if k.getX rs = 0#64 then sext 13 off else 4#64) ∧ (t.core c).x = k.x ∧ only t) ∧
      s.trapped (run 0x00000073) c (if k.machine then 11 else 8) 0 ∧ only (run 0x00000073) ∧
      s.trapped (s.performParcels c 0 0) c 2 0 ∧ only (s.performParcels c 0 0) ∧
      (k.machine = true →
        let t := run 0x30200073
        (t.core c).pc = k.mepc ∧ (t.core c).machine = decide (bits k.mstatus.toNat 11 2 = 3) ∧ (t.core c).x = k.x ∧ only t
          ∧ ∀ rd rs : Fin 32, let u := run (encI 0x73 rd 1 rs 0x340)
            s.finished u c (some (rd, k.mscratch)) false ∧ (u.core c).mscratch = k.getX rs ∧ only u) ∧
      (k.machine = false → s.trapped (run 0x30200073) c 2 0x30200073
        ∧ ∀ rd rs : Fin 32, s.trapped (run (encI 0x73 rd 1 rs 0x340)) c 2 (encI 0x73 rd 1 rs 0x340))) ∧
    (∀ (w : Nat) (x : Spot) (rd : Fin 32) (signed short : Bool) (host : HostLines), s.executes c = true → k.meshHit = none → k.fpOn = true → w = 4 ∨ w = 8 → a % w = 0 →
      s.pmpData c a w false = true → corePlace c a = .store x → s.barred x = false → (x.secure && s.wiping) = false → (s.stoRead x w).2 = false →
      ∃ t, exec (.coreLoad core a w signed rd short false host .none true) s = .next t
        ∧ (∀ r : Fin 32, (t.core c).f[r] = if r = rd then BitVec.ofNat 64 (if w = 8 then (s.stoRead x w).1 else boxed (s.stoRead x w).1) else k.f[r])
        ∧ s.finished t c none short ∧ s.coresBut t c ∧ s.changesOnly t [.cores]) ∧
    (s.executes c = true →
      (∃ t, exec (.fenceI core) s = .next t ∧ s.finished t c none false ∧ (t.core c).icache = [] ∧ s.coresBut t c ∧ s.changesOnly t [.cores]) ∧
      (∃ t, exec (.wfi core) s = .next t ∧ s.finished t c none false ∧ (t.core c).wfiAt = (if (s.claimable k.logical).isSome then none else some s.now)
        ∧ s.coresBut t c ∧ s.changesOnly t [.cores]) ∧
      (∃ t, exec (.coreHalt core) s = .next t ∧ s.retiredCore t c ∧ t.word 0x0C0 0x1B8 = c + 5 * 2 ^ 5)) ∧
    (∀ since, k.wfiAt = some since → k.state = 1 → s.dormantEn k.logical = true →
      ∃ t, exec (.coreDormant core) s = .next t ∧ t.now = max s.now (since + 200) ∧ t.core c = { k with state := 2, mcycle := k.mcycle + BitVec.ofNat 64 (k.cycles t.now), cycleAt := t.now } ∧ s.coresBut t c ∧ s.changesOnly t [.now, .cores]) ∧
    (k.wfiAt = none → exec (.coreDormant core) s = .next s) ∧
    (∀ due, k.wakeAt = some due → k.state = 2 →
      ∃ t, exec (.coreWake core) s = .next t ∧ t.now = max s.now due ∧ t.core c = { k with state := 1, wfiAt := none, wakeAt := none, cycleAt := t.now } ∧ s.coresBut t c
        ∧ s.changesOnly t [.now, .cores, .out]) ∧
    (k.wakeAt = none → exec (.coreWake core) s = .next s) ∧
    (∀ since, k.notice = some since → ∃ t, exec (.retireNoticeExpiry core) s = .next t ∧ t.now = max s.now (since + ms) ∧ (t.core c).notice = none ∧ s.retiredCore t c) ∧
    (k.notice = none → exec (.retireNoticeExpiry core) s = .next s) ∧
    (s.direct req 0x0C0 0x1A0 = true →
      let refuses (i : Instr) : Prop := ∃ t, exec i s = .next t ∧ t.word 0x0C0 0x018 = s.word 0x0C0 0x018 ||| 1 ∧ t.word 0x0C0 0x024 = 0x1A0 + reqCode req * 2 ^ 12
        ∧ s.changesOnly t signals
      (∀ (phys : Nat) (l : Fin 16),
        (∀ n, req = .core n → s.idleSpares.contains phys = true → s.active l.val = false →
          ∃ t, exec (.startSpare req phys l) s = .next t ∧ t.active l.val = true ∧ t.physOf l.val = phys ∧ t.coreStarted phys l.val (s.word64 0x0C0 0x1A8)) ∧
        (∀ n, req = .core n → s.halfHeld 0x0C0 0x1A8 = false → s.idleSpares.contains phys = false ∨ s.active l.val = true → refuses (.startSpare req phys l)) ∧
        ((∀ n, req ≠ .core n) → exec (.startSpare req phys l) s = .next s ∧ exec (.stopRetire req phys) s = .next s) ∧
        (∀ n, req = .core n → phys ≠ s.physOf n.val → (s.core phys).state ≠ 3 → refuses (.stopRetire req phys))) ∧
      (∀ n, req = .core n → c = s.physOf n.val ∨ k.state = 3 → ∃ t, exec (.stopRetire req c) s = .next t ∧ s.retiredCore t c))

/-- DRAM_REQUEST_ISSUE at a trained channel of the part with requests waiting sends one of them, takes it from the queue and counts it to its class: none that must follow an earlier access to its line, while class 0 waits a class-0 request or one of its line, and else while class 3 waits and its floor of 1/16 is due, a class-3 request or one of its line. Untrained, or with none waiting, it sends nothing. CLASS_INTERVAL begins an interval with nothing served and the weights in force. REFRESH_DUE comes tREFIpb after the bank's last; with requests to the bank waiting it is postponed, at most four times; otherwise it is issued with those postponed, behind the exit of a rank in power-down, closes the bank's row, and counts a DQS correction owed to the rank; in self-refresh it has no effect. MR4_READ, every 16 ms, keeps the rank's rate, shows the hottest, and a code of 11 or more (the model's reading, log entry 14) sets MR4_HOT. STACK_TEMPERATURE shows the temperature; at 85 °C REFRESH_2X is set with TEMP_HIGH, below 82 °C clear, between them kept. POWER_DOWN_ENTRY and SELF_REFRESH_ENTRY take effect after their idle times where nothing waits (for power-down no refresh of the rank either), they are enabled, and for self-refresh nothing inhibits it, and otherwise have no effect. DQS_OSCILLATOR_READ, every 1 ms, leaves each rank a correction owed. CHANNEL_RETRAIN_END leaves a retraining channel trained with its margins. -/
def Obligations.DramControllersServeAndSleep : Prop :=
  ∀ (s : State) (ch : Chan) (rank bank : Nat), rank < 8 → bank < 16 →
    let c := s.chan ch
    let sent (cmd b row : Nat) : Out := match ch with | .vat x y => .dram false (x % 16) (y % 64) cmd b row | .cellar x y => .dram true (x % 48) (y % 4) cmd b row
    let key := 16 * rank + bank
    let waits := c.reqs.any (fun r => decide (r.rank = rank ∧ r.bank = bank))
    let owed := sget 0 c.postponed key
    let had (k : ChanState) (n : Nat) : Nat := sget 0 k.served n + (if n = 3 then k.floorServed else 0)
    (c.trainState = 1 → s.chanExists ch = true → c.reqs ≠ [] →
      ∃ t i r, exec (.dramRequestIssue ch) s = .next t ∧ c.reqs[i]? = some r ∧ (t.chan ch).reqs = dropAt c.reqs i ∧ blocker c.reqs i = none
        ∧ ((∃ z ∈ c.reqs, z.cls = 0) → ∃ z ∈ c.reqs, z.cls = 0 ∧ z.line = r.line) ∧ t.out.getLast? = some (sent (if r.write then 1 else 0) r.bank r.row)
        ∧ (floorDue c = true → (∀ z ∈ c.reqs, z.cls ≠ 0) → (∃ z ∈ c.reqs, z.cls = 3) → ∃ z ∈ c.reqs, z.cls = 3 ∧ z.line = r.line)
        ∧ had (t.chan ch) r.cls = had c r.cls + 1 ∧ (s.order = .l3072 → sget 0 (t.chan ch).openRow (16 * r.rank + r.bank) = r.row + 1)
        ∧ sget 0 (t.chan ch).rankAt r.rank = s.now ∧ (t.chan ch).lastReq = s.now
        ∧ s.changesOnly t [.dram, .reg, .out]) ∧
    (c.trainState ≠ 1 ∨ s.chanExists ch = false ∨ c.reqs = [] → exec (.dramRequestIssue ch) s = .next s) ∧
    (∃ t, exec (.classInterval ch) s = .next t ∧ t.now = max s.now (c.intervalAt + 1000) ∧ (t.chan ch).intervalAt = t.now ∧ (t.chan ch).served = [] ∧ (t.chan ch).floorServed = 0 ∧ (t.chan ch).srcServed = []
      ∧ (t.chan ch).classWt.toNat = s.word (tierPage ch) 0x180 ∧ (t.chan ch).srcWt.toNat = s.word (tierPage ch) 0x184 ∧ (t.chan ch).reqs = c.reqs ∧ s.changesOnly t [.now, .dram]) ∧
    (c.selfRefresh = true → exec (.refreshDue ch rank bank) s = .next s) ∧
    (c.selfRefresh = false →
      let on (t : State) : Prop := t.now = max s.now (sget 0 c.dueAt key + s.refreshEvery ch rank) ∧ sget 0 (t.chan ch).dueAt key = t.now
      (waits = true → owed < 4 → ∃ t, exec (.refreshDue ch rank bank) s = .next t ∧ on t ∧ sget 0 (t.chan ch).postponed key = owed + 1 ∧ (t.chan ch).openRow = c.openRow ∧ s.changesOnly t [.now, .dram]) ∧
      (waits = false ∨ 4 ≤ owed → ∃ t, exec (.refreshDue ch rank bank) s = .next t ∧ on t ∧ sget 0 (t.chan ch).postponed key = 0 ∧ sget 0 (t.chan ch).openRow key = 0
        ∧ (t.chan ch).powerDown.getLsbD rank = false ∧ (t.chan ch).dqsOwed.getLsbD rank = false ∧ t.out = s.out ++ (if c.powerDown.getLsbD rank then [sent 5 bank 0] else []) ++ List.replicate (owed + 1) (sent 2 bank 0)
        ∧ s.changesOnly t [.now, .dram, .reg, .out]
        ∧ (let page := chanPage ch
           t.word page 0x03C = (if c.dqsOwed.getLsbD rank = false ∨ s.field page 0x008 0 1 = 1 then s.word page 0x03C else (s.word page 0x03C + 1) % 2 ^ 32)))) ∧
    (∀ (p : Fin 48) (rate : Nat),
      let page := 0x060 + p.val
      (pageExists s.order page = false → exec (.mr4Read p rank rate) s = .next s ∧ ∀ q, exec (.dqsOscillatorRead p q) s = .next s) ∧
      (pageExists s.order page = true →
        (∃ t, exec (.mr4Read p rank rate) s = .next t ∧ sget 0 t.dram.mr4 (8 * p.val + rank) = rate % 32
          ∧ t.now = max s.now (sget 0 s.dram.mr4At (8 * p.val + rank) + 16 * ms)
          ∧ ((∀ r, r < 8 → sget 0 s.dram.mr4 (8 * p.val + r) ≤ rate % 32) → t.field page 0x100 0 5 = rate % 32)
          ∧ (11 ≤ rate % 32 → (t.word page 0x018).testBit 9 = true) ∧ s.changesOnly t (.now :: .dram :: signals)) ∧
        ∀ q : Fin 4, ∃ t, exec (.dqsOscillatorRead p q) s = .next t ∧ s.changesOnly t [.now, .dram]
          ∧ t.now = max s.now ((s.chan (.cellar p.val q.val)).dqsAt + ms)
          ∧ t.chan (.cellar p.val q.val) = { s.chan (.cellar p.val q.val) with dqsAt := t.now, dqsOwed := 3#8 })) ∧
    (∀ (k : Fin 16) (temp : Nat),
      let page := 0x050 + k.val
      ∃ t, exec (.stackTemperature k temp) s = .next t ∧ t.field page 0x100 0 8 = min temp 255 ∧ s.changesOnly t signals
        ∧ t.field page 0x100 8 1 = (if 85 ≤ temp then 1 else if temp < 82 then 0 else s.field page 0x100 8 1)
        ∧ (85 ≤ temp → s.field page 0x100 8 1 = 0 → (t.word page 0x018).testBit 8 = true)) ∧
    (let idle := s.field (tierPage ch) 0x18C 0 10
     let asks := c.reqs.any (fun r => decide (r.rank = rank)) || c.refreshOwed rank
     (idle = 0 ∨ c.selfRefresh = true ∨ asks = true → exec (.powerDownEntry ch rank) s = .next s) ∧
     (idle ≠ 0 → c.selfRefresh = false → asks = false →
       ∃ t, exec (.powerDownEntry ch rank) s = .next t ∧ t.now = max s.now (sget 0 c.rankAt rank + idle) ∧ (t.chan ch).powerDown.getLsbD rank = true ∧ (t.chan ch).reqs = c.reqs
         ∧ t.out = s.out ++ [sent 3 rank 0] ∧ s.changesOnly t [.now, .dram, .out])) ∧
    (let on := s.field (tierPage ch) 0x18C 10 1
     (on = 0 ∨ s.inhibited ch = true ∨ c.reqs ≠ [] ∨ c.selfRefresh = true → exec (.selfRefreshEntry ch) s = .next s) ∧
     (on = 1 → s.inhibited ch = false → c.reqs = [] → c.selfRefresh = false →
       ∃ t, exec (.selfRefreshEntry ch) s = .next t ∧ t.now = max s.now (c.lastReq + us * s.field (tierPage ch) 0x18C 16 16) ∧ (t.chan ch).selfRefresh = true
         ∧ t.out = s.out ++ [sent 4 0 0] ∧ s.changesOnly t [.now, .dram, .reg, .out])) ∧
    (∀ (k : Fin 16) (n : Fin 64) (rd wr : Nat),
      let v := s.chan (.vat k.val n.val)
      (v.trainState = 2 → ∃ t, exec (.channelRetrainEnd k n rd wr) s = .next t ∧ (t.chan (.vat k.val n.val)).trainState = 1
        ∧ bits (t.chan (.vat k.val n.val)).train.toNat 8 8 = rd % 256 ∧ bits (t.chan (.vat k.val n.val)).train.toNat 16 8 = wr % 256
        ∧ (t.chan (.vat k.val n.val)).trainedAt = s.now ∧ s.changesOnly t [.dram]) ∧
      (v.trainState ≠ 2 → exec (.channelRetrainEnd k n rd wr) s = .next s))

/-- With nothing waiting. SCRUB_READ of a tier that is not enabled, or of a place that does not exist or that the pass has visited, has no effect; enabled, it advances the pass by the codewords visited (from the end, to 0). A vat line of a channel not skipped keeps its content without upset, and takes the codeword as decoded where that was corrected and no write came later; an uncorrectable one of a slot in use beyond the map reserve becomes poison, recorded with WHERE 1 and FOUND_BY 1; after a later write it is not written. One of the map reserve takes its tiles to HOME 4 with MAP_UNCORR. An uncorrectable word of shared or local memory becomes poison, of a cluster or row store outside any job zero. BUCKET_LEAK takes one from a level above 0 when its time has come; BKT_POP drops the oldest overflow and clears OVF. MARCH_START of a legal run begins it, another sets REFUSED, and during a run it has no effect; MARCH_STOP marks a run; MARCH_END of a preserving run reports FAILS and the first failing word, and without failures changes no store and of the cores at most ends reservations; of an undisturbed destructive run that ran to its end without failures it leaves the tested banks zero, no other word changed, and of the cores at most reservations ended. WIPE by the trust core, while none runs, clears SEC_CORES, zeroes the partition and its poison, ends reservations on it and keeps every other byte; during one it is counted; by another requester it is an ACCESS error. WIPE_END shows the time and clears WIPING, and a word not zero sets WIPE_FAIL. MESH_FLIT_ERROR is counted and recorded, and a header's sets MESH_UNCORR; that of a port's request that does not wait, or of a core, is kept for the request or the core's next access to meet. -/
def Obligations.StoresAreScrubbedMarchedAndWiped : Prop :=
  ∀ (s : State) (req : Requester) (up : Upset) (later : Bool), s.calm →
    let clean : Prop := ∀ q flips, up ≠ .hit q flips
    let passed (t : State) (tier : Fin 3) (n : Nat) : Prop :=
      t.igr.scrubPos[tier] = (if s.igr.scrubPos[tier] + n < s.scrubTotal tier.val then s.igr.scrubPos[tier] + n else 0)
    (∀ slot line, slot < vatSlots → line < 256 →
      let i := Instr.scrubRead (.vat slot line) up later
      let v := s.cellLine slot line
      (s.field 0x0E0 0x100 0 1 = 0 ∨ s.scrubDone (.vat slot line) = true → exec i s = .next s) ∧
      (s.field 0x0E0 0x100 0 1 = 1 → s.scrubDone (.vat slot line) = false → s.chanSkipped (.vat (slot % 16) (line / 4)) = false →
        (clean → ∃ t, exec i s = .next t ∧ passed t 0 4 ∧ t.mem = s.mem ∧ s.changesOnly t [.dram, .igr, .reg, .out]) ∧
        (∀ q flips, up = .hit q flips →
          let r := code128.readUpset (leNat ((v.1.drop (16 * q.val)).take 16)) v.2 flips.toNat
          (∀ d two, r = .corrected d two → s.mapSlots ≤ slot → ∃ t, exec i s = .next t ∧ passed t 0 4 ∧ s.vatBut t slot line
            ∧ t.vatLine slot line = (if later || v.2 then v else (putCodeword v.1 q.val d, false))) ∧
          (r = .bad → slot < s.mapSlots →
            ∃ t, exec i s = .next t ∧ passed t 0 4 ∧ (∀ x ∈ s.mapTiles slot line q.val, t.home x = 4) ∧ (t.word 0x018 0x018).testBit 13 = true ∧ t.mem.vat = s.mem.vat) ∧
          (r = .bad → s.mapSlots ≤ slot → s.useOf slot ≠ .free →
            ∃ t, exec i s = .next t ∧ passed t 0 4 ∧ t.vatLine slot line = (if later then v else (zeroLine, true)) ∧ s.vatBut t slot line
              ∧ t.word 0x0E0 0x138 = 1 + 2 ^ 4 ∧ t.word64 0x0E0 0x130 = 16384 * slot + 64 * line + 16 * q.val ∧ (t.word 0x0E0 0x018).testBit 9 = true)))) ∧
    (∀ p x, (s.field 0x0E0 0x100 1 1 = 0 ∨ s.order.packages ≤ p ∨ s.scrubDone (.cellar p x) = true → exec (.scrubRead (.cellar p x) up later) s = .next s) ∧
      (s.field 0x0E0 0x100 1 1 = 1 → p < s.order.packages → s.scrubDone (.cellar p x) = false → clean →
        ∃ t, exec (.scrubRead (.cellar p x) up later) s = .next t ∧ passed t 1 4 ∧ t.mem = s.mem ∧ s.changesOnly t [.dram, .igr, .reg, .out])) ∧
    (∀ store inst bank word, store < 4 →
      let i := Instr.scrubRead (.store store inst bank word) up later
      let x : Spot := ⟨store, inst, bankOff store bank word⟩
      (s.field 0x0E0 0x100 2 1 = 0 ∨ storeInst store inst = false ∨ storeBanks store ≤ bank ∨ storeBytes store ≤ x.off
          ∨ s.scrubDone (.store store inst bank word) = true → exec i s = .next s) ∧
      (s.field 0x0E0 0x100 2 1 = 1 → s.scrubDone (.store store inst bank word) = false → storeInst store inst = true → bank < storeBanks store → x.off < storeBytes store →
        (clean → ∃ t, exec i s = .next t ∧ passed t 2 1 ∧ t.sto = s.sto ∧ s.changesOnly t [.igr, .reg]) ∧
        (∀ q flips, up = .hit q flips → code64.readUpset (s.stoRead x 8).1 (s.stoRead x 8).2 flips.toNat = .bad →
          (∀ r, storeRow store inst = some r → s.rowDormant r = false ∧ s.jobHolds r = false) → (x.secure && s.wiping) = false →
          ∃ t, exec i s = .next t ∧ passed t 2 1 ∧ t.stoRead x 8 = (if later then s.stoRead x 8 else (0, decide (2 ≤ store))) ∧ s.storesBut t x 8
            ∧ t.word 0x0E0 0x138 = 3 + store + 2 ^ 4))) ∧
    (∀ (kind : Fin 5) (index : Nat),
      let key := bucketKey kind.val index
      let level := sget 0 s.igr.level key
      (level = 0 ∨ bucketExists kind.val index = false → exec (.bucketLeak kind index) s = .next s) ∧
      (0 < level → bucketExists kind.val index = true →
        ∃ t, exec (.bucketLeak kind index) s = .next t ∧ sget 0 t.igr.level key = level - 1 ∧ (∀ k, k ≠ key → sget 0 t.igr.level k = sget 0 s.igr.level k)
          ∧ t.now = max s.now (sget 0 s.igr.leakAt key + sec * s.field 0x0E0 (0x108 + 4 * kind.val) 16 16) ∧ s.changesOnly t [.now, .igr])) ∧
    (s.direct req 0x0E0 0x12C = true →
      (s.igr.bktLog = [] → exec (.bktPop req) s = .next s) ∧
      (∀ e rest, s.igr.bktLog = e :: rest → ∃ t, exec (.bktPop req) s = .next t ∧ t.igr.bktLog = rest ∧ t.igr.bktOvf = 0 ∧ s.changesOnly t [.igr])) ∧
    (s.direct req 0x0E1 0x104 = true →
      let w := s.word 0x0E1 0x100
      let store := bits w 1 2
      let inst := bits w 3 10
      let legal := decide (bits w 13 6 ≤ bits w 19 6 ∧ bits w 19 6 < storeBanks store) && storeInst store inst && (!w.testBit 0 || s.mayDestroy req store inst)
      (s.igr.march.isSome = true → exec (.marchStart req) s = .next s ∧ ∃ t, exec (.marchStop req) s = .next t ∧ t.igr.marchStop = true ∧ t.igr.march = s.igr.march ∧ s.changesOnly t [.igr]) ∧
      (s.igr.march = none → exec (.marchStop req) s = .next s ∧
        (legal = true → ∃ t, exec (.marchStart req) s = .next t ∧ t.igr.march = some (w.testBit 0, store, inst, bits w 13 6, bits w 19 6) ∧ t.igr.marchStop = false
          ∧ t.sto = { s.sto with marchHit := [] } ∧ t.field 0x0E1 0x108 0 2 = 1 ∧ t.field 0x0E1 0x108 3 1 = 0 ∧ s.changesOnly t [.reg, .pwr, .igr, .sto]) ∧
        (legal = false → ∃ t, exec (.marchStart req) s = .next t ∧ t.field 0x0E1 0x108 3 1 = 1 ∧ s.changesOnly t [.reg]))) ∧
    (∀ fails disturbed,
      (s.igr.march = none → exec (.marchEnd fails disturbed) s = .next s) ∧
      (∀ store inst first last,
        (s.igr.march = some (false, store, inst, first, last) →
          ∃ t, exec (.marchEnd fails disturbed) s = .next t ∧ t.igr.march = none ∧ t.word 0x0E1 0x108 = (if fails = [] then 2 else 3) + min 65535 fails.length * 2 ^ 16
            ∧ t.word64 0x0E1 0x118 = s.now % 2 ^ 64 ∧ t.word64 0x0E1 0x110 = (match fails.head? with | some f => (f.1 + f.2 * 2 ^ 6) % 2 ^ 64 | none => 0)
            ∧ (fails = [] → t.sto = s.sto ∧ s.changesOnly t [.reg, .igr, .pwr, .cores, .freeCtr]
                ∧ ∀ c, c < 18 → t.core c = s.core c ∨ t.core c = { s.core c with reservation := none }) ∧ (fails ≠ [] → (t.word 0x0E1 0x018).testBit 8 = true)) ∧
        (s.igr.march = some (true, store, inst, first, last) → s.igr.marchStop = false → store < 4 → s.sto.marchHit = [] →
          ∃ t, exec (.marchEnd [] false) s = .next t ∧ t.igr.march = none ∧ t.word 0x0E1 0x108 = 2 ∧ s.changesOnly t [.reg, .igr, .pwr, .sto, .cores]
            ∧ (∀ c, c < 18 → t.core c = s.core c ∨ t.core c = { s.core c with reservation := none })
            ∧ ∀ b a, b < 4 →
                let tested := decide (b = store ∧ storeBytes store * inst ≤ a ∧ a < storeBytes store * inst + storeBytes store
                  ∧ first ≤ (bankWord store (a - storeBytes store * inst)).1 ∧ (bankWord store (a - storeBytes store * inst)).1 ≤ last)
                (t.storeMem b).rd a = (if tested then 0#8 else (s.storeMem b).rd a)))) ∧
    (s.admits req 0x0D0 0x100 = true →
      (req = .trust →
        ∃ t, exec (.wipe req) s = .next t ∧ t.wiping = true ∧ t.field 0x0D0 0x104 1 3 = 4 ∧ t.field 0x0D0 0x104 16 16 = min 65535 (s.field 0x0D0 0x104 16 16 + 1) ∧
          (s.wiping = true → s.changesOnly t [.reg]) ∧
          (s.wiping = false → t.secCores = false ∧ t.sto.wipeAt = s.now ∧ (∀ o, secureAt ≤ o → o < 2 ^ 24 → t.stoRead ⟨2, 0, o⟩ 1 = (0, false))
            ∧ (∀ b a, b < 4 → (b ≠ 2 ∨ a < secureAt) → (t.storeMem b).rd a = (s.storeMem b).rd a)
            ∧ (∀ c o, c < 18 → secureAt ≤ o → o < 2 ^ 24 → (t.core c).reservation ≠ some (Spot.word ⟨2, 0, o⟩)) ∧ s.changesOnly t [.reg, .sto, .cores])) ∧
      (req ≠ .trust → ∃ t, exec (.wipe req) s = .next t ∧ t.word 0x0D0 0x018 = s.word 0x0D0 0x018 ||| 2 ∧ t.word 0x0D0 0x024 = 0x100 + reqCode req * 2 ^ 12 + 2 ^ 16
        ∧ s.changesOnly t signals)) ∧
    (∀ zero : Bool,
      (s.wiping = false → exec (.wipeEnd zero) s = .next s) ∧
      (s.wiping = true → ∃ t, exec (.wipeEnd zero) s = .next t ∧ t.wiping = false ∧ t.now = max s.now (s.sto.wipeAt + 31400) ∧ t.word64 0x0D0 0x108 = t.now % 2 ^ 64
        ∧ (t.word 0x0D0 0x018).testBit 9 = true ∧ (zero = false → t.sto.wipeFail = true ∧ (t.word 0x0D0 0x018).testBit 10 = true) ∧ (zero = true → t.sto = s.sto))) ∧
    (∀ (stop : Fin 38) (header : Bool),
      ∃ t, exec (.meshFlitError stop header none) s = .next t
        ∧ t.word 0x0D0 0x134 = stop.val + (if header then 2 ^ 6 else 0) + min 65535 (s.field 0x0D0 0x134 16 16 + 1) * 2 ^ 16
        ∧ (header = true → (t.word 0x0D0 0x018).testBit 11 = true) ∧ s.changesOnly t signals
        ∧ (∀ (p : Port) (tag : Nat), (∀ x ∈ s.prs.reads, ∀ r ∈ x.reqs, ¬(r.port = p.val ∧ r.tag = tag)) →
            ∃ u, exec (.meshFlitError stop header (some (p, tag))) s = .next u ∧ u.dir.meshHits = s.dir.meshHits ++ [(p.val, tag, header)])
        ∧ ∀ c, c < 18 → ∃ u, exec (.meshFlitError stop header none false (.core c)) s = .next u ∧ (u.core c).meshHit = some header)

/-- With nothing waiting. COOPER_TRIGGER of a unit of the module (of a core only with its uncorrectable traps within the hour; of a DRAM row, and where the block counts the trigger itself, only where that is due) adds one to the triggers; before release it is held; after it, with AUTO set and the unit, for a row whose spare row fails its bank, not repaired or in hand, its action's entry with the time waits for flash where the log has room, and SPARE_LOW is set where no spare is left; a bank of which a row is being copied waits for the switch; without AUTO, or for a unit in hand, nothing else changes. One for a vat channel takes it out of service, and its stack takes no more slots. A trigger that is not due, or of no unit, has no effect. COOPER_ACTION takes the oldest entry: not acknowledged, only the wait ends; acknowledged, the entry is the log's last and the action begins: a vat row or bank is copied, a bond lane is spared by retraining, the sectors of a cellar row that holds no cask are withheld, a package is evacuating or retired, a column group or a cluster of a row that no job holds is out, and one of a held row waits, a control core is given notice, or, where it holds no logical number, retired, a lost channel is reported, and a lane of a press is out. With none waiting it has no effect. RETIRE_REQ of a retired cluster has no effect but that of the access; of another it sets its bit, and is held before release. REMAP_COPY_STEP has no effect while a refresh of the bank is due; else without upset it moves no data of the vat, goes on with the next line at least a microsecond after the bank's last step, and after the last line the spare is in the remap table. -/
def Obligations.RepairsAreLoggedBeforeTheyAreTaken : Prop :=
  ∀ (s : State) (u : RepairUnit) (n : Bool), s.atRest →
    let counted (t : State) : Prop := t.igr.triggers = s.igr.triggers + 1 ∧ u ∉ t.igr.due
    let s1 : State := s.takeTrigger u
    let f := s.failing u
    let room := decide (s.igr.log.length + s.igr.waiting.length < 8192)
    let due : Bool := s.triggerDue u n
    let outOf : Bool := match u with | .vatChannelOut _ _ => true | _ => false
    (due = false ∨ s.unitExists u = false → exec (.cooperTrigger u n) s = .next s) ∧
    (due = true → s.unitExists u = true → outOf = false →
      (s.released = false → ∃ t, exec (.cooperTrigger u n) s = .next t ∧ counted t ∧ t.igr.early = s.igr.early ++ [u] ∧ t.igr.waiting = s.igr.waiting ∧ s.changesOnly t [.igr]) ∧
      (s.released = true → s.cooperAuto = false ∨ s.repairDone f = true →
        ∃ t, exec (.cooperTrigger u n) s = .next t ∧ counted t ∧ t.igr.waiting = s.igr.waiting ∧ t.igr.log = s.igr.log ∧ s.changesOnly t [.igr]) ∧
      (s.released = true → s.cooperAuto = true → s.repairDone f = false → s.rowCopied f = true →
        ∃ t, exec (.cooperTrigger u n) s = .next t ∧ counted t ∧ t.igr.waiting = s.igr.waiting ∧ t.igr.early = s.igr.early ++ [f] ∧ s.changesOnly t [.igr]) ∧
      (s.released = true → s.cooperAuto = true → s.repairDone f = false → s.rowCopied f = false →
        ∃ t, exec (.cooperTrigger u n) s = .next t ∧ counted t ∧ t.igr.log = s.igr.log ∧ s.changesOnly t (.igr :: signals)
          ∧ (∀ v a n d, (s1.entryFor f).1 = some (v, a, n, d) → room = true →
              t.igr.waiting = s.igr.waiting ++ [(v, { time := s.now, action := a, unit := n, detail := d })])
          ∧ ((s1.entryFor f).1 = none ∨ room = false → t.igr.waiting = s.igr.waiting)
          ∧ ((s1.entryFor f).2 = true → (t.word 0x0E0 0x018).testBit 11 = true))) ∧
    (∀ st c, u = .vatChannelOut st c → due = true → s.unitExists u = true →
      ∃ t, exec (.cooperTrigger u n) s = .next t ∧ counted t ∧ (t.chan (.vat st c)).trainState = 3 ∧ sget false t.mem.channelOut (64 * st + c) = true
        ∧ t.mem.stackOut.getLsbD st = true ∧ (t.word (0x050 + st) 0x018).testBit 10 = true) ∧
    (∀ ack, s.igr.waiting = [] → exec (.cooperAction ack) s = .next s) ∧
    (∀ e rest, s.igr.waiting = (u, e) :: rest →
      (∃ t, exec (.cooperAction false) s = .next t ∧ t.igr.waiting = rest ∧ t.igr.log = s.igr.log ∧ t.igr.remap = s.igr.remap ∧ s.changesOnly t [.igr]) ∧
      (∃ t, exec (.cooperAction true) s = .next t ∧ t.igr.waiting = rest ∧ t.igr.log = s.igr.log ++ [e]
        ∧ (∀ st c rk bk row, u = .vatRow st c rk bk row →
            t.igr.remap = s.igr.remap ++ [{ stack := st, channel := c, rank := rk, bank := bk, row := row, whole := false, left := 16 }] ∧ t.mem = s.mem)
        ∧ (∀ st c rk bk, u = .vatBank st c rk bk →
            t.igr.remap = s.igr.remap ++ [{ stack := st, channel := c, rank := rk, bank := bk, row := 0, whole := true, left := 65536 }] ∧ t.mem = s.mem)
        ∧ (∀ st c l, u = .vatLane st c l →
            let n := bits (s.chan (.vat st c)).train.toNat 2 3
            (t.chan (.vat st c)).trainState = 2 ∧ bits (t.chan (.vat st c)).train.toNat 2 3 = (n + 1) % 8 ∧ t.mem = s.mem)
        ∧ (∀ p c rk bk row, u = .cellarRow p c rk bk row → s.rowCasks u = [] → s.igr.rowsLeaving = [] →
            (∀ x ∈ rowSectors c rk bk row, sget false t.mem.withheld (sectorKey p x) = true) ∧ t.mem.cellar = s.mem.cellar)
        ∧ (∀ p, u = .cellarPackage p → p < 48 → t.mem.evacuating.getLsbD p = true ∨ t.mem.retired.getLsbD p = true)
        ∧ (∀ r c g, u = .columnGroup r c g → r < 16 → c < 34 → g < 260 → s.igr.heldSubst = [] → s.groupRetired r c g = false → s.laneSpares r c < 4 →
            (s.jobHolds r = false → t.groupRetired r c g = true ∧ t.laneSpares r c = s.laneSpares r c + 1) ∧
            (s.jobHolds r = true → t.groupRetired r c g = false ∧ u ∈ t.igr.heldSubst))
        ∧ (∀ c, u = .controlCore c → c < 18 → (s.core c).notice = none →
            let held := s.active (s.core c).logical && decide (s.physOf (s.core c).logical = c)
            (held = true → (t.core c).notice = some s.now) ∧ (held = false → (t.core c).state = 4))
        ∧ (∀ st c, u = .vatChannelOut st c → (t.word 0x0E0 0x018).testBit 13 = true ∧ t.mem.stackOut = s.mem.stackOut)
        ∧ (∀ p l, u = .pressLane p l → sget false t.prs.laneOut (6 * p + l) = true)
        ∧ (∀ r c, u = .cluster r c → r < 16 → c < 34 →
            (s.jobHolds r = false → t.clusterState r c = 2) ∧
            (s.jobHolds r = true → s.clusterState r c = 0 → t.clusterState r c = 0 ∧ u ∈ t.igr.heldSubst)))) ∧
    (∀ (req : Requester) (r : Fin 16) (c : Fin 34),
      let page := clsPage r.val c.val
      s.admits req page 0x104 = true → s.reaches req page 0x104 = true →
        (s.clusterState r.val c.val = 2 → exec (.retireReq req r c) s = .next (s.touch page)) ∧
        (s.clusterState r.val c.val ≠ 2 →
          ∃ t, exec (.retireReq req r c) s = .next t ∧ t.field page 0x104 0 1 = 1 ∧ t.clusterState r.val c.val = s.clusterState r.val c.val
            ∧ (s.released = false → t.igr.early = s.igr.early ++ [.cluster r.val c.val] ∧ s.changesOnly t [.reg, .pwr, .igr])
            ∧ (s.released = true → t.igr.early = s.igr.early ∧ s.changesOnly t (.pwr :: .igr :: signals)))) ∧
    (∀ up, s.igr.remap = [] → exec (.remapCopyStep up) s = .next s) ∧
    (∀ m rest, s.igr.remap = m :: rest →
      let last := sget 0 s.igr.bankStep m.bankKey
      (s.copyHeld m = true → exec (.remapCopyStep .none) s = .next s) ∧
      (s.copyHeld m = false → ∃ t, exec (.remapCopyStep .none) s = .next t ∧ t.mem = s.mem ∧ t.now = (if last = 0 then s.now else max s.now (last + us))
        ∧ (1 < m.left → t.igr.remap = rest ++ [{ m with line := m.line + 1, left := m.left - 1, stepAt := t.now }] ∧ t.igr.remapped = s.igr.remapped)
        ∧ (m.left ≤ 1 → t.igr.remap = rest
            ∧ t.igr.remapped = s.igr.remapped ++ [(64 * m.stack + m.channel, 16 * m.rank + m.bank, if m.whole then none else some m.row)]
            ∧ (t.word 0x0E0 0x018).testBit 10 = true)))

/-- With power: INPUT_SAMPLE from 57 to 82 V shows voltage, current and average, moves the power level by the average so far, holds the rows above 2,000 W until 1,900 W, and outside 60 to 80 V sets INPUT_RANGE; beyond, it trips. HEAT_EVALUATION at the next multiple of 100,000 ns sets each stack's heat level and hold by R363 and R365, and a stack at 95 °C trips. A trip, RAIL_TIMEOUT of a cold start by the rail's limit, which time reaches, and the removal of the input drop the rails; the cause and stack are recorded but for the last, and RAIL_TIMEOUT leaves the repair log as the start found it. REF_LOST and, 1 ms after the last loss, REF_RESTORED set and clear REF_LOST. DORMANT_ENTER of an island that may sets its bit once its idle time and 200 ns have passed, DORMANT_WAKE clears it with the first cycle 2 µs later. Without the input, or nothing to do, none has an effect. With the input the management interface answers: ENTDAA and SETDASA give an address where none is held, RSTDAA takes it away, the GET commands send their bytes (of free content), ENEC and DISEC switch in-band interrupts, a private write of one byte sets the offset, one of more is stored from there and acts at COMMAND alone, a private read sends the map from there (INLET_C and OUTLET_C free), a transfer to another address does nothing, COMMAND 1 begins a warm start, joins one begun in this nanosecond, or is rejected by STATE, 2 arms, 3 drops the rails within 100 ms of arming and is rejected otherwise, 4 toggles the locate indication, any other is rejected. A sensed leak sets LEAK only. -/
def Obligations.PowerAndManagementAct : Prop :=
  ∀ s : State,
    (∀ volt amp watts, (s.pwr.off = true ∨ s.pwr.input = false → exec (.inputSample volt amp watts) s = .next s) ∧
      (s.pwr.off = false → s.pwr.input = true →
        let n := s.pwr.samples.length
        let sum := s.pwr.samples.sum
        let limit := s.field 0x001 0x10C 0 12
        let l := s.powerLevel
        (570 ≤ volt → volt ≤ 820 →
          ∃ t, exec (.inputSample volt amp watts) s = .next t ∧ s.changesOnly t (.pwr :: .tns :: signals) ∧ t.pwr.off = false
            ∧ t.word 0x001 0x100 = min 1023 volt ∧ t.word 0x001 0x104 = min 1023 amp ∧ t.pwr.samples = (watts :: s.pwr.samples).take 100
            ∧ t.field 0x001 0x108 0 12 = min 4095 (t.pwr.samples.sum / t.pwr.samples.length)
            ∧ t.pwr.powerHold = (if 2000 < watts then true else if watts ≤ 1900 then false else s.pwr.powerHold)
            ∧ t.powerLevel = (if n = 0 then l else if limit * n ≤ sum ∧ l < s.stepFloor then l + 1 else if 100 * sum < 95 * limit * n then l - 1 else l)
            ∧ (volt < 600 ∨ 800 < volt → (t.word 0x001 0x018).testBit 11 = true)) ∧
        (volt < 570 → ∃ t, exec (.inputSample volt amp watts) s = .next t ∧ s.railsFell t ∧ t.pwr.tripCause = 2) ∧
        (820 < volt → ∃ t, exec (.inputSample volt amp watts) s = .next t ∧ s.railsFell t ∧ t.pwr.tripCause = 3))) ∧
    (∀ temps, (s.pwr.off = true ∨ s.pwr.input = false → exec (.heatEvaluation temps) s = .next s) ∧
      (s.pwr.off = false → s.pwr.input = true →
        let temp (k : Fin 16) : Nat := temps.getD k.val (s.field (0x050 + k.val) 0x100 0 8)
        let at' := max s.now ((s.now / 100000 + 1) * 100000)
        let hold := s.field 0x001 0x110 16 8
        ((∀ k, temp k < 95) →
          ∃ t, exec (.heatEvaluation temps) s = .next t ∧ t.now = at' ∧ s.changesOnly t (.now :: .pwr :: .tns :: signals) ∧
            ∀ k : Fin 16, t.field (0x050 + k.val) 0x100 0 8 = min (temp k) 255
              ∧ t.pwr.heatHold.getLsbD k.val = (if hold ≤ temp k then true else if temp k + 3 < hold then false else s.pwr.heatHold.getLsbD k.val)
              ∧ t.heatLevel k.val = (let l := s.heatLevel k.val
                  if hold ≤ temp k then l else if s.field 0x001 0x110 8 8 ≤ temp k then (if l < s.stepFloor then l + 1 else l)
                  else if s.field 0x001 0x110 0 8 < temp k then l else l - 1)) ∧
        (∀ k, 95 ≤ temp k → (∀ j : Fin 16, j < k → temp j < 95) →
          ∃ t, exec (.heatEvaluation temps) s = .next t ∧ ({ s with now := at' } : State).railsFell t ∧ t.pwr.tripCause = 1 ∧ t.pwr.tripStack = k.val))) ∧
    (∀ cause, (s.pwr.off = true ∨ s.pwr.input = false → exec (.trip cause) s = .next s.watch) ∧
      (s.pwr.off = false → s.pwr.input = true → ∃ t, exec (.trip cause) s = .next t ∧ s.railsFell t ∧ (t.pwr.tripCause, t.pwr.tripStack) = tripCode cause)) ∧
    (∀ rail, let due := s.pwr.startAt + railLimit rail
      (s.pwr.starting ≠ 1 ∨ due < s.now → exec (.railTimeout rail) s = .next s) ∧
      (s.pwr.starting = 1 → s.now ≤ due → s.pwr.off = false → s.pwr.input = true →
        ∃ t, exec (.railTimeout rail) s = .next t ∧ ({ s with now := due, igr := { s.igr with log := s.pwr.startLog } } : State).railsFell t ∧ t.pwr.tripCause = 4)) ∧
    (s.pwr.input = false → exec .inputRemoved s = .next s) ∧
    (s.pwr.input = true →
      ∃ t, exec .inputRemoved s = .next t ∧ s.railsFell t ∧ t.pwr.input = false ∧ t.pwr.rails = 0 ∧ t.pwr.tripCause = 0 ∧ t.mod.dynAddr = none ∧ t.mod.locate = false ∧ t.mod.leak = false) ∧
    (let lost := s.field 0x002 0x10C 1 1
     (lost = 0 → exec .refRestored s = .next s ∧
       ∃ t, exec .refLost s = .next t ∧ t.field 0x002 0x10C 1 1 = 1 ∧ (t.word 0x002 0x018).testBit 8 = true ∧ t.pwr.refLostAt = s.now ∧ s.changesOnly t (.pwr :: .mod :: signals)) ∧
     (lost = 1 → exec .refLost s = .next { s with pwr := { s.pwr with refLostAt := s.now } } ∧
       ∃ t, exec .refRestored s = .next t ∧ t.field 0x002 0x10C 0 2 = 1 ∧ t.now = max s.now (s.pwr.refLostAt + ms) ∧ s.changesOnly t [.now, .reg, .mod, .out])) ∧
    (∀ (engine : Bool) (i : Fin 16),
      let b := if engine then 16 + i.val else i.val
      (s.mayDoze engine i.val = false → exec (.dormantEnter engine i) s = .next s) ∧
      (s.mayDoze engine i.val = true → ∃ t, exec (.dormantEnter engine i) s = .next t ∧ (t.word 0x001 0x11C).testBit b = true
        ∧ t.now = max s.now (s.idleFrom engine i.val + us * s.field 0x001 0x118 0 16 + 200) ∧ s.changesOnly t [.now, .reg]) ∧
      ((s.word 0x001 0x11C).testBit b = false → exec (.dormantWake engine i) s = .next s) ∧
      ((s.word 0x001 0x11C).testBit b = true → ∃ t, exec (.dormantWake engine i) s = .next t ∧ (t.word 0x001 0x11C).testBit b = false
        ∧ nth16 (if engine then t.pwr.denWakeAt else t.pwr.rowWakeAt) i.val = s.now + 2000 ∧ s.changesOnly t [.reg, .pwr])) ∧
    (∀ (a count code : Nat) (bytes : List Byte), s.pwr.input = false →
      ∀ i ∈ [Instr.entdaa a, .setdasa a, .rstdaa, .getpid, .getbcr, .getdcr, .getstatus, .enec, .disec, .privateWrite bytes, .privateRead count, .warmReset, .armPowerCycle,
        .powerCycle, .locate, .managementReservedCommand code, .leak true], exec i s = .next s) ∧
    (exec (.leak false) s = .next s) ∧
    (s.pwr.input = true →
      let m := s.mod
      let sends (i : Instr) (l : List Byte) : Prop := exec i s = .next { s with out := s.out ++ [.i3c l] }
      let sets (i : Instr) (m' : ModState) : Prop := exec i s = .next { s with mod := m' }
      (∀ a, (m.dynAddr = none → sets (.setdasa a) { m with dynAddr := some (a % 128) }
          ∧ exec (.entdaa a) s = .next { s with mod := { m with dynAddr := some (a % 128) }, out := s.out ++ [.i3c (i3cBytes 0 8)] }) ∧
        (m.dynAddr.isSome = true → exec (.entdaa a) s = .next s ∧ exec (.setdasa a) s = .next s)) ∧
      sets .rstdaa { m with dynAddr := none } ∧ sets .enec { m with ibiEn := true } ∧ sets .disec { m with ibiEn := false } ∧
      sends .getpid (i3cBytes 0 6) ∧ sends .getbcr (i3cBytes 6 1) ∧ sends .getdcr (i3cBytes 7 1) ∧
      (∃ t x y, exec .getstatus s = .next t ∧ t.out = s.out ++ [.i3c [x, y]] ∧ s.changesOnly t [.out, .freeCtr]) ∧
      (∀ o : Byte, sets (.privateWrite [o]) { m with offset := o.toNat }) ∧
      (∀ b, m.offset = 16 → ∃ t, exec (.privateWrite [4#8, b]) s = .next t ∧ t.mod.locate = !m.locate ∧ t.mod.result = 0 ∧ t.mod.offset = 16 ∧ s.changesOnly t [.mod, .out]) ∧
      (∀ l : List Byte, l.length ≠ 1 → (∀ i, i < l.length → m.offset + i ≠ 0x10) → exec (.privateWrite l) s = .next s) ∧
      (∀ a x l n, x ≠ m.dynAddr.getD 0x3A →
        ∀ i ∈ [Instr.setdasa a (some x), .getpid (some x), .getbcr (some x), .getdcr (some x), .getstatus (some x), .enec (some x), .disec (some x), .privateWrite l (some x), .privateRead n (some x)],
          exec i s = .next s) ∧
      (∀ count, ∃ t l, exec (.privateRead count) s = .next t ∧ t.out = s.out ++ [.i3c l] ∧ l.length = count ∧ s.changesOnly t [.out, .freeCtr]
        ∧ ∀ i, i < count → m.offset + i ≠ 4 → m.offset + i ≠ 5 → l[i]? = some (BitVec.ofNat 8 (s.mapByte (m.offset + i)))) ∧
      (s.pwr.starting = 2 → s.pwr.startAt = s.now → s.pwr.quiesced = false →
        ∃ t, exec .warmReset s = .next t ∧ t.mod.result = 0 ∧ t.field 0x000 0x110 0 2 = 2 ∧ s.changesOnly t [.reg, .mod, .out]) ∧
      ([0, 1, 3, 6].contains s.modState = true → s.pwr.starting ≠ 2 ∨ s.pwr.startAt ≠ s.now ∨ s.pwr.quiesced = true → ∃ t, exec .warmReset s = .next t ∧ t.mod.result = 1 ∧ s.changesOnly t [.mod, .out]) ∧
      ([0, 1, 3, 6].contains s.modState = false → s.pwr.starting = 0 →
        ∃ t, exec .warmReset s = .next t ∧ t.mod.result = 0 ∧ t.pwr.starting = 2 ∧ t.word 0x000 0x110 = 2 + min 65535 (s.field 0x000 0x110 16 16 + 1) * 2 ^ 16) ∧
      sets .armPowerCycle { m with armedAt := some s.now, result := 2 } ∧
      (∀ since, m.armedAt = some since → s.now ≤ since + 100 * ms →
        ∃ t, exec .powerCycle s = .next t ∧ s.railsFell t ∧ t.mod.result = 0 ∧ t.mod.cycleAt = some s.now ∧ t.mod.armedAt = none ∧ t.pwr.tripCause = s.pwr.tripCause) ∧
      ((∀ since, m.armedAt = some since → since + 100 * ms < s.now) → ∃ t, exec .powerCycle s = .next t ∧ t.mod.result = 1 ∧ s.changesOnly t [.mod, .out]) ∧
      sets .locate { m with locate := !m.locate, result := 0 } ∧
      (∀ code, code % 256 = 0 ∨ 4 < code % 256 → sets (.managementReservedCommand code) { m with result := 1 }) ∧
      (∀ code, 1 ≤ code % 256 → code % 256 ≤ 4 → exec (.managementReservedCommand code) s = .next s) ∧
      ∃ t, exec (.leak true) s = .next t ∧ t.mod.leak = true ∧ s.changesOnly t [.mod, .out])

/-- COLD_START, where one may begin and, after a trip, the input was absent for 1 s, leaves the rails up, the start running at STAGE 1, no region, empty memory and stores, the partition's wipe running, TAMPERED clear, the life cycle of the highest mark, the log replayed, and with an empty log every vat channel trained of which at most four lanes fail. VAT_READY shows readiness and its time; PACKAGE_INIT_DONE counts a trained package in; FW_READY by a core sets its bit; WARM by the management port or a core begins a warm start once, by another is an ACCESS error; quiesced, the islands are reset, at STAGE 1 with BOOT 1. BOOT_STAGE takes the next stage, or stops at 9 or 8 with the result; STAGE 5 takes the flash image's checks in the order of R374 and loads the body, STAGE 6 makes the alias key and its certificate and leaves CTL_ENTRY and STAGE 7. A mailbox command is busy where its stage and requester may, ends NOT_PERMITTED where not, and has no effect while one runs. Its end posts the result: a failed fetch or check changes no vintage, mark or flash image; RUN of a good image goes on to STAGE 7 with BOOT 2; PROGRAM in service puts it in flash; VINTAGE writes the lowest free slot, LIFE_CYCLE sets the mark, wipes and ends sessions, DEBUG_UNLOCK opens. The first TAMPER latches, zeroes the keys, wipes and ends sessions and streams; later ones count. The debug port gives IDCODE; its private instructions act only while open (register numbers are the model's, log entry 54). -/
def Obligations.StartsAndTheTrustCoreRunInOrder : Prop :=
  ∀ (s : State) (req : Requester) (o : TrustObject),
    let off := s.pwr.off
    let input := s.pwr.input
    let stops (i : Instr) (stage result : Nat) : Prop := ∃ t, exec i s = .next t ∧ t.stage = stage ∧ t.field 0x003 0x100 4 8 = result ∧ t.pwr.starting = 0
      ∧ (t.word 0x003 0x018).testBit 8 = true
    (∀ ppr fails untrained absent,
      (s.mayColdStart = false → exec (.coldStart ppr fails untrained absent) s = .next s) ∧
      (s.mayColdStart = true → input = false → s.pwr.latched = true → absent < sec →
        ∃ t, exec (.coldStart ppr fails untrained absent) s = .next t ∧ t.pwr.off = true ∧ t.pwr.input = true ∧ t.now = 0 ∧ s.changesOnly t [.now, .pwr]) ∧
      (s.mayColdStart = true → input = true ∨ s.pwr.latched = false ∨ sec ≤ absent →
        ∃ t, exec (.coldStart ppr fails untrained absent) s = .next t ∧ t.pwr.latched = false ∧ t.pwr.rails = BitVec.allOnes 9 ∧ t.pwr.off = false ∧ t.pwr.input = true ∧ t.pwr.starting = 1 ∧ t.stage = 1
          ∧ t.released = false ∧ t.rgn = {} ∧ t.mem.vat = [] ∧ t.sto.cluster = [] ∧ t.sto.row = [] ∧ t.sto.shared = [] ∧ t.sto.localMem = [] ∧ t.wiping = true
          ∧ t.secCores = false ∧ t.tampered = false ∧ t.tru.lcNow = lifeCycleOf s.tru.lc ∧ t.igr.replayed = s.igr.log.length
          ∧ (s.pwr.rails.getLsbD 0 = false → t.now = 0)
          ∧ (s.igr.log = [] → ∀ (k : Fin 16) (c : Fin 64), (t.chan (.vat k.val c.val)).trainState = (if untrained.count (.vat k.val c.val) ≤ 4 then 1 else 3)))) ∧
    (off = true ∨ s.pwr.rails ≠ BitVec.allOnes 9 ∨ s.field 0x000 0x104 0 1 = 1 → exec .vatReady s = .next s) ∧
    (off = false → s.pwr.rails = BitVec.allOnes 9 → s.field 0x000 0x104 0 1 = 0 →
      ∃ t, exec .vatReady s = .next t ∧ t.field 0x000 0x104 0 1 = 1 ∧ t.word64 0x000 0x108 = t.now % 2 ^ 64
        ∧ t.now = max s.now (s.pwr.startAt + (if 0 < s.field 0x000 0x110 16 16 then 6 * ms else 75 * ms)) ∧ s.changesOnly t [.now, .reg, .dram, .out]) ∧
    (∀ p : Fin 48,
      let ok := decide (p.val < s.order.packages) && !s.mem.retired.getLsbD p.val && !s.mem.packageIn.getLsbD p.val
        && (List.range 4).all (fun c => decide ((s.chan (.cellar p.val c)).trainState = 1))
      (ok = false → exec (.packageInitDone p) s = .next s) ∧
      (ok = true → ∃ t, exec (.packageInitDone p) s = .next t ∧ ∀ q, q < 48 → t.mem.packageIn.getLsbD q = (decide (q = p.val) || s.mem.packageIn.getLsbD q))) ∧
    (s.direct req 0x000 0x104 = true →
      ((∃ n, req = .core n) → ∃ t, exec (.fwReady req) s = .next t ∧ t.field 0x000 0x104 7 1 = 1 ∧ s.changesOnly t [.reg]) ∧
      ((∀ n, req ≠ .core n) → exec (.fwReady req) s = .next s)) ∧
    (s.direct req 0x000 0x100 = true →
      let may : Bool := match req with | .port p => decide (p.val = s.mgmtPort) | .core _ => true | _ => false
      (may = true → s.pwr.starting = 0 → off = false →
        ∃ t, exec (.warm req) s = .next t ∧ t.pwr.starting = 2 ∧ t.word 0x000 0x110 = 1 + min 65535 (s.field 0x000 0x110 16 16 + 1) * 2 ^ 16) ∧
      (may = true → s.pwr.starting ≠ 0 ∨ off = true → exec (.warm req) s = .next s.watch) ∧
      (may = false → ∃ t, exec (.warm req) s = .next t ∧ t.word 0x000 0x018 = s.word 0x000 0x018 ||| 2 ∧ t.word 0x000 0x024 = 0x100 + reqCode req * 2 ^ 12 + 2 ^ 16
        ∧ s.changesOnly t (.mod :: signals))) ∧
    (s.pwr.starting ≠ 2 ∨ off = true → exec .warmStartQuiesced s = .next s) ∧
    (s.pwr.starting = 2 → off = false →
      ∃ t, exec .warmStartQuiesced s = .next t ∧ t.stage = 1 ∧ t.boot = 1 ∧ t.field 0x000 0x104 0 1 = 0 ∧ t.released = false ∧ t.lst = {} ∧ t.edn = {} ∧ t.den = {}
        ∧ t.tru.image = none ∧ t.tru.deviceKey = none ∧ t.tru.aliasKey = none ∧ s.pwr.startAt + 5500 * us ≤ t.now) ∧
    (∀ found,
      let i := Instr.bootStage found o
      (off = true ∨ input = false → exec i s = .next s) ∧
      (off = false → input = true →
        let goes (n : Nat) : Prop := ∃ t, exec i s = .next t ∧ t.stage = n ∧ t.sto = s.sto ∧ s.changesOnly t [.reg, .tru, .mod, .out]
        (s.stage = 1 → if found = .romFail ∨ s.romGood = false then stops i 9 11 else goes 2) ∧
        (s.stage = 2 → s.pwr.starting = 2 → if s.tru.wipeStop = true then stops i 9 12 else goes 3) ∧
        (s.stage = 2 → s.pwr.starting ≠ 2 → s.wiping = true → exec i s = .next s) ∧
        (s.stage = 2 → s.pwr.starting ≠ 2 → s.wiping = false → if s.sto.wipeFail = true then stops i 9 12 else goes 3) ∧
        (s.stage = 3 → s.tru.lcNow ≠ 3 → goes 4) ∧
        (s.stage = 3 → s.tru.lcNow = 3 → ∃ t, exec i s = .next t ∧ t.stage = 9 ∧ t.pwr.starting = 0) ∧
        (s.stage = 4 → goes 5 ∧ ∃ t, exec i s = .next t ∧ t.tru.deviceKey = if s.keysLive then some s.deviceSeed else none) ∧
        (s.stage = 5 → s.tru.flash = .invalid → stops i 8 1) ∧
        (∀ b, s.stage = 5 → s.tru.flash = .holds b ∨ (s.tru.flash = .asMade ∧ areaBytes o = b) →
          let r := s.checkImage b (8192 + imageBodyLen b)
          ∃ t, exec i s = .next t ∧ t.tru.flash = .holds b ∧
            if r = 0 then t.stage = 6 ∧ t.tru.image = some (trustImage b) ∧ ∀ a, a < imageBodyLen b → t.stoRead ⟨2, 0, a⟩ 1 = (((imageBody b).getD a 0#8).toNat, false)
            else t.stage = 8 ∧ t.field 0x003 0x100 4 8 = r ∧ t.pwr.starting = 0 ∧ (t.word 0x003 0x018).testBit 8 = true) ∧
        (∀ m, s.stage = 6 → s.tru.image = some m →
          ∃ t, exec i s = .next t ∧ t.stage = 7 ∧ t.tru.aliasKey = (if s.keysLive then some (s.aliasSeed m) else none)
            ∧ t.tru.aliasCert.isSome = (s.keysLive && s.tru.deviceKey.isSome) ∧ t.word64 0x0C0 0x100 = (0x10000000 + m.entryOff) % 2 ^ 64 ∧ s.changesOnly t [.reg, .tru, .sto]) ∧
        (7 ≤ s.stage ∨ s.stage = 0 → exec i s = .next s))) ∧
    (s.direct req 0x003 0x16C = true →
      ∀ x ∈ [(Instr.run req o, 1), (.program req o, 2), (.vintage req o, 3), (.lifeCycle req o, 4), (.debugUnlock req o, 5)],
        let may := s.rcvStage x.2 && rcvMay req x.2
        (s.rcvRuns = true → exec x.1 s = .next s) ∧
        (s.rcvRuns = false → may = true → s.halfHeld 0x003 0x160 = false →
          ∃ t, exec x.1 s = .next t ∧ t.tru.rcv = some ⟨x.2, req, s.fetched req o, s.rcvLen, s.now⟩ ∧ t.word 0x003 0x170 = 1 + x.2 * 2 + 10 * 2 ^ 4
            ∧ s.changesOnly t (.now :: .tru :: signals) ∧ ((∀ p, req ≠ .port p) → o.badWord = none → s.changesOnly t [.reg, .tru])) ∧
        (s.rcvRuns = false → may = false →
          ∃ t, exec x.1 s = .next t ∧ t.tru.rcv = none ∧ t.word 0x003 0x170 = x.2 * 2 + 8 * 2 ^ 4 ∧ (t.word 0x003 0x018).testBit 10 = true
            ∧ s.changesOnly t (.tru :: .freeCtr :: signals))) ∧
    (∀ flashOk, s.tru.rcv = none → exec (.rcvCommandEnd flashOk) s = .next s) ∧
    (∀ flashOk kind len goAt, s.tru.rcv = some ⟨kind, req, o, len, goAt⟩ → 1 ≤ kind → kind ≤ 5 →
      let b := objectBytes o len
      let image := s.checkImage b len
      let request := s.checkRequest kind b len
      let ends (result : Nat) (P : State → Prop) : Prop := ∃ t, exec (.rcvCommandEnd flashOk) s = .next t ∧ t.tru.rcv = none ∧ t.word 0x003 0x170 = kind * 2 + result * 2 ^ 4
        ∧ (t.word 0x003 0x018).testBit (if result = 0 then 9 else 10) = true ∧ P t
      let otpKept (t : State) : Prop := t.tru.slots = s.tru.slots ∧ t.tru.lc = s.tru.lc
      let kept (t : State) : Prop := otpKept t ∧ t.tru.flash = s.tru.flash
      (o.fetchOk = false → ends 6 kept) ∧
      (o.fetchOk = true → kind = 1 → ends image (fun t => kept t ∧ (image = 0 → t.stage = 7 ∧ t.boot = 2 ∧ t.tru.image = some (trustImage b)))) ∧
      (o.fetchOk = true → kind = 2 → s.stage ≠ 8 → o.flashOk = false → ends 9 kept) ∧
      (o.fetchOk = true → kind = 2 → s.stage = 8 ∨ o.flashOk = true → flashOk = true →
        ends image (fun t => otpKept t ∧ t.tru.flash = (if image = 0 then .holds b else s.tru.flash) ∧ (image = 0 → if s.stage = 8 then t.stage = 7 ∧ t.boot = 0 else t.stage = s.stage))) ∧
      (o.fetchOk = true → kind = 2 → s.stage = 8 ∨ o.flashOk = true → flashOk = false →
        ends (if image = 0 then 9 else image) (fun t => otpKept t ∧ t.tru.flash = (if image = 0 then .invalid else s.tru.flash))) ∧
      (o.fetchOk = true → kind = 3 → flashOk = false → ends (if request = 0 then 9 else request) (fun t => t.tru.flash = s.tru.flash ∧ (request ≠ 0 → kept t))) ∧
      (o.fetchOk = true → 3 ≤ kind → kind ≠ 3 ∨ flashOk = true → ends request (fun t => (request ≠ 0 → kept t) ∧ (request = 0 →
        (kind = 3 → t.field 0x004 0x100 16 1 = 1 ∧ t.tru.lc = s.tru.lc ∧ ∀ n, s.freeSlot? = some n →
          t.otpSlot n = (List.range 76).map (fun i => (requestPayload b).getD i 0#8) ++ List.replicate 52 0#8 ∧ ∀ m, m ≠ n → t.otpSlot m = s.otpSlot m) ∧
        (kind = 4 → t.tru.lc = s.tru.lc ||| BitVec.ofNat 8 (2 ^ (((requestPayload b).getD 0 0#8).toNat - 1)) ∧ t.wiping = true ∧ t.field 0x003 0x104 2 1 = 1
          ∧ t.tru.lcNow = s.tru.lcNow ∧ ∀ p, (t.port p).spdmSession = 0) ∧
        (kind = 5 → t.field 0x003 0x104 3 1 = 1 ∧ ∀ p, (t.port p).spdmSession = 0))))) ∧
    (∀ k : Fin 4,
      (input = false → exec (.tamper k) s = .next s) ∧
      (input = true →
        ∃ t, exec (.tamper k) s = .next t ∧ (t.word 0x003 0x108).testBit (1 + k.val) = true ∧ t.field 0x003 0x108 16 16 = min 65535 (s.field 0x003 0x108 16 16 + 1) ∧ t.tampered = true
          ∧ (s.tampered = true → s.changesOnly t [.reg])
          ∧ (s.tampered = false → t.tru.deviceKey = none ∧ t.tru.aliasKey = none ∧ (off = false → t.wiping = true) ∧ t.word64 0x003 0x110 = s.now % 2 ^ 64
              ∧ ∀ p, (t.port p).spdmSession = 0 ∧ (t.port p).ideIo = false ∧ (t.port p).ideMem = false ∧ (t.port p).ideKeys = 0))) ∧
    (∀ (c n page bo store inst : Nat) (v : DWord) (w : Word),
      let does (op : DebugOp) : Result := exec (.debugInstruction op) s
      does .bypass = .next s ∧ does .extest = .next s ∧ does .idcode = .next (if input then { s with out := s.out ++ [.jtag 0x1A30F4C7] } else s) ∧
      (input = false → does .samplePreload = .next s) ∧ (input = true → ∃ t x, does .samplePreload = .next t ∧ t.out = s.out ++ [.jtag x] ∧ s.changesOnly t [.out, .freeCtr]) ∧
      (s.debugOpen = false ∨ input = false →
        ∀ op ∈ [DebugOp.coreHalt c, .coreStep c, .coreRegRead c n, .coreRegWrite c n v, .pageRead page bo, .pageWrite page bo w, .storeRead store inst bo, .storeWrite store inst bo v],
          does op = .next s) ∧
      (s.debugOpen = true → input = true →
        (c < 18 →
          (∃ t, does (.coreHalt c) = .next t ∧ (t.core c).debugHalt = true ∧ t.executes c = false ∧ s.coresBut t c ∧ s.changesOnly t [.cores]) ∧
          ((s.core c).debugHalt = true → ∃ t, does (.coreStep c) = .next t ∧ (t.core c).debugStep = true ∧ s.coresBut t c ∧ s.changesOnly t [.cores]) ∧
          does (.coreRegRead c n) = .next { s with out := s.out ++ [.jtag (s.debugReg c n).toNat] } ∧
          (1 ≤ n → n < 65 → ∃ t, does (.coreRegWrite c n v) = .next t ∧ t.debugReg c n = v ∧ s.coresBut t c ∧ s.changesOnly t [.cores])) ∧
        (∀ x, debugSpot store inst bo = some x →
          does (.storeRead store inst bo) = .next { s with out := s.out ++ [.jtag (shownWord (s.stoRead x 8))] } ∧
          ∃ t, does (.storeRead store inst bo true) = .next t ∧ t.out.getLast? = some (.jtag (shownWord (0, true))) ∧ t.word 0x0E0 0x138 = storeWhere x.store ∧ t.sto = s.sto) ∧
        (s.debugWrites store inst bo = none → does (.storeWrite store inst bo v) = .next s) ∧
        (∀ x, s.debugWrites store inst bo = some x →
          ∃ t, does (.storeWrite store inst bo v) = .next t ∧ t.stoRead x 8 = (v.toNat, false) ∧ s.storesBut t x 8 ∧ s.changesOnly t [.sto, .cores])))

/-- For every state and every step from it: what OTP held in some earlier state s0 and still holds now, it holds after the step: the ordering code, the serial number, the ROM digest and the unique secret, every life-cycle mark that is set stays set, and every vintage slot that is written, whole or torn, keeps its bytes. So no command, no trip, no cold or warm start and no loss of power undoes a mark or rewrites a slot. -/
def Obligations.OtpIsWrittenOnce : Prop := ∀ s0 s t : State, OtpKept s0 s → step s = .next t → OtpKept s0 t

/-- In the reset state every register word reads its Reset column; no entry of the region table is valid, so the table is sound, and no region operation, lease or freeing is under way; every byte of the vat and of the on-die stores is zero and every tile's home is 0; the control cores are held, GLOBAL_DIS is 1 and no source has been raised; no queue is enabled and no job exists; the time base is 0; OTP has the PRODUCTION mark alone, and its slots from 1 on are unwritten; no command waits, which is the model's own queue (log entry 1). -/
def Obligations.ResetLeavesTheBlockIdle : Prop :=
  let s := State.reset
  (∀ page off, s.word page off = (resetWord s.order (4096 * page + off)).toNat) ∧
  (∀ i, (s.region i).valid = false) ∧ RegionsSound s ∧ s.rgn.freeing = [] ∧ s.rgn.leaseLog = [] ∧ s.rgn.pending = none ∧
  (∀ a, s.mem.vat.rd a = 0#8) ∧ (∀ b a, (s.storeMem b).rd a = 0#8) ∧ (∀ t, s.home t = 0) ∧
  s.released = false ∧ (∀ c, (s.core c).state = 0) ∧ s.globalDis = true ∧ (∀ n, (s.src n).count = 0) ∧ (∀ l n, s.privCount l n = 0) ∧
  (∀ q, (s.queue q).state = 0) ∧ s.lst.jobs = [] ∧ s.now = 0 ∧ s.tru.lc = 1#8 ∧ s.tru.lcNow = 1 ∧ (∀ n, 1 ≤ n → otpWritten (s.otpSlot n) = false) ∧ s.pending = []
end

