-- ==== Sys2Proof/Laws/Sparse.lean ====
section
/-! SUPPORT. The laws of sparse maps and byte memories: reading after writing, and that every operation keeps the canonical form. -/

namespace Sys2Proof.Machine

variable {β : Type}

/-- Reading after putting a value at a key. -/
theorem sget_sput (d : β) (m : Sparse β) (k j : Nat) (v : β) :
    sget d (sput m k v) j = if j = k then v else sget d m j := by
  induction m with
  | nil => rfl
  | cons e m ih =>
    obtain ⟨a, w⟩ := e
    simp only [sput]
    split
    · subst k; simp only [sget]; split <;> rfl
    · split
      · rfl
      · simp only [sget, ih]
        split
        · rename_i h; subst h; rw [if_neg (by omega)]
        · rfl

/-- Reading after keeping some entries: as before at a key whose entries stay. -/
theorem sget_filter (p : Nat × β → Bool) (d : β) (m : Sparse β) (k : Nat) (hp : ∀ v, p (k, v) = true) :
    sget d (m.filter p) k = sget d m k := by
  induction m with
  | nil => rfl
  | cons e m ih =>
    obtain ⟨a, w⟩ := e
    simp only [List.filter_cons]
    split
    · simp only [sget, ih]
    · rename_i hq
      have hne : k ≠ a := fun e => hq (e ▸ hp w)
      rw [ih]; simp only [sget, hne, if_false]

/-- Reading after dropping every entry of a key. -/
theorem sget_dropped (p : Nat × β → Bool) (d : β) (m : Sparse β) (k : Nat) (hp : ∀ v, p (k, v) = false) :
    sget d (m.filter p) k = d := by
  induction m with
  | nil => rfl
  | cons e m ih =>
    obtain ⟨a, w⟩ := e
    simp only [List.filter_cons]
    split
    · rename_i hq
      have hne : k ≠ a := fun e => by rw [← e, hp w] at hq; cases hq
      simp only [sget, hne, if_false, ih]
    · exact ih

/-- Reading after unlisting a key. -/
theorem sget_sdel (d : β) (m : Sparse β) (k j : Nat) : sget d (sdel m k) j = if j = k then d else sget d m j := by
  unfold sdel
  split
  · subst j; exact sget_dropped _ d m k (by simp)
  · rename_i h; exact sget_filter _ d m j (by simp [h])

/-- Reading after a write: the value at its key, every other key as before. -/
theorem sget_sset [DecidableEq β] (d : β) (m : Sparse β) (k j : Nat) (v : β) :
    sget d (sset d m k v) j = if j = k then v else sget d m j := by
  unfold sset
  split
  · rename_i hv; subst hv; exact sget_sdel v m k j
  · exact sget_sput d m k j v

/-- Reading the key just written. -/
@[simp] theorem sget_sset_self [DecidableEq β] (d : β) (m : Sparse β) (k : Nat) (v : β) : sget d (sset d m k v) k = v := by
  rw [sget_sset, if_pos rfl]

/-- Reading another key than the one written, whatever the defaults. -/
theorem sget_sset_ne [DecidableEq β] (d e : β) (m : Sparse β) (k j : Nat) (v : β) (h : j ≠ k) :
    sget d (sset e m k v) j = sget d m j := by
  unfold sset
  split
  · rw [sget_sdel, if_neg h]
  · rw [sget_sput, if_neg h]

/-! ### The canonical form -/

/-- Keys above a bound: the canonical form of a tail. -/
theorem above_of_swf [DecidableEq β] (d : β) (a : Nat) (v : β) (m : Sparse β) (h : swf d ((a, v) :: m) = true) : above a m = true := by
  simp [swf] at h; exact h.1.2

/-- A lower bound of the keys may be lowered. -/
theorem above_trans (lo hi : Nat) (m : Sparse β) (h : lo ≤ hi) (hm : above hi m = true) : above lo m = true := by
  cases m with
  | nil => rfl
  | cons e m => simp [above] at *; omega

theorem above_sput (lo : Nat) (m : Sparse β) (k : Nat) (v : β) (hk : lo < k) (h : above lo m = true) : above lo (sput m k v) = true := by
  cases m with
  | nil => simp [sput, above, hk]
  | cons e m =>
    obtain ⟨a, w⟩ := e
    simp only [sput]
    split
    · simp [above, hk]
    · split
      · simp [above, hk]
      · simpa [above] using h

theorem swf_sput [DecidableEq β] (d : β) (m : Sparse β) (k : Nat) (v : β) (hv : v ≠ d) (h : swf d m = true) : swf d (sput m k v) = true := by
  induction m with
  | nil => simp [sput, swf, above, hv]
  | cons e m ih =>
    obtain ⟨a, w⟩ := e
    have ha := above_of_swf d a w m h
    have hm : swf d m = true := by simp [swf] at h; exact h.2
    have hw : w ≠ d := by simp [swf] at h; exact h.1.1
    simp only [sput]
    split
    · subst k; simp [swf, hv, ha, hm]
    · split
      · rename_i h1 h2
        show (decide (v ≠ d) && above k ((a, w) :: m) && swf d ((a, w) :: m)) = true
        simp only [h, Bool.and_true]
        simp [hv, above, h2]
      · rename_i h1 h2
        have : a < k := by omega
        simp [swf, hw, above_sput a m k v this ha, ih hm]

theorem above_filter (p : Nat × β → Bool) [DecidableEq β] (d : β) : ∀ (lo : Nat) (m : Sparse β), swf d m = true → above lo m = true →
    above lo (m.filter p) = true := by
  intro lo m
  induction m generalizing lo with
  | nil => intro _ _; rfl
  | cons e m ih =>
    intro hm h
    obtain ⟨a, w⟩ := e
    have ha := above_of_swf d a w m hm
    have hm' : swf d m = true := by simp [swf] at hm; exact hm.2
    simp [above] at h
    simp only [List.filter_cons]
    split
    · simp [above, h]
    · exact ih lo hm' (above_trans lo a m (by omega) ha)

/-- Keeping some entries of a canonical map leaves it canonical. -/
theorem swf_filter (p : Nat × β → Bool) [DecidableEq β] (d : β) (m : Sparse β) (h : swf d m = true) : swf d (m.filter p) = true := by
  induction m with
  | nil => rfl
  | cons e m ih =>
    obtain ⟨a, w⟩ := e
    have ha := above_of_swf d a w m h
    have hm : swf d m = true := by simp [swf] at h; exact h.2
    have hw : w ≠ d := by simp [swf] at h; exact h.1.1
    simp only [List.filter_cons]
    split
    · simp [swf, hw, ih hm, above_filter p d a m hm ha]
    · exact ih hm

/-- Unlisting a key keeps the canonical form. -/
theorem swf_sdel [DecidableEq β] (d : β) (m : Sparse β) (k : Nat) (h : swf d m = true) : swf d (sdel m k) = true :=
  swf_filter _ d m h

/-- A write keeps the canonical form. -/
theorem swf_sset [DecidableEq β] (d : β) (m : Sparse β) (k : Nat) (v : β) (h : swf d m = true) : swf d (sset d m k v) = true := by
  unfold sset
  split
  · exact swf_sdel d m k h
  · rename_i hv; exact swf_sput d m k v hv h

/-! ### Byte memories -/

/-- Reading a byte after writing one. -/
theorem Memory.rd_wr (m : Memory) (a b : Nat) (v : Byte) : (m.wr a v).rd b = if b = a then v else m.rd b :=
  sget_sset 0#8 m a b v

/-- Writing a byte keeps the canonical form. -/
theorem Memory.wf_wr (m : Memory) (a : Nat) (v : Byte) (h : m.wf = true) : (m.wr a v).wf = true := swf_sset 0#8 m a v h

/-- Storing bytes keeps the canonical form. -/
theorem Memory.wf_store (l : List Byte) : ∀ (m : Memory) (a : Nat), m.wf = true → (m.store a l).wf = true := by
  induction l with
  | nil => intro m a h; exact h
  | cons b l ih => intro m a h; exact ih _ _ (Memory.wf_wr m a b h)

/-- Bytes outside a store read as before. -/
theorem Memory.rd_store_outside (l : List Byte) : ∀ (m : Memory) (a b : Nat), (b < a ∨ a + l.length ≤ b) →
    (m.store a l).rd b = m.rd b := by
  induction l with
  | nil => intro m a b _; rfl
  | cons x l ih =>
    intro m a b hb
    simp only [List.length_cons] at hb
    have hne : b ≠ a := by omega
    show ((m.wr a x).store (a + 1) l).rd b = m.rd b
    rw [ih (m.wr a x) (a + 1) b (by omega), Memory.rd_wr m a b x, if_neg hne]

/-- Bytes inside a store read as stored. -/
theorem Memory.rd_store_inside (l : List Byte) : ∀ (m : Memory) (a i : Nat), i < l.length →
    (m.store a l).rd (a + i) = l.getD i 0#8 := by
  induction l with
  | nil => intro m a i hi; simp at hi
  | cons x l ih =>
    intro m a i hi
    show ((m.wr a x).store (a + 1) l).rd (a + i) = _
    cases i with
    | zero =>
      rw [Memory.rd_store_outside l (m.wr a x) (a + 1) (a + 0) (by omega), Memory.rd_wr m a (a + 0) x]
      simp
    | succ n =>
      have := ih (m.wr a x) (a + 1) n (by simpa using hi)
      have e : a + (n + 1) = a + 1 + n := by omega
      rw [e, this]; simp

/-- Merging enabled bytes keeps the canonical form. -/
theorem Memory.wf_merge (m : Memory) (a : Nat) (l : List Byte) (be : Nat → Bool) (n : Nat) (h : m.wf = true) : (m.merge a l be n).wf = true := by
  induction n with
  | zero => exact h
  | succ n ih =>
    simp only [Memory.merge]
    split
    · exact Memory.wf_wr _ _ _ ih
    · exact ih

/-- Clearing a run keeps the canonical form. -/
theorem Memory.wf_clear (m : Memory) (a n : Nat) (h : m.wf = true) : (m.clear a n).wf = true := swf_filter _ 0#8 m h

/-- An empty memory is canonical. -/
theorem Memory.wf_nil : Memory.wf [] = true := rfl

/-- Clearing leaves bytes outside the run as they were. -/
theorem Memory.rd_clear_outside (m : Memory) (a n b : Nat) (hb : b < a ∨ a + n ≤ b) : (m.clear a n).rd b = m.rd b := by
  apply sget_filter
  intro v
  rcases hb with hb | hb
  · simp; omega
  · simp; omega

end Sys2Proof.Machine
end

