-- ==== Sys2Proof/Laws/State.lean ====
section
/-! SUPPORT. The small laws of the updates of State: for each update, one lemma for each component it leaves alone. -/

namespace Sys2Proof.Machine

variable (s : State)

/-! ### setWord -/

@[simp] theorem State.setWord_order (page off v : Nat) : (s.setWord page off v).order = s.order := rfl
@[simp] theorem State.setWord_now (page off v : Nat) : (s.setWord page off v).now = s.now := rfl
@[simp] theorem State.setWord_rgn (page off v : Nat) : (s.setWord page off v).rgn = s.rgn := rfl
@[simp] theorem State.setWord_mem (page off v : Nat) : (s.setWord page off v).mem = s.mem := rfl
@[simp] theorem State.setWord_rck (page off v : Nat) : (s.setWord page off v).rck = s.rck := rfl
@[simp] theorem State.setWord_prs (page off v : Nat) : (s.setWord page off v).prs = s.prs := rfl
@[simp] theorem State.setWord_dir (page off v : Nat) : (s.setWord page off v).dir = s.dir := rfl
@[simp] theorem State.setWord_edn (page off v : Nat) : (s.setWord page off v).edn = s.edn := rfl
@[simp] theorem State.setWord_ports (page off v : Nat) : (s.setWord page off v).ports = s.ports := rfl
@[simp] theorem State.setWord_qmg (page off v : Nat) : (s.setWord page off v).qmg = s.qmg := rfl
@[simp] theorem State.setWord_lst (page off v : Nat) : (s.setWord page off v).lst = s.lst := rfl
@[simp] theorem State.setWord_den (page off v : Nat) : (s.setWord page off v).den = s.den := rfl
@[simp] theorem State.setWord_svc (page off v : Nat) : (s.setWord page off v).svc = s.svc := rfl
@[simp] theorem State.setWord_cores (page off v : Nat) : (s.setWord page off v).cores = s.cores := rfl
@[simp] theorem State.setWord_icu (page off v : Nat) : (s.setWord page off v).icu = s.icu := rfl
@[simp] theorem State.setWord_sto (page off v : Nat) : (s.setWord page off v).sto = s.sto := rfl
@[simp] theorem State.setWord_dram (page off v : Nat) : (s.setWord page off v).dram = s.dram := rfl
@[simp] theorem State.setWord_igr (page off v : Nat) : (s.setWord page off v).igr = s.igr := rfl
@[simp] theorem State.setWord_tns (page off v : Nat) : (s.setWord page off v).tns = s.tns := rfl
@[simp] theorem State.setWord_pwr (page off v : Nat) : (s.setWord page off v).pwr = s.pwr := rfl
@[simp] theorem State.setWord_tru (page off v : Nat) : (s.setWord page off v).tru = s.tru := rfl
@[simp] theorem State.setWord_mod (page off v : Nat) : (s.setWord page off v).mod = s.mod := rfl
@[simp] theorem State.setWord_out (page off v : Nat) : (s.setWord page off v).out = s.out := rfl
@[simp] theorem State.setWord_freeCtr (page off v : Nat) : (s.setWord page off v).freeCtr = s.freeCtr := rfl
@[simp] theorem State.setWord_pending (page off v : Nat) : (s.setWord page off v).pending = s.pending := rfl

/-! ### setField -/

@[simp] theorem State.setField_order (page off lo w v : Nat) : (s.setField page off lo w v).order = s.order := rfl
@[simp] theorem State.setField_now (page off lo w v : Nat) : (s.setField page off lo w v).now = s.now := rfl
@[simp] theorem State.setField_rgn (page off lo w v : Nat) : (s.setField page off lo w v).rgn = s.rgn := rfl
@[simp] theorem State.setField_mem (page off lo w v : Nat) : (s.setField page off lo w v).mem = s.mem := rfl
@[simp] theorem State.setField_rck (page off lo w v : Nat) : (s.setField page off lo w v).rck = s.rck := rfl
@[simp] theorem State.setField_prs (page off lo w v : Nat) : (s.setField page off lo w v).prs = s.prs := rfl
@[simp] theorem State.setField_dir (page off lo w v : Nat) : (s.setField page off lo w v).dir = s.dir := rfl
@[simp] theorem State.setField_edn (page off lo w v : Nat) : (s.setField page off lo w v).edn = s.edn := rfl
@[simp] theorem State.setField_ports (page off lo w v : Nat) : (s.setField page off lo w v).ports = s.ports := rfl
@[simp] theorem State.setField_qmg (page off lo w v : Nat) : (s.setField page off lo w v).qmg = s.qmg := rfl
@[simp] theorem State.setField_lst (page off lo w v : Nat) : (s.setField page off lo w v).lst = s.lst := rfl
@[simp] theorem State.setField_den (page off lo w v : Nat) : (s.setField page off lo w v).den = s.den := rfl
@[simp] theorem State.setField_svc (page off lo w v : Nat) : (s.setField page off lo w v).svc = s.svc := rfl
@[simp] theorem State.setField_cores (page off lo w v : Nat) : (s.setField page off lo w v).cores = s.cores := rfl
@[simp] theorem State.setField_icu (page off lo w v : Nat) : (s.setField page off lo w v).icu = s.icu := rfl
@[simp] theorem State.setField_sto (page off lo w v : Nat) : (s.setField page off lo w v).sto = s.sto := rfl
@[simp] theorem State.setField_dram (page off lo w v : Nat) : (s.setField page off lo w v).dram = s.dram := rfl
@[simp] theorem State.setField_igr (page off lo w v : Nat) : (s.setField page off lo w v).igr = s.igr := rfl
@[simp] theorem State.setField_tns (page off lo w v : Nat) : (s.setField page off lo w v).tns = s.tns := rfl
@[simp] theorem State.setField_pwr (page off lo w v : Nat) : (s.setField page off lo w v).pwr = s.pwr := rfl
@[simp] theorem State.setField_tru (page off lo w v : Nat) : (s.setField page off lo w v).tru = s.tru := rfl
@[simp] theorem State.setField_mod (page off lo w v : Nat) : (s.setField page off lo w v).mod = s.mod := rfl
@[simp] theorem State.setField_out (page off lo w v : Nat) : (s.setField page off lo w v).out = s.out := rfl
@[simp] theorem State.setField_freeCtr (page off lo w v : Nat) : (s.setField page off lo w v).freeCtr = s.freeCtr := rfl
@[simp] theorem State.setField_pending (page off lo w v : Nat) : (s.setField page off lo w v).pending = s.pending := rfl

/-! ### setWord64 -/

@[simp] theorem State.setWord64_order (page off v : Nat) : (s.setWord64 page off v).order = s.order := rfl
@[simp] theorem State.setWord64_now (page off v : Nat) : (s.setWord64 page off v).now = s.now := rfl
@[simp] theorem State.setWord64_rgn (page off v : Nat) : (s.setWord64 page off v).rgn = s.rgn := rfl
@[simp] theorem State.setWord64_mem (page off v : Nat) : (s.setWord64 page off v).mem = s.mem := rfl
@[simp] theorem State.setWord64_rck (page off v : Nat) : (s.setWord64 page off v).rck = s.rck := rfl
@[simp] theorem State.setWord64_prs (page off v : Nat) : (s.setWord64 page off v).prs = s.prs := rfl
@[simp] theorem State.setWord64_dir (page off v : Nat) : (s.setWord64 page off v).dir = s.dir := rfl
@[simp] theorem State.setWord64_edn (page off v : Nat) : (s.setWord64 page off v).edn = s.edn := rfl
@[simp] theorem State.setWord64_ports (page off v : Nat) : (s.setWord64 page off v).ports = s.ports := rfl
@[simp] theorem State.setWord64_qmg (page off v : Nat) : (s.setWord64 page off v).qmg = s.qmg := rfl
@[simp] theorem State.setWord64_lst (page off v : Nat) : (s.setWord64 page off v).lst = s.lst := rfl
@[simp] theorem State.setWord64_den (page off v : Nat) : (s.setWord64 page off v).den = s.den := rfl
@[simp] theorem State.setWord64_svc (page off v : Nat) : (s.setWord64 page off v).svc = s.svc := rfl
@[simp] theorem State.setWord64_cores (page off v : Nat) : (s.setWord64 page off v).cores = s.cores := rfl
@[simp] theorem State.setWord64_icu (page off v : Nat) : (s.setWord64 page off v).icu = s.icu := rfl
@[simp] theorem State.setWord64_sto (page off v : Nat) : (s.setWord64 page off v).sto = s.sto := rfl
@[simp] theorem State.setWord64_dram (page off v : Nat) : (s.setWord64 page off v).dram = s.dram := rfl
@[simp] theorem State.setWord64_igr (page off v : Nat) : (s.setWord64 page off v).igr = s.igr := rfl
@[simp] theorem State.setWord64_tns (page off v : Nat) : (s.setWord64 page off v).tns = s.tns := rfl
@[simp] theorem State.setWord64_pwr (page off v : Nat) : (s.setWord64 page off v).pwr = s.pwr := rfl
@[simp] theorem State.setWord64_tru (page off v : Nat) : (s.setWord64 page off v).tru = s.tru := rfl
@[simp] theorem State.setWord64_mod (page off v : Nat) : (s.setWord64 page off v).mod = s.mod := rfl
@[simp] theorem State.setWord64_out (page off v : Nat) : (s.setWord64 page off v).out = s.out := rfl
@[simp] theorem State.setWord64_freeCtr (page off v : Nat) : (s.setWord64 page off v).freeCtr = s.freeCtr := rfl
@[simp] theorem State.setWord64_pending (page off v : Nat) : (s.setWord64 page off v).pending = s.pending := rfl

/-! ### setSel -/

@[simp] theorem State.setSel_order (req : Requester) (page off v : Nat) : (s.setSel req page off v).order = s.order := rfl
@[simp] theorem State.setSel_now (req : Requester) (page off v : Nat) : (s.setSel req page off v).now = s.now := rfl
@[simp] theorem State.setSel_rgn (req : Requester) (page off v : Nat) : (s.setSel req page off v).rgn = s.rgn := rfl
@[simp] theorem State.setSel_mem (req : Requester) (page off v : Nat) : (s.setSel req page off v).mem = s.mem := rfl
@[simp] theorem State.setSel_rck (req : Requester) (page off v : Nat) : (s.setSel req page off v).rck = s.rck := rfl
@[simp] theorem State.setSel_prs (req : Requester) (page off v : Nat) : (s.setSel req page off v).prs = s.prs := rfl
@[simp] theorem State.setSel_dir (req : Requester) (page off v : Nat) : (s.setSel req page off v).dir = s.dir := rfl
@[simp] theorem State.setSel_edn (req : Requester) (page off v : Nat) : (s.setSel req page off v).edn = s.edn := rfl
@[simp] theorem State.setSel_ports (req : Requester) (page off v : Nat) : (s.setSel req page off v).ports = s.ports := rfl
@[simp] theorem State.setSel_qmg (req : Requester) (page off v : Nat) : (s.setSel req page off v).qmg = s.qmg := rfl
@[simp] theorem State.setSel_lst (req : Requester) (page off v : Nat) : (s.setSel req page off v).lst = s.lst := rfl
@[simp] theorem State.setSel_den (req : Requester) (page off v : Nat) : (s.setSel req page off v).den = s.den := rfl
@[simp] theorem State.setSel_svc (req : Requester) (page off v : Nat) : (s.setSel req page off v).svc = s.svc := rfl
@[simp] theorem State.setSel_cores (req : Requester) (page off v : Nat) : (s.setSel req page off v).cores = s.cores := rfl
@[simp] theorem State.setSel_icu (req : Requester) (page off v : Nat) : (s.setSel req page off v).icu = s.icu := rfl
@[simp] theorem State.setSel_sto (req : Requester) (page off v : Nat) : (s.setSel req page off v).sto = s.sto := rfl
@[simp] theorem State.setSel_dram (req : Requester) (page off v : Nat) : (s.setSel req page off v).dram = s.dram := rfl
@[simp] theorem State.setSel_igr (req : Requester) (page off v : Nat) : (s.setSel req page off v).igr = s.igr := rfl
@[simp] theorem State.setSel_tns (req : Requester) (page off v : Nat) : (s.setSel req page off v).tns = s.tns := rfl
@[simp] theorem State.setSel_pwr (req : Requester) (page off v : Nat) : (s.setSel req page off v).pwr = s.pwr := rfl
@[simp] theorem State.setSel_tru (req : Requester) (page off v : Nat) : (s.setSel req page off v).tru = s.tru := rfl
@[simp] theorem State.setSel_mod (req : Requester) (page off v : Nat) : (s.setSel req page off v).mod = s.mod := rfl
@[simp] theorem State.setSel_out (req : Requester) (page off v : Nat) : (s.setSel req page off v).out = s.out := rfl
@[simp] theorem State.setSel_freeCtr (req : Requester) (page off v : Nat) : (s.setSel req page off v).freeCtr = s.freeCtr := rfl
@[simp] theorem State.setSel_pending (req : Requester) (page off v : Nat) : (s.setSel req page off v).pending = s.pending := rfl

/-! ### emit -/

@[simp] theorem State.emit_order (o : Out) : (s.emit o).order = s.order := rfl
@[simp] theorem State.emit_now (o : Out) : (s.emit o).now = s.now := rfl
@[simp] theorem State.emit_reg (o : Out) : (s.emit o).reg = s.reg := rfl
@[simp] theorem State.emit_rgn (o : Out) : (s.emit o).rgn = s.rgn := rfl
@[simp] theorem State.emit_mem (o : Out) : (s.emit o).mem = s.mem := rfl
@[simp] theorem State.emit_rck (o : Out) : (s.emit o).rck = s.rck := rfl
@[simp] theorem State.emit_prs (o : Out) : (s.emit o).prs = s.prs := rfl
@[simp] theorem State.emit_dir (o : Out) : (s.emit o).dir = s.dir := rfl
@[simp] theorem State.emit_edn (o : Out) : (s.emit o).edn = s.edn := rfl
@[simp] theorem State.emit_ports (o : Out) : (s.emit o).ports = s.ports := rfl
@[simp] theorem State.emit_qmg (o : Out) : (s.emit o).qmg = s.qmg := rfl
@[simp] theorem State.emit_lst (o : Out) : (s.emit o).lst = s.lst := rfl
@[simp] theorem State.emit_den (o : Out) : (s.emit o).den = s.den := rfl
@[simp] theorem State.emit_svc (o : Out) : (s.emit o).svc = s.svc := rfl
@[simp] theorem State.emit_cores (o : Out) : (s.emit o).cores = s.cores := rfl
@[simp] theorem State.emit_icu (o : Out) : (s.emit o).icu = s.icu := rfl
@[simp] theorem State.emit_sto (o : Out) : (s.emit o).sto = s.sto := rfl
@[simp] theorem State.emit_dram (o : Out) : (s.emit o).dram = s.dram := rfl
@[simp] theorem State.emit_igr (o : Out) : (s.emit o).igr = s.igr := rfl
@[simp] theorem State.emit_tns (o : Out) : (s.emit o).tns = s.tns := rfl
@[simp] theorem State.emit_pwr (o : Out) : (s.emit o).pwr = s.pwr := rfl
@[simp] theorem State.emit_tru (o : Out) : (s.emit o).tru = s.tru := rfl
@[simp] theorem State.emit_mod (o : Out) : (s.emit o).mod = s.mod := rfl
@[simp] theorem State.emit_freeCtr (o : Out) : (s.emit o).freeCtr = s.freeCtr := rfl
@[simp] theorem State.emit_pending (o : Out) : (s.emit o).pending = s.pending := rfl

/-! ### until -/

@[simp] theorem State.until_order (due : Nat) : (s.until due).order = s.order := rfl
@[simp] theorem State.until_reg (due : Nat) : (s.until due).reg = s.reg := rfl
@[simp] theorem State.until_rgn (due : Nat) : (s.until due).rgn = s.rgn := rfl
@[simp] theorem State.until_mem (due : Nat) : (s.until due).mem = s.mem := rfl
@[simp] theorem State.until_rck (due : Nat) : (s.until due).rck = s.rck := rfl
@[simp] theorem State.until_prs (due : Nat) : (s.until due).prs = s.prs := rfl
@[simp] theorem State.until_dir (due : Nat) : (s.until due).dir = s.dir := rfl
@[simp] theorem State.until_edn (due : Nat) : (s.until due).edn = s.edn := rfl
@[simp] theorem State.until_ports (due : Nat) : (s.until due).ports = s.ports := rfl
@[simp] theorem State.until_qmg (due : Nat) : (s.until due).qmg = s.qmg := rfl
@[simp] theorem State.until_lst (due : Nat) : (s.until due).lst = s.lst := rfl
@[simp] theorem State.until_den (due : Nat) : (s.until due).den = s.den := rfl
@[simp] theorem State.until_svc (due : Nat) : (s.until due).svc = s.svc := rfl
@[simp] theorem State.until_cores (due : Nat) : (s.until due).cores = s.cores := rfl
@[simp] theorem State.until_icu (due : Nat) : (s.until due).icu = s.icu := rfl
@[simp] theorem State.until_sto (due : Nat) : (s.until due).sto = s.sto := rfl
@[simp] theorem State.until_dram (due : Nat) : (s.until due).dram = s.dram := rfl
@[simp] theorem State.until_igr (due : Nat) : (s.until due).igr = s.igr := rfl
@[simp] theorem State.until_tns (due : Nat) : (s.until due).tns = s.tns := rfl
@[simp] theorem State.until_pwr (due : Nat) : (s.until due).pwr = s.pwr := rfl
@[simp] theorem State.until_tru (due : Nat) : (s.until due).tru = s.tru := rfl
@[simp] theorem State.until_mod (due : Nat) : (s.until due).mod = s.mod := rfl
@[simp] theorem State.until_out (due : Nat) : (s.until due).out = s.out := rfl
@[simp] theorem State.until_freeCtr (due : Nat) : (s.until due).freeCtr = s.freeCtr := rfl
@[simp] theorem State.until_pending (due : Nat) : (s.until due).pending = s.pending := rfl

/-! ### modPort -/

@[simp] theorem State.modPort_order (p : Port) (f : PortState → PortState) : (s.modPort p f).order = s.order := rfl
@[simp] theorem State.modPort_now (p : Port) (f : PortState → PortState) : (s.modPort p f).now = s.now := rfl
@[simp] theorem State.modPort_reg (p : Port) (f : PortState → PortState) : (s.modPort p f).reg = s.reg := rfl
@[simp] theorem State.modPort_rgn (p : Port) (f : PortState → PortState) : (s.modPort p f).rgn = s.rgn := rfl
@[simp] theorem State.modPort_mem (p : Port) (f : PortState → PortState) : (s.modPort p f).mem = s.mem := rfl
@[simp] theorem State.modPort_rck (p : Port) (f : PortState → PortState) : (s.modPort p f).rck = s.rck := rfl
@[simp] theorem State.modPort_prs (p : Port) (f : PortState → PortState) : (s.modPort p f).prs = s.prs := rfl
@[simp] theorem State.modPort_dir (p : Port) (f : PortState → PortState) : (s.modPort p f).dir = s.dir := rfl
@[simp] theorem State.modPort_edn (p : Port) (f : PortState → PortState) : (s.modPort p f).edn = s.edn := rfl
@[simp] theorem State.modPort_qmg (p : Port) (f : PortState → PortState) : (s.modPort p f).qmg = s.qmg := rfl
@[simp] theorem State.modPort_lst (p : Port) (f : PortState → PortState) : (s.modPort p f).lst = s.lst := rfl
@[simp] theorem State.modPort_den (p : Port) (f : PortState → PortState) : (s.modPort p f).den = s.den := rfl
@[simp] theorem State.modPort_svc (p : Port) (f : PortState → PortState) : (s.modPort p f).svc = s.svc := rfl
@[simp] theorem State.modPort_cores (p : Port) (f : PortState → PortState) : (s.modPort p f).cores = s.cores := rfl
@[simp] theorem State.modPort_icu (p : Port) (f : PortState → PortState) : (s.modPort p f).icu = s.icu := rfl
@[simp] theorem State.modPort_sto (p : Port) (f : PortState → PortState) : (s.modPort p f).sto = s.sto := rfl
@[simp] theorem State.modPort_dram (p : Port) (f : PortState → PortState) : (s.modPort p f).dram = s.dram := rfl
@[simp] theorem State.modPort_igr (p : Port) (f : PortState → PortState) : (s.modPort p f).igr = s.igr := rfl
@[simp] theorem State.modPort_tns (p : Port) (f : PortState → PortState) : (s.modPort p f).tns = s.tns := rfl
@[simp] theorem State.modPort_pwr (p : Port) (f : PortState → PortState) : (s.modPort p f).pwr = s.pwr := rfl
@[simp] theorem State.modPort_tru (p : Port) (f : PortState → PortState) : (s.modPort p f).tru = s.tru := rfl
@[simp] theorem State.modPort_mod (p : Port) (f : PortState → PortState) : (s.modPort p f).mod = s.mod := rfl
@[simp] theorem State.modPort_out (p : Port) (f : PortState → PortState) : (s.modPort p f).out = s.out := rfl
@[simp] theorem State.modPort_freeCtr (p : Port) (f : PortState → PortState) : (s.modPort p f).freeCtr = s.freeCtr := rfl
@[simp] theorem State.modPort_pending (p : Port) (f : PortState → PortState) : (s.modPort p f).pending = s.pending := rfl

/-! ### setSrc -/

@[simp] theorem State.setSrc_order (n : Nat) (v : Src) : (s.setSrc n v).order = s.order := rfl
@[simp] theorem State.setSrc_now (n : Nat) (v : Src) : (s.setSrc n v).now = s.now := rfl
@[simp] theorem State.setSrc_reg (n : Nat) (v : Src) : (s.setSrc n v).reg = s.reg := rfl
@[simp] theorem State.setSrc_rgn (n : Nat) (v : Src) : (s.setSrc n v).rgn = s.rgn := rfl
@[simp] theorem State.setSrc_mem (n : Nat) (v : Src) : (s.setSrc n v).mem = s.mem := rfl
@[simp] theorem State.setSrc_rck (n : Nat) (v : Src) : (s.setSrc n v).rck = s.rck := rfl
@[simp] theorem State.setSrc_prs (n : Nat) (v : Src) : (s.setSrc n v).prs = s.prs := rfl
@[simp] theorem State.setSrc_dir (n : Nat) (v : Src) : (s.setSrc n v).dir = s.dir := rfl
@[simp] theorem State.setSrc_edn (n : Nat) (v : Src) : (s.setSrc n v).edn = s.edn := rfl
@[simp] theorem State.setSrc_ports (n : Nat) (v : Src) : (s.setSrc n v).ports = s.ports := rfl
@[simp] theorem State.setSrc_qmg (n : Nat) (v : Src) : (s.setSrc n v).qmg = s.qmg := rfl
@[simp] theorem State.setSrc_lst (n : Nat) (v : Src) : (s.setSrc n v).lst = s.lst := rfl
@[simp] theorem State.setSrc_den (n : Nat) (v : Src) : (s.setSrc n v).den = s.den := rfl
@[simp] theorem State.setSrc_svc (n : Nat) (v : Src) : (s.setSrc n v).svc = s.svc := rfl
@[simp] theorem State.setSrc_cores (n : Nat) (v : Src) : (s.setSrc n v).cores = s.cores := rfl
@[simp] theorem State.setSrc_sto (n : Nat) (v : Src) : (s.setSrc n v).sto = s.sto := rfl
@[simp] theorem State.setSrc_dram (n : Nat) (v : Src) : (s.setSrc n v).dram = s.dram := rfl
@[simp] theorem State.setSrc_igr (n : Nat) (v : Src) : (s.setSrc n v).igr = s.igr := rfl
@[simp] theorem State.setSrc_tns (n : Nat) (v : Src) : (s.setSrc n v).tns = s.tns := rfl
@[simp] theorem State.setSrc_pwr (n : Nat) (v : Src) : (s.setSrc n v).pwr = s.pwr := rfl
@[simp] theorem State.setSrc_tru (n : Nat) (v : Src) : (s.setSrc n v).tru = s.tru := rfl
@[simp] theorem State.setSrc_mod (n : Nat) (v : Src) : (s.setSrc n v).mod = s.mod := rfl
@[simp] theorem State.setSrc_out (n : Nat) (v : Src) : (s.setSrc n v).out = s.out := rfl
@[simp] theorem State.setSrc_freeCtr (n : Nat) (v : Src) : (s.setSrc n v).freeCtr = s.freeCtr := rfl
@[simp] theorem State.setSrc_pending (n : Nat) (v : Src) : (s.setSrc n v).pending = s.pending := rfl

/-! ### setPrivCount -/

@[simp] theorem State.setPrivCount_order (l n v : Nat) : (s.setPrivCount l n v).order = s.order := rfl
@[simp] theorem State.setPrivCount_now (l n v : Nat) : (s.setPrivCount l n v).now = s.now := rfl
@[simp] theorem State.setPrivCount_reg (l n v : Nat) : (s.setPrivCount l n v).reg = s.reg := rfl
@[simp] theorem State.setPrivCount_rgn (l n v : Nat) : (s.setPrivCount l n v).rgn = s.rgn := rfl
@[simp] theorem State.setPrivCount_mem (l n v : Nat) : (s.setPrivCount l n v).mem = s.mem := rfl
@[simp] theorem State.setPrivCount_rck (l n v : Nat) : (s.setPrivCount l n v).rck = s.rck := rfl
@[simp] theorem State.setPrivCount_prs (l n v : Nat) : (s.setPrivCount l n v).prs = s.prs := rfl
@[simp] theorem State.setPrivCount_dir (l n v : Nat) : (s.setPrivCount l n v).dir = s.dir := rfl
@[simp] theorem State.setPrivCount_edn (l n v : Nat) : (s.setPrivCount l n v).edn = s.edn := rfl
@[simp] theorem State.setPrivCount_ports (l n v : Nat) : (s.setPrivCount l n v).ports = s.ports := rfl
@[simp] theorem State.setPrivCount_qmg (l n v : Nat) : (s.setPrivCount l n v).qmg = s.qmg := rfl
@[simp] theorem State.setPrivCount_lst (l n v : Nat) : (s.setPrivCount l n v).lst = s.lst := rfl
@[simp] theorem State.setPrivCount_den (l n v : Nat) : (s.setPrivCount l n v).den = s.den := rfl
@[simp] theorem State.setPrivCount_svc (l n v : Nat) : (s.setPrivCount l n v).svc = s.svc := rfl
@[simp] theorem State.setPrivCount_cores (l n v : Nat) : (s.setPrivCount l n v).cores = s.cores := rfl
@[simp] theorem State.setPrivCount_sto (l n v : Nat) : (s.setPrivCount l n v).sto = s.sto := rfl
@[simp] theorem State.setPrivCount_dram (l n v : Nat) : (s.setPrivCount l n v).dram = s.dram := rfl
@[simp] theorem State.setPrivCount_igr (l n v : Nat) : (s.setPrivCount l n v).igr = s.igr := rfl
@[simp] theorem State.setPrivCount_tns (l n v : Nat) : (s.setPrivCount l n v).tns = s.tns := rfl
@[simp] theorem State.setPrivCount_pwr (l n v : Nat) : (s.setPrivCount l n v).pwr = s.pwr := rfl
@[simp] theorem State.setPrivCount_tru (l n v : Nat) : (s.setPrivCount l n v).tru = s.tru := rfl
@[simp] theorem State.setPrivCount_mod (l n v : Nat) : (s.setPrivCount l n v).mod = s.mod := rfl
@[simp] theorem State.setPrivCount_out (l n v : Nat) : (s.setPrivCount l n v).out = s.out := rfl
@[simp] theorem State.setPrivCount_freeCtr (l n v : Nat) : (s.setPrivCount l n v).freeCtr = s.freeCtr := rfl
@[simp] theorem State.setPrivCount_pending (l n v : Nat) : (s.setPrivCount l n v).pending = s.pending := rfl

/-! ### setPrivInsvc -/

@[simp] theorem State.setPrivInsvc_order (l n : Nat) (v : Bool) : (s.setPrivInsvc l n v).order = s.order := rfl
@[simp] theorem State.setPrivInsvc_now (l n : Nat) (v : Bool) : (s.setPrivInsvc l n v).now = s.now := rfl
@[simp] theorem State.setPrivInsvc_reg (l n : Nat) (v : Bool) : (s.setPrivInsvc l n v).reg = s.reg := rfl
@[simp] theorem State.setPrivInsvc_rgn (l n : Nat) (v : Bool) : (s.setPrivInsvc l n v).rgn = s.rgn := rfl
@[simp] theorem State.setPrivInsvc_mem (l n : Nat) (v : Bool) : (s.setPrivInsvc l n v).mem = s.mem := rfl
@[simp] theorem State.setPrivInsvc_rck (l n : Nat) (v : Bool) : (s.setPrivInsvc l n v).rck = s.rck := rfl
@[simp] theorem State.setPrivInsvc_prs (l n : Nat) (v : Bool) : (s.setPrivInsvc l n v).prs = s.prs := rfl
@[simp] theorem State.setPrivInsvc_dir (l n : Nat) (v : Bool) : (s.setPrivInsvc l n v).dir = s.dir := rfl
@[simp] theorem State.setPrivInsvc_edn (l n : Nat) (v : Bool) : (s.setPrivInsvc l n v).edn = s.edn := rfl
@[simp] theorem State.setPrivInsvc_ports (l n : Nat) (v : Bool) : (s.setPrivInsvc l n v).ports = s.ports := rfl
@[simp] theorem State.setPrivInsvc_qmg (l n : Nat) (v : Bool) : (s.setPrivInsvc l n v).qmg = s.qmg := rfl
@[simp] theorem State.setPrivInsvc_lst (l n : Nat) (v : Bool) : (s.setPrivInsvc l n v).lst = s.lst := rfl
@[simp] theorem State.setPrivInsvc_den (l n : Nat) (v : Bool) : (s.setPrivInsvc l n v).den = s.den := rfl
@[simp] theorem State.setPrivInsvc_svc (l n : Nat) (v : Bool) : (s.setPrivInsvc l n v).svc = s.svc := rfl
@[simp] theorem State.setPrivInsvc_cores (l n : Nat) (v : Bool) : (s.setPrivInsvc l n v).cores = s.cores := rfl
@[simp] theorem State.setPrivInsvc_sto (l n : Nat) (v : Bool) : (s.setPrivInsvc l n v).sto = s.sto := rfl
@[simp] theorem State.setPrivInsvc_dram (l n : Nat) (v : Bool) : (s.setPrivInsvc l n v).dram = s.dram := rfl
@[simp] theorem State.setPrivInsvc_igr (l n : Nat) (v : Bool) : (s.setPrivInsvc l n v).igr = s.igr := rfl
@[simp] theorem State.setPrivInsvc_tns (l n : Nat) (v : Bool) : (s.setPrivInsvc l n v).tns = s.tns := rfl
@[simp] theorem State.setPrivInsvc_pwr (l n : Nat) (v : Bool) : (s.setPrivInsvc l n v).pwr = s.pwr := rfl
@[simp] theorem State.setPrivInsvc_tru (l n : Nat) (v : Bool) : (s.setPrivInsvc l n v).tru = s.tru := rfl
@[simp] theorem State.setPrivInsvc_mod (l n : Nat) (v : Bool) : (s.setPrivInsvc l n v).mod = s.mod := rfl
@[simp] theorem State.setPrivInsvc_out (l n : Nat) (v : Bool) : (s.setPrivInsvc l n v).out = s.out := rfl
@[simp] theorem State.setPrivInsvc_freeCtr (l n : Nat) (v : Bool) : (s.setPrivInsvc l n v).freeCtr = s.freeCtr := rfl
@[simp] theorem State.setPrivInsvc_pending (l n : Nat) (v : Bool) : (s.setPrivInsvc l n v).pending = s.pending := rfl

/-! ### modCore -/

@[simp] theorem State.modCore_order (c : Nat) (f : Core → Core) : (s.modCore c f).order = s.order := by unfold State.modCore; split <;> rfl
@[simp] theorem State.modCore_now (c : Nat) (f : Core → Core) : (s.modCore c f).now = s.now := by unfold State.modCore; split <;> rfl
@[simp] theorem State.modCore_reg (c : Nat) (f : Core → Core) : (s.modCore c f).reg = s.reg := by unfold State.modCore; split <;> rfl
@[simp] theorem State.modCore_rgn (c : Nat) (f : Core → Core) : (s.modCore c f).rgn = s.rgn := by unfold State.modCore; split <;> rfl
@[simp] theorem State.modCore_mem (c : Nat) (f : Core → Core) : (s.modCore c f).mem = s.mem := by unfold State.modCore; split <;> rfl
@[simp] theorem State.modCore_rck (c : Nat) (f : Core → Core) : (s.modCore c f).rck = s.rck := by unfold State.modCore; split <;> rfl
@[simp] theorem State.modCore_prs (c : Nat) (f : Core → Core) : (s.modCore c f).prs = s.prs := by unfold State.modCore; split <;> rfl
@[simp] theorem State.modCore_dir (c : Nat) (f : Core → Core) : (s.modCore c f).dir = s.dir := by unfold State.modCore; split <;> rfl
@[simp] theorem State.modCore_edn (c : Nat) (f : Core → Core) : (s.modCore c f).edn = s.edn := by unfold State.modCore; split <;> rfl
@[simp] theorem State.modCore_ports (c : Nat) (f : Core → Core) : (s.modCore c f).ports = s.ports := by unfold State.modCore; split <;> rfl
@[simp] theorem State.modCore_qmg (c : Nat) (f : Core → Core) : (s.modCore c f).qmg = s.qmg := by unfold State.modCore; split <;> rfl
@[simp] theorem State.modCore_lst (c : Nat) (f : Core → Core) : (s.modCore c f).lst = s.lst := by unfold State.modCore; split <;> rfl
@[simp] theorem State.modCore_den (c : Nat) (f : Core → Core) : (s.modCore c f).den = s.den := by unfold State.modCore; split <;> rfl
@[simp] theorem State.modCore_svc (c : Nat) (f : Core → Core) : (s.modCore c f).svc = s.svc := by unfold State.modCore; split <;> rfl
@[simp] theorem State.modCore_icu (c : Nat) (f : Core → Core) : (s.modCore c f).icu = s.icu := by unfold State.modCore; split <;> rfl
@[simp] theorem State.modCore_sto (c : Nat) (f : Core → Core) : (s.modCore c f).sto = s.sto := by unfold State.modCore; split <;> rfl
@[simp] theorem State.modCore_dram (c : Nat) (f : Core → Core) : (s.modCore c f).dram = s.dram := by unfold State.modCore; split <;> rfl
@[simp] theorem State.modCore_igr (c : Nat) (f : Core → Core) : (s.modCore c f).igr = s.igr := by unfold State.modCore; split <;> rfl
@[simp] theorem State.modCore_tns (c : Nat) (f : Core → Core) : (s.modCore c f).tns = s.tns := by unfold State.modCore; split <;> rfl
@[simp] theorem State.modCore_pwr (c : Nat) (f : Core → Core) : (s.modCore c f).pwr = s.pwr := by unfold State.modCore; split <;> rfl
@[simp] theorem State.modCore_tru (c : Nat) (f : Core → Core) : (s.modCore c f).tru = s.tru := by unfold State.modCore; split <;> rfl
@[simp] theorem State.modCore_mod (c : Nat) (f : Core → Core) : (s.modCore c f).mod = s.mod := by unfold State.modCore; split <;> rfl
@[simp] theorem State.modCore_out (c : Nat) (f : Core → Core) : (s.modCore c f).out = s.out := by unfold State.modCore; split <;> rfl
@[simp] theorem State.modCore_freeCtr (c : Nat) (f : Core → Core) : (s.modCore c f).freeCtr = s.freeCtr := by unfold State.modCore; split <;> rfl
@[simp] theorem State.modCore_pending (c : Nat) (f : Core → Core) : (s.modCore c f).pending = s.pending := by unfold State.modCore; split <;> rfl

/-! ### What an update writes -/

@[simp] theorem State.emit_out (o : Out) : (s.emit o).out = s.out ++ [o] := rfl
@[simp] theorem State.until_now (due : Nat) : (s.until due).now = max s.now due := rfl
@[simp] theorem State.draw_fst : s.draw.1 = s.freeCtr := rfl
@[simp] theorem State.draw_snd : s.draw.2 = { s with freeCtr := s.freeCtr + 1 } := rfl

end Sys2Proof.Machine
end

