-- ==== Sys2Proof/Laws/Ops.lean ====
section
/-! SUPPORT. The laws of the shared operations: what a register word reads after each, and that raising interrupts, messages and errors touches only the components signals names. -/

namespace Sys2Proof.Machine

/-! ### Frames -/

theorem State.changesOnly_refl (s : State) (ps : List Part) : s.changesOnly s ps := by
  intro q _; cases q <;> rfl

theorem Part.same_trans {q : Part} {s t u : State} (h : q.same s t) (k : q.same t u) : q.same s u := by
  cases q <;> exact Eq.trans k h

theorem State.changesOnly_trans {s t u : State} {ps qs rs : List Part} (h : s.changesOnly t ps) (k : t.changesOnly u qs)
    (hp : ∀ p ∈ ps, p ∈ rs) (hq : ∀ q ∈ qs, q ∈ rs) : s.changesOnly u rs :=
  fun q hn => Part.same_trans (h q (fun m => hn (hp q m))) (k q (fun m => hn (hq q m)))

theorem State.changesOnly_mono {s t : State} {ps qs : List Part} (h : s.changesOnly t ps) (hp : ∀ p ∈ ps, p ∈ qs) :
    s.changesOnly t qs := fun q hn => h q (fun m => hn (hp q m))

/-- The state with everything set aside that raising interrupts, messages and errors may touch: live register words, the interrupt controller, a core's wait and wake, a port's pending bits and its INTx level, and the links. -/
def State.quiet (s : State) : State :=
  { s with
    reg := { s.reg with live := [] }
    icu := {}
    cores := s.cores.map (fun k => { k with wfiAt := none, wakeAt := none })
    ports := s.ports.map (fun q => { q with pba := [], intxAsserted := false })
    out := [] }

/-- Agreeing with the signals set aside is changing only components that signals names. -/
theorem State.changesOnly_of_quiet {s t : State} (h : t.quiet = s.quiet) : s.changesOnly t signals := by
  intro q hq
  simp only [State.quiet, State.mk.injEq] at h
  cases q <;> simp_all [signals, Part.same]

/-- Agreeing with the signals set aside keeps the staged words, the accepted commits, the selections and the latches. -/
theorem State.reg_of_quiet {s t : State} (h : t.quiet = s.quiet) :
    t.reg.staged = s.reg.staged ∧ t.reg.taken = s.reg.taken ∧ t.reg.sel = s.reg.sel ∧ t.reg.latch = s.reg.latch ∧ t.reg.half = s.reg.half := by
  simp only [State.quiet, State.mk.injEq, RegState.mk.injEq] at h
  simp_all

theorem foldl_quiet {α} (f : State → α → State) (h : ∀ s a, (f s a).quiet = s.quiet) (l : List α) (s : State) :
    (l.foldl f s).quiet = s.quiet := by
  induction l generalizing s with
  | nil => rfl
  | cons a l ih => exact (ih _).trans (h _ _)

section
variable (s : State)

@[simp] theorem State.setWord_quiet (page off v : Nat) : (s.setWord page off v).quiet = s.quiet := rfl
@[simp] theorem State.setField_quiet (page off lo w v : Nat) : (s.setField page off lo w v).quiet = s.quiet := rfl
@[simp] theorem State.setWord64_quiet (page off v : Nat) : (s.setWord64 page off v).quiet = s.quiet := rfl
@[simp] theorem State.emit_quiet (o : Out) : (s.emit o).quiet = s.quiet := rfl
theorem State.modPort_quiet (p : Port) (f : PortState → PortState)
    (h : ∀ q, { f q with pba := [], intxAsserted := false } = ({ q with pba := [], intxAsserted := false } : PortState)) :
    (s.modPort p f).quiet = s.quiet := by
  have e : (s.ports.set p (f s.ports[p])).map (fun q => { q with pba := [], intxAsserted := false })
      = s.ports.map (fun q => { q with pba := [], intxAsserted := false }) := by
    rw [Vector.map_set, h]
    ext i hi
    simp only [Vector.getElem_set, Vector.getElem_map]
    split
    · rename_i hpi; subst hpi; rfl
    · rfl
  simp only [State.quiet, State.modPort, e]
@[simp] theorem State.setSrc_quiet (n : Nat) (v : Src) : (s.setSrc n v).quiet = s.quiet := rfl
@[simp] theorem State.setPrivCount_quiet (l n v : Nat) : (s.setPrivCount l n v).quiet = s.quiet := rfl
@[simp] theorem State.setPrivInsvc_quiet (l n : Nat) (v : Bool) : (s.setPrivInsvc l n v).quiet = s.quiet := rfl
theorem State.modCore_quiet (c : Nat) (f : Core → Core)
    (h : ∀ k, { f k with wfiAt := none, wakeAt := none } = ({ k with wfiAt := none, wakeAt := none } : Core)) :
    (s.modCore c f).quiet = s.quiet := by
  unfold State.modCore
  split
  · rename_i hc
    have e : (s.cores.set c (f s.cores[c])).map (fun k => { k with wfiAt := none, wakeAt := none })
        = s.cores.map (fun k => { k with wfiAt := none, wakeAt := none }) := by
      rw [Vector.map_set, h]
      ext i hi
      simp only [Vector.getElem_set, Vector.getElem_map]
      split
      · rename_i hci; subst hci; rfl
      · rfl
    simp only [State.quiet, e]
  · rfl
@[simp] theorem State.count_quiet (page i n : Nat) : (s.count page i n).quiet = s.quiet := by
  unfold State.count; split <;> simp
@[simp] theorem State.add64_quiet (page off n : Nat) : (s.add64 page off n).quiet = s.quiet := rfl
@[simp] theorem State.reach_quiet (l prio : Nat) : (s.reach l prio).quiet = s.quiet := by
  have h1 (c w : Nat) : (s.modCore c (fun k => { k with wakeAt := some w })).quiet = s.quiet := s.modCore_quiet c _ (fun _ => rfl)
  have h2 (c : Nat) : (s.modCore c (fun k => { k with wfiAt := none })).quiet = s.quiet := s.modCore_quiet c _ (fun _ => rfl)
  unfold State.reach
  simp only []
  split
  · split
    · rfl
    · rw [State.count_quiet]; exact h1 _ _
  · split
    · split
      · rw [State.emit_quiet]; exact h2 _
      · rfl
    · rfl
@[simp] theorem State.pushRedir_quiet (e : Redir) : (s.pushRedir e).1.quiet = s.quiet := by
  unfold State.pushRedir; split <;> rfl
@[simp] theorem State.riseBit_quiet (page bit : Nat) : (s.riseBit page bit).1.quiet = s.quiet := by
  unfold State.riseBit; grind [State.setWord_quiet]
theorem State.raiseFuel_relay_quiet (fuel : Nat) : (State.raiseFuel.relay fuel s).quiet = s.quiet := by
  cases fuel with
  | zero => rfl
  | succ n =>
    unfold State.raiseFuel.relay
    grind [State.count_quiet, State.setSrc_quiet, State.pushRedir_quiet, foldl_quiet, State.reach_quiet]
theorem State.raiseFuel_deliver_quiet (fuel n : Nat) : (State.raiseFuel.deliverFuel fuel s n).quiet = s.quiet := by
  unfold State.raiseFuel.deliverFuel
  grind [State.count_quiet, State.setSrc_quiet, State.pushRedir_quiet, foldl_quiet, State.reach_quiet, State.riseBit_quiet, State.raiseFuel_relay_quiet]
@[simp] theorem State.raise_quiet (n : Nat) : (s.raise n).quiet = s.quiet := by
  unfold State.raise State.raiseFuel
  grind [State.count_quiet, State.setSrc_quiet, State.raiseFuel_deliver_quiet]
@[simp] theorem State.deliver_quiet (n : Nat) : (s.deliver n).quiet = s.quiet := State.raiseFuel_deliver_quiet s 2 n
@[simp] theorem State.deliverPriv_quiet (l n : Nat) : (s.deliverPriv l n).quiet = s.quiet := by
  unfold State.deliverPriv; split <;> simp
@[simp] theorem State.raisePriv_quiet (l n : Nat) : (s.raisePriv l n).quiet = s.quiet := by
  unfold State.raisePriv; grind [State.count_quiet, State.setPrivCount_quiet, State.deliverPriv_quiet]
@[simp] theorem State.intxLevel_quiet (p : Port) : (s.intxLevel p).quiet = s.quiet := by
  unfold State.intxLevel
  simp only []
  split
  · rfl
  · rw [State.emit_quiet]; exact s.modPort_quiet p _ (fun _ => rfl)
@[simp] theorem State.sendMsix_quiet (p : Port) (v : Nat) : (s.sendMsix p v).quiet = s.quiet := by
  unfold State.sendMsix
  split
  · split
    · exact s.modPort_quiet p _ (fun _ => rfl)
    · simp
  · simp
@[simp] theorem State.flushPba_quiet (p : Port) : (s.flushPba p).quiet = s.quiet := by
  unfold State.flushPba
  split
  · refine foldl_quiet _ (fun t e => ?_) _ _
    split
    · rfl
    · rw [State.emit_quiet]; exact t.modPort_quiet p _ (fun _ => rfl)
  · rfl
@[simp] theorem State.pageInterrupt_quiet (page : Nat) : (s.pageInterrupt page).quiet = s.quiet := by
  unfold State.pageInterrupt
  grind [State.sendMsix_quiet, State.raise_quiet]
@[simp] theorem State.err_quiet (page bit : Nat) : (s.err page bit).quiet = s.quiet := by
  unfold State.err; grind [State.riseBit_quiet, State.pageInterrupt_quiet]
@[simp] theorem State.errInfo_quiet (page kind off req : Nat) : (s.errInfo page kind off req).quiet = s.quiet := by
  unfold State.errInfo; simp
@[simp] theorem State.errCount_quiet (page bit i : Nat) : (s.errCount page bit i).quiet = s.quiet := by
  unfold State.errCount; simp

end

/-! ### Register words -/

section
variable (s : State)

theorem State.word_setWord (page off v p o : Nat) :
    (s.setWord page off v).word p o = if 4096 * p + o = 4096 * page + off then v % 2 ^ 32 else s.word p o := by
  unfold State.word State.setWord
  by_cases h : 4096 * p + o = 4096 * page + off
  · simp [h]
  · simp only [h, if_false]; rw [sget_sset_ne _ _ _ _ _ _ h]

@[simp] theorem State.word_setWord_self (page off v : Nat) : (s.setWord page off v).word page off = v % 2 ^ 32 := by
  rw [State.word_setWord, if_pos rfl]

theorem State.word_setWord_ne (page off v p o : Nat) (h : 4096 * p + o ≠ 4096 * page + off) :
    (s.setWord page off v).word p o = s.word p o := by
  rw [State.word_setWord, if_neg h]

@[simp] theorem State.word_emit (o : Out) (p i : Nat) : (s.emit o).word p i = s.word p i := rfl
@[simp] theorem State.word_modPort (q : Port) (f : PortState → PortState) (p o : Nat) : (s.modPort q f).word p o = s.word p o := rfl
@[simp] theorem State.word_setSrc (n : Nat) (v : Src) (p o : Nat) : (s.setSrc n v).word p o = s.word p o := rfl
@[simp] theorem State.word_setPrivCount (l n v p o : Nat) : (s.setPrivCount l n v).word p o = s.word p o := rfl
@[simp] theorem State.word_setPrivInsvc (l n : Nat) (v : Bool) (p o : Nat) : (s.setPrivInsvc l n v).word p o = s.word p o := rfl
@[simp] theorem State.word_setSel (req : Requester) (page off v p o : Nat) : (s.setSel req page off v).word p o = s.word p o := rfl
@[simp] theorem State.word_until (due p o : Nat) : (s.until due).word p o = s.word p o := rfl
@[simp] theorem State.word_modCore (c : Nat) (f : Core → Core) (p o : Nat) : (s.modCore c f).word p o = s.word p o := by
  unfold State.modCore; split <;> rfl
@[simp] theorem State.word_pushRedir (e : Redir) (p o : Nat) : (s.pushRedir e).1.word p o = s.word p o := by
  unfold State.pushRedir; split <;> rfl

theorem State.word_count (page i n p o : Nat) (h : 4096 * p + o ≠ 4096 * page + (0x028 + 4 * i)) :
    (s.count page i n).word p o = s.word p o := by
  unfold State.count
  split
  · rfl
  · exact s.word_setWord_ne _ _ _ _ _ h

/-- A count away from the interrupt page. -/
theorem State.word_countIcu (i n p o : Nat) (hp : p ≠ 0x0C1) (ho : o < 4096) (hi : i < 6) :
    (s.count 0x0C1 i n).word p o = s.word p o := s.word_count _ _ _ _ _ (by omega)

theorem State.word_riseBit (page bit p o : Nat) (h : 4096 * p + o ≠ 4096 * page + 0x018) (h2 : 4096 * p + o ≠ 4096 * page + 0x020) :
    (s.riseBit page bit).1.word p o = s.word p o := by
  unfold State.riseBit
  simp only []
  split
  · rfl
  · split
    · rw [State.word_setWord_ne _ _ _ _ _ _ h, State.word_setWord_ne _ _ _ _ _ _ h2]
    · rw [State.word_setWord_ne _ _ _ _ _ _ h]

theorem foldl_word {α} (f : State → α → State) (p o : Nat) (h : ∀ s a, (f s a).word p o = s.word p o) (l : List α) (s : State) :
    (l.foldl f s).word p o = s.word p o := by
  induction l generalizing s with
  | nil => rfl
  | cons a l ih => exact (ih _).trans (h _ _)

theorem State.word_reach (l prio p o : Nat) (hp : p ≠ 0x0C1) (ho : o < 4096) : (s.reach l prio).word p o = s.word p o := by
  unfold State.reach
  grind [State.word_countIcu, State.word_modCore, State.word_emit]

theorem State.word_relay (fuel p o : Nat) (hp : p ≠ 0x0C1) (ho : o < 4096) : (State.raiseFuel.relay fuel s).word p o = s.word p o := by
  cases fuel with
  | zero => rfl
  | succ n =>
    unfold State.raiseFuel.relay
    grind [State.word_countIcu, State.word_setSrc, State.word_pushRedir, foldl_word, State.word_reach]

theorem State.word_deliverFuel (fuel n p o : Nat) (hp : p ≠ 0x0C1) (ho : o < 4096) :
    (State.raiseFuel.deliverFuel fuel s n).word p o = s.word p o := by
  have hr (u : State) (b : Nat) : (u.riseBit 0x0C1 b).1.word p o = u.word p o := u.word_riseBit _ _ _ _ (by omega) (by omega)
  unfold State.raiseFuel.deliverFuel
  grind (gen := 20) [State.word_countIcu, State.word_setSrc, State.word_pushRedir, foldl_word, State.word_reach, State.word_relay]

/-- Raising a source leaves every register word outside the interrupt controller's page 0x0C1. -/
theorem State.word_raise (n p o : Nat) (hp : p ≠ 0x0C1) (ho : o < 4096) : (s.raise n).word p o = s.word p o := by
  unfold State.raise State.raiseFuel
  grind [State.word_countIcu, State.word_setSrc, State.word_deliverFuel]

theorem State.word_raisePriv (l n p o : Nat) (hp : p ≠ 0x0C1) (ho : o < 4096) : (s.raisePriv l n).word p o = s.word p o := by
  unfold State.raisePriv State.deliverPriv
  grind [State.word_countIcu, State.word_setPrivCount, State.word_reach]

theorem State.word_intxLevel (q : Port) (p o : Nat) : (s.intxLevel q).word p o = s.word p o := by
  unfold State.intxLevel; grind [State.word_emit, State.word_modPort]

/-- A message leaves every register word but the pending words of its port. -/
theorem State.word_sendMsix (q : Port) (v p o : Nat) (ho : o < 4096) (h : p ≠ prtPage q ∨ o < 0x180 ∨ 0x280 ≤ o) (hv : v < 2048) :
    (s.sendMsix q v).word p o = s.word p o := by
  have hne : 4096 * p + o ≠ 4096 * prtPage q + (0x180 + 4 * (v / 32)) := by omega
  unfold State.sendMsix
  split
  · split
    · rfl
    · rfl
  · rw [State.word_intxLevel, State.word_setWord_ne _ _ _ _ _ _ hne]

theorem bits_lt (v lo w : Nat) : bits v lo w < 2 ^ w := Nat.mod_lt _ (Nat.two_pow_pos w)

/-- A page's interrupt leaves every register word below 0x180 of every page but the interrupt controller's 0x0C1. -/
theorem State.word_pageInterrupt (page p o : Nat) (hp : p ≠ 0x0C1) (ho : o < 0x180) :
    (s.pageInterrupt page).word p o = s.word p o := by
  have hm (u : State) (q : Port) (w : Nat) : (u.sendMsix q (bits w 0 11)).word p o = u.word p o :=
    u.word_sendMsix q _ p o (by omega) (by omega) (bits_lt w 0 11)
  unfold State.pageInterrupt State.field
  grind [State.word_raise]

/-- An error leaves every register word below 0x180 but ERR_STATUS and ERR_FIRST of its page, outside page 0x0C1. -/
theorem State.word_err (page bit p o : Nat) (hp : p ≠ 0x0C1) (ho : o < 0x180) (h : 4096 * p + o ≠ 4096 * page + 0x018)
    (h2 : 4096 * p + o ≠ 4096 * page + 0x020) : (s.err page bit).word p o = s.word p o := by
  unfold State.err
  grind [State.word_riseBit, State.word_pageInterrupt]

end

end Sys2Proof.Machine
end

