-- ==== Sys2Proof/Laws/Access.lean ====
section
/-! SUPPORT. The laws of register accesses: what one does where its requester is admitted, and what an error recorded in a page header leaves. -/

namespace Sys2Proof.Machine

variable (s : State)

/-- What a requester asks for takes effect at once where it is there, is not refused, and has nothing waiting before it (R242). -/
theorem State.inOrder_open {s : State} {req : Requester} (c : Instr) (f : State → State) (h1 : s.present req = true)
    (h2 : s.reqIdeRefused req = false) (h3 : s.atTurn req = true) : s.inOrder c req f = f s := by
  cases req with
  | port p =>
    simp only [State.present, State.reqIdeRefused] at h1 h2
    simp only [State.atTurn, Bool.and_eq_true, Bool.not_eq_true', Option.isNone_iff_eq_none] at h3
    obtain ⟨⟨hb, hd⟩, hc⟩ := h3
    have hi : s.ideArrive p false = s := by simp [State.ideArrive, hc]
    have hm : s.dir.waiting.any (fun w => decide (w.1 = .turn c ∧ w.2.port = p.val)) = false := by
      simp only [List.any_eq_false, decide_eq_true_eq] at hb ⊢
      exact fun w hw h => hb w hw h.2
    simp only [State.inOrder, State.io, h1, h2, hb, hd, hm, hi, Bool.not_true, Bool.or_false, Bool.false_eq_true, if_false]
  | _ => simp [State.inOrder, h1]

/-- An admitted access has its effect. -/
theorem State.access_admits {s : State} {req : Requester} {page off : Nat} (c : Instr) (f : State → State) (h : s.admits req page off = true) :
    s.access c req page off f = f s := by
  simp only [State.admits, State.acting, Bool.and_eq_true, Bool.not_eq_true'] at h
  obtain ⟨⟨⟨h1, h2⟩, h3⟩, h4⟩ := h
  have e := State.inOrder_open c (fun u => if u.sees req page off then f u else u) h1 h2 h3
  simp [State.access, e, h4]

theorem State.viaReg_admits {s : State} {req : Requester} {page off : Nat} (c : Instr) (f : State → State) (h : s.admits req page off = true) :
    s.viaReg c req page off f = .next (f s) := by
  simp [State.viaReg, done, State.access_admits c f h]

/-- An access that reaches its register has its effect in the state in which its island has woken (R362). -/
theorem State.reg'_reached {s : State} {req : Requester} {page off : Nat} (c : Instr) (f : State → State) (h : s.reached req page off = true) :
    s.reg' c req page off f = .next (f (s.touch page)) := by
  simp only [State.reached, Bool.and_eq_true] at h
  simp [State.reg', State.regAccess, done, State.access_admits _ _ h.1, h.2]

/-- A direct access has its effect, and wakes nothing. -/
theorem State.reg'_direct {s : State} {req : Requester} {page off : Nat} (c : Instr) (f : State → State) (h : s.direct req page off = true) :
    s.reg' c req page off f = .next (f s) := by
  simp only [State.direct, Bool.and_eq_true, Bool.not_eq_true', Bool.or_eq_false_iff, decide_eq_false_iff_not] at h
  obtain ⟨⟨ha, hr⟩, ⟨h1, h2⟩, h3⟩ := h
  have ht : s.touch page = s := by
    unfold State.touch
    split <;> simp_all
  simp [State.reg', State.regAccess, done, State.access_admits _ _ ha, hr, ht]

/-! ### Waiting requests -/

/-- With nothing waiting, there is nothing to look at again. -/
theorem State.settle_calm {s : State} (h : s.calm) : s.settle = s := by
  obtain ⟨hw, hs, -⟩ := h
  have hf : s.dir.snoops.filter s.answerDue = [] := List.filter_eq_nil_iff.mpr (fun n hn => by simp [State.answerDue, hs n hn])
  have ha : s.dir.snoops.any s.answerDue = false := by
    simp only [List.any_eq_false]
    intro n hn
    simp [State.answerDue, hs n hn]
  have e : { s with dir := { s.dir with waiting := [] } } = s := by rw [← hw]
  simp [State.settle, State.settleFuel, State.takeAnswers, hf, hw, settleFrom, e, ha]

/-- Nor does a completion entry wait, or a copy of the cooper. -/
theorem State.settleSnoops_atRest {s : State} (h : s.atRest) : s.settleSnoops = s := by
  obtain ⟨hc, hq, hk⟩ := h
  have hf : s.qmg.queues.filter (fun e => decide (e.2.held ≠ []) && !e.2.cqHost) = [] :=
    List.filter_eq_nil_iff.mpr (fun e he => by simp [hq e he])
  have e : { s with igr := { s.igr with copies := 0 } } = s := by rw [← hk]
  have h1 : s.cooperEntries = s := by simp [State.cooperEntries, hk]
  rw [State.settleSnoops, State.settle_calm hc, State.flushCompletions, hf, h1]
  rfl

/-! ### Errors -/

theorem add_two_pow_of_testBit (v b : Nat) (hv : v < 2 ^ 32) (hb : b < 32) (h : v.testBit b = false) : v + 2 ^ b = v ||| 2 ^ b := by
  have e := BitVec.add_eq_or_of_and_eq_zero (BitVec.ofNat 40 v) (BitVec.ofNat 40 (2 ^ b)) (by
    apply BitVec.eq_of_getLsbD_eq
    intro i hi
    simp only [BitVec.getLsbD_and, BitVec.getLsbD_ofNat, Nat.testBit_two_pow]
    by_cases hbi : b = i
    · subst hbi; simp [h]
    · simp [hbi])
  have h2 : 2 ^ b < 2 ^ 32 := Nat.pow_lt_pow_right (by omega) hb
  have := congrArg BitVec.toNat e
  simp only [BitVec.toNat_add, BitVec.toNat_or, BitVec.toNat_ofNat] at this
  rw [Nat.mod_eq_of_lt (a := v) (by omega), Nat.mod_eq_of_lt (a := 2 ^ b) (by omega), Nat.mod_eq_of_lt (by omega)] at this
  exact this

theorem State.riseBit_status (page bit : Nat) (hb : bit < 32) :
    (s.riseBit page bit).1.word page 0x018 = s.word page 0x018 ||| 2 ^ bit := by
  have hlt : s.word page 0x018 < 2 ^ 32 := BitVec.isLt _
  unfold State.riseBit
  simp only []
  split
  · rename_i h
    apply Nat.eq_of_testBit_eq
    intro i
    simp only [Nat.testBit_or, Nat.testBit_two_pow]
    by_cases hi : bit = i
    · subst hi; simp [h]
    · simp [hi]
  · rename_i h
    have hs := add_two_pow_of_testBit _ bit hlt hb (by simpa using h)
    have hlt2 : s.word page 0x018 ||| 2 ^ bit < 2 ^ 32 := Nat.or_lt_two_pow hlt (Nat.pow_lt_pow_right (by omega) hb)
    simp only [State.word_setWord_self, hs]
    exact Nat.mod_eq_of_lt hlt2

/-- An error sets its bit of ERR_STATUS and no other (R403). -/
theorem State.err_status (page bit : Nat) (hb : bit < 32) (hp : page ≠ 0x0C1) :
    (s.err page bit).word page 0x018 = s.word page 0x018 ||| 2 ^ bit := by
  have hr := s.riseBit_status page bit hb
  unfold State.err
  grind [State.word_pageInterrupt]

theorem State.errCount_status (page bit i : Nat) (hb : bit < 32) (hp : page ≠ 0x0C1) (hi : i < 6) :
    (s.errCount page bit i).word page 0x018 = s.word page 0x018 ||| 2 ^ bit := by
  unfold State.errCount
  rw [State.err_status _ _ _ hb hp, State.word_count _ _ _ _ _ _ (by omega)]

/-- A common error is recorded in ERR_INFO, and sets its bit of ERR_STATUS (R402, R403). -/
theorem State.errInfo_status (page kind off req : Nat) (hk : kind < 4) (hp : page ≠ 0x0C1) :
    (s.errInfo page kind off req).word page 0x018 = s.word page 0x018 ||| 2 ^ kind := by
  unfold State.errInfo
  rw [State.err_status _ _ _ (by omega) hp, State.word_setWord_ne _ _ _ _ _ _ (by omega)]

theorem State.errInfo_info (page kind off req : Nat) (hp : page ≠ 0x0C1) :
    (s.errInfo page kind off req).word page 0x024 = (off % 4096 + req * 2 ^ 12 + kind * 2 ^ 16) % 2 ^ 32 := by
  unfold State.errInfo
  rw [State.word_err _ _ _ _ _ hp (by omega) (by omega) (by omega), State.word_setWord_self]

/-- A common error leaves every other register word below 0x180 of the pages other than 0x0C1. -/
theorem State.word_errInfo (page kind off req p o : Nat) (hp : p ≠ 0x0C1) (ho : o < 0x180)
    (h : p ≠ page ∨ (o ≠ 0x018 ∧ o ≠ 0x020 ∧ o ≠ 0x024)) : (s.errInfo page kind off req).word p o = s.word p o := by
  unfold State.errInfo
  rw [State.word_err _ _ _ _ _ hp ho (by omega) (by omega), State.word_setWord_ne _ _ _ _ _ _ (by omega)]

theorem State.errInfo_changes (page kind off req : Nat) : s.changesOnly (s.errInfo page kind off req) signals :=
  State.changesOnly_of_quiet (by simp)

theorem State.err_changes (page bit : Nat) : s.changesOnly (s.err page bit) signals :=
  State.changesOnly_of_quiet (by simp)

end Sys2Proof.Machine
end

