-- ==== Sys2Proof/Laws/Cores.lean ====
section
/-! SUPPORT. The laws of a core's instructions: whatever a core carries out changes that core alone, and neither its cache nor whether it runs. -/

namespace Sys2Proof.Machine

/-! ### One core changes -/

theorem State.modCore_modCore (s : State) (c : Nat) (f g : Core → Core) : (s.modCore c f).modCore c g = s.modCore c (fun k => g (f k)) := by
  unfold State.modCore; split <;> simp

theorem State.modCore_self (s : State) (c : Nat) : s.modCore c (fun k => k) = s := by
  unfold State.modCore; split <;> simp

/-- A change of a core leaves its cache, and whether it runs, sleeps or is halted. -/
def Core.Goes (f : Core → Core) : Prop :=
  ∀ k, (f k).state = k.state ∧ (f k).logical = k.logical ∧ (f k).icache = k.icache ∧ (f k).wfiAt = k.wfiAt ∧ (f k).wakeAt = k.wakeAt
    ∧ (f k).debugHalt = k.debugHalt ∧ (f k).meshHit = k.meshHit

/-- A state comes from another by what core c itself does. -/
def State.coreGoes (s t : State) (c : Nat) : Prop := ∃ f, Core.Goes f ∧ t = s.modCore c f

theorem State.coreGoes_refl (s : State) (c : Nat) : s.coreGoes s c := ⟨fun k => k, fun _ => by simp, (s.modCore_self c).symm⟩

theorem State.coreGoes_mod {s t : State} {c : Nat} (h : s.coreGoes t c) (f : Core → Core) (hf : Core.Goes f) : s.coreGoes (t.modCore c f) c := by
  obtain ⟨g, hg, rfl⟩ := h
  refine ⟨fun k => f (g k), fun k => ?_, State.modCore_modCore s c g f⟩
  obtain ⟨a1, a2, a3, a4, a5, a6, a7⟩ := hf (g k)
  obtain ⟨b1, b2, b3, b4, b5, b6, b7⟩ := hg k
  exact ⟨a1.trans b1, a2.trans b2, a3.trans b3, a4.trans b4, a5.trans b5, a6.trans b6, a7.trans b7⟩

theorem Core.setX_goes (r : Fin 32) (v : DWord) : Core.Goes (fun k => k.setX r v) := by
  intro k; simp only [Core.setX]; split <;> simp

theorem Core.raiseFlags_goes (n : Nat) : Core.Goes (fun k => k.raiseFlags n) := fun _ => by simp [Core.raiseFlags]

theorem Core.setPmpWord_goes (i : Nat) (v : DWord) : Core.Goes (fun k => k.setPmpWord i v) := by
  intro k
  unfold Core.setPmpWord
  generalize List.range 8 = l
  induction l generalizing k with
  | nil => simp
  | cons j l ih =>
    simp only [List.foldl_cons]
    split
    · exact ih k
    · simpa using ih _

theorem Core.setCsr_goes (n : Nat) (v : DWord) : Core.Goes (fun k => k.setCsr n v) := by
  intro k
  unfold Core.setCsr
  split <;> first | exact Core.setPmpWord_goes _ v k | (simp; done) | (dsimp only; split <;> simp)

theorem Core.csrWrite_goes (n : Nat) (v : DWord) : Core.Goes (fun k => if 1 ≤ n ∧ n ≤ 3 then (k.setCsr n v).raiseFlags 0 else k.setCsr n v) := by
  intro k
  have a := Core.setCsr_goes n v k
  have b := Core.raiseFlags_goes 0 (k.setCsr n v)
  dsimp only at a b ⊢
  split
  · exact ⟨b.1.trans a.1, b.2.1.trans a.2.1, b.2.2.1.trans a.2.2.1, b.2.2.2.1.trans a.2.2.2.1, b.2.2.2.2.1.trans a.2.2.2.2.1,
      b.2.2.2.2.2.1.trans a.2.2.2.2.2.1, b.2.2.2.2.2.2.trans a.2.2.2.2.2.2⟩
  · exact a

/-! ### What an instruction does -/

variable {s t : State} {c : Nat}

theorem State.coreGoes_retired (h : s.coreGoes t c) (short : Bool) : s.coreGoes (t.retired c short) c :=
  State.coreGoes_mod h _ (fun _ => by simp)

theorem State.coreGoes_trap (h : s.coreGoes t c) (cause tval : Nat) : s.coreGoes (t.trap c cause tval) c :=
  State.coreGoes_mod h _ (fun _ => by simp)

theorem State.coreGoes_putX (h : s.coreGoes t c) (rd : Nat) (v : DWord) (short : Bool) : s.coreGoes (t.putX c rd v short) c :=
  State.coreGoes_retired (State.coreGoes_mod h _ (Core.setX_goes _ v)) short

theorem State.coreGoes_jumped (h : s.coreGoes t c) (rd : Nat) (v target : DWord) (short : Bool) : s.coreGoes (t.jumped c rd v target short) c :=
  State.coreGoes_mod (State.coreGoes_putX h rd v short) _ (fun _ => by simp)

theorem State.coreGoes_putF (h : s.coreGoes t c) (rd : Nat) (double : Bool) (r : Nat × Nat) (short : Bool) : s.coreGoes (t.putF c rd double r short) c :=
  State.coreGoes_retired (State.coreGoes_mod h _ (fun _ => by simp [Core.raiseFlags])) short

theorem State.coreGoes_putFlagged (h : s.coreGoes t c) (rd : Nat) (v : DWord) (fl : Nat) : s.coreGoes (t.putFlagged c rd v fl) c := by
  unfold State.putFlagged
  split
  · exact State.coreGoes_putX h rd v false
  · exact State.coreGoes_putX (State.coreGoes_mod h _ (Core.raiseFlags_goes fl)) rd v false

theorem State.coreGoes_csrOp (h : s.coreGoes t c) (w : Nat) : s.coreGoes (t.csrOp c w) c := by
  unfold State.csrOp
  simp only
  split
  · split
    · exact State.coreGoes_mod (State.coreGoes_putX h _ _ _) _ (Core.csrWrite_goes _ _)
    · exact State.coreGoes_putX h _ _ _
  · exact State.coreGoes_trap h _ _

theorem State.coreGoes_mret (h : s.coreGoes t c) (w : Nat) : s.coreGoes (t.mret c w) c := by
  unfold State.mret
  simp only
  split
  · exact State.coreGoes_mod (State.coreGoes_retired h false) _ (fun _ => by simp)
  · exact State.coreGoes_trap h _ _

theorem State.coreGoes_systemOp (h : s.coreGoes t c) (w : Nat) : s.coreGoes (t.systemOp c w) c := by
  unfold State.systemOp
  repeat' split
  all_goals first
    | exact h | exact State.coreGoes_trap h _ _ | exact State.coreGoes_mret h _ | exact State.coreGoes_csrOp h _

theorem State.coreGoes_fusedOp (h : s.coreGoes t c) (w : Nat) : s.coreGoes (t.fusedOp c w) c := by
  unfold State.fusedOp
  simp only
  repeat' split
  all_goals first | exact State.coreGoes_putF h _ _ _ _ | exact State.coreGoes_trap h _ _

theorem State.coreGoes_fpOp (h : s.coreGoes t c) (w : Nat) : s.coreGoes (t.fpOp c w) c := by
  unfold State.fpOp
  simp only
  repeat' split
  all_goals first
    | exact State.coreGoes_putF h _ _ _ _ | exact State.coreGoes_trap h _ _ | exact State.coreGoes_putX h _ _ _ | exact State.coreGoes_putFlagged h _ _ _

theorem State.coreGoes_perform (h : s.coreGoes t c) (w raw : Nat) (short : Bool) : s.coreGoes (t.perform c w raw short) c := by
  unfold State.perform
  simp only
  repeat' split
  all_goals first
    | exact h | exact State.coreGoes_putX h _ _ _ | exact State.coreGoes_trap h _ _ | exact State.coreGoes_jumped h _ _ _ _
    | exact State.coreGoes_retired h _ | exact State.coreGoes_systemOp h _ | exact State.coreGoes_fusedOp h _ | exact State.coreGoes_fpOp h _

/-- Whatever the instruction that starts with a parcel is, it changes core c alone, and leaves its cache and whether it runs. -/
theorem State.coreGoes_performParcels (h : s.coreGoes t c) (first second : Nat) : s.coreGoes (t.performParcels c first second) c := by
  unfold State.performParcels
  split
  · exact State.coreGoes_perform h _ _ _
  · split
    · exact State.coreGoes_perform h _ _ _
    · exact State.coreGoes_trap h _ _

/-- A parcel that was fetched lies where PMP and R285 let the core fetch, and outside a barred partition. -/
theorem State.fetchParcel_some {s u : State} {c a v : Nat} {ue : Bool} {upset : Upset} (h : s.fetchParcel c a ue upset = (some v, u)) :
    s.pmpFetch c a = true ∧ ∃ x, fetchPlace c a = some x ∧ s.barred x = false := by
  unfold State.fetchParcel at h
  split at h
  · simp at h
  · rename_i hp
    split at h
    · simp at h
    · rename_i x hx
      split at h
      · simp at h
      · rename_i hb
        exact ⟨by simpa using hp, x, hx, by simpa using hb⟩

end Sys2Proof.Machine
end

