-- ==== Sys2Proof/Tests/Slice0.lean ====
section
/-! SUPPORT. Tests: one ill-formed command for each check of WellFormed, small one-step tests with values from the spec, and for each obligation with hypotheses the states and operands that meet them. -/

namespace Sys2Proof.Tests

open Sys2Proof Sys2Proof.Machine

-- The tests are elaborated one after another: elaborated all at once, each waiting test would hold a thread of its own.
set_option Elab.async false

/-! ### Small states -/

/-- The reset state. -/
def base : State := State.reset

/-- Port 0 is ready: link up at the rate 1, width 16, READY (PRT_LINK). -/
def ready (s : State) : State := s.setWord 0x008 0x100 0x81

/-- Change port 0. -/
def port0 (s : State) (f : PortState → PortState) : State := { s with ports := s.ports.set 0 (f s.ports[0]) }

/-- Port 0 is ready and may send: Bus Master Enable is set. -/
def master (s : State) : State := port0 (ready s) (fun p => { p with bme := true })

/-- A region of 2 MiB at address 0 with all ports as readers and writers. -/
def reg2M : Region := { valid := true, kind := 3, cls := 1, readMask := 63, writeMask := 63, size := 2 ^ 21 }

/-- Entry 0 of the region table is r. -/
def withRegion (s : State) (r : Region) : State := { s with rgn := { s.rgn with entries := [(0, r)] } }

/-- Tile 0 has a home and a place. -/
def withHome (s : State) (home loc : Nat) : State := s.setHome 0 home loc

/-- A decoder over the first 2 MiB. -/
def dec2M : Decoder := { size := 2 ^ 21, committed := true }

/-- Port 0 reaches a region: ready, decoder 0 committed, BI enabled. -/
def host (s : State) : State := port0 (ready s) (fun p => { p with decoders := p.decoders.set 0 dec2M, biEnable := true })

/-- One entry of queue 0. -/
def withEntry (s : State) (e : Entry) : State := { s with qmg := { s.qmg with entries := [e] } }

/-- Queue 0 has a record. -/
def withQueue (s : State) (k : Queue) : State := { s with qmg := { s.qmg with queues := [(0, k)] } }

/-- Core 0 is released, mapped to logical 0 and runs. -/
def running (s : State) : State := ((s.setField 0x0C0 0x108 0 1 1).setWord 0x0C0 0x110 0x80).modCore 0 (fun c => { c with state := 1 })

/-! ### What a line's hypotheses need -/

/-- No channel out of service lies beneath a line or its map entries. -/
def serves (s : State) (a : Nat) : Bool :=
  !(s.lineOut (s.tmapPlace (tileOf a)).1 (s.tmapPlace (tileOf a)).2) && !(s.lineOut (s.cmapPlace (caskOf a)).1 (s.cmapPlace (caskOf a)).2)
    && (decide (s.home (tileOf a) ≠ 1) || !(s.lineOut (s.loc (tileOf a)) (lineOf a)))

theorem inService_of {s : State} {a : Nat} (h : serves s a = true) : s.inService a := by
  simp only [serves, Bool.and_eq_true, Bool.not_eq_true', Bool.or_eq_true, decide_eq_true_eq] at h
  exact ⟨h.1.1, h.1.2, fun e => h.2.resolve_left (fun k => k e)⟩

/-- Region and home of a line that may be used. -/
def lineOk (s : State) (actor a : Nat) (write : Bool) : Bool :=
  decide (a % 64 = 0 ∧ s.refusal actor write false a = none ∧ s.home (tileOf a) = 1) && (s.findRegion a).all (fun e => decide (e.2.kind ≠ 2)) && serves s a

theorem notPublished_of {s : State} {a : Nat} (h : (s.findRegion a).all (fun e => decide (e.2.kind ≠ 2)) = true) :
    ∀ g r, s.findRegion a = some (g, r) → r.kind ≠ 2 := by
  intro g r e
  rw [e] at h
  simpa using h

theorem readable_of {s : State} {actor a : Nat} (h : lineOk s actor a false = true) : s.readable actor a := by
  simp only [lineOk, Bool.and_eq_true, decide_eq_true_eq] at h
  exact ⟨h.1.1.1, h.1.1.2.1, notPublished_of h.1.2, h.1.1.2.2, inService_of h.2⟩

theorem writable_of {s : State} {actor a : Nat} (h : lineOk s actor a true = true) : s.writable actor a := by
  simp only [lineOk, Bool.and_eq_true, decide_eq_true_eq] at h
  exact ⟨h.1.1.1, h.1.1.2.1, notPublished_of h.1.2, h.1.1.2.2, inService_of h.2⟩

/-- No write of a port waits for a line of a home in the host tier. -/
def draftless (s : State) : Bool := s.ports.toList.all (fun q => q.tags.all (fun t => match t.consumer with | .demand r => decide (r.op ≠ 2) | _ => true))

theorem draftPending_of {s : State} (h : draftless s = true) (p : Nat) : s.draftPending p = false := by
  simp only [draftless, List.all_eq_true] at h
  simp only [State.draftPending, List.any_eq_false]
  intro q hq
  simp only [List.any_eq_true, not_exists, not_and]
  intro t ht
  have := h q hq t ht
  cases hc : t.consumer <;> simp_all

/-- Nothing waits, and no snoop's answer is held back. -/
def still (s : State) : Bool := s.dir.waiting.isEmpty && s.dir.snoops.all (fun n => n.answer.isNone) && draftless s

theorem calm_of {s : State} (h : still s = true) : s.calm := by
  simp only [still, Bool.and_eq_true, List.isEmpty_iff, List.all_eq_true, Option.isNone_iff_eq_none] at h
  exact ⟨h.1.1, h.1.2, draftPending_of h.2⟩

theorem clearOf_of {s : State} (h : still s = true) (p : Port) : s.clearOf p := by
  have c := calm_of h
  exact ⟨fun w hw => by simp [c.1] at hw, c.2.2 p.val⟩

/-- Nor does a completion wait for its line, or a copy for its queue. -/
def restful (s : State) : Bool := still s && s.qmg.queues.all (fun e => e.2.held.isEmpty) && decide (s.igr.copies = 0)

theorem atRest_of {s : State} (h : restful s = true) : s.atRest := by
  simp only [restful, Bool.and_eq_true, List.isEmpty_iff, List.all_eq_true, decide_eq_true_eq] at h
  exact ⟨calm_of h.1.1, h.1.2, h.2⟩

/-- No line is held, snooped or waited for. -/
def free (s : State) : Bool := s.dir.entries.isEmpty && s.dir.snoops.isEmpty && s.dir.waiting.all (fun w => (waitedLine w).isNone) && s.dir.passed.isEmpty
  && s.dir.meshData.isEmpty

theorem unheld_of {s : State} (h : free s = true) : s.unheld := by
  simp only [free, Bool.and_eq_true, List.isEmpty_iff, List.all_eq_true, Option.isNone_iff_eq_none] at h
  exact ⟨h.1.1.1.1, h.1.1.1.2, h.1.1.2, h.1.2, h.2⟩

/-- No flit of a request awaits it. -/
theorem meshSpares_of {s : State} (h : s.dir.meshHits = []) (p : Port) : s.meshSpares p := fun e he => by simp [h] at he

/-! ### Well-formedness: one ill-formed command for each check, which the check refuses -/

theorem test_page_out_of_range : wellFormed (.cntClear .trust 4096) = false := by decide
theorem test_offset_out_of_range : wellFormed (.lowHalfRead .trust 0 4096) = false := by decide
theorem test_address_out_of_range : wellFormed (.memSpecRd 0 (2 ^ 64)) = false := by decide
theorem test_tag_out_of_range : wellFormed (.unsupportedM2sRequest 0 65536 true) = false := by decide
theorem test_queue_out_of_range : wellFormed (.disableDone 65536) = false := by decide
theorem test_tile_out_of_range : wellFormed (.heatWalk (2 ^ 30)) = false := by decide
theorem test_cask_out_of_range : wellFormed (.sealEnd (2 ^ 32)) = false := by decide
theorem test_line_too_short : wellFormed (.memWr 0 0 0 .I (List.replicate 63 0#8) 0 false .none) = false := by decide
theorem test_host_line_misaligned : wellFormed (.denChain 0 0 [⟨32, List.replicate 64 0#8, false, .none⟩]) = false := by decide
/-- A floating-point load of two bytes is no instruction of D (R283). -/
theorem test_float_load_of_two : wellFormed (.coreLoad 0 0 2 false 1 false false [] .none true) = false := by decide
theorem test_width_of_three : wellFormed (.coreLoad 0 0 3 false 1 false false []) = false := by decide
theorem test_atomic_of_two_bytes : wellFormed (.lr 0 0 2 1) = false := by decide
theorem test_channel_out_of_range : wellFormed (.classInterval (.cellar 48 0)) = false := by decide
theorem test_scrub_place_out_of_range : wellFormed (.scrubRead (.vat 0 256) .none false) = false := by decide
theorem test_repair_unit_out_of_range : wellFormed (.cooperTrigger (.controlCore 18)) = false := by decide

theorem test_wellformed_commands : wellFormed (.memRd 0 65535 (2 ^ 64 - 64) .A .none) = true ∧ wellFormed (.heatWalk (2 ^ 30 - 1)) = true
    ∧ wellFormed (.scrubRead (.vat 0 255) .none false) = true := by decide

/-- The table gives no row bits, so no word spells a command. -/
theorem test_no_word_spells_a_command : decodeTableWord 32 0 = none := by decide

/-! ### Registers, commits, regions -/

/-- A write of port 0's page that waits for its turn. -/
def turned : State := { ready base with dir := { base.dir with waiting := [(.io (.cntClear (.port 0) 0x008), memReq 0 0 0 0 .I)] } }

theorem witness_StepRunsTheFrontCommand :
    base.pending = [] ∧ base.nextDue = none ∧ turned.pending = [] ∧ turned.nextDue = some (.cntClear (.port 0) 0x008)
      ∧ ∃ t, exec (.cntClear (.port 0) 0x008) (turned.takeDue (.cntClear (.port 0) 0x008)) = .next t := ⟨rfl, rfl, rfl, rfl, _, rfl⟩

/-- Requester `trust` reaches the DIR page at reset, whose TIMEOUT_US is one staged field of 14 bits from 1 to 10,000; a TNS page, whose island the access wakes; and RGN_OP, which acts when written. -/
theorem witness_WriteOfStagedFieldOrConfigError :
    base.reached .trust 0x010 0x100 = true ∧ (∀ v ∈ [0, 1, 10000, 10001], (base.touch 0x010).writeCommand .trust 0x010 0x100 v = none)
      ∧ unstaged 0x010 0x100 = none ∧ pageClass 0x010 ≠ some .icuBank ∧ (0x100 ≤ 0x100)
      ∧ ∃ r, wordRows base.order 0x010 0x100 = [r] ∧ r.acc = .rws ∧ r.lo + r.width ≤ 32 ∧ r.takes 1 = true ∧ r.takes 10000 = true ∧ r.takes 0 = false
        ∧ r.takes 10001 = false := by
  refine ⟨by decide, by decide, by decide, by decide, by decide, _, rfl, by decide⟩

theorem witness_WriteOfStagedFieldOrConfigError_others :
    base.reached .trust (tnsPage 15) 0x100 = true ∧ base.reached .trust 0x012 0x140 = true ∧ base.reached .trust 0x012 0x144 = true
      ∧ unstaged 0x012 0x140 = none ∧ base.writeCommand .trust 0x012 0x140 5 = none
      ∧ base.reached .trust 0x012 0x114 = true ∧ ((base.touch 0x012).writeCommand .trust 0x012 0x114 1).isSome = true
      ∧ pageClass 0x0C2 = some .icuBank ∧ base.reached .trust 0x0C2 0x100 = true ∧ base.writeCommand .trust 0x0C2 0x100 1 = none := by decide

theorem witness_WriteOfStagedFieldOrConfigError_wide :
    ∃ u, exec (.registerWrite .trust 0x012 0x140 false 5#64) base = .next u ∧ u.reached .trust 0x012 (0x140 + 4) = true := ⟨_, rfl, by decide⟩

theorem witness_BadAccessReadsZeroAndIsRecorded :
    goodAccess 2 4 = false ∧ goodAccess 4095 1 = false ∧ base.acting .trust = true ∧ base.sees .trust 0x012 2 = true ∧ base.sees .trust 0x012 4095 = true
      ∧ pageExists base.order 0x5FF = false ∧ base.fullSet .trust = true ∧ goodAccess 4 8 = false
      ∧ (ready (port0 base (fun p => p))).acting (.port 1) = false := by decide

/-- Another port than the management port does not see every page. -/
theorem witness_BadAccessReadsZeroAndIsRecorded_unseen :
    let s := base.setWord 0x00D 0x100 0x81
    s.acting (.port 5) = true ∧ s.sees (.port 5) 0x012 2 = false ∧ pageExists s.order 0x012 = true ∧ s.fullSet (.port 5) = false := by decide

theorem witness_RegisterHalvesAreTakenTogether :
    base.acting .trust = true ∧ wideRo 0x012 0x180 = true ∧ base.reached .trust 0x012 0x180 = true ∧ base.reached .trust 0x012 0x184 = true
      ∧ wideRo 0x012 0x188 = false ∧ base.reg.latch = [] ∧ base.reached .trust 0x012 0x188 = true
      ∧ (∀ e ∈ [(0x0C0, 0x1A8), (0x003, 0x160)], unstaged e.1 e.2 = some e.2 ∧ base.reached .trust e.1 e.2 = true ∧ base.reached .trust e.1 (e.2 + 4) = true
          ∧ base.pairBarred .trust e.1 = none)
      ∧ base.reg.half = [] := by decide

/-- A port that does not see the page; a half of another requester; a queue's base register; and a compare value of the timer bank. -/
theorem witness_RegisterHalvesAreTakenTogether_others :
    let s := base.setWord 0x00D 0x100 0x81
    s.acting (.port 5) = true ∧ s.reaches (.port 5) 0x012 0x180 = false
      ∧ (let h : State := { base with reg := { base.reg with half := [(base.pairKey .trust 0x0C0 0x1A8, reqIndex (.core 0), 7#32)] } }
         h.reg.half = [(h.pairKey .trust 0x0C0 0x1A8, reqIndex (.core 0), 7#32)] ∧ reqIndex (.core 0) ≠ reqIndex .trust ∧ h.pairBarred .trust 0x0C0 = none
           ∧ h.reached .trust 0x0C0 0x1A8 = true)
      ∧ (let q := withQueue (master base) { ownKind := 1, ownId := 0 }
         unstaged 0x0B1 0x118 = some 0x118 ∧ q.reached (.port 0) 0x0B1 0x118 = true ∧ q.reached (.port 0) 0x0B1 0x11C = true ∧ q.pairBarred (.port 0) 0x0B1 = none)
      ∧ pageClass 0x0C2 = some .icuBank ∧ unstaged 0x0C2 0x110 = some 0x110 ∧ base.reached .trust 0x0C2 0x110 = true ∧ base.reached .trust 0x0C2 0x114 = true := by decide

/-- A page whose CONFIG bit is set, masked, reaches each command of the header. -/
theorem witness_PageHeaderCommandsHaveTheirEffect :
    let s := (base.setWord 0x010 0x018 1).setWord 0x010 0x01C 1
    s.direct .trust 0x010 0x018 = true ∧ s.direct .trust 0x010 0x01C = true ∧ s.direct .trust 0x010 0x008 = true
      ∧ (s.word 0x010 0x018).testBit 0 = true ∧ (s.word 0x010 0x01C).testBit 0 = true := by decide

/-- An accepted commit of the DIR page by the trust core. -/
def taken (page off v : Nat) : Taken := { page := page, req := reqCode .trust, vals := [(4096 * page + off, BitVec.ofNat 32 v)] }

/-- A commit of a page is waiting. -/
def committing (c : Taken) : State := { base with reg := { base.reg with taken := [c] } }

theorem witness_CommitIsBusyStaleOrAccepted :
    base.direct .trust 0x010 0x014 = true ∧ (committing (taken 0x010 0x100 50)).direct .trust 0x010 0x014 = true
      ∧ (committing (taken 0x010 0x100 50)).commitBusy 0x010 = true ∧ base.commitBusy 0x010 = false ∧ base.field 0x010 0x010 0 16 = 0 := by decide

/-- DIR TIMEOUT_US is taken; a window total below the admitted windows is refused (LST page). -/
theorem witness_CommittedFieldTakesEffectOrIsRefused :
    let c := taken 0x010 0x100 50
    (∃ r, wordRows base.order 0x010 0x100 = [r] ∧ r.acc = .rws ∧ r.lo + r.width ≤ 32 ∧ (committing c).refuses c 0x100 r = false)
      ∧ (committing c).reg.taken.find? (fun k => decide (k.page = 0x010)) = some c := by
  refine ⟨⟨_, rfl, by decide⟩, by decide⟩

/-- An edition-engine commit of 1 draft page while two draft slots are used. -/
def twoDrafts : State :=
  { committing (taken 0x011 0x104 1) with edn := { drafts := [{ region := 0, writer := 0, tiles := [⟨0, 1000, 0⟩, ⟨1, 1001, 0⟩] }] } }

theorem witness_CommittedFieldTakesEffectOrIsRefused_refused :
    let c := taken 0x011 0x104 1
    (∃ r, wordRows base.order 0x011 0x104 = [r] ∧ r.acc = .rws ∧ r.lo + r.width ≤ 32 ∧ twoDrafts.refuses c 0x104 r = true)
      ∧ twoDrafts.reg.taken.find? (fun k => decide (k.page = 0x011)) = some c := by
  refine ⟨⟨_, rfl, by decide⟩, by decide⟩
/-! ### Regions -/

/-- A sound region of 2 MiB: read-shared by all ports, written by port 0, with a lease. -/
def leased : Region := { reg2M with writeMask := 1, leaseEnd := 1000 }

theorem leased_region (i : Nat) : (withRegion base leased).region i = if i = 0 then leased else {} := by
  by_cases h : i = 0
  · subst h; rfl
  · simp [State.region, withRegion, sget, h]

/-- One sound region makes a sound table, and the expiry of its lease is a step from it. -/
theorem witness_RegionTableStaysSound :
    RegionsSound { withRegion base leased with pending := [.leaseExpiry 0] } ∧ ∃ t, step { withRegion base leased with pending := [.leaseExpiry 0] } = .next t := by
  refine ⟨⟨fun i h => ?_, fun i h _ => ?_, fun i j hij hi hj => ?_⟩, _, rfl⟩
  · have e := leased_region i
    change ((withRegion base leased).region i).valid = true at h
    change ((withRegion base leased).region i).sound = true
    rw [e] at h ⊢
    split at h
    · simp_all
      decide
    · simp_all
  · have e := leased_region i
    change ((withRegion base leased).region i).valid = true at h
    change ((withRegion base leased).region i).writeMask &&& ~~~(BitVec.ofNat 6 ((withRegion base leased).field 0x012 0x104 0 6)) = 0#6
    rw [e] at h ⊢
    split at h
    · simp_all
      decide
    · simp_all
  · have e1 := leased_region i
    have e2 := leased_region j
    change ((withRegion base leased).region i).valid = true at hi
    change ((withRegion base leased).region j).valid = true at hj
    rw [e1] at hi
    rw [e2] at hj
    split at hi <;> split at hj <;> simp_all

/-- The trust core has staged a region of 2 MiB at 2 MiB for entry 5. -/
def entryStaged (words : List Nat) : State :=
  (words.zipIdx).foldl (fun s w => (s.setSel .trust 0x012 (0x140 + 8 * w.2) (w.1 % 2 ^ 32)).setSel .trust 0x012 (0x144 + 8 * w.2) (w.1 / 2 ^ 32)) base

/-- A region of 2 MiB at 2 MiB. -/
def second : Region := { valid := true, kind := 1, cls := 1, readMask := 3, writeMask := 1, base := 2 ^ 21, size := 2 ^ 21 }

theorem witness_EntryWriteIsRejectedOrMerged :
    base.admits .trust 0x012 0x114 = true ∧ base.rgn.pending = none
      ∧ (entryStaged second.words).entryResult 4095 ((entryStaged second.words).entryData .trust) = 0
      ∧ (entryStaged { second with size := 0 }.words).entryResult 0 ((entryStaged { second with size := 0 }.words).entryData .trust) = 2
      ∧ ({ base with rgn := { base.rgn with pending := some 3 } } : State).admits .trust 0x012 0x114 = true := by decide

/-- Each reason of a refused entry, with its hypotheses. -/
theorem witness_EntryReadAndRefusedWritesNameTheirReason :
    let s := withRegion base { second with base := 0 }
    let misplaced := { second with base := 2 ^ 20 }
    let beyond := { second with base := s.rangeBytes - 2 ^ 21, size := 2 ^ 22 }
    let masks := { second with writeMask := 4 }
    let lapped := { second with base := 0 }
    (∀ r ∈ [second, misplaced, beyond, masks, lapped, { second with size := 0 }], entryReserved r.words = false ∧ (Region.ofWords r.words).edition = 0 ∧ r.valid = true)
      ∧ (s.region 0).valid = true ∧ (s.region 5).valid = false ∧ misplaced.base % 2 ^ 21 ≠ 0 ∧ s.rangeBytes < beyond.base + beyond.size
      ∧ s.rangeBad masks = false ∧ masks.writeMask &&& ~~~masks.readMask ≠ 0#6
      ∧ s.rangeBad lapped = false ∧ s.masksBad lapped = false ∧ runsMeet (s.region 0).base (s.region 0).size lapped.base lapped.size = true := by decide

theorem witness_RegionEndsByInvalidateOrLease :
    let s := withRegion (base.setSel .trust 0x012 0x158 500) leased
    s.admits .trust 0x012 0x114 = true ∧ s.rgn.pending = none ∧ (s.region 0).valid = true ∧ (s.region 4095).valid = false ∧ (s.region 0).leaseEnd ≠ 0
      ∧ s.now < (s.region 0).leaseEnd ∧ s.now < (s.entryData .trust).getD 3 0
      ∧ ¬(({ s with now := 1000 } : State).now < (({ s with now := 1000 } : State).region 0).leaseEnd) := by decide

theorem witness_RegionBackgroundWorkEnds :
    let s := { withRegion base leased with rgn := { entries := [(0, leased)], pending := some 0, leaseLog := [4095] } }
    s.rgn.pending = some 0 ∧ (s.region 0).valid = true ∧ s.recallOpen (s.region 0) = false ∧ base.rgn.pending = none
      ∧ s.admits .trust 0x012 0x194 = true := by decide

/-! ### Memory requests of a port -/

/-- Port 0, a decoder, a region and tile 0's home. -/
def served (r : Region) (home : Nat) : State := host (withHome (withRegion base r) home 5)

theorem opens_of {s : State} {p : Port} {haddr a : Nat} {d : Decoder}
    (h : (s.portTakes p && !(s.ideRefuses p true) && (sget none (s.port p).ideGo 1).isNone && still s && decide (s.dir.meshHits = [])
      && decide (s.decodeHost p haddr = some (d, a) ∧ a % 64 = 0 ∧ a < 2 ^ 64 ∧ s.classOf a ≠ 0)) = true) : s.opens p haddr d a := by
  simp only [Bool.and_eq_true, Bool.not_eq_true', decide_eq_true_eq, Option.isNone_iff_eq_none] at h
  exact ⟨h.1.1.1.1.1, h.1.1.1.1.2, h.1.1.1.2, clearOf_of h.1.1.2 p, meshSpares_of h.1.2 p, h.2⟩

theorem lands_served (home : Nat) (h : home ≤ 4) (write : Bool) : (served leased home).lands 0 64 64 leased write := by
  have : home = 0 ∨ home = 1 ∨ home = 2 ∨ home = 3 ∨ home = 4 := by omega
  rcases this with rfl | rfl | rfl | rfl | rfl <;> cases write <;> exact ⟨inService_of (by decide), dec2M, 0, opens_of (by decide), by decide, by decide⟩

theorem witness_MemReadReturnsTheHomesLine :
    (served leased 1).lands 0 64 64 leased false ∧ (served leased 0).lands 0 64 64 leased false ∧ (served leased 4).lands 0 64 64 leased false
      ∧ leased.kind ≠ 1 ∧ leased.kind ≠ 2 ∧ (served leased 0).home 0 = 0 ∧ (served leased 1).home 0 = 1 ∧ (served leased 4).home 0 = 4
      ∧ (served leased 1).lineOut ((served leased 1).loc 0) 1 = false ∧ (served leased 1).portTakes 0 = true ∧ (served leased 1).ideRefuses 0 true = false
      ∧ sget none ((served leased 1).port 0).ideGo 1 = none ∧ base.portTakes 0 = false :=
  ⟨lands_served 1 (by decide) false, lands_served 0 (by decide) false, lands_served 4 (by decide) false, by decide⟩

theorem witness_MemWriteMergesIntoTheVatLine :
    (served leased 1).lands 0 64 64 leased true ∧ (served leased 1).home (tileOf 64) = 1 ∧ zeroLine.length = 64 :=
  ⟨lands_served 1 (by decide) true, by decide⟩

/-- Refused for want of write right, of a region (reason 0) and beyond the range (reason 4), and an address that no decoder maps. -/
theorem witness_RefusedRequestsAreRecorded :
    let s := served { leased with writeMask := 0 } 0
    let none0 := host base
    let far := port0 (ready base) (fun p => { p with decoders := p.decoders.set 0 { dec2M with offset := base.rangeBytes }, biEnable := true })
    (s.opens 0 64 dec2M 64 ∧ s.refusal 0 true false 64 = some 2)
      ∧ (none0.opens 0 0 dec2M 0 ∧ none0.refusal 0 false false 0 = some 0)
      ∧ (far.opens 0 0 { dec2M with offset := base.rangeBytes } base.rangeBytes ∧ far.refusal 0 false false base.rangeBytes = some 4)
      ∧ ((ready base).portTakes 0 = true ∧ (ready base).ideRefuses 0 true = false ∧ sget none ((ready base).port 0).ideGo 1 = none ∧ (ready base).decodeHost 0 0 = none) ∧ (ready base).clearOf 0 ∧ (ready base).meshSpares 0 :=
  ⟨⟨opens_of (by decide), by decide⟩, ⟨opens_of (by decide), by decide⟩, ⟨opens_of (by decide), by decide⟩, by decide, clearOf_of (by decide) 0, meshSpares_of rfl 0⟩

/-- A coherent region. -/
def shared : Region := { leased with kind := 1 }

theorem witness_DirectoryTracksHolders :
    let s := served shared 0
    let held := { s with dir := { s.dir with entries := [(1, { owner := some 0 })] } }
    s.opens 0 64 dec2M 64 ∧ s.findRegion 64 = some (0, shared) ∧ s.dirPending 1 = false ∧ s.refusal 0 false false 64 = none ∧ (s.dirEntry 1).holders = []
      ∧ s.dir.waiting = [] ∧ (s.dir.entries.filter (fun e => sameSet e.1 1)).length + s.waysPromised 1 [] < dirWays ∧ (s.home (tileOf 64) = 0 ∧ s.inService 64)
      ∧ held.dir.walks = 0#6 ∧ (held.dirEntry 1).sharers = 0#6 ∧ held.dirPending 1 = false
      ∧ ((served leased 0).opens 0 64 dec2M 64 ∧ (served leased 0).refusal 0 false false 64 = none ∧ leased.kind ≠ 1) :=
  ⟨opens_of (by decide), by decide, by decide, by decide, by decide, by decide, by decide, ⟨by decide, inService_of (by decide)⟩, by decide, by decide, by decide, opens_of (by decide), by decide⟩

/-- A snoop of line 1 to port 0. -/
def snoop1 : Snoop := { port := 0, line := 1, kind := 2, biId := 3, biTag := 4, issuedAt := 10 }

/-- The snoop is in flight, and port 0 owns the line. -/
def snooping : State := { served shared 1 with dir := { entries := [(1, { owner := some 0 })], snoops := [snoop1] } }

theorem witness_SnoopAnswersAndUnsupportedRequests :
    snooping.portTakes 0 = true ∧ restful snooping = true ∧ snooping.ideRefuses 0 true = false ∧ sget none (snooping.port 0).ideGo 1 = none
      ∧ still snooping = true ∧ snooping.dir.snoops.filter (fun n => decide (n.port = 0 ∧ n.biTag = 4)) = [snoop1] ∧ snoop1.biId = 3
      ∧ (∀ n ∈ snooping.dir.snoops, ¬(n.port = 0 ∧ n.biId = 3 ∧ n.biTag = 5)) ∧ (∀ n ∈ snooping.dir.snoops, ¬(n.port = 0 ∧ n.biId = 2 ∧ n.biTag = 4))
      ∧ rspPermitted snoop1.kind .invalid = true ∧ rspPermitted snoop1.kind .shared = false ∧ rspPermitted 0 .shared = true ∧ rspPermitted 0 .exclusive = true
      ∧ (snooping.dirEntry 1).owner = some 0 := by decide

/-- The lost-owner walk of port 0 runs. -/
def walkingOf (e : Sparse DirEntry) : State := { served shared 1 with dir := { entries := e, walks := 1, walkCause := [(0, 2)] } }

theorem witness_LostHoldersAreSettled :
    snooping.contained 0 = false ∧ snooping.walking 0 = false ∧ snooping.dir.snoops.find? (fun n => decide (n.port = 0 ∧ n.biTag = 4)) = some snoop1
      ∧ (walkingOf [(1, { sharers := 1 })]).walking 0 = true ∧ (∀ e ∈ (walkingOf [(1, { sharers := 1 })]).dir.entries, e.2.owner ≠ some 0)
      ∧ (walkingOf [(1, { owner := some 0 })]).walking 0 = true ∧ (walkingOf [(1, { owner := some 0 })]).dir.entries = [(1, { owner := some 0 })]
      ∧ (walkingOf [(1, { owner := some 0 })]).home (1 / 256) = 1 ∧ restful (walkingOf [(1, { owner := some 0 })]) = true ∧ restful snooping = true
      ∧ restful (walkingOf [(1, { sharers := 1 })]) = true ∧ (walkingOf [(1, { owner := some 0 })]).dir.lostLog.length < 4096
      ∧ base.admits .trust 0x010 0x11C = true := by decide
/-! ### Moves, heat, host windows -/

/-- Tile 0 moves. -/
def moving1 (s : State) (m : Move) : State := { s with rck := { s.rck with moves := [m] } }

/-- A promotion of tile 0 that awaits its slot, and a demotion of it that copies. -/
def promoting : Move := { tile := 0, kind := .promotion, phase := .alloc }
def demoting : Move := { tile := 0, kind := .demotion, phase := .copy, mask := 1, dest := .casks [(0, 0), (1, 0), (2, 0), (3, 0)] }

theorem firstFrom_isSome (ok : Nat → Bool) (n lo : Nat) (hok : ∀ k, lo ≤ k → k < n → ok k = true) (hlo : lo < n) :
    ∀ fuel k, k < n → lo - k < fuel → (firstFrom ok n fuel k).isSome = true := by
  intro fuel
  induction fuel with
  | zero => intro k _ h; omega
  | succ f ih =>
    intro k hk h
    unfold firstFrom
    split
    · rfl
    · rename_i hn
      have hlt : k < lo := by
        by_contra hc
        exact hn (hok k (by omega) hk)
      rw [if_pos (by omega)]
      exact ih (k + 1) (by omega) (by omega)

/-- A slot is free for every choice the block may make. -/
theorem takeSlot_isSome (s : State) (u : SlotUse) (hu : s.mem.slotUse = []) (ho : s.mem.stackOut = 0#16) (hm : s.mapSlots < vatSlots) :
    (s.takeSlot u).isSome = true := by
  have hf : ∀ k, (firstFrom s.slotOpen vatSlots s.slotSearch (k % vatSlots)).isSome = true := by
    intro k
    apply firstFrom_isSome s.slotOpen vatSlots s.mapSlots _ hm
    · exact Nat.mod_lt _ (by decide)
    · simp only [State.slotSearch]
      omega
    · intro j hj _
      simp [State.slotOpen, State.useOf, sget, hu, ho, hj]
  simp only [State.takeSlot]
  have h := hf (Config.freePlace s.draw.1)
  split
  · rename_i e
    rw [e] at h
    cases h
  · rfl

/-- With no slot held, a pool slot is there for every choice the block may make. -/
theorem takePool_isSome (s : State) (u : SlotUse) (hu : s.mem.slotUse = []) (ho : s.mem.stackOut = 0#16) (hm : s.mapSlots < vatSlots) (hp : s.poolFree ≠ 0) :
    (s.takePool u).isSome = true := by
  rw [State.takePool, if_neg hp]
  exact takeSlot_isSome s u hu ho hm

theorem witness_MovesProgressOrAreAbandoned :
    let q := moving1 base { promoting with phase := .queued }
    let d := moving1 (served leased 1) demoting
    q.activeMoves < q.field 0x018 0x114 0 11 ∧ q.rck.moves.find? (fun m => decide (m.phase = .queued)) = some { promoting with phase := .queued }
      ∧ (∀ m ∈ base.rck.moves, m.phase ≠ .queued)
      ∧ d.moveOf 0 = some demoting ∧ demoting.mask ≠ 0 ∧ demoting.rounds < 2 ∧ d.home 0 = 1 ∧ restful d = true ∧ d.prs.flushing = 0#48
      ∧ demoting.phase = .copy ∧ demoting.phase ≠ .queued := by decide

theorem witness_MovesProgressOrAreAbandoned_destination :
    let s := moving1 (withHome (withRegion base leased) 2 0) promoting
    (s.moveOf 0 = some promoting ∧ s.tileRegion 0 = some (0, leased) ∧ promoting.policy ≠ 1 ∧ s.home 0 = 2) ∧ (s.takePool .tile).isSome = true :=
  ⟨by decide, takePool_isSome _ _ rfl rfl (by decide) (by decide)⟩

/-- Tile 0 with heat 8 at epoch 0; a pinned region whose tile waits for another try. -/
theorem witness_HeatIsWalkedByEpochs :
    let s := (withHome (withRegion base leased) 1 5).writeHeat 0 8
    let p := withHome (withRegion { base with rck := { base.rck with pinRetry := [0] } } { leased with policy := 1 }) 2 0
    s.heat 0 ≠ 0 ∧ base.heat 0 = 0 ∧ p.mem.evacuating = 0#48 ∧ restful p = true ∧ 0 ∈ p.rck.pinRetry ∧ p.tilePolicy 0 = some 1 ∧ p.home 0 = 2 := by decide

/-- The window of port 0 is enabled, and its port may carry it; a tile is homed in it. -/
def windowed (s : State) : State := (master s).setWord 0x018 0x14C 1

theorem witness_HostWindowsResumeAndDiscard :
    let s := windowed base
    s.admits .trust 0x018 0x14C = true ∧ restful s = true ∧ s.windowMay 0 = true ∧ s.windowOnline 0 = false ∧ base.windowMay 5 = false
      ∧ base.admits .trust 0x018 0x19C = true ∧ (s.setWord 0x018 0x14C 3).windowOnline 0 = true ∧ base.admits .trust 0x019 0x114 = true
      ∧ ((withHome base 3 0).home 0 = 3 ∧ (withHome base 3 0).hostPort 0 = 0) := by decide

/-! ### Presses -/

/-- An open buffer of cask 0. -/
def buf0 : AsmBuf := { cask := 0, mask := 1, lastWrite := 5, openedAt := 4 }

/-- Tile 0 in the cellar, its cask 0 stored as a zero-length cask, with a buffer. -/
def buffered (b : AsmBuf) : State :=
  let s := (withHome (withRegion base leased) 2 0).setCask 0 { method := 1 }
  { s with prs := { s.prs with bufs := [b] } }

theorem witness_BuffersAreSealed :
    (buffered buf0).bufOf 0 = some buf0 ∧ (buffered buf0).timerSeals buf0 = true
      ∧ (let b := { buf0 with sealing := true }
         let s := buffered b
         let r := { s with rck := { s.rck with reencodes := [0] } }
         s.bufOf 0 = some b ∧ s.timerSeals b = false ∧ r.rck.reencodes.contains 0 = true ∧ r.bufOf 0 = some b ∧ s.rck.reencodes.contains 0 = false ∧ restful s = true ∧ s.igr.rowsLeaving = [] ∧ s.mem.evacuating = 0#48
           ∧ s.home 0 = 2 ∧ (s.tileRegion 0).isSome = true ∧ (s.cask 0).quarantined = false)
      ∧ base.admits .trust (prsPage 47) 0x100 = true ∧ base.admits .trust (prsPage 0) 0x100 = true
      ∧ (∃ b ∈ (buffered buf0).prs.bufs, ((buffered buf0).cask b.cask).package = 0) ∧ (∀ b ∈ base.prs.bufs, (base.cask b.cask).package ≠ 47) := by decide

/-- The sealed content of cask 0 is zero and unpoisoned. -/
theorem witness_BuffersAreSealed_zero :
    let s := buffered { buf0 with sealing := true }
    (s.caskContent 0 ⟨1, 6⟩).1.all (fun x => decide (x = 0#8)) = true ∧ (s.caskContent 0 ⟨1, 6⟩).2.1 = 0#64 ∧ ((s.caskContent 0 ⟨1, 6⟩).2.2.cask 0).quarantined = false := by decide +kernel

/-- A read of line 0 of cask 0 by port 0 waits. -/
def read0 : MemReq := { port := 0, tag := 9, haddr := 0, addr := 0, op := 0, mv := .I }

/-- Eight zero bytes but for a leading 1: the pattern of the stored cask below. -/
def pattern : List Byte := [1#8, 0#8, 0#8, 0#8, 0#8, 0#8, 0#8, 0#8]

/-- A line of the pattern. -/
def patternLine : List Byte := (List.replicate 8 pattern).flatten

/-- A stored METHOD 2 cask of the pattern: header by R83 (MAGIC CA5E, VERSION 1, RAW_LEN 4,096, PAYLOAD_LEN 8, its CRC-32C), the eight bytes, padding. -/
def patterned : List Byte :=
  leBytes 4 0x0021CA5E ++ leBytes 4 0x10000000 ++ leBytes 4 8 ++ leBytes 4 2212130909 ++ List.replicate 16 0#8 ++ pattern ++ List.replicate 24 0#8

/-- The CRC register after each line of the cask's content. -/
def crcAfter : List Nat :=
    [4294967295, 3947056337, 459583284, 1677821499, 1286773173, 3471927519, 4045852209, 4000333114, 962932928, 3389253541, 2902140286, 2168298599, 3208490786] ++
    [1827602635, 3479327139, 1620170206, 289461701, 601144255, 1602674462, 2512365586, 3419649718, 1545947930, 2303476686, 1628741387, 1742690284, 385573121] ++
    [3626040791, 1029227327, 3953040223, 4290526233, 3972670640, 2959829646, 2187056915, 132120831, 132792665, 859738040, 2877547275, 1212529299, 34342391] ++
    [1232140970, 288601693, 2897009190, 1226323249, 1399165441, 2850712028, 2483295477, 2540386704, 1041880962, 3560325338, 2840915698, 1585859181, 2975754196] ++
    [4060657586, 2929708742, 4158732884, 1750127955, 3729948978, 1118893434, 417677103, 1548858471, 3701125206, 3347830145, 3623988293, 3214132749, 2082836386]

theorem foldl_replicate (c : Nat) (l : List Byte) (a : List Nat) (n : Nat) (h0 : a.getD 0 0 = c)
    (h : ∀ i < n, l.foldl crcByte (a.getD i 0) = a.getD (i + 1) 0) : ((List.replicate n l).flatten).foldl crcByte c = a.getD n 0 := by
  induction n with
  | zero => simpa using h0.symm
  | succ n ih =>
    rw [List.replicate_succ', List.flatten_append, List.foldl_append, ih (fun i hi => h i (by omega))]
    simpa using h n (by omega)

/-- The content is 64 lines of the pattern, and its CRC-32C is the header's. -/
theorem patterned_crc : crc32c (List.replicate 64 patternLine).flatten = 2212130909 := by
  have h := foldl_replicate 0xFFFFFFFF patternLine crcAfter 64 (by decide) (by decide +kernel)
  rw [crc32c, h]
  decide

theorem patterned_blank : blankPoison ((List.replicate 512 pattern).flatten) 0#64 = (List.replicate 64 patternLine).flatten := by
  have h : (chunks 64 64 (padTo 4096 ((List.replicate 512 pattern).flatten))).zipIdx.map
      (fun e => if (0#64).getLsbD e.2 then List.replicate 64 0#8 else e.1) = List.replicate 64 patternLine := by decide +kernel
  rw [blankPoison, h]

theorem patterned_decodes (tables : Nat → Option (List Nat)) :
    decodeCask (some (2, 0, false)) 1 patterned false tables = .ok (List.replicate 64 patternLine).flatten 0#64 false := by
  have e : decodeCask (some (2, 0, false)) 1 patterned false tables
      = if crc32c (blankPoison ((List.replicate 512 pattern).flatten) 0#64) = 2212130909 then .ok (blankPoison ((List.replicate 512 pattern).flatten) 0#64) 0#64 false
        else .damaged 5 := by
    have h1 : readHead patterned = ⟨2, 0, 0, 8, 2212130909, 0#64, 0, true⟩ := by decide
    have h2 : (patterned.drop 32).take 8 = pattern := by decide
    have h3 : ∀ x ∈ patterned.drop 40, x = 0#8 := by decide
    simp only [decodeCask, h1, h2]
    generalize (List.replicate 512 pattern).flatten = body
    simp [CaskHead.valuesOk]
    exact fun x hx hn => absurd (h3 x hx) hn
  rw [e, patterned_blank, if_pos patterned_crc]

/-- Cask 0 is stored as that pattern in sector 0 of package 0 and read for port 0. -/
def reading (bytes : List Byte) : State :=
  let s := ((withHome (withRegion (ready base) leased) 2 0).setCask 0 { length := 1, method := 2 })
  { s with mem := { s.mem with cellar := Memory.store [] 0 bytes }, prs := { s.prs with reads := [⟨0, [read0]⟩] } }

theorem witness_CasksAreReadAndReencoded :
    let s := reading (List.replicate 64 0#8)
    s.prs.reads.find? (fun c => decide (c.cask = 0)) = some ⟨0, [read0]⟩ ∧ read0.port = (0 : Port).val ∧ s.portTakes 0 = true ∧ s.home 0 = 2 ∧ (s.cask 0).length ≠ 0
      ∧ (s.cask 0).quarantined = false
      ∧ decodeCask (some ((s.cask 0).method, (s.cask 0).table, (s.cask 0).poisonAny)) 1 (s.getSectors 0 0 1).1 ((s.getSectors 0 0 1).2 || false) s.tableLens = .damaged 0 := by
  decide +kernel

theorem witness_CasksAreReadAndReencoded_decodes :
    let s := reading patterned
    s.prs.reads.find? (fun c => decide (c.cask = 0)) = some ⟨0, [read0]⟩ ∧ s.portTakes 0 = true ∧ s.home 0 = 2 ∧ (s.cask 0).length = 1 ∧ (s.cask 0).quarantined = false
      ∧ decodeCask (some ((s.cask 0).method, (s.cask 0).table, (s.cask 0).poisonAny)) (s.cask 0).length (s.getSectors 0 0 1).1 ((s.getSectors 0 0 1).2 || false) s.tableLens
        = .ok (List.replicate 64 patternLine).flatten 0#64 false := by
  refine ⟨by decide, by decide, by decide, by decide, by decide, ?_⟩
  have h : (reading patterned).getSectors 0 0 1 = (patterned, false) := by decide
  have hc : (reading patterned).cask 0 = { length := 1, method := 2 } := by decide
  rw [h, hc]
  exact patterned_decodes _

theorem witness_CasksAreReadAndReencoded_reencode :
    let s := (withHome (withRegion base leased) 2 0).setCask 0 { length := 1, method := 2, stale := true }
    let r := { s with rck := { s.rck with reencodes := [0] } }
    let z := { r with prs := { r.prs with cache := [⟨0, [], 0#64⟩] } }
    s.field 0x018 0x100 2 1 = 1 ∧ s.rck.reencodeMs.1 = s.now / ms ∧ s.rck.reencodeMs.2 < s.field 0x018 0x118 0 16 ∧ s.home 0 = 2 ∧ (s.cask 0).stale = true
      ∧ (s.cask 0).quarantined = false ∧ s.moving 0 = false ∧ s.bufOf 0 = none ∧ s.rck.reencodes.contains 0 = false ∧ (base.cask 0).stale = false
      ∧ r.rck.reencodes.contains 0 = true ∧ restful r = true ∧ restful z = true ∧ base.home 0 ≠ 2 ∧ z.cached 0 = some ⟨0, [], 0#64⟩ ∧ (z.tileRegion 0).isSome = true ∧ z.home 0 = 2 := by decide +kernel

/-- A table of 256 codes of 8 bits, staged by the trust core byte by byte, and one that breaks R89. -/
def lensStaged (b : Nat) : State :=
  (List.range 32).foldl (fun s n => s.setSel .trust 0x020 (0x1C0 + 4 * n) (b * 0x01010101)) base

/-- Table 16 is held by software. -/
def tableHeld : State :=
  { (base.setSel .trust 0x020 0x190 16) with prs := { base.prs with tables := [(16, { lens := [8], refs := 1, held := true })] } }

theorem witness_TablesAreTrainedLoadedAndReleased :
    base.admits .trust 0x020 0x184 = true ∧ base.admits .trust 0x020 0x194 = true ∧ (withRegion base leased).region 0 = leased ∧ leased.hint ≠ 4
      ∧ (withRegion base leased).prs.training.contains 0 = false ∧ (base.region 4095).valid = false
      ∧ tableOk (lensOfBytes ((List.range 32).flatMap (fun n => leBytes 4 ((lensStaged 0x88).sel .trust 0x020 (0x1C0 + 4 * n))))) = true
      ∧ tableOk (lensOfBytes ((List.range 32).flatMap (fun n => leBytes 4 ((lensStaged 0x11).sel .trust 0x020 (0x1C0 + 4 * n))))) = false
      ∧ base.freeTable.1.isSome = true
      ∧ (let id := bits (tableHeld.sel .trust 0x020 0x190) 0 12
         16 ≤ id ∧ (tableHeld.table id).held = true ∧ (tableHeld.table id).lens ≠ [] ∧ tableHeld.admits .trust 0x020 0x194 = true) := by decide +kernel

/-- A region in training whose tile holds a byte that makes its cask count; any table it trains meets the clause. -/
def training0 (hint : Nat) (vat : Memory) : State :=
  let s := withHome (withRegion base { leased with hint := hint }) 1 5
  { s with mem := { s.mem with vat := vat }, prs := { s.prs with training := [0] } }

theorem trainTable_exists (hint : Nat) (sample : List (List Byte)) (h : sample ≠ []) (hh : hintShapes hint ≠ []) :
    ∃ lens shape, trainTable hint sample = some (lens, shape) := by
  have key : ∀ (w : Nat → Nat) (l : List Nat) (b : Option Nat), b.isSome = true →
      ∃ v, l.foldl (fun best s => match best with | none => some s | some b => if w b < w s then some s else some b) b = some v := by
    intro w l
    induction l with
    | nil => intro b hb; exact Option.isSome_iff_exists.1 hb
    | cons x l ih =>
      intro b hb
      obtain ⟨v, rfl⟩ := Option.isSome_iff_exists.1 hb
      refine ih _ ?_
      simp only
      split <;> rfl
  cases hs : hintShapes hint with
  | nil => exact absurd hs hh
  | cons x l =>
    simp only [trainTable, hs, if_neg h]
    obtain ⟨v, hv⟩ := key (fun s => ((sample.filterMap (bestShape (x :: l))).filter (fun y => decide (y = s))).length) l (some x) rfl
    exact ⟨_, v, (congrArg (Option.map _) hv).trans rfl⟩

/-- A pass's sample is taken once the region no longer trains. -/
def trained (s : State) : State := { s with prs := { s.prs with training := s.prs.training.filter (fun x => decide (x ≠ 0)) } }

/-- The first cask of the training region holds data, and one cask makes a sample. -/
def nonzero0 : State := (training0 0 [(16384 * 5 + 8, 1#8)]).setField 0x020 0x180 0 8 1

theorem nonzero0_sample : ((trained nonzero0).sample (nonzero0.region 0)).1.isEmpty = false := by decide +kernel

theorem witness_TablesAreTrainedLoadedAndReleased_trained :
    nonzero0.prs.training.contains 0 = true ∧ (nonzero0.region 0).valid = true ∧ (nonzero0.region 0).curTable < 16
      ∧ ((trained nonzero0).sample (nonzero0.region 0)).2.freeTable.1.isSome = true
      ∧ (∃ lens shape, trainTable (nonzero0.region 0).hint ((trained nonzero0).sample (nonzero0.region 0)).1 = some (lens, shape)) := by
  have hh : hintShapes (nonzero0.region 0).hint ≠ [] := by decide
  have hs : ((trained nonzero0).sample (nonzero0.region 0)).1 ≠ [] := by
    intro h
    have := nonzero0_sample
    rw [h] at this
    simp at this
  exact ⟨by decide, by decide, by decide, by decide +kernel, trainTable_exists _ _ hs hh⟩

theorem witness_TablesAreTrainedLoadedAndReleased_untrained :
    let w := withRegion base leased
    let e := { w with prs := { w.prs with training := [0] } }
    e.prs.training.contains 0 = true ∧ trainTable (e.region 0).hint ((trained e).sample (e.region 0)).1 = none
      ∧ (({ base with prs := { base.prs with training := [4095] } } : State).region 4095).valid = false := by decide +kernel

theorem sget_const {β : Type} (d v : β) (l : Sparse β) (k : Nat) (hv : ∀ e ∈ l, e.2 = v) (hk : k ∈ l.map (fun e => e.1)) : sget d l k = v := by
  induction l with
  | nil => simp at hk
  | cons e l ih =>
    obtain ⟨a, w⟩ := e
    have hw : w = v := hv (a, w) (by simp)
    by_cases h : k = a
    · simp [sget, h, hw]
    · simp only [sget, if_neg h]
      exact ih (fun e he => hv e (by simp [he])) (by simpa [h] using hk)

theorem firstFrom_all_closed (ok : Nat → Bool) (n : Nat) (h : ∀ k < n, ok k = false) : ∀ fuel k, k < n → firstFrom ok n fuel k = none := by
  intro fuel
  induction fuel with
  | zero => intro k _; rfl
  | succ f ih =>
    intro k hk
    unfold firstFrom
    rw [if_neg (by simp [h k hk])]
    split
    · exact ih _ (by assumption)
    · exact ih 0 (by omega)

/-- Slots 16 and up to 16 + n hold a table. -/
def fullTables (n : Nat) : Sparse Table := (List.range n).map (fun k => (16 + k, ({ lens := [8], refs := 1, held := true } : Table)))
def tablesFull (n : Nat) (s : State) : State := { s with prs := { s.prs with tables := fullTables n } }

theorem fullTables_get (n k : Nat) (hk : k < n) : sget {} (fullTables n) (16 + k) = { lens := [8], refs := 1, held := true } := by
  refine sget_const _ _ _ _ (fun x hx => ?_) ?_
  · obtain ⟨_, _, rfl⟩ := List.mem_map.1 hx
    rfl
  · rw [fullTables, List.map_map]
    exact List.mem_map.2 ⟨k, List.mem_range.2 hk, rfl⟩

@[simp] theorem tablesFull_tables (n : Nat) (s : State) : (tablesFull n s).prs.tables = fullTables n := rfl

theorem freeTable_none (n : Nat) (u : State) (hn : n = 4080) (hu : u.prs.tables = fullTables n) : u.freeTable.1 = none := by
  have e : ∀ k, u.draw.2.table k = sget {} (fullTables n) k := by
    intro k
    change sget {} u.prs.tables k = _
    rw [hu]
  have h := firstFrom_all_closed (fun k => decide ((u.draw.2.table (16 + k)).lens = [])) n
    (fun k hk => by rw [e, fullTables_get n k hk]; rfl)
  unfold State.freeTable
  subst hn
  simp only [Option.map_eq_none_iff]
  exact h _ _ (Nat.mod_lt _ (by decide))

/-- A pass of the training region ends with every slot of the store in use. -/
theorem witness_TablesAreTrainedLoadedAndReleased_none :
    (tablesFull 4080 nonzero0).prs.training.contains 0 = true ∧ ((trained (tablesFull 4080 nonzero0)).sample (nonzero0.region 0)).2.freeTable.1 = none :=
  ⟨by decide, freeTable_none 4080 _ rfl (by decide +kernel)⟩

/-- A LOAD and a RELEASE with every slot of the store in use. -/
theorem witness_TablesAreTrainedLoadedAndReleased_full :
    (tablesFull 4080 base).admits .trust 0x020 0x194 = true ∧ (tablesFull 4080 base).freeTable.1 = none ∧ bits (base.sel .trust 0x020 0x190) 0 12 < 16 :=
  ⟨by decide +kernel, freeTable_none 4080 _ rfl (tablesFull_tables 4080 base), by decide⟩

/-- Press 47's quarantine log holds a detached cask. -/
def logged : QEntry := { press := 47, cask := 0, reason := 5, detached := true, package := 1, sector := 3, length := 2 }

theorem witness_TablesAreTrainedLoadedAndReleased_log :
    let s := { base with prs := { base.prs with qlog := [logged] } }
    s.admits .trust (prsPage 47) 0x11C = true ∧ s.prs.qlog.find? (fun e => decide (e.press = 47)) = some logged ∧ (∀ e ∈ s.prs.qlog, e.press ≠ 0)
      ∧ s.admits .trust (prsPage 0) 0x11C = true := by decide
/-! ### Queues -/

/-- Queue 0 of port 0: running, depth 16, nothing posted. -/
def queue0 : Queue := { ownKind := 1, ownId := 0, state := 1 }

/-- The port is ready and may send, and queue 0 stands as given. -/
def queued (k : Queue) : State := withQueue (master base) k

theorem witness_DoorbellsMoveTheRing :
    (queued queue0).acting (.port 0) = true ∧ (queued { queue0 with state := 0 }).acting (.port 0) = true ∧ ((queued queue0).queue 65535).refusesBell (.port 0) = true
      ∧ ((queued queue0).queue 0).refusesBell (.port 0) = false ∧ queue0.watch = [] ∧ queue0.depth = 16 ∧ (0 + queue0.depth - queue0.cqHead) % queue0.depth ≤ queue0.posted
      ∧ ((queued { queue0 with state := 0 }).queue 0).state = 0 ∧ ((queued { queue0 with state := 0 }).queue 0).refusesBell (.port 0) = false
      ∧ goodAccess (2 % 8) 4 = false ∧ goodAccess (8 % 8) 8 = true ∧ goodAccess (12 % 8) 4 = true ∧ ((queued queue0).queue (8 / 8 % 65536)).ownedBy (.port 0) = false
      ∧ ((queued queue0).queue 0).ownedBy (.port 0) = true := by decide

/-- An edition wait of queue 0 that has started, and one that has begun to wait. -/
def wait1 : Entry := { queue := 0, seq := 0, opcode := 0x43, stage := 1, a1 := 10 }

theorem witness_QueuesAreEnabledAndDisabled :
    let off := queued { queue0 with state := 0 }
    let run := withEntry (queued queue0) wait1
    let halt := queued { queue0 with state := 2, haltStatus := 26 }
    (∀ s ∈ [off, run, halt], s.admits (.port 0) 0x0B1 0x120 = true ∧ bits (s.sel (.port 0) 0x0B1 0x100) 0 16 = 0 ∧ (s.queue 0).ownedBy (.port 0) = true)
      ∧ (off.queue 0).state = 0 ∧ (off.queue 0).ownKind = 1 ∧ (off.queue 0).sqHost = false ∧ (off.queue 0).cqHost = false ∧ (off.queue 0).vector < 2048
      ∧ off.reg.half = [] ∧ (run.queue 0).state = 1 ∧ run.sessionOf 0 = none ∧ wait1 ∈ run.entriesOf 0 ∧ run.entry 0 wait1.seq = some wait1
      ∧ (halt.queue 0).state = 2 ∧ (∀ p, (halt.queue 0).port = some p → halt.contained p = false) ∧ (halt.queue 0).held = [] ∧ (halt.queue 0).watch = []
      ∧ (run.queue 0).held = [] ∧ (let c := halt.setWord 0x008 0x108 1
        c.admits (.core 0) 0x0B1 0x120 = false ∧ c.admits .trust 0x0B1 0x120 = true ∧ c.fullSet .trust = true ∧ (c.queue 0).port = some 0 ∧ c.contained 0 = true) := by decide

/-- A queue of no owner is not enabled: the management port has the full set. -/
theorem witness_QueuesAreEnabledAndDisabled_unowned :
    let s := withQueue (master base) {}
    s.admits .trust 0x0B1 0x120 = true ∧ s.fullSet .trust = true ∧ (s.queue 0).ownKind = 0 ∧ (s.queue 0).state ≠ 2
      ∧ (let h := queued { queue0 with state := 0, cfg := 0xC4#32, ownKind := 2 }
         h.admits .trust 0x0B1 0x120 = true ∧ (h.queue 0).sqHost = true ∧ (h.queue 0).ownKind ≠ 1 ∧ (h.queue 0).state = 0)
      ∧ (let v := queued { queue0 with state := 0, cfg := 0x0020_0044#32 }
         v.admits (.port 0) 0x0B1 0x120 = true ∧ 2048 ≤ (v.queue 0).vector ∧ (v.queue 0).state = 0)
      ∧ (let o := queued { queue0 with state := 0 }
         let p := { o with reg := { o.reg with half := [(baseHalfKey 0 0x118, 1, 5#32)] } }
         p.admits (.port 0) 0x0B1 0x120 = true ∧ (∃ h ∈ p.reg.half, h.1 = baseHalfKey 0 0x110 ∨ h.1 = baseHalfKey 0 0x118))
      ∧ (let u := (queued queue0).setWord 0x00D 0x100 0x81
         u.admits (.port 5) 0x0B1 0x120 = true ∧ (u.fullSet (.port 5) || (u.queue 0).ownedBy (.port 5)) = false ∧ bits (u.sel (.port 5) 0x0B1 0x100) 0 16 = 0) := by decide

theorem witness_QueuesAreEnabledAndDisabled_done :
    let s := queued { queue0 with state := 3 }
    (s.queue 0).state = 3 ∧ s.entriesOf 0 = [] ∧ (s.queue 0).held = [] ∧ (s.queue 65535).state ≠ 3
      ∧ (running base).admits (.core 0) 0x0B0 0x114 = true ∧ bits ((running base).sel (.core 0) 0x0B0 0x110) 0 16 = 0 ∧ ((running base).queue 0).state = 0
      ∧ base.admits .trust 0x0B0 0x114 = true ∧ ownReserved 1 5 = false ∧ ownReserved 1 6 = true ∧ ownReserved 3 1 = false ∧ ownReserved 0 0 = false := by decide +kernel

/-- Port 0's ring in tile 0 of a region, with one entry to fetch. -/
def ring (poison : Bool) : State :=
  let s := withQueue (withHome (withRegion (master base) leased) 1 5) { queue0 with sqTail := 1 }
  { s with mem := { s.mem with vatPoison := if poison then [(256 * 5, true)] else [] } }

theorem witness_EntriesAreFetchedStartedAndCompleted :
    (∀ b : Bool, (ring b).fetchTurn = some 0 ∧ ((ring b).queue 0).sqHost = false ∧ free (ring b) = true ∧ (ring b).submitsFull = false ∧ ((ring b).queue 0).state = 1
      ∧ lineOk (ring b) ((ring b).queue 0).actor (((ring b).queue 0).sqBase + 64 * ((ring b).queue 0).sqHead) false = true
      ∧ ((ring b).vatLine 5 0).2 = b) ∧ base.fetchTurn ≠ some 0 ∧ base.dir.waiting = [] := by decide

/-- A ring in host memory; and a JOB_SUBMIT on a ring in the vat while the layer streamer has no place for it. -/
theorem witness_EntriesAreFetchedStartedAndCompleted_host :
    let s := queued { queue0 with sqTail := 1, cfg := 0xC4#32 }
    s.fetchTurn = some 0 ∧ (s.queue 0).sqHost = true ∧ (s.queue 0).port = some 0 ∧ s.canMaster 0 = true ∧ (s.port 0).nextTag < tagLimit := by decide

theorem witness_EntriesAreFetchedStartedAndCompleted_full :
    let r := ring false
    let s := { r with mem := { r.mem with vat := Memory.store [] (16384 * 5) [0x20#8] }, lst := { r.lst with jobs := List.replicate 1024 default } }
    s.fetchTurn = some 0 ∧ free s = true ∧ lineOk s (s.queue 0).actor 0 false = true ∧ s.submitsFull = true ∧ (entryOf 0 0 (s.lineAt 0).1).opcode = 0x20 ∧ (s.lineAt 0).2 = false := by
  decide +kernel

/-- An entry of queue 0 at a stage. -/
def entry0 (opcode stage : Nat) : Entry := { queue := 0, seq := 0, opcode := opcode, stage := stage }

theorem witness_EntriesAreFetchedStartedAndCompleted_entries :
    let fresh := withEntry (queued queue0) (entry0 0 0)
    let bad := withEntry (queued queue0) { entry0 0 0 with dw1 := 1 }
    let ended := withEntry (queued { queue0 with cfg := 0x144#32, firstUnsig := some 7 }) (entry0 0 3)
    (fresh.entriesOf 0).find? (fun e => decide (e.stage = 0)) = some (entry0 0 0) ∧ ((fresh.entriesOf 0).filter (fun x => decide (x.stage ≠ 0))).length < queue0.maxInflight
      ∧ fresh.startHeld (entry0 0 0) = false ∧ (entryBad queue0 (entry0 0 0) || fresh.proxyBad (entry0 0 0)) = false
      ∧ (entryBad queue0 { entry0 0 0 with dw1 := 1 } || bad.proxyBad { entry0 0 0 with dw1 := 1 }) = true
      ∧ (withEntry base (entry0 0 1)).entry 0 0 = some (entry0 0 1)
      ∧ ended.entry 0 0 = some (entry0 0 3) ∧ haltsOn 0 = false ∧ (ended.queue 0).cqHost = true ∧ (ended.queue 0).port = some 0 ∧ (ended.queue 0).intEn = false
      ∧ (ended.queue 0).held = [] ∧ (ended.queue 0).watch = [] ∧ (ended.queue 0).pendHalt = none ∧ ended.canMaster 0 = true
      ∧ ended.importBefore (entry0 0 3) = false ∧ (port0 ended (fun p => { p with bme := false })).canMaster 0 = false
      ∧ (ended.queue 0).firstUnsig = some 7 ∧ ({ queue0 with agg := 0x0080_0100#32 } : Queue).aggUs ≠ 0 := by decide

/-- A HOST_READ of 64 bytes and a HOST_WRITE of line 0. -/
def hread : Entry := { entry0 1 1 with host0 := true, a2 := 64 }
def hwrite : Entry := { entry0 2 1 with host1 := true, a2 := 64 }

/-- Queue 0, tile 0 in the vat, and one entry. -/
def withHost (e : Entry) : State := withEntry (withQueue (withHome (withRegion (master base) leased) 1 5) queue0) e

theorem witness_DmaReadsAndWritesAreCarriedOut :
    (∀ e ∈ [hread, hwrite], (withHost e).entry 0 0 = some e ∧ e.stage = 1 ∧ ((withHost e).queue 0).port = some 0 ∧ (withHost e).contained 0 = false
      ∧ (withHost e).canMaster 0 = true ∧ free (withHost e) = true)
      ∧ hread.issued = 0 ∧ hread.a2 ≤ max 64 ((withHost hread).port 0).mrrs ∧ ((withHost hread).port 0).nextTag < 4096
      ∧ lineOk (withHost hwrite) 0 hwrite.a0 false = true
      ∧ ((withHost hread).setWord 0x008 0x108 1).contained 0 = true
      ∧ ((port0 (withHost hread) (fun p => { p with bme := false })).port 0).bme = false := by decide

/-- A DMA read of port 0 in flight. -/
def tag1 (c : Consumer) (quarantined : Bool) : Tag :=
  { tag := 1, haddr := 0, bytes := 64, consumer := c, issuedAt := 3, timeoutUs := 50, quarantined := quarantined }

/-- Port 0 has that read. -/
def tagged (c : Consumer) (quarantined : Bool) : State := port0 (queued queue0) (fun p => { p with tags := [tag1 c quarantined] })

theorem witness_DmaReadsAndWritesAreCarriedOut_tags :
    let r : MemReq := { port := 0, tag := 9, haddr := 0, addr := 0, op := 0, mv := .I }
    (queued queue0).tagOf 0 1 = none
      ∧ (tagged (.demand r) false).tagOf 0 1 = some (tag1 (.demand r) false) ∧ (tagged (.demand r) false).portTakes 0 = true ∧ restful (tagged (.demand r) false) = true ∧ (tagged (.demand r) false).rck.moves = []
      ∧ (tagged (.demand r) false).qmg.entries = [] ∧ zeroLine.length = 64
      ∧ (tagged (.ring 0 0) false).tagOf 0 1 = some (tag1 (.ring 0 0) false) ∧ ((tagged (.ring 0 0) false).queue 0).state = 1
      ∧ restful (tagged (.ring 0 0) false) = true ∧ restful (tagged (.demand r) true) = true ∧ (tagged (.demand r) true).qmg.entries = [] ∧ (tagged (.demand r) true).rck.moves = []
      ∧ (tagged (.demand r) true).tagOf 0 1 = some (tag1 (.demand r) true) := by decide

/-! ### Editions -/

/-- A published region that port 0 writes, at edition 5. -/
def published : Region := { reg2M with kind := 2, writeMask := 1, edition := 5, editionPort := 0 }

/-- An entry of port 0's queue on that region, with a draft of tile 0. -/
def edition (e : Entry) (r : Region) : State :=
  let s := withEntry (withQueue (withHome (withRegion (master base) r) 1 5) queue0) e
  { s with edn := { drafts := [⟨0, 0, [⟨0, 2000, 1⟩], false⟩] } }

theorem witness_EditionsArePublished :
    let pub (n : Nat) : Entry := { entry0 0x40 1 with dw1 := n }
    (∀ n ∈ [6, 5, 4], (edition (pub n) published).entry 0 0 = some (pub n) ∧ (edition (pub n) published).editionCheck 0 0 = none
      ∧ (edition (pub n) published).publishWaits 0 = false)
      ∧ (let b := edition (pub 6) published
         let c := { b with edn := { drafts := [⟨0, 0, [⟨0, 2000, 1⟩], true⟩] } }
         c.editionCheck 0 0 = none ∧ c.publishWaits 0 = false ∧ c.draftOf 0 0 = some ⟨0, 0, [⟨0, 2000, 1⟩], true⟩)
      ∧ (let b := edition (pub 6) published
         let c := { b with edn := { pubs := [⟨0, 4, 0, []⟩, ⟨0, 5, 0, []⟩] } }
         c.editionCheck 0 0 = none ∧ c.publishWaits 0 = true)
      ∧ ({ edition (entry0 0x41 1) published with edn := {} } : State).draftOf 0 0 = none
      ∧ (edition (pub 6) published).draftOf 0 0 = some ⟨0, 0, [⟨0, 2000, 1⟩], false⟩
      ∧ (6 + 2 ^ 32 - 5) % 2 ^ 32 ≤ base.word 0x011 0x100 ∧ base.word 0x011 0x100 < (4 + 2 ^ 32 - 5) % 2 ^ 32
      ∧ base.word 0x011 0x100 < (5 + 2 ^ 31 + 2 ^ 32 - 5) % 2 ^ 32
      ∧ (edition (entry0 0x41 1) published).editionCheck 0 0 = none
      ∧ (edition (entry0 0x41 1) { published with valid := false }).editionCheck 0 0 = some 24
      ∧ (edition (entry0 0x41 1) leased).editionCheck 0 0 = some 18
      ∧ (edition (entry0 0x40 1) { published with writeMask := 2 }).editionCheck 0 0 = some 1
      ∧ (edition (entry0 0x42 1) published).entry 0 0 = some (entry0 0x42 1)
      ∧ (edition { wait1 with dw1 := 5 } published).entry 0 0 = some { wait1 with dw1 := 5 } ∧ (5 + 2 ^ 32 - 5) % 2 ^ 32 < 2 ^ 31 ∧ 2 ^ 31 ≤ (5 + 2 ^ 32 - 6) % 2 ^ 32
      ∧ (edition { wait1 with stage := 2 } published).entry 0 0 = some { wait1 with stage := 2 } ∧ wait1.a1 ≠ 0 := by decide

/-- A publication of one tile waits to be folded. -/
theorem witness_PublicationsAreFolded :
    let s := { edition (entry0 0x42 1) published with edn := { pubs := [⟨0, 6, 0, [⟨0, 2000, 1⟩]⟩] } }
    s.edn.pubs = ⟨0, 6, 0, [⟨0, 2000, 1⟩]⟩ :: [] ∧ s.home 0 = 1 ∧ s.loc 0 ≠ 2000 ∧ restful s = true
      ∧ (∀ p ∈ s.edn.pubs, p.region ≠ 4095) := by decide

/-! ### Casks in and out -/

/-- Cask 0 of tile 0 in the cellar, an entry of port 0's queue with a buffer in host memory. -/
def exporting (e : Entry) (q : Bool) : State :=
  (withEntry (withQueue (withHome (withRegion (master base) leased) 2 0) queue0) e).setCask 0 { length := 1, method := 2, quarantined := q }

/-- A first segment: the header of a METHOD 2 cask of one sector, 32 bytes and half of its body. -/
def segment : List Byte := leBytes 4 0x0001CA5E ++ leBytes 4 0x10000000 ++ leBytes 4 4096 ++ leBytes 4 0 ++ List.replicate 48 0#8

theorem witness_CasksAreExportedAndImported :
    let e : Entry := { entry0 0x30 1 with host1 := true, dw1 := 1, a2 := 64 }
    let s := exporting e false
    s.entry 0 0 = some e ∧ (s.queue 0).port = some 0 ∧ s.canMaster 0 = true ∧ (nextTagOf (s.port 0)).isSome = true ∧ free s = true
      ∧ s.refusal (s.queue 0).actor false false e.a0 = none ∧ s.findRegion e.a0 = some (0, leased) ∧ leased.kind ≠ 2 ∧ s.home (tileOf e.a0) = 2
      ∧ (s.cask 0).quarantined = false ∧ s.bufOf 0 = none ∧ (s.cask 0).length = 1 ∧ (s.getSectors 0 0 1).2 = false ∧ 64 * (s.cask 0).length ≤ e.a2
      ∧ ((exporting e true).cask 0).quarantined = true ∧ 0 < 64 * (s.cask 0).length := by decide

theorem witness_CasksAreExportedAndImported_import :
    let e : Entry := { entry0 0x31 1 with host1 := true, dw1 := 1, a2 := 64 }
    let s := exporting e false
    let d : Entry := { entry0 0x32 1 with host1 := true, seq := 1, a2 := 64 }
    let y : Session := { queue := 0, seq := 0, dest := 0, count := 1, tail := segment }
    let t := { exporting d false with prs := { base.prs with sessions := [y] } }
    s.entry 0 0 = some e ∧ free s = true ∧ free t = true ∧ e.final = false ∧ segment.length = e.a2 ∧ s.sessionOf 0 = none ∧ s.prs.sessions.length < 16
      ∧ (readHead segment).wellFormed = true ∧ (readHead segment).valuesOk = true ∧ segment.length < 64 * (readHead segment).sectors
      ∧ (readHead zeroLine).wellFormed = false
      ∧ t.entry 0 1 = some d ∧ t.sessionOf 0 = some y ∧ y.seq ≠ 1 ∧ y.staged.length < y.count
      ∧ (readHead (y.tail ++ zeroLine)).wellFormed = true ∧ (readHead (y.tail ++ zeroLine)).valuesOk = true
      ∧ (y.tail ++ zeroLine).length < 64 * (readHead (y.tail ++ zeroLine)).sectors := by decide +kernel

theorem witness_CasksAreExportedAndImported_commit :
    let e : Entry := { entry0 0x31 2 with host1 := true, dw1 := 1 }
    let c : Staged := ⟨1, 7, leBytes 4 0x0021CA5E ++ List.replicate 60 0#8⟩
    let y : Session := { queue := 0, seq := 0, dest := 0, count := 1, staged := [c], final := true }
    let s := { exporting e false with prs := { base.prs with sessions := [y] } }
    s.sessionOf 0 = some y ∧ s.entry 0 y.seq = some e ∧ y.complete = true ∧ s.moving 0 = false ∧ s.refusal (s.queue 0).actor true false 0 = none
      ∧ s.findRegion 0 = some (0, leased) ∧ free s = true ∧ s.dir.waiting = [] ∧ s.home 0 = 2 ∧ s.bufOf 0 = none ∧ c.package < 64 ∧ c.sector < 2 ^ 30
      ∧ c.bytes.length / 64 = 1 ∧ (readHead c.bytes).method ≠ 1 ∧ Session.complete { y with final := false } = false := by decide
/-! ### Jobs -/

/-- Tiles 0 to 5 of a region that port 0 writes are at home in the vat, tile t in slot 1,000,000 + t. -/
def mapped (s : State) : State :=
  let u := (List.range 6).foldl (fun (u : State) t => (u.setHome t 1 (1000000 + t)).setUse (1000000 + t) .tile) (withRegion s leased)
  u

/-- Bytes at a unified address of tiles 0 to 5. -/
def withBytes (s : State) (a : Nat) (l : List Byte) : State :=
  { s with mem := { s.mem with vat := Memory.store s.mem.vat (16384 * 1000000 + a) l } }

/-- A header of a chain (R172): PREFETCH 1, WINDOW_MIB 16, the report at tile 1. -/
def header (count : Nat) : List Byte :=
  padTo 128 (leBytes 4 0x10 ++ leBytes 4 16 ++ leBytes 4 count ++ leBytes 4 0 ++ leBytes 8 16384)

/-- A layer record (R173): E4M3 weights and activations, FP32 output, M = K = N = 1, on row 0 alone. -/
def layer (policy fallback deadline : Nat) : List Byte :=
  padTo 128 (leBytes 4 0x9441 ++ leBytes 4 (policy + fallback) ++ leBytes 4 deadline ++ leBytes 4 5 ++ leBytes 4 1 ++ leBytes 4 1 ++ leBytes 4 1 ++ leBytes 4 0
    ++ leBytes 8 (2 * 16384) ++ leBytes 8 (3 * 16384) ++ leBytes 16 0 ++ leBytes 8 (4 * 16384))

/-- A job of port 0 with a chain of layers of these policies. -/
def jobOf (records : List (List Byte)) : Job :=
  { id := 0, queue := 0, seq := 0, cid := 0, actor := 0, cls := 1, ownKind := 1, hdrAddr := 0, chain := Memory.store [] 0 (header records.length ++ records.flatten) }

/-- One job of port 0's queue, with an entry of that queue. -/
def withJob (j : Job) (e : Entry) : State :=
  let s := withEntry (withQueue (mapped (master base)) queue0) e
  { s with lst := { jobs := [j], nextJob := 1 } }

theorem witness_JobsAreSubmittedGrantedAndEnded :
    let good := withBytes (withEntry (withQueue (mapped (master base)) queue0) (entry0 0x20 1)) 0 (header 1)
    let bad := withBytes good 0 [1#8]
    (∀ s ∈ [good, bad], free s = true ∧ restful s = true ∧ s.submitsFull = false ∧ s.entry 0 0 = some (entry0 0x20 1) ∧ s.lst.jobs = []
      ∧ lineOk s (s.queue 0).actor 0 false = true ∧ lineOk s (s.queue 0).actor 64 false = true ∧ (s.lineAt 0).2 = false ∧ (s.lineAt 64).2 = false)
      ∧ (headOf (Memory.store [] 0 ((good.lineAt 0).1 ++ (good.lineAt 64).1))).ok = true
      ∧ (headOf (Memory.store [] 0 ((bad.lineAt 0).1 ++ (bad.lineAt 64).1))).ok = false := by decide +kernel

theorem witness_JobsAreSubmittedGrantedAndEnded_abort :
    let j := jobOf [layer 0 0 0]
    let a := { entry0 0x21 1 with seq := 1 }
    (∀ n ∈ [0, 1, 2], (withJob { j with state := n } a).entry 0 1 = some a ∧ (withJob { j with state := n } a).jobToAbort queue0 a.a0 = some { j with state := n }
      ∧ (withJob { j with state := n } a).job 0 = some { j with state := n } ∧ (j.queue ≠ 0 ∨ j.seq ≠ 1))
      ∧ (withJob { j with hdrAddr := 64 } a).jobToAbort queue0 a.a0 = none
      ∧ free (withJob j a) = true ∧ restful (withJob j a) = true
      ∧ (let s := withJob { j with state := 3 } a
         s.job 0 = some { j with state := 3 } ∧ s.igr.heldSubst = [] ∧ j.queue < 65536 ∧ j.head.watchEn = false ∧ lineOk s 0 j.head.report true = true
           ∧ lineOk s 0 (j.head.report + 64) true = true) := by decide +kernel

/-- A queued job and its chain in tile 0; the firmware is ready. -/
def granting : State := (withBytes (withJob (jobOf [layer 0 0 0]) (entry0 0x20 2)) 0 (header 1 ++ layer 0 0 0)).setField 0x000 0x104 7 1 1

/-- The four lines of that chain. -/
def chainLines : List (List Byte) := (List.range 4).map (fun i => ((header 1 ++ layer 0 0 0).drop (64 * i)).take 64)

theorem granting_lines : ∀ i (h : i < chainLines.length), granting.readable (jobOf [layer 0 0 0]).actor (0 + 64 * i)
    ∧ granting.lineAt (0 + 64 * i) = (chainLines[i], false) ∧ granting.useOf (granting.loc (tileOf (0 + 64 * i))) ≠ .free := by
  have h : ∀ i : Fin 4, lineOk granting (jobOf [layer 0 0 0]).actor (0 + 64 * i.val) false = true
      ∧ granting.lineAt (0 + 64 * i.val) = (chainLines.getD i.val [], false) ∧ granting.useOf (granting.loc (tileOf (0 + 64 * i.val))) ≠ .free := by decide +kernel
  intro i hi
  have h4 : i < 4 := hi
  obtain ⟨h1, h2, h3⟩ := h ⟨i, h4⟩
  refine ⟨readable_of h1, ?_, h3⟩
  rw [h2]
  simp [List.getD, hi]

theorem witness_JobsAreSubmittedGrantedAndEnded_grant :
    let j := jobOf [layer 0 0 0]
    granting.oldestQueued = some j ∧ granting.job j.id = some j ∧ granting.field lstPage 0x100 0 1 = 1 ∧ granting.admitted.length < 256
      ∧ granting.windowFits j = true ∧ j.windowTiles ≤ granting.poolFree ∧ j.hdrAddr % 64 = 0 ∧ chainLines.length = 2 * (j.head.count + 1)
      ∧ granting.chainCause { j with chain := Memory.store [] 0 chainLines.flatten } false = none
      ∧ granting.fwReady = true ∧ base.fwReady = false ∧ free granting = true ∧ restful granting = true ∧ (granting.setField lstPage 0x100 0 1 0).field lstPage 0x100 0 1 = 0 := by decide +kernel

/-- The pool is pinned away, and gives no window. -/
theorem witness_JobsAreSubmittedGrantedAndEnded_short :
    let s : State := { granting with rgn := { granting.rgn with entries := [(0, leased), (1, { leased with base := 2 ^ 21, size := 2 ^ 43, policy := 1 })] } }
    let j := jobOf [layer 0 0 0]
    s.oldestQueued = some j ∧ s.fwReady = true ∧ s.windowFits j = true ∧ s.poolFree < j.windowTiles ∧ free s = true ∧ restful s = true := by decide +kernel

/-- A JOB_SUBMIT while 1,024 jobs are QUEUED. -/
theorem witness_JobsAreSubmittedGrantedAndEnded_full :
    let s := { withEntry (queued queue0) (entry0 0x20 1) with lst := { base.lst with jobs := List.replicate 1024 (jobOf []) } }
    s.submitsFull = true ∧ s.entry 0 0 = some (entry0 0x20 1) ∧ free s = true ∧ restful s = true := by decide +kernel

/-! ### Layers -/

/-- The job's first layer runs on row 0. -/
def runs (records : List (List Byte)) : Job :=
  { jobOf records with state := 2, phase := .running, recNo := 1, layer := 1, running := 1#16 }

theorem witness_LayersAreFilledAndBegun :
    let two := [layer 0 0 0, layer 0 0 0]
    let s := withJob { jobOf two with state := 1 } (entry0 0x20 2)
    let f := withJob (runs two) (entry0 0x20 2)
    let full := { runs two with fills := [{ recNo := 1, buffer := 5000 }] }
    free s = true ∧ s.job 0 = some { jobOf two with state := 1 } ∧ (runs two).state ≠ 1
      ∧ f.job 0 = some (runs two) ∧ free f = true ∧ (runs two).state = 2 ∧ (runs two).phase = .running ∧ (runs two).recNo = (runs two).layer ∧ (runs two).layer ≠ 0 ∧ 1 ≤ (runs two).head.prefetch
      ∧ (runs two).records.find? (fun e => decide ((runs two).layer < e.1 ∧ e.2.kind = 1) && !e.2.pin) = some (2, recOf (runs two).chain 2)
      ∧ (runs two).fillOf 2 = none
      ∧ (let p := f.planOf (runs two) (recOf (runs two).chain 2)
         p.1.buffer + p.2 + (runs two).streamUsed ≤ (runs two).streamTiles)
      ∧ (withJob full (entry0 0x20 2)).job 0 = some full ∧ full.fillOf 2 = none ∧ full.streamTiles < full.streamUsed := by decide +kernel

theorem witness_LayersAreFilledAndBegun_place :
    let two := [layer 0 0 0, layer 0 0 0]
    let next := { runs two with fills := [{ recNo := 2 }] }
    let late := { runs two with phase := .late, fills := [{ recNo := 1 }] }
    (withJob next (entry0 0x20 2)).job 0 = some next ∧ next.fillOf 2 = some { recNo := 2 } ∧ next.state = 2
      ∧ (withJob late (entry0 0x20 2)).job 0 = some late ∧ late.fillOf 1 = some { recNo := 1 } ∧ late.phase = .late ∧ late.state = 2
      ∧ (∀ a ∈ (late.record 1).sliceTiles ((withJob late (entry0 0x20 2)).runPlan late 1) 0, a % 16384 = 0)
      ∧ (late.record 1).sliceTiles ((withJob late (entry0 0x20 2)).runPlan late 1) 0 = [3 * 16384]
      ∧ lineOk (withJob late (entry0 0x20 2)) late.actor (3 * 16384 + 64 * 255) false = true
      ∧ ((withJob late (entry0 0x20 2)).lineAt (3 * 16384 + 64 * 255)).2 = false := by decide +kernel

/-- All clusters of row 0 are retired. -/
def rowGone (s : State) : State := (List.range 34).foldl (fun u c => u.setCluster 0 c 2 0) s

theorem witness_LayersAreFilledAndBegun_group :
    let waits := { runs [layer 0 0 0] with phase := .waitRows, running := 0#16 }
    let s := withJob waits (entry0 0x20 2)
    s.groupReady waits = true ∧ (waits.record waits.recNo).members = [0] ∧ s.activeCount 0 ≠ 0
      ∧ (rowGone s).groupReady waits = true ∧ (rowGone s).activeCount 0 = 0 ∧ waits.state = 2 ∧ (rowGone s).job 0 = some waits
      ∧ s.groupReady (runs [layer 0 0 0]) = false := by decide +kernel

theorem witness_ChunksPassesAndLayersFollow :
    let j := runs [layer 0 0 0]
    let s := withJob j (entry0 0x20 2)
    let w := { j with phase := .waitPass }
    free s = true ∧ restful s = true ∧ s.job 0 = some j ∧ j.phase = .running ∧ j.running.getLsbD 0 = true ∧ sget 0 j.chunks 0 < (j.record j.recNo).chunks ∧ s.codebookFault j 0 = none
      ∧ (∀ x ∈ (j.record j.recNo).members, s.rowHeld x = false) ∧ (j.record j.recNo).denCount = 0
      ∧ ({ s with pwr := { s.pwr with heatHold := 1 } } : State).rowHeld 0 = true ∧ 0 ∈ (j.record j.recNo).members
      ∧ (withJob w (entry0 0x20 2)).job 0 = some w ∧ w.phase = .waitPass ∧ j.phase ≠ .waitPass
      ∧ (let c := { j with phase := .chain, chainDue := true }
         (withJob c (entry0 0x20 2)).job 0 = some c) := by decide +kernel

/-- The one chunk of the layer has one result line, at tile 4, and reads the line of its activation from tile 2. -/
theorem witness_ChunksPassesAndLayersFollow_result :
    let j := runs [layer 0 0 0]
    let s := withJob j (entry0 0x20 2)
    let r := j.record j.recNo
    r.denCount = 0 ∧ r.split = 0 ∧ j.actsHeld = false ∧ r.outLines 0 (min 256 r.m) (r.rowShare (s.runPlan j j.recNo) j.pass (0 - r.lockBase)).1 = [(4 * 16384, 0, 0)]
      ∧ (∀ l ∈ r.actLines 0 (min 256 r.m) (List.range (ceilDiv r.k 256)), lineOk s j.actor (64 * l) false = true ∧ (s.lineAt (64 * l)).2 = false)
      ∧ (j.weightsOf j.recNo).2 = [] ∧ lineOk s j.actor (4 * 16384) true = true := by decide +kernel

theorem witness_ChunksPassesAndLayersFollow_end :
    let one := { runs [layer 0 0 0] with chunks := [(0, 1)] }
    let two := { runs [layer 0 0 0, layer 0 0 9] with chunks := [(0, 1)] }
    let filled := { two with fills := [{ recNo := 2, inPlace := true }] }
    (∀ j ∈ [one, two, filled], (withJob j (entry0 0x20 2)).job 0 = some j ∧ (withJob j (entry0 0x20 2)).layerEnded j = true ∧ j.fallback = false)
      ∧ one.nextLayer one.layer = none ∧ two.nextLayer two.layer = some 2 ∧ two.inPlace 2 = false ∧ filled.inPlace 2 = true
      ∧ (withJob two (entry0 0x20 2)).deadlineReached { two with layer := 2 } = false
      ∧ (withJob (runs [layer 0 0 0]) (entry0 0x20 2)).layerEnded (runs [layer 0 0 0]) = false := by decide +kernel

/-- A fallback's record has ended: with another to follow, and as the last, before a layer in place and before none. -/
theorem witness_ChunksPassesAndLayersFollow_fallback :
    let fb (l : List (List Byte)) (left : Nat) : Job :=
      { runs l with layer := 1, recNo := 3, fbLeft := left, chunks := [(0, 1)], fills := [{ recNo := 2, inPlace := true }] }
    let l := [layer 1 0x30100 0, layer 0 0 9, layer 0 0 0]
    (∀ j ∈ [fb l 1, fb l 0], (withJob j (entry0 0x20 2)).job 0 = some j ∧ (withJob j (entry0 0x20 2)).layerEnded j = true ∧ j.fallback = true
        ∧ j.nextLayer j.layer = some 2 ∧ 2 ≠ j.recNo ∧ j.inPlace 2 = true)
      ∧ (let j := { fb [layer 0 0 0, layer 1 0x10100 0] 0 with layer := 2, recNo := 1 }
         (withJob j (entry0 0x20 2)).layerEnded j = true ∧ j.fallback = true ∧ j.nextLayer j.layer = none) := by decide +kernel

theorem witness_LateLayersAndFaultsFollowTheirPolicy :
    (∀ p ∈ [0, 1, 2], let j := { runs [layer p 0x10100 0] with phase := .waitWeights }
      (withJob j (entry0 0x20 2)).job 0 = some j ∧ j.state = 2 ∧ (j.record j.layer).policy = p)
      ∧ (let j := { runs [layer 0 0 0] with phase := .late }
         (withJob j (entry0 0x20 2)).job 0 = some j)
      ∧ (withJob (runs [layer 0 0 0]) (entry0 0x20 2)).job 0 = some (runs [layer 0 0 0]) ∧ (runs [layer 0 0 0]).phase = .running := by decide +kernel

theorem witness_LateLayersAndFaultsFollowTheirPolicy_fault :
    let j := runs [layer 0 0 0]
    let s := withJob j (entry0 0x20 2)
    let t := { s with tns := { s.tns with runBy := s.tns.runBy.set! 0 1 } }
    t.lst.jobs.find? (fun j => decide (nth16 t.tns.runBy 0 = j.id + 1)) = some j ∧ t.job j.id = some j ∧ j.state = 2 ∧ t.codebookFault j 0 = none ∧ base.lst.jobs = [] := by decide +kernel

/-- A layer of codebook numbers with no codebook, whose first number is beyond the set. -/
def coded : Job :=
  runs [padTo 128 (leBytes 4 0x9401 ++ leBytes 12 0 ++ leBytes 4 1 ++ leBytes 4 1 ++ leBytes 4 1)]

theorem codebookFault_lt (s : State) (j : Job) (row p : Nat) (h : s.codebookFault j row = some p) : p < 34 := by
  simp only [State.codebookFault] at h
  split at h
  · cases h
  · obtain ⟨e, -, rfl⟩ := Option.map_eq_some_iff.1 h
    simp only [State.physCluster]
    cases hf : List.find? _ (s.activeClusters row) with
    | none => decide
    | some c =>
      have := List.mem_of_find?_eq_some hf
      simp only [State.activeClusters, List.mem_filter, List.mem_range] at this
      exact this.1

theorem witness_LateLayersAndFaultsFollowTheirPolicy_codebook :
    let s := withJob coded (entry0 0x20 2)
    let t := { s with tns := { s.tns with runBy := s.tns.runBy.set! 0 1 } }
    t.lst.jobs.find? (fun j => decide (nth16 t.tns.runBy 0 = j.id + 1)) = some coded ∧ ∃ p, t.codebookFault coded 0 = some p ∧ p < 34 := by
  have h : ∀ t : State, (t.codebookFault coded 0).isSome = true → ∃ p, t.codebookFault coded 0 = some p ∧ p < 34 := by
    intro t ht
    obtain ⟨p, hp⟩ := Option.isSome_iff_exists.1 ht
    exact ⟨p, hp, codebookFault_lt _ _ _ _ hp⟩
  exact ⟨by decide +kernel, h _ (by decide +kernel)⟩

/-- Another row's fault has just aborted the job whose rows these are. -/
theorem witness_LateLayersAndFaultsFollowTheirPolicy_late :
    let j := { runs [layer 0 0 0] with state := 3, cause := 7, endTime := 0, rows := 3#16 }
    let s := withJob j (entry0 0x20 2)
    s.lst.jobs.find? (fun j => decide (nth16 s.tns.runBy 1 = j.id + 1)) = none ∧ s.lst.jobs = [j] ∧ j.endTime = s.now ∧ j.rows.getLsbD 1 = true ∧ j.cause = 7
      ∧ (coded.record coded.recNo).wf = 0 := by decide +kernel
/-! ### A window's slots, whichever the block chooses -/

theorem firstFrom_none (ok : Nat → Bool) (n : Nat) : ∀ fuel k, k < n → firstFrom ok n fuel k = none → ∀ i < fuel, ok ((k + i) % n) = false := by
  intro fuel
  induction fuel with
  | zero => intro k _ _ i hi; omega
  | succ f ih =>
    intro k hk h i hi
    unfold firstFrom at h
    split at h
    · simp at h
    · rename_i hn
      cases i with
      | zero => simpa [Nat.mod_eq_of_lt hk] using hn
      | succ i =>
        by_cases hw : k + 1 < n
        · rw [if_pos hw] at h
          have := ih (k + 1) hw h i (by omega)
          rwa [show k + 1 + i = k + (i + 1) by omega] at this
        · rw [if_neg hw] at h
          have := ih 0 (by omega) h i (by omega)
          have e : (k + (i + 1)) % n = (0 + i) % n := by
            rw [show k + (i + 1) = n + i by omega, Nat.add_mod_left, Nat.zero_add]
          rwa [e]

theorem mem_keys_of_sget {β : Type} (d : β) (m : Sparse β) (k : Nat) (h : sget d m k ≠ d) : k ∈ m.map (fun e => e.1) := by
  induction m with
  | nil => simp [sget] at h
  | cons e m ih =>
    obtain ⟨a, v⟩ := e
    by_cases hk : k = a
    · simp [hk]
    · have : sget d m k ≠ d := by simpa [sget, hk] using h
      simpa [hk] using ih this

/-- A search over more slots than the map reserve and the held ones take finds an open one. -/
theorem slot_found (s : State) (ho : s.mem.stackOut = 0#16) (hM : s.slotSearch ≤ vatSlots) (k : Nat) (hk : k < vatSlots) :
    (firstFrom s.slotOpen vatSlots s.slotSearch k).isSome = true := by
  cases h : firstFrom s.slotOpen vatSlots s.slotSearch k with
  | some v => rfl
  | none =>
    exfalso
    have hf := firstFrom_none _ _ _ _ hk h
    let taken : Finset Nat := Finset.range s.mapSlots ∪ (s.mem.slotUse.map (fun e => e.1)).toFinset
    have hsub : (Finset.range s.slotSearch).image (fun i => (k + i) % vatSlots) ⊆ taken := by
      intro v hv
      obtain ⟨i, hi, rfl⟩ := Finset.mem_image.1 hv
      have hb := hf i (Finset.mem_range.1 hi)
      simp only [State.slotOpen, ho, BitVec.getLsbD_zero, Bool.not_false, Bool.and_true, Bool.and_eq_false_iff, decide_eq_false_iff_not] at hb
      simp only [taken, Finset.mem_union, Finset.mem_range, List.mem_toFinset]
      rcases hb with hb | hb
      · exact Or.inl (by omega)
      · exact Or.inr (mem_keys_of_sget _ _ _ hb)
    have hinj : Set.InjOn (fun i => (k + i) % vatSlots) (Finset.range s.slotSearch) := by
      intro i hi j hj e
      have hi' : i < vatSlots := Nat.lt_of_lt_of_le (Finset.mem_range.1 hi) hM
      have hj' : j < vatSlots := Nat.lt_of_lt_of_le (Finset.mem_range.1 hj) hM
      have := Nat.ModEq.add_left_cancel' k e
      rwa [Nat.ModEq, Nat.mod_eq_of_lt hi', Nat.mod_eq_of_lt hj'] at this
    have h1 := Finset.card_le_card hsub
    rw [Finset.card_image_of_injOn hinj, Finset.card_range] at h1
    have h2 : taken.card ≤ s.mapSlots + s.mem.slotUse.length := by
      refine (Finset.card_union_le _ _).trans ?_
      rw [Finset.card_range]
      exact Nat.add_le_add_left ((List.toFinset_card_le _).trans (by simp)) _
    simp only [State.slotSearch] at h1
    omega

theorem length_sput {β : Type} (m : Sparse β) (k : Nat) (v : β) : (sput m k v).length ≤ m.length + 1 := by
  induction m with
  | nil => simp [sput]
  | cons e m ih =>
    obtain ⟨a, w⟩ := e
    simp only [sput]
    split
    · simp
    · split <;> simp_all

/-- One more slot of a window is taken; what bounds the next one grows by one. -/
theorem takePool_window (s : State) (ho : s.mem.stackOut = 0#16) (hM : s.slotSearch ≤ vatSlots) (hp : s.poolFree ≠ 0) :
    ∃ x t, s.takePool .window = some (x, t) ∧ t.mem.stackOut = 0#16 ∧ t.mapSlots = s.mapSlots ∧ t.pinSlots = s.pinSlots
      ∧ t.mem.slotUse.length ≤ s.mem.slotUse.length + 1 := by
  have hf := slot_found s ho hM (Config.freePlace s.draw.1 % vatSlots) (Nat.mod_lt _ (by decide))
  obtain ⟨x, hx⟩ := Option.isSome_iff_exists.1 hf
  simp only [State.takePool, if_neg hp, State.takeSlot]
  rw [hx]
  exact ⟨x, _, rfl, ho, rfl, rfl, length_sput _ _ _⟩

theorem takeWindow_length : ∀ (n : Nat) (s : State), s.mem.stackOut = 0#16 → s.mapSlots + 16 * (4 + s.mem.slotUse.length + n) ≤ vatSlots →
    emergencySlots + s.mapSlots + s.pinSlots + 3 * (s.mem.slotUse.length + n) < vatSlots → (s.takeWindow n).1.length = n := by
  intro n
  induction n with
  | zero => intro s _ _ _; rfl
  | succ n ih =>
    intro s ho hM hp
    have hc : ∀ u, s.slotCount u ≤ s.mem.slotUse.length := fun u => List.length_filter_le _ _
    have hfree : s.poolFree ≠ 0 := by
      have h1 := hc .window
      have h2 := hc .tile
      have h3 := hc .draft
      simp only [State.poolFree]
      omega
    obtain ⟨x, t, e, h1, h2, h3, h4⟩ := takePool_window s ho (by simp only [State.slotSearch]; omega) hfree
    simp only [State.takeWindow, e]
    simp only [List.length_cons]
    rw [ih t h1 (by rw [h2]; omega) (by rw [h2, h3]; omega)]

theorem witness_JobsAreSubmittedGrantedAndEnded_window :
    (granting.takeWindow (jobOf [layer 0 0 0]).windowTiles).1.length = (jobOf [layer 0 0 0]).windowTiles := by
  have e : (jobOf [layer 0 0 0]).windowTiles = 1024 := by decide +kernel
  rw [e]
  exact takeWindow_length 1024 granting rfl (by decide +kernel) (by decide +kernel)
/-! ### Data engines -/

/-- A descriptor of 64 bytes at line 1 of tile 4. -/
def desc1 (op : Nat) (srcs : List Nat) : Desc := { op := op, length := 64, dst := 4 * 16384 + 64, srcs := srcs, stage := 1, tag := 7 }

/-- A chain of that descriptor, begun by entry 0 of queue 0, whose one unit waits at engine 4. -/
def chained (d : Desc) (units : List UnitRef) : State :=
  let s := withEntry (withQueue (mapped (master base)) queue0) (entry0 0x10 2)
  { s with den := { chains := [{ id := 3, entry := some (0, 0), actor := 0, cls := 1, descs := [d] }], units := units } }

theorem witness_ChainsAreStartedAndEnded :
    let e := { entry0 0x10 1 with dw1 := 1 }
    let s := withEntry (withQueue (mapped (master base)) queue0) e
    free s = true ∧ s.entry 0 0 = some e ∧ lineOk s (s.queue 0).actor e.a0 false = true ∧ (s.lineAt e.a0).2 = false
      ∧ (∀ d ∈ [{ desc1 0 [] with stage := 0 }, { desc1 0 [] with stage := 0, bad := true }, { desc1 1 [] with stage := 0, src := 4 * 16384 + 64 }, desc1 0 [], desc1 2 [0]],
          (chained d []).chain 3 = some { id := 3, entry := some (0, 0), actor := 0, cls := 1, descs := [d] } ∧ (chained d []).entry 0 0 = some (entry0 0x10 2) ∧ free (chained d []) = true)
      ∧ (desc1 0 []).badSources = false ∧ (desc1 1 [4 * 16384 + 64]).badSources = true
      ∧ (let d := { desc1 2 [0] with done := [(0, true)], result := 5 * 16384 }
         d.units ≤ d.done.length ∧ lineOk (chained d []) 0 d.result true = true) ∧ (desc1 0 []).done.length < (desc1 0 []).units
      ∧ (let c : Chain := { id := 3, entry := none, job := some 0, actor := 0, cls := 1, descs := [{ desc1 0 [] with stage := 0 }] }
         let s := { withJob (runs [layer 0 0 0]) (entry0 0x20 2) with den := { chains := [c] } }
         s.chain 3 = some c ∧ s.job 0 = some (runs [layer 0 0 0]) ∧ free s = true ∧ s.home (4 * 16384 / 16384) = 1 ∧ s.home (9 * 16384 / 16384) ≠ 1) := by decide +kernel

/-- The unit that waits. -/
def unit0 : List UnitRef := [⟨3, 0, 0, some 4⟩]

theorem witness_EngineUnitsHaveTheirEffect :
    (∀ d ∈ [desc1 0 [], desc1 1 [0], desc1 2 [0], { desc1 3 [0, 128] with typ := 4 }],
      (chained d unit0).unitReady 3 0 0 d.op = some ({ id := 3, entry := some (0, 0), actor := 0, cls := 1, descs := [d] }, d, 4)
        ∧ d.unitLines 0 = [(4 * 16384 + 64, 0, 64)] ∧ free (chained d unit0) = true ∧ restful (chained d unit0) = true)
      ∧ lineOk (chained (desc1 1 [0]) unit0) 0 (4 * 16384 + 64) true = true ∧ lineOk (chained (desc1 1 [0]) unit0) 0 (4 * 16384 + 64) false = true
      ∧ lineOk (chained (desc1 1 [0]) unit0) 0 0 false = true ∧ lineOk (chained (desc1 1 [0]) unit0) 0 128 false = true
      ∧ ((chained (desc1 1 [0]) unit0).lineAt 0).2 = false ∧ ((chained (desc1 1 [0]) unit0).lineAt (4 * 16384 + 64)).2 = false
      ∧ ((withBytes (chained (desc1 2 [0]) unit0) 63 [1#8]).lineAt 0).1.getD 63 0#8 ≠ 0#8
      ∧ (chained (desc1 0 []) unit0).unitReady 3 0 1 0 = none ∧ (chained (desc1 0 []) unit0).unitReady 3 0 0 1 = none
      ∧ (chained (desc1 1 [0]) unit0).entry 0 0 = some (entry0 0x10 2) := by decide +kernel

/-- A cask copy from tile 0 to tile 4. -/
def caskMove : Desc := { op := 4, length := 4096, dst := 4 * 16384, srcs := [0], stage := 1 }

theorem witness_EngineUnitsHaveTheirEffect_cask :
    let s := chained caskMove unit0
    let c := (s.setHome 0 2 0).setHome 4 2 0
    s.unitReady 3 0 0 4 = some ({ id := 3, entry := some (0, 0), actor := 0, cls := 1, descs := [caskMove] }, caskMove, 4)
      ∧ caskMove.unitLines 0 = (List.range 64).map (fun i => (4 * 16384 + 64 * i, 0, 64)) ∧ s.moving 4 = false ∧ s.moving 0 = false
      ∧ (∀ i < 64, lineOk s 0 (64 * i) false = true ∧ lineOk s 0 (4 * 16384 + 64 * i) true = true) ∧ s.loc 0 ≠ s.loc 4
      ∧ c.unitReady 3 0 0 4 = s.unitReady 3 0 0 4 ∧ c.storable 0 0 (4 * 16384) = true ∧ c.home 0 = 2 ∧ c.home 4 = 2 ∧ (c.cask 0).quarantined = false
      ∧ (c.cask 0).length = 0 ∧ c.bufOf 0 = none ∧ c.bufOf 16 = none ∧ c.findRegion (4 * 16384) = some (0, leased) ∧ leased.policy ≠ 1 := by decide +kernel

/-! ### Services -/

/-- A call of a service and function by entry 0 of port 0's queue. -/
def call0 (service func : Nat) : SvcCall := ⟨0, 0, service, func, 0, 0, 1⟩

/-- The call has been received. -/
def calling (service func : Nat) : State :=
  let s := withEntry (withQueue (mapped (master base)) queue0) { entry0 0x50 2 with dw1 := service + 256 * func }
  { s with svc := { s.svc with calls := [call0 service func] } }

theorem witness_ServiceCallsAreReceived :
    let e (service func : Nat) : Entry := { entry0 0x50 1 with dw1 := service + 256 * func }
    let s (service func : Nat) : State := withEntry (withQueue (mapped (master base)) queue0) (e service func)
    let poisoned := { s 1 0 with mem := { (s 1 0).mem with vatPoison := [(256 * 1000000, true)] } }
    (s 1 4).entry 0 0 = some (e 1 4) ∧ free (s 1 4) = true ∧ lineOk (s 1 4) ((s 1 4).queue 0).actor 0 false = true
      ∧ ((s 1 4).lineAt 0).2 = false ∧ (poisoned.lineAt 0).2 = true
      ∧ serviceKnown (bits (e 1 4).dw1 0 8) (bits (e 1 4).dw1 8 8) = true ∧ serviceKnown (bits (e 1 5).dw1 0 8) (bits (e 1 5).dw1 8 8) = false
      ∧ serviceKnown (bits (e 0 0).dw1 0 8) (bits (e 0 0).dw1 8 8) = false ∧ serviceKnown (bits (e 4 2).dw1 0 8) (bits (e 4 2).dw1 8 8) = true
      ∧ ((withRegion (s 1 0) { leased with readMask := 2 }).refusal 0 false false 0).isSome = true
      ∧ base.kvTurn 0 0 4 = none ∧ base.callOf 0 0 4 2 = none := by decide +kernel

/-- Parameters of a small session: one layer, one head of 64 elements BF16, four tokens. -/
def kv0 : KvSession := ⟨1, 1, 64, 7, 4⟩

/-- Region 0 has that session, and its layer holds so many tokens. -/
def session (func count : Nat) : State :=
  let s := withBytes (calling 1 func) 64 (leBytes 4 count)
  { s with svc := { s.svc with kv := [(0, some kv0)] } }

theorem witness_KeyValueSessionsKeepTheirTokens :
    (∀ f ∈ [0, 1, 2, 3, 4], (calling 1 f).kvTurn 0 0 f = some (call0 1 f) ∧ free (calling 1 f) = true ∧ restful (calling 1 f) = true ∧ free (session f 0) = true ∧ restful (session f 0) = true
      ∧ (calling 1 f).session 0 = none ∧ (session f 0).kvTurn 0 0 f = some (call0 1 f) ∧ (session f 0).session 0 = some (leased, kv0))
      ∧ (calling 1 0).region 0 = leased ∧ leased.valid = true ∧ leased.leaseEnd ≠ 0 ∧ kv0.ok = true ∧ kv0.size ≤ leased.size
      ∧ KvSession.ok ⟨0, 1, 64, 7, 4⟩ = false ∧ KvSession.ok ⟨1, 1, 64, 7, 2 ^ 31⟩ = true ∧ leased.size < KvSession.size ⟨1, 1, 64, 7, 2 ^ 31⟩
      ∧ ((calling 1 0).region 4095).valid = false
      ∧ lineOk (session 1 0) 0 64 false = true ∧ lineOk (session 1 0) 0 64 true = true ∧ lineOk (session 1 0) 0 0 true = true ∧ ((session 1 0).lineAt 64).2 = false
      ∧ kv0.layers ≤ 1 ∧ 0 < kv0.layers ∧ leased.base % 64 = 0 ∧ kv0.vec % 64 = 0
      ∧ (∀ n ∈ [0, 3, 4], leNat ((((session 1 n).lineAt 64).1.drop 0).take 4) = n) ∧ kv0.capacity < 4 + 1 ∧ 3 + 1 ≤ kv0.capacity := by decide +kernel

/-- An append of the token 3 from tiles 4 and 5. -/
theorem witness_KeyValueSessionsKeepTheirTokens_append :
    let s := session 1 3
    let key := kv0.place 0 0 0 3 0
    let value := kv0.place 0 0 0 3 1
    let ka := 4 * 16384
    let va := 5 * 16384
    let apart (x y : Nat) : Bool := decide (x = y) || decide (s.loc (tileOf x) ≠ s.loc (tileOf y)) || decide (lineOf x ≠ lineOf y)
    (∀ j : Fin 2, lineOk s 0 (ka + 64 * j.val) false = true ∧ lineOk s 0 (va + 64 * j.val) false = true ∧ lineOk s 0 (key + 64 * j.val) true = true
      ∧ lineOk s 0 (value + 64 * j.val) true = true)
      ∧ (∀ j l : Fin 2, [64, key + 64 * j.val, value + 64 * j.val].all (fun x =>
            [64, key + 64 * l.val, value + 64 * l.val, ka + 64 * l.val, va + 64 * l.val].all (fun y => apart x y)) = true)
      ∧ (∀ j l : Fin 2, ka + 64 * l.val ≠ key + 64 * j.val ∧ ka + 64 * l.val ≠ value + 64 * j.val ∧ va + 64 * l.val ≠ key + 64 * j.val
            ∧ va + 64 * l.val ≠ value + 64 * j.val) := by decide +kernel

/-- An attention over no tokens, and a close. -/
theorem witness_KeyValueSessionsKeepTheirTokens_attend :
    lineOk (session 2 0) 0 (4 * 16384) false = true ∧ lineOk (session 2 0) 0 (4 * 16384 + 64) false = true
      ∧ (∀ j : Fin 4, lineOk (session 2 0) 0 (5 * 16384 + 64 * j.val) true = true)
      ∧ (List.range 256).all (fun i => lineOk (session 4 0) 0 (64 * i) true) = true := by decide +kernel

/-- Group 63 of ports 0 and 1 on a published region, with an open round of edition 6 and port 1's contribution. -/
def group1 : Group := { isOpen := true, mask := 3, fmt := 1, count := 4, region := 0, timeoutUs := 10, round := some 6, parts := [⟨1, 5, 1, 1, 0, 6⟩] }

/-- The group stands as given while a call of service 3 waits. -/
def grouped (func : Nat) (x : Group) (r : Region) : State :=
  let s := withRegion (calling 3 func) r
  { s with svc := { s.svc with groups := [(63, x)] } }

theorem witness_GradientRoundsAreHeldByEdition :
    let r := { published with readMask := 63 }
    let closed := grouped 0 {} r
    closed.callOf 0 0 3 0 = some (call0 3 0) ∧ (closed.region 0).valid = true ∧ (closed.region 0).kind = 2 ∧ 0 % groupElem 1 = 0 ∧ 0 + 4 * groupElem 1 ≤ (closed.region 0).size
      ∧ (closed.group 63).isOpen = false ∧ ((grouped 0 group1 r).group 63).isOpen = true
      ∧ (grouped 1 group1 r).callOf 0 0 3 1 = some (call0 3 1) ∧ restful (grouped 1 group1 r) = true ∧ free (grouped 1 group1 r) = true
      ∧ (∀ p ∈ group1.parts ++ group1.later, ¬(p.queue = 0 ∧ p.seq = 0)) ∧ (call0 3 1).actor < 6 ∧ group1.mask.getLsbD (call0 3 1).actor = true
      ∧ group1.full = false ∧ (∀ y ∈ group1.parts, y.port ≠ 0) ∧ Group.full { group1 with parts := group1.parts ++ [⟨0, 0, 0, 1, 0, 6⟩] } = true
      ∧ (grouped 1 group1 r).publishWaits 0 = false ∧ group1.later = []
      ∧ Group.full { group1 with round := some 6, parts := [⟨0, 0, 0, 1, 0, 6⟩] } = false
      ∧ Group.full { group1 with mask := 7, parts := group1.parts ++ [⟨0, 0, 0, 1, 0, 6⟩] } = false
      ∧ 2 ^ 31 < (5 + 2 ^ 32 - 6) % 2 ^ 32 ∧ (7 + 2 ^ 32 - 6) % 2 ^ 32 ≤ 2 ^ 31
      ∧ (grouped 2 group1 r).callOf 0 0 3 2 = some (call0 3 2) ∧ (∀ y ∈ group1.parts, ¬(y.queue = 0 ∧ y.seq = 0)) ∧ group1.round.isSome = true
      ∧ (let y := { group1 with parts := group1.parts ++ [⟨0, 0, 0, 1, 0, 6⟩] }
         y.full = true ∧ (grouped 1 group1 r).enginesReady (y.desc (((grouped 1 group1 r).region y.region).base + y.offset)) = true
           ∧ (grouped 2 y r).callOf 0 0 3 2 = some (call0 3 2) ∧ ((grouped 2 y r).group 63).full = true ∧ y.isOpen = true
           ∧ ({ grouped 1 group1 r with edn := { pubs := [⟨0, 4, 0, []⟩, ⟨0, 5, 0, []⟩] } } : State).publishWaits 0 = true)
      ∧ (grouped 1 {} r).callOf 0 0 3 1 = some (call0 3 1) ∧ ((grouped 1 {} r).group 63).isOpen = false ∧ ((grouped 2 {} r).group 63).isOpen = false
      ∧ ({ group1 with mask := 2 } : Group).mask.getLsbD (call0 3 1).actor = false ∧ ({ group1 with round := none, parts := [] } : Group).round = none
      ∧ (∃ y ∈ ({ group1 with parts := [⟨1, 5, 0, 1, 0, 6⟩] } : Group).parts, y.port = (call0 3 1).actor)
      ∧ Group.full { group1 with parts := [⟨1, 5, 0, 1, 0, 6⟩] } = false
      ∧ (∀ y ∈ group1.parts, ∀ z ∈ group1.later, ¬(y.queue = z.queue ∧ y.seq = z.seq)) := by decide +kernel

theorem witness_GathersAndSurrogateCallsComplete :
    let g (a b : Nat) : State := withBytes (calling 2 0) (2 * 16384) (leBytes 4 a ++ leBytes 4 b)
    let word (s : State) (a n : Nat) : Nat := leNat (((s.lineAt a).1.drop (4 * n)).take 4)
    (∀ p ∈ [(0, 0), (0, 1), (1, 0)], (g p.1 p.2).callOf 0 0 2 0 = some (call0 2 0) ∧ free (g p.1 p.2) = true ∧ restful (g p.1 p.2) = true
      ∧ lineOk (g p.1 p.2) 0 (2 * 16384) false = true ∧ ((g p.1 p.2).lineAt (2 * 16384)).2 = false ∧ lineOk (g p.1 p.2) 0 (4 * 16384) true = true
      ∧ word (g p.1 p.2) (2 * 16384) 0 = p.1 ∧ word (g p.1 p.2) (2 * 16384) 1 = p.2)
      ∧ lineOk (g 0 1) 0 (3 * 16384) false = true ∧ ((g 0 1).lineAt (3 * 16384)).2 = false ∧ 0 ≤ word (g 0 1) (3 * 16384) 0
      ∧ lineOk (g 0 1) 0 0 false = true ∧ ((g 0 1).lineAt 0).2 = false := by decide +kernel

/-- Handle 255 stands as given while a call of service 4 waits. -/
def modelled (func : Nat) (m : Model) : State :=
  let s := withBytes (calling 4 func) 0 (header 1 ++ layer 0 0 0)
  { s with svc := { s.svc with models := [(255, m)] } }

theorem witness_GathersAndSurrogateCallsComplete_models :
    let idle : Model := { loaded := true, header := 0 }
    let busy : Model := { idle with running := some (9, 9, 0, 9) }
    let mine : Model := { idle with running := some (0, 0, 0, 0), ended := some { jobOf [layer 0 0 0] with outcome := 1, degraded := 1 } }
    (∀ f ∈ [0, 1, 2], ∀ m ∈ [{}, idle, busy, mine], (modelled f m).callOf 0 0 4 f = some (call0 4 f) ∧ free (modelled f m) = true ∧ restful (modelled f m) = true ∧ (modelled f m).model 255 = m)
      ∧ (modelled 1 idle).queued.length < 1024 ∧ idle.header % 64 = 0 ∧ idle.running = none ∧ idle.waiting = [] ∧ idle.unload = none
      ∧ (∀ i : Fin 4, lineOk (modelled 1 idle) (call0 4 1).actor (0 + 64 * i.val) false = true ∧ (modelled 1 idle).lineAt (0 + 64 * i.val) = (chainLines.getD i.val [], false))
      ∧ (headOf (Memory.store [] 0 (chainLines.take 2).flatten)).ok = true
      ∧ chainLines.length = 2 * ((headOf (Memory.store [] 0 (chainLines.take 2).flatten)).count + 1)
      ∧ (modelled 1 idle).callsBefore (call0 4 1) = true ∧ busy.waiting = [] ∧ mine.running = some (0, 0, 0, 0) ∧ mine.unload = none ∧ (0 : Nat) % 128 = 0
      ∧ (let s := modelled 1 idle
         let t := { s with svc := { s.svc with calls := ⟨7, 7, 4, 1, 0, 0, 1⟩ :: s.svc.calls } }
         t.callOf 0 0 4 1 = some (call0 4 1) ∧ t.callsBefore (call0 4 1) = false)
      ∧ busy.running.isSome = true ∧ ¬((9 : Nat) = 0 ∧ (9 : Nat) = 0) := by decide +kernel
/-! ### Ports -/

/-- Port 0's PERST# is released and it may train. -/
def trainable : State := port0 base (fun p => { p with perst := false })

theorem witness_LinksTrainAndPortsReset :
    let up := trainable.setWord 0x008 0x100 0x01
    let on := up.setWord 0x000 0x104 1
    trainable.mayTrain 0 = true ∧ trainable.linkUp 0 = false ∧ up.linkUp 0 = true ∧ up.portIsReady 0 = false ∧ up.mayTrain 0 = true ∧ on.walking 0 = false ∧ on.stage ≠ 9
      ∧ on.field 0x000 0x104 0 1 = 1 ∧ on.mayTrain 0 = true ∧ up.field 0x000 0x104 0 1 = 0 ∧ up.admits .trust 0x008 0x104 = true ∧ restful up = true
      ∧ (up.port 0).l23 = false ∧ ((port0 trainable (fun p => { p with l23 := true })).port 0).l23 = true ∧ trainable.pwr.starting = 1 ∧ (trainable.port 0).l23 = false
      ∧ (∃ t, step { up with pwr := { up.pwr with starting := 0 } } = .next t) ∧ ({ up with dir := { up.dir with walks := 1 } } : State).walking 0 = true
      ∧ (!(trainable.port 0).perst && decide (trainable.pwr.starting ≠ 2)) = true ∧ (base.port 0).perst = true ∧ (base.port 0).resetAt = none
      ∧ ((port0 base (fun p => { p with resetAt := some 5, resetCause := 2 })).port 0).resetAt = some 5
      ∧ ((withQueue base queue0).queue 0).ownKind = 1 ∧ ((withQueue base queue0).queue 0).ownId = (0 : Port).val := by
  and_intros
  all_goals first | exact ⟨_, rfl⟩ | decide +kernel

theorem witness_ContainmentHoldsUntilItIsReleased :
    let s := queued queue0
    let c := s.setWord 0x008 0x108 1
    let w := { c with dir := { c.dir with walks := 1 } }
    restful s = true ∧ restful c = true ∧ restful w = true ∧ s.contained 0 = false ∧ s.linkUp 0 = true ∧ s.admits .trust 0x008 0x108 = true ∧ (s.setWord 0x008 0x124 1).ideRefuses 0 false = true
      ∧ (s.queue 0).state = 1 ∧ s.entriesOf 0 = [] ∧ (s.queue 0).pendHalt = none ∧ c.contained 0 = true ∧ base.linkUp 0 = false
      ∧ (running c).mayRelease (.core 0) = true ∧ (running c).admits (.core 0) 0x008 0x108 = true ∧ (running c).contained 0 = true ∧ (running c).walking 0 = false
      ∧ w.walking 0 = true ∧ w.admits .trust 0x008 0x108 = true ∧ c.mayRelease .trust = false
      ∧ c.word64 0x008 0x110 = c.now ∧ c.field 0x008 0x108 1 4 ≤ 5 ∧ 5 < (s.setWord 0x008 0x108 13).field 0x008 0x108 1 4 ∧ (s.setWord 0x008 0x108 13).contained 0 = true := by decide +kernel

theorem witness_ConfigurationWritesTakeEffect :
    let s := port0 (master base) (fun p => { p with msixEnable := true, pba := [(2047, true)] })
    base.cfgTakes 0 = false ∧ base.linkUp 0 = false ∧ (base.setWord 0x008 0x100 1).cfgTakes 0 = false ∧ (base.setWord 0x008 0x100 1).linkUp 0 = true
      ∧ s.cfgTakes 0 = true ∧ s.linkUp 0 = true ∧ restful s = true ∧ restful base = true ∧ s.acting (.port 0) = true ∧ (s.port 0).msixEnable = true
      ∧ (s.port 0).funcMask = false ∧ s.canMaster 0 = true ∧ sget false (s.port 0).pba 2047 = true
      ∧ s.admits .trust 0x008 0x180 = true ∧ s.admits .trust 0x008 (0x180 + 4 * 63) = true := by decide +kernel

theorem witness_DecodersAreCommittedAndHeldRequestsGo :
    let s := ready base
    s.acting (.port 0) = true ∧ (∀ n : Fin 4, (s.port 0).decoders[n].committed = false) ∧ (0 + 2 ^ 28 ≤ s.rangeBytes ∧ s.rangeBytes < 2 ^ 28 + s.rangeBytes)
      ∧ s.rangeBytes % 2 ^ 28 = 0 ∧ (host base).acting (.port 0) = true ∧ ((host base).port 0).decoders[(0 : Fin 4)].committed = true
      ∧ ((host base).port 0).decoders[(0 : Fin 4)].lock = false ∧ (∀ x ∈ s.dir.waiting, x.1 ≠ .bucket 0) := by decide +kernel

/-- A request of port 0 for the second line of the range waits alone for the bucket, which is empty. -/
def heldUp (op home : Nat) (rate : Nat) : State :=
  let r : MemReq := { port := 0, tag := 9, haddr := 64, addr := 64, op := op, mv := .I, decoded := true, data := zeroLine, be := BitVec.allOnes 64 }
  let s := port0 (served leased home) (fun p => { p with rdBucket := 0, wrBucket := 0 })
  ({ s with dir := { base.dir with waiting := [(.bucket 0, r)] } }.setField 0x008 0x118 0 16 rate).setField 0x008 0x118 16 16 rate

theorem witness_DecodersAreCommittedAndHeldRequestsGo_held :
    (∀ c ∈ [(0, 0), (0, 1), (2, 1)], ∀ rate ∈ [0, 1], let s := heldUp c.1 c.2 rate
      ∃ r, s.dir.waiting = [(.bucket 0, r)] ∧ s.dir.snoops = [] ∧ r.port = 0 ∧ r.op = c.1 ∧ r.addr = 64 ∧ s.portTakes 0 = true ∧ r.decoded = true
        ∧ s.refusal 0 (decide (r.op = 2)) (r.hdmH || !(s.port 0).biEnable) r.addr = none ∧ s.findRegion r.addr = some (0, leased) ∧ s.home (tileOf r.addr) = c.2
        ∧ (if s.allowance 0 (decide (r.op = 2)) = 0 then (s.port 0).rdBucket < 64 ∧ (s.port 0).wrBucket < 64 else 64 ≤ 1024 * s.field 0x008 0x11C 0 11)
        ∧ (c.2 = 1 → s.lineOut (s.loc 0) 1 = false) ∧ r.be = BitVec.allOnes 64 ∧ r.poison = false ∧ r.data.length = 64)
      ∧ (heldUp 0 0 0).allowance 0 false = 0 ∧ (heldUp 2 1 0).allowance 0 true = 0 ∧ (heldUp 0 0 1).allowance 0 false ≠ 0 := by
  refine ⟨fun c hc rate hr => ?_, by decide +kernel, by decide +kernel, by decide +kernel⟩
  simp only [List.mem_cons, List.not_mem_nil, or_false] at hc hr
  rcases hc with rfl | rfl | rfl <;> rcases hr with rfl | rfl <;> exact ⟨_, rfl, by decide +kernel⟩

/-- Decoder 0 is locked. -/
theorem witness_DecodersAreCommittedAndHeldRequestsGo_locked :
    ((port0 (ready base) (fun p => { p with decoders := p.decoders.set 0 { dec2M with lock := true } })).port 0).decoders[(0 : Fin 4)].lock = true := by decide +kernel

theorem witness_MailboxAndDoeAnswer :
    (ready base).acting (.port 0) = true ∧ base.portTakes 0 = false ∧ (ready base).cfgTakes 0 = true ∧ restful (ready base) = true ∧ base.cfgTakes 0 = false := by decide

/-- Port 0 in a phase of its SPDM connection, with the alias key. -/
def spdm (phase session keys : Nat) (hasKey : Bool) : State :=
  { port0 (ready base) (fun p => { p with spdmPhase := phase, spdmSession := session, ideKeys := keys }) with
    tru := { base.tru with aliasKey := if hasKey then some [] else none, aliasCert := if hasKey then some 7 else none } }

theorem witness_SessionsAreEstablishedInOrder :
    (∀ n ∈ [0, 1, 2, 3], ((spdm n 0 0 true).port 0).spdmPhase = n ∧ (spdm n 0 0 true).cfgTakes 0 = true ∧ restful (spdm n 0 0 true) = true)
      ∧ (spdm 3 0 0 true).tru.aliasKey.isSome = true ∧ (spdm 3 0 0 false).tru.aliasKey = none ∧ (spdm 3 0 0 true).tru.aliasCert = some 7 ∧ (spdm 3 0 0 false).tru.aliasCert = none ∧ ((spdm 3 1 0 true).port 0).spdmSession = 1 ∧ ((spdm 3 2 0 true).port 0).spdmSession = 2
      ∧ bits ((spdm 3 2 5 true).port 0).ideKeys 0 1 = 1 ∧ bits ((spdm 3 2 5 true).port 0).ideKeys 2 1 = 1 ∧ bits ((spdm 3 2 0 true).port 0).ideKeys 0 1 = 0
      ∧ base.cfgTakes 0 = false ∧ restful base = true
      ∧ (∀ x ∈ [0, 1], ∀ k ∈ [0, 1], let s := port0 (ready base) (fun p => { p with ideGo := [(x, some k)] })
          s.portTakes 0 = true ∧ restful s = true ∧ sget none (s.port 0).ideGo x = some k) := by decide +kernel

theorem witness_PtmFollowsThePartnersTime :
    let s := port0 (master base) (fun p => { p with ptmEnable := true })
    let d := port0 s (fun p => { p with ptmT1 := some 0, ptmSince := some 0 })
    let old := { d with now := 4 * d.ptmInterval }
    s.ptmRuns 0 = true ∧ (s.port 0).ptmT1 = none ∧ base.ptmRuns 0 = false ∧ (d.port 0).ptmT1 = some 0 ∧ d.now ≤ ms ∧ ms ≤ 0 + ms ∧ 0 + ms < ms + 1 ∧ d.now ≤ ms + 1
      ∧ (s.port 0).ptmSince = none ∧ ¬ 0 + 4 * d.ptmInterval ≤ d.now ∧ 0 + 4 * old.ptmInterval ≤ old.now ∧ (old.port 0).ptmSince = some 0
      ∧ d.field 0x002 0x118 0 1 = 0 ∧ (d.setField 0x002 0x118 0 1 1).field 0x002 0x118 0 1 = 1 ∧ (d.port 0).ptmT1.isSome = true := by decide +kernel

/-! ### Cores -/

/-- Core 0 runs, with a word of its local memory poisoned. -/
def poisonedLocal : State := let s := running base; { s with sto := { s.sto with poison := [((⟨3, 0, 8⟩ : Spot).word, true)] } }

theorem witness_CoresReachTheirStores :
    let s := running base
    let held := s.modCore 0 (fun c => { c with reservation := some (Spot.word ⟨3, 0, 0⟩) })
    base.executes 0 = false ∧ s.executes 0 = true ∧ corePlace 0 0x40000 = .nothing ∧ fetchPlace 0 0x20000000 = none ∧ corePlace 0 0 = .store ⟨3, 0, 0⟩
      ∧ corePlace 0 0x10FFFFF8 = .store ⟨2, 0, 0xFFFFF8⟩ ∧ s.barred ⟨2, 0, 0xFFFFF8⟩ = true ∧ s.barred ⟨3, 0, 0⟩ = false ∧ ((⟨3, 0, 0⟩ : Spot).secure && s.wiping) = false
      ∧ (s.stoRead ⟨3, 0, 0⟩ 4).2 = false ∧ (poisonedLocal.stoRead ⟨3, 0, 8⟩ 4).2 = true ∧ poisonedLocal.executes 0 = true ∧ corePlace 0 8 = .store ⟨3, 0, 8⟩
      ∧ (s.core 0).reservation ≠ some (Spot.word ⟨3, 0, 0⟩) ∧ (held.core 0).reservation = some (Spot.word ⟨3, 0, 0⟩) ∧ held.executes 0 = true := by decide +kernel

/-- Core 0 at another core's memory, at the open partition while it is wiped, at lines of the unified range, at a page and at a doorbell. -/
theorem witness_CoresReachTheirStores_others :
    let s := running (mapped base)
    let p := { s with mem := { s.mem with vatPoison := [(256 * 1000000, true)] } }
    let wiped := ((running base).setField 0x0D0 0x104 0 1 1).setField 0x0D0 0x100 0 1 1
    corePlace 0 0x1040008 = .store ⟨3, 1, 8⟩ ∧ s.barred ⟨3, 1, 8⟩ = false ∧ wiped.wiping = true ∧ wiped.executes 0 = true ∧ corePlace 0 0x10FFFFF8 = .store ⟨2, 0, 0xFFFFF8⟩ ∧ wiped.barred ⟨2, 0, 0xFFFFF8⟩ = false
      ∧ ((⟨2, 0, 0xFFFFF8⟩ : Spot).secure && wiped.wiping) = true
      ∧ corePlace 0 (2 ^ 44 + 4) = .unified 4 ∧ s.executes 0 = true ∧ free s = true ∧ restful s = true ∧ lineOk s internal 0 false = true ∧ lineOk s internal 0 true = true
      ∧ (s.lineAt 0).2 = false ∧ p.executes 0 = true ∧ free p = true ∧ restful p = true ∧ lineOk p internal 0 false = true ∧ (p.lineAt 0).2 = true
      ∧ corePlace 0 0x20012118 = .page 0x012 0x118 ∧ pageClass 0x012 ≠ some .icuBank ∧ s.sees (s.asCore 0) 0x012 0x118 = true ∧ s.reg.latch = []
      ∧ corePlace 0 0x2107FFFC = .doorbell 65535 4 := by decide +kernel

/-- Core 0 has claimed shared source 100, with a count of 2, and its private source 5. -/
def claimed : State :=
  let s := running base
  { s with icu := { s.icu with srcs := [(100, { cfg := 5#32, count := 2, insvc := true, claimer := 0 })], privCnt := [(5, 1)], privSvc := [(5, true)] } }

theorem witness_EndOfInterruptCompletesTheClaim :
    claimed.admits (.core 0) (bankPage 0) (bankBase 0 + 4) = true ∧ (claimed.src 100).insvc = true ∧ (claimed.src 100).claimer = (0 : Fin 16).val
      ∧ claimed.privInsvc 0 (0x1005 - 0x1000) = true ∧ (claimed.src 4095).insvc = false ∧ claimed.privInsvc 0 (0x103F - 0x1000) = false
      ∧ claimed.admits .trust (bankPage 15) (bankBase 15 + 4) = true := by decide +kernel

/-- Interrupts are delivered: GLOBAL_DIS clear, private priorities 7, source 5 of core 0 pending. -/
def delivering (pending : Nat) : State :=
  let s := ((running base).setWord 0x0C1 0x108 0).setWord (bankPage 0) (bankBase 0 + 0x20) 0x77777777
  { s with icu := { s.icu with privCnt := if pending = 0 then [] else [(5, pending)] } }

theorem witness_InterruptsAreRaisedClaimedAndConfigured :
    let s := delivering 0
    let p := delivering 255
    s.admits .trust 0x0C1 0x104 = true ∧ s.admits .trust 0x0C1 0x100 = true ∧ s.privCount 0 5 = 0 ∧ s.privInsvc 0 5 = false ∧ s.globalDis = false ∧ s.active 0 = true
      ∧ s.physOf 0 < 18 ∧ (s.core (s.physOf 0)).state = 1 ∧ s.threshold 0 < s.privPrio 0 5 ∧ p.admits (.core 0) (bankPage 0) (bankBase 0) = true ∧ p.claimable 0 = some 0x1005
      ∧ base.globalDis = true ∧ s.claimable 0 = none ∧ s.admits .trust 0x0C6 0x104 = true ∧ s.admits .trust 0x0C6 0x108 = true ∧ s.admits .trust 0x0C1 0x108 = true
      ∧ s.admits .trust (bankPage 15) (bankBase 15 + 0x10) = true ∧ s.icu.timerFired.getLsbD 15 = false ∧ s.admits .trust 0x0C1 0x114 = true ∧ s.icu.redirLog = [] := by decide +kernel

/-- A dormant core 0, a fired timer, and a logged redirection. -/
theorem witness_InterruptsAreRaisedClaimedAndConfigured_asleep :
    let s := (delivering 0).modCore 0 (fun c => { c with state := 2 })
    let t := { base with icu := { base.icu with timerFired := 0x8000, redirLog := [default] } }
    (s.core (s.physOf 0)).state = 2 ∧ (s.core (s.physOf 0)).wakeAt = none ∧ 0 < s.privPrio 0 5 ∧ s.active 0 = true ∧ s.globalDis = false
      ∧ t.icu.timerFired.getLsbD 15 = true ∧ t.icu.redirLog = default :: [] := by decide +kernel

theorem witness_CoresStartFetchSleepAndRetire :
    let seven := (base.setField 0x003 0x100 0 4 7)
    let s := running base
    let wfi := s.modCore 0 (fun c => { c with wfiAt := some 3 })
    let dor := s.modCore 0 (fun c => { c with state := 2, wakeAt := some 9 })
    let hal := s.modCore 1 (fun c => { c with state := 3, notice := some 4 })
    seven.activeCores.filter (fun x => decide (seven.physOf x = 5)) = [5] ∧ seven.stage = 7 ∧ seven.released = false ∧ seven.pwr.off = false ∧ base.stage ≠ 7 ∧ base.executes 0 = false ∧ s.executes 0 = true ∧ fetchPlace 0 0 = some ⟨3, 0, 0⟩
      ∧ s.barred ⟨3, 0, 0⟩ = false ∧ (s.stoRead ⟨3, 0, 0⟩ 2).2 = false ∧ ((s.core 0).mtvec &&& ~~~3#64).toNat = 0 ∧ fetchPlace 0 64 = some ⟨3, 0, 64⟩ ∧ fetchPlace 0 0x40000 = none
      ∧ ((s.modCore 0 (fun c => { c with mtvec := 0x40000#64 })).core 0).mtvec &&& ~~~3#64 = 0x40000#64
      ∧ (wfi.core 0).wfiAt = some 3 ∧ (wfi.core 0).state = 1 ∧ (wfi.setField (bankPage 0) (bankBase 0 + 8) 4 1 1).dormantEn (wfi.core 0).logical = true
      ∧ (dor.core 0).wakeAt = some 9 ∧ (dor.core 0).state = 2 ∧ (hal.core 1).notice = some 4 ∧ (s.core 1).notice = none ∧ (hal.core 1).state = 3
      ∧ s.direct (.core 0) 0x0C0 0x1A0 = true ∧ s.idleSpares.contains 17 = true ∧ s.active 15 = true ∧ (s.setField 0x0C0 (0x110 + 4 * 15) 7 1 0).active 15 = false
      ∧ s.idleSpares.contains 0 = false ∧ s.direct .trust 0x0C0 0x1A0 = true ∧ s.physOf 0 = 0 := by decide +kernel
/-! ### DRAM controllers -/

/-- A channel whose queue holds a class-1 read of line 1 and a class-0 write of line 2 in rank 0, bank 3. -/
def dreqs : List DramReq := [⟨1, 6, false, 0, 3, 7, 1, 0, 0⟩, ⟨0, 0, true, 0, 3, 7, 2, 0, 0⟩]

/-- Vat channel 1 of stack 2 stands as given. -/
def channel (c : ChanState) : State := { base with dram := { base.dram with vat := [(64 * 2 + 1, c)] } }

theorem witness_DramControllersServeAndSleep :
    let ch := Chan.vat 2 1
    let t := channel { reqs := dreqs, train := 1#32 }
    let idle := channel { train := 2#32, postponed := [(3, 4)] }
    let asleep := channel { train := 1#32, selfRefresh := true }
    (t.chan ch).trainState = 1 ∧ t.chanExists ch = true ∧ (t.chan ch).reqs ≠ [] ∧ (base.chan (.cellar 47 3)).trainState ≠ 1 ∧ (asleep.chan ch).selfRefresh = true
      ∧ (t.chan ch).selfRefresh = false ∧ (t.chan ch).reqs.any (fun r => decide (r.rank = 0 ∧ r.bank = 3)) = true ∧ sget 0 (t.chan ch).postponed 3 < 4
      ∧ 4 ≤ sget 0 (idle.chan ch).postponed 3 ∧ (idle.chan ch).reqs.any (fun r => decide (r.rank = 7 ∧ r.bank = 15)) = false
      ∧ pageExists base.order (0x060 + 47) = true ∧ pageExists Order.l1536 (0x060 + 47) = false ∧ (∀ r : Fin 8, sget 0 base.dram.mr4 (8 * 47 + r.val) ≤ 11 % 32)
      ∧ base.field 0x050 0x100 8 1 = 0 ∧ t.field (tierPage ch) 0x18C 0 10 ≠ 0 ∧ (t.chan ch).reqs.any (fun r => decide (r.rank = 1)) = false
      ∧ (t.setField (tierPage ch) 0x18C 0 10 0).field (tierPage ch) 0x18C 0 10 = 0
      ∧ idle.field (tierPage ch) 0x18C 10 1 = 1 ∧ (idle.chan ch).reqs = [] ∧ (idle.chan ch).selfRefresh = false ∧ (idle.chan (.vat 2 1)).trainState = 2 ∧ (t.chan (.vat 2 1)).trainState ≠ 2
      ∧ (∃ z ∈ (t.chan ch).reqs, z.cls = 0) ∧ t.order = .l3072 := by decide +kernel

/-- The floor of class 3 is due while no class-0 request waits. -/
theorem witness_DramControllersServeAndSleep_floor :
    let c : ChanState := { reqs := [⟨1, 6, false, 0, 3, 7, 1, 0, 0⟩, ⟨3, 6, false, 0, 3, 7, 2, 0, 0⟩], train := 1#32, served := [(1, 16)] }
    floorDue c = true ∧ (∀ z ∈ c.reqs, z.cls ≠ 0) ∧ (∃ z ∈ c.reqs, z.cls = 3) ∧ (channel c).chanExists (.vat 2 1) = true := by decide +kernel

/-- A cellar channel that nothing keeps from self-refresh. -/
theorem witness_DramControllersServeAndSleep_selfRefresh :
    base.inhibited (.cellar 0 0) = false ∧ base.field (tierPage (.cellar 0 0)) 0x18C 10 1 = 1 ∧ (base.chan (.cellar 0 0)).reqs = [] ∧ (base.chan (.cellar 0 0)).selfRefresh = false := by
  decide +kernel

/-! ### Stores, scrub, repair -/

theorem witness_StoresAreScrubbedMarchedAndWiped :
    let used := base.setUse 1000000 .tile
    restful base = true ∧ (0 : Nat) < base.mapSlots ∧ base.chanSkipped (.vat (0 % 16) (0 / 4)) = false ∧ base.field 0x0E0 0x100 0 1 = 1 ∧ (base.setField 0x0E0 0x100 0 1 0).field 0x0E0 0x100 0 1 = 0 ∧ base.lineOut 0 255 = false
      ∧ code128.readUpset (leNat (((base.vatLine 0 0).1.drop 0).take 16)) (base.vatLine 0 0).2 1 = .corrected 0 false
      ∧ code128.readUpset (leNat (((base.vatLine 0 0).1.drop 112).take 16)) (base.vatLine 0 0).2 63 = .bad ∧ code64.readUpset (base.stoRead ⟨3, 17, 0⟩ 8).1 (base.stoRead ⟨3, 17, 0⟩ 8).2 7 = .bad
      ∧ used.mapSlots ≤ 1000000 ∧ used.useOf 1000000 ≠ .free ∧ used.chanSkipped (.vat (1000000 % 16) (0 / 4)) = false
      ∧ base.field 0x0E0 0x100 1 1 = 1 ∧ (47 : Nat) < base.order.packages ∧ base.order.packages ≤ 48
      ∧ base.field 0x0E0 0x100 2 1 = 1 ∧ storeInst 3 17 = true ∧ (7 : Nat) < storeBanks 3 ∧ bankOff 3 7 4095 < storeBytes 3 ∧ storeInst 3 18 = false
      ∧ storeBanks 3 ≤ 8 ∧ storeBytes 3 ≤ bankOff 3 0 32768 ∧ bucketExists 0 4095 = true ∧ bucketExists 0 4096 = false
      ∧ (0 : Nat) < sget 0 ({ base with igr := { base.igr with level := [(bucketKey 0 4095, 1)] } } : State).igr.level (bucketKey 0 4095) := by decide +kernel

theorem witness_StoresAreScrubbedMarchedAndWiped_rows :
    storeRow 3 17 = none ∧ storeRow 0 993 = some 15 ∧ storeInst 0 993 = true ∧ base.rowDormant 15 = false ∧ base.jobHolds 15 = false
      ∧ ((⟨2, 0, secureAt⟩ : Spot).secure && base.wiping) = false ∧ storeInst 2 0 = true ∧ bankOff 2 48 0 = secureAt
      ∧ sget 0 base.igr.level (bucketKey 4 0) = 0 := by decide +kernel

/-- A run of the march engine as given. -/
def marched (d : Bool) : State := { base with igr := { base.igr with march := some (d, 3, 17, 0, 7) } }

theorem witness_StoresAreScrubbedMarchedAndWiped_march :
    let w := base.setWord 0x0E1 0x100 (3 * 2 + 17 * 2 ^ 3 + 7 * 2 ^ 19)
    let d := base.setWord 0x0E1 0x100 (1 + 3 * 2 + 17 * 2 ^ 3 + 7 * 2 ^ 19)
    base.direct .trust 0x0E0 0x12C = true ∧ base.igr.bktLog = [] ∧ ({ base with igr := { base.igr with bktLog := [(0, 1)] } } : State).igr.bktLog = [(0, 1)]
      ∧ base.direct .trust 0x0E1 0x104 = true ∧ base.igr.march = none ∧ (marched false).igr.march.isSome = true ∧ (marched false).igr.marchStop = false
      ∧ w.field 0x0E1 0x100 0 1 = 0 ∧ storeInst (w.field 0x0E1 0x100 1 2) (w.field 0x0E1 0x100 3 10) = true ∧ w.field 0x0E1 0x100 13 6 ≤ w.field 0x0E1 0x100 19 6
      ∧ w.field 0x0E1 0x100 19 6 < storeBanks (w.field 0x0E1 0x100 1 2) ∧ d.mayDestroy .trust 3 17 = true ∧ (running base).mayDestroy .trust 3 0 = false
      ∧ (base.setWord 0x0E1 0x100 (18 * 2 ^ 3 + 3 * 2)).field 0x0E1 0x100 3 10 = 18 ∧ storeInst 3 18 = false := by decide +kernel

theorem witness_StoresAreScrubbedMarchedAndWiped_wipe :
    base.admits .trust 0x0D0 0x100 = true ∧ (running base).admits (.core 0) 0x0D0 0x100 = true ∧ base.wiping = false
      ∧ (base.setField 0x0D0 0x104 0 1 1).wiping = true ∧ (marched true).igr.march = some (true, 3, 17, 0, 7) := by decide +kernel

/-- A released state with a repair that waits for its acknowledgement. -/
def waits (u : RepairUnit) : State := { running base with igr := { base.igr with waiting := [(u, { time := 5, action := 1, unit := 7, detail := 9 })] } }

/-- A job holds every row. -/
def onAllRows (s : State) : State := { s with lst := { s.lst with jobs := [{ jobOf [] with rows := 65535#16 }] } }

/-- A remap whose copy has n lines left. -/
def remaps (n : Nat) : State := { base with igr := { base.igr with remap := [{ stack := 15, channel := 63, rank := 7, bank := 15, row := 4095, whole := false, left := n, line := 3 }] } }

theorem witness_RepairsAreLoggedBeforeTheyAreTaken :
    restful base = true ∧ restful (waits (.pressLane 47 5)) = true ∧ restful (onAllRows (waits (.cluster 15 0))) = true ∧ restful (remaps 1) = true ∧ base.unitExists (.vatChannelOut 15 63) = true
      ∧ (waits (.cellarRow 47 3 1 31 65535)).rowCasks (.cellarRow 47 3 1 31 65535) = [] ∧ (waits (.cellarRow 47 3 1 31 65535)).igr.rowsLeaving = []
      ∧ (waits (.columnGroup 15 33 259)).igr.heldSubst = [] ∧ (waits (.columnGroup 15 33 259)).groupRetired 15 33 259 = false ∧ (waits (.columnGroup 15 33 259)).laneSpares 15 33 < 4
      ∧ (onAllRows (waits (.columnGroup 15 33 259))).jobHolds 15 = true ∧ (onAllRows (waits (.columnGroup 15 33 259))).groupRetired 15 33 259 = false
      ∧ ((waits (.controlCore 17)).core 17).notice = none
      ∧ (let s := waits (.controlCore 0)
         s.active (s.core 0).logical = true ∧ s.physOf (s.core 0).logical = 0 ∧ (s.core 0).notice = none)
      ∧ base.coreDue 17 = false ∧ base.unitExists (.vatRow 15 63 7 15 4095) = true ∧ base.unitExists (.vatRow 15 64 0 0 0) = false
      ∧ base.released = false ∧ (running base).released = true ∧ (running base).cooperAuto = true ∧ ((running base).setField 0x0E0 0x140 0 1 0).cooperAuto = false
      ∧ (running base).repairDone (.pressLane 47 5) = false ∧ ((running base).entryFor (.pressLane 47 5)).1.isSome = true ∧ (waits (.pressLane 47 5)).repairDone (.pressLane 47 5) = true
      ∧ base.igr.waiting = [] ∧ (waits (.vatRow 15 63 7 15 4095)).igr.waiting.length = 1 ∧ (waits (.vatBank 0 0 0 0)).igr.waiting.length = 1
      ∧ (waits (.cluster 15 33)).igr.waiting.length = 1 ∧ (waits (.cluster 15 33)).jobHolds 15 = false
      ∧ base.igr.remap = [] ∧ (remaps 1).igr.remap.length = 1 ∧ (remaps 16).igr.remap.length = 1 := by decide +kernel

theorem witness_RepairsAreLoggedBeforeTheyAreTaken_spares :
    let used := { running base with igr := { base.igr with log := List.replicate 4 { time := 0, action := 2, unit := unitBank 3 0 1 0, detail := 0 } } }
    (used.entryFor (.vatBank 3 9 1 4)).1 = none ∧ (used.entryFor (.vatBank 3 9 1 4)).2 = true ∧ ((running base).entryFor (.vatBank 3 9 1 4)).2 = false := by decide +kernel

theorem witness_RepairsAreLoggedBeforeTheyAreTaken_retire :
    base.admits .trust (clsPage 15 33) 0x104 = true ∧ base.reaches .trust (clsPage 15 33) 0x104 = true ∧ base.clusterState 15 33 ≠ 2
      ∧ (base.setCluster 15 33 2 0).clusterState 15 33 = 2 ∧ (base.setCluster 15 33 2 0).admits .trust (clsPage 15 33) 0x104 = true
      ∧ base.clusterState 15 0 = 0
      ∧ (onAllRows (waits (.cluster 15 0))).jobHolds 15 = true ∧ (onAllRows (waits (.cluster 15 0))).clusterState 15 0 = 0 := by decide +kernel

/-! ### Power and the management interface -/

theorem witness_PowerAndManagementAct :
    let off : State := { base with pwr := { base.pwr with off := true, input := false } }
    base.pwr.off = false ∧ base.pwr.input = true ∧ off.pwr.input = false ∧ base.pwr.samples.length = 0 ∧ base.pwr.starting = 1 ∧ base.now ≤ base.pwr.startAt + railLimit .vstby
      ∧ base.pwr.startAt + railLimit .vphy < ({ base with now := sec } : State).now
      ∧ ({ base with pwr := { base.pwr with starting := 0 } } : State).pwr.starting ≠ 1
      ∧ (∀ k : Fin 16, (List.replicate 16 94).getD k.val (base.field (0x050 + k.val) 0x100 0 8) < 95) ∧ (List.replicate 16 95).getD 15 0 = 95
      ∧ base.field 0x002 0x10C 1 1 = 0 ∧ (base.setField 0x002 0x10C 0 2 2).field 0x002 0x10C 1 1 = 1
      ∧ base.mayDoze true 15 = false ∧ (base.setWord 0x001 0x114 (2 ^ 32 - 1)).mayDoze true 15 = true ∧ (base.setWord 0x001 0x114 (2 ^ 32 - 1)).mayDoze false 0 = true
      ∧ (base.word 0x001 0x11C).testBit 31 = false ∧ ((base.setField 0x001 0x11C 31 1 1).word 0x001 0x11C).testBit 31 = true := by decide +kernel

theorem witness_PowerAndManagementAct_module :
    let service : State := { base with pwr := { base.pwr with starting := 0 } }.setField 0x003 0x100 0 4 8
    base.mod.dynAddr = none ∧ ({ base with mod := { base.mod with dynAddr := some 127 } } : State).mod.dynAddr.isSome = true ∧ [0, 1, 3, 6].contains base.modState = true
      ∧ [0, 1, 3, 6].contains service.modState = false ∧ service.pwr.starting = 0
      ∧ ({ base with mod := { base.mod with armedAt := some 0 } } : State).mod.armedAt = some 0 ∧ base.now ≤ 0 + 100 * ms
      ∧ (0 : Nat) + 100 * ms < ({ base with now := 100 * ms + 1, mod := { base.mod with armedAt := some 0 } } : State).now := by decide +kernel


/-! ### Starts and the trust core -/

/-- An object that is fetched and staged, and one of a port whose fetch fails. -/
def given : TrustObject := { fetchOk := true, bytes := [7#8], flashOk := true }
def unfetched : TrustObject := { fetchOk := false, bytes := [], flashOk := true }

/-- The boot is at a stage. -/
def atStage (n : Nat) : State := base.setField 0x003 0x100 0 4 n

/-- The mailbox runs a command of port 0. -/
def boxed (s : State) (kind : Nat) (o : TrustObject) : State := { s with tru := { s.tru with rcv := some ⟨kind, .port 0, o, 5632, 0⟩ } }

/-- Every rail is up; and the channels of the package 0 are trained. -/
def railsUp : State := { base with pwr := { base.pwr with rails := BitVec.allOnes 9 } }
def packageUp : State := { base with dram := { base.dram with cellar := (List.range 4).map (fun c => (c, { train := 1#32 })) } }

theorem witness_StartsAndTheTrustCoreRunInOrder :
    let tripped : State := { base with pwr := { base.pwr with input := false, latched := true } }
    base.mayColdStart = true ∧ base.pwr.latched = false ∧ tripped.mayColdStart = true ∧ tripped.pwr.input = false ∧ tripped.pwr.latched = true ∧ 0 < sec ∧ railsUp.mayColdStart = false ∧ railsUp.pwr.rails = BitVec.allOnes 9 ∧ base.pwr.off = false ∧ base.pwr.input = true
      ∧ base.pwr.rails ≠ BitVec.allOnes 9 ∧ railsUp.field 0x000 0x104 0 1 = 0 ∧ base.igr.log = []
      ∧ ({ base with pwr := { base.pwr with rails := 0 } } : State).pwr.rails.getLsbD 0 = false
      ∧ 0 < packageUp.order.packages ∧ packageUp.mem.packageIn.getLsbD 0 = false ∧ packageUp.mem.retired.getLsbD 0 = false
      ∧ (∀ c < 4, (packageUp.chan (.cellar 0 c)).trainState = 1) ∧ base.order.packages ≤ 48 ∧ (base.chan (.cellar 47 0)).trainState ≠ 1
      ∧ (running base).direct (.core 0) 0x000 0x104 = true ∧ (ready base).direct (.port 0) 0x000 0x104 = true := by decide +kernel

theorem witness_StartsAndTheTrustCoreRunInOrder_warm :
    let still : State := { ready base with pwr := { base.pwr with starting := 0 } }
    (ready base).direct (.port 0) 0x000 0x100 = true ∧ still.direct (.port 0) 0x000 0x100 = true ∧ still.mgmtPort = 0 ∧ still.pwr.starting = 0 ∧ still.pwr.off = false
      ∧ (ready base).pwr.starting ≠ 0 ∧ base.direct .trust 0x000 0x100 = true
      ∧ ({ base with pwr := { base.pwr with starting := 2 } } : State).pwr.starting = 2 ∧ base.pwr.starting ≠ 2 := by decide +kernel

theorem witness_StartsAndTheTrustCoreRunInOrder_boot :
    (∀ n < 10, (atStage n).stage = n) ∧ (∀ n < 10, (atStage n).pwr.off = false ∧ (atStage n).pwr.input = true ∧ (atStage n).wiping = false ∧ (atStage n).sto.wipeFail = false)
      ∧ (atStage 2).pwr.starting ≠ 2 ∧ ((atStage 2).setField 0x0D0 0x104 0 1 1).wiping = true ∧ ((atStage 2).setField 0x0D0 0x104 0 1 1).stage = 2
      ∧ (atStage 3).tru.lcNow ≠ 3 ∧ ({ atStage 3 with tru := { base.tru with lcNow := 3 } } : State).tru.lcNow = 3
      ∧ ({ atStage 5 with tru := { base.tru with flash := .invalid } } : State).tru.flash = .invalid ∧ ({ atStage 5 with tru := { base.tru with flash := .holds [7#8] } } : State).tru.flash = .holds [7#8]
      ∧ (atStage 5).tru.flash = .asMade ∧ given.bytes = [7#8] ∧ ({ atStage 6 with tru := { base.tru with image := some {} } } : State).tru.image = some {} := by decide +kernel

theorem witness_StartsAndTheTrustCoreRunInOrder_mailbox :
    base.direct .trust 0x003 0x16C = true ∧ (ready base).direct (.port 0) 0x003 0x16C = true ∧ base.rcvRuns = false ∧ (boxed base 1 given).rcvRuns = true
      ∧ (base.rcvStage 1 && rcvMay (.port 0) 1) = false ∧ ((atStage 8).rcvStage 1 && rcvMay (.port 0) 1) = true ∧ ((running base).rcvStage 3 && rcvMay (.core 0) 3) = true
      ∧ base.halfHeld 0x003 0x160 = false ∧ base.tru.rcv = none ∧ (boxed (atStage 8) 2 given).stage = 8 ∧ (boxed base 2 given).stage ≠ 8
      ∧ (∀ k ∈ [1, 2, 3, 4, 5], ∀ o ∈ [given, unfetched, { given with flashOk := false }], (boxed base k o).tru.rcv = some ⟨k, .port 0, o, 5632, 0⟩)
      ∧ given.fetchOk = true ∧ given.flashOk = true ∧ unfetched.fetchOk = false := by decide +kernel

theorem witness_StartsAndTheTrustCoreRunInOrder_debug :
    let rma : State := { base with tru := { base.tru with lcNow := 2 } }
    base.tampered = false ∧ (base.setField 0x003 0x108 0 1 1).tampered = true ∧ base.debugOpen = false ∧ rma.debugOpen = true ∧ rma.pwr.input = true
      ∧ (rma.modCore 17 (fun c => { c with debugHalt := true })).debugOpen = true ∧ ((rma.modCore 17 (fun c => { c with debugHalt := true })).core 17).debugHalt = true
      ∧ debugSpot 3 17 262143 = some ⟨3, 17, 262136⟩ ∧ debugSpot 2 0 secureAt = none ∧ debugSpot 2 0 (secureAt - 1) = some ⟨2, 0, secureAt - 8⟩ := by decide +kernel

/-! ### Further cases -/

/-- Every line of tile 0 is on channels in service. -/
theorem witness_MovesProgressOrAreAbandoned_service : ∀ i : Fin 256, serves (moving1 (served leased 1) demoting) (16384 * 0 + 64 * i.val) = true := by decide +kernel

theorem witness_HeatIsWalkedByEpochs_still : base.mem.stackOut = 0#16 ∧ base.igr.rowsLeaving = [] := by decide

/-- No chain of a layer and no surrogate call has an entry; one of queue 1; and an import session that has committed a cask. -/
theorem witness_QueuesAreEnabledAndDisabled_inner :
    base.lst.jobs = [] ∧ base.svc.models = [] ∧ ((queued { queue0 with state := 3 }).queue 0).watch = []
      ∧ ((queued { queue0 with state := 3, watch := [default] }).queue 0).watch ≠ [] := by decide

/-- A queue that only an engine submits to. -/
theorem witness_EntriesAreFetchedStartedAndCompleted_inner :
    let s := withQueue (withHome (withRegion base leased) 1 5) { queue0 with ownKind := 3, ownId := 1, sqTail := 1 }
    s.fetchTurn = some 0 ∧ (s.queue 0).sqHost = false ∧ free s = true ∧ lineOk s (s.queue 0).actor 0 false = true ∧ (s.queue 0).state = 1 ∧ (s.lineAt 0).2 = false
      ∧ s.submitsFull = false := by decide

theorem witness_PublicationsAreFolded_service :
    let s := { edition (entry0 0x42 1) published with edn := { pubs := [⟨0, 6, 0, [⟨0, 2000, 1⟩]⟩] } }
    ∀ i : Fin 256, serves s (16384 * 0 + 64 * i.val) = true ∧ s.lineOut 2000 i.val = false := by decide +kernel

/-- No surrogate call runs; and one that belongs to no entry of queue 0. -/
theorem witness_JobsAreSubmittedGrantedAndEnded_calls :
    base.svc.models = [] ∧ (∀ m ∈ (modelled 1 { loaded := true, running := some (9, 9, 0, 9) }).svc.models, ∀ r, m.2.running = some r → ¬(r.1 = 0 ∧ r.2.1 = 0)) := by
  refine ⟨rfl, fun m hm r hr => ?_⟩
  have h : m = (255, ({ loaded := true, running := some (9, 9, 0, 9) } : Model)) := by
    simp only [modelled, List.mem_singleton] at hm
    exact hm
  subst h
  obtain rfl : (9, 9, 0, 9) = r := by simpa using hr
  decide

/-- A fill whose weights have not been asked for; a member that is a chunk behind; a pass that waits for a held row; a chain to start while the streamer has no queue. -/
theorem witness_ChunksPassesAndLayersFollow_group :
    let late : Job := { runs [layer 0 0 0] with phase := .late, fills := [{ recNo := 1 }] }
    let two : Job := { runs [padTo 128 (leBytes 4 0x10009441 ++ leBytes 12 0 ++ leBytes 4 600 ++ leBytes 4 1 ++ leBytes 4 1)] with chunks := [(0, 1)], running := 3#16 }
    let w : Job := { runs [layer 0 0 0] with phase := .waitPass }
    let c : Job := { runs [layer 0 0 0] with phase := .chain, chainDue := true }
    let s := withJob w (entry0 0x20 2)
    late.fillOf 1 = some { recNo := 1 } ∧ ({ recNo := 1 } : Fill).issued = false
      ∧ (∀ x ∈ (w.record w.recNo).members, s.rowHeld x = false ∧ sget 0 (runs [layer 0 0 0]).chunks 0 ≤ sget 0 (runs [layer 0 0 0]).chunks x)
      ∧ ({ s with pwr := { s.pwr with heatHold := 1 } } : State).rowHeld 0 = true ∧ 0 ∈ (w.record w.recNo).members
      ∧ (withJob two (entry0 0x20 2)).job 0 = some two ∧ two.running.getLsbD 0 = true ∧ sget 0 two.chunks 0 < (two.record two.recNo).chunks
      ∧ (∃ x ∈ (two.record two.recNo).members, sget 0 two.chunks x < sget 0 two.chunks 0)
      ∧ c.chainEntry = none ∧ (withJob c (entry0 0x20 2)).ownQueues 3 (fun i => decide (i = 0)) = [] := by decide +kernel

/-- A job's chain is to start through the streamer's own queue 0. -/
theorem witness_ChainsAreStartedAndEnded_job :
    let j : Job := { runs [layer 0 0 0] with phase := .chain, chainDue := true, chainEntry := some (0, 0) }
    let e : Entry := { entry0 0x10 1 with dw1 := 1 }
    let s := { withEntry (withQueue (mapped (master base)) { queue0 with ownKind := 3, ownId := 0 }) e with lst := { jobs := [j], nextJob := 1 } }
    s.entry 0 0 = some e ∧ free s = true ∧ s.chainJob 0 e = some j ∧ (s.queue 0).ownKind = 3 ∧ lineOk s j.actor 0 false = true ∧ (s.lineAt 0).2 = false := by decide +kernel

theorem witness_GathersAndSurrogateCallsComplete_unqueued : (modelled 1 { loaded := true }).shombeQueues = [] := by decide +kernel

/-- An entry of core 0's PMP bars, in user mode, what no entry allows; and a local word of another core. -/
theorem witness_CoresReachTheirStores_protection :
    let s := running base
    let user := s.modCore 0 (fun c => { c with machine := false })
    s.pmpData 0 0 8 false = true ∧ s.pmpData 0 0 8 true = true ∧ user.executes 0 = true ∧ user.pmpData 0 0 8 false = false ∧ user.pmpData 0 0 8 true = false
      ∧ corePlace 0 0x1040008 = .store ⟨3, 1, 8⟩ ∧ (1 : Nat) ≠ 0 ∧ (s.stoRead ⟨3, 0, 0⟩ 8).2 = false := by decide +kernel

theorem witness_CoresStartFetchSleepAndRetire_fetch :
    let s := running base
    let user := s.modCore 0 (fun c => { c with machine := false })
    let asked := (delivering 255).modCore 0 (fun c => { c with mie := 0x800#64, mstatus := 8#64 })
    s.takesMeip 0 = false ∧ asked.takesMeip 0 = true ∧ asked.executes 0 = true ∧ s.pmpFetch 0 64 = true ∧ user.pmpFetch 0 64 = false ∧ user.takesMeip 0 = false ∧ user.executes 0 = true
      ∧ (∀ i : Fin 8, (s.stoRead ⟨3, 0, 64 + 8 * i.val⟩ 8).2 = false) := by decide +kernel

/-- Words of core 0's local memory: at 0 the compressed LI a0, -1 and MV a1, a0, at 4 ADDI a2, a0, 3. -/
def programmed : State := (running base).stoWrite ⟨3, 0, 0⟩ 8 0x0035061385AA557D

theorem witness_CoresStartFetchSleepAndRetire_parcels :
    let s := programmed
    let held := s.modCore 0 (fun c => { c with icache := [(0, leBytes 64 0x0035061385AA557D)] })
    let part (c : State) (i : Nat) : Nat := leNat (((((c.core 0).icache.find? (fun l => decide (l.1 = 0))).getD (0, [])).2.drop i).take 2)
    s.executes 0 = true ∧ (0 : Nat) % 2 = 0 ∧ (s.core 0).icache.find? (fun l => decide (l.1 = 0)) = none ∧ (s.stoRead ⟨3, 0, 0⟩ 2) = (0x557D, false)
      ∧ (s.stoRead ⟨3, 0, 0⟩ 2).1 % 4 ≠ 3 ∧ (s.stoRead ⟨3, 0, 4⟩ 2).1 % 4 = 3 ∧ s.pmpFetch 0 6 = true ∧ (s.stoRead ⟨3, 0, 6⟩ 2).2 = false
      ∧ held.executes 0 = true ∧ part held 0 % 4 ≠ 3 ∧ part held 4 % 4 = 3 ∧ held.pmpFetch 0 6 = true
      ∧ (s.core 0).machine = true ∧ (s.modCore 0 (fun c => { c with machine := false })).executes 0 = true := by decide +kernel

/-- A core with floating point on, at a clean word of its memory. -/
theorem witness_CoresStartFetchSleepAndRetire_float :
    let s := programmed.modCore 0 (fun c => { c with mstatus := 0x2000#64 })
    s.executes 0 = true ∧ (s.core 0).meshHit = none ∧ (s.core 0).fpOn = true ∧ s.pmpData 0 0 8 false = true ∧ s.barred ⟨3, 0, 0⟩ = false
      ∧ ((⟨3, 0, 0⟩ : Spot).secure && s.wiping) = false ∧ (s.stoRead ⟨3, 0, 0⟩ 4).2 = false ∧ corePlace 0 0 = .store ⟨3, 0, 0⟩ := by decide +kernel

/-- The fetches at 0 and at 4 (RISC-V's own encodings): a0 is -1, then a2 is 2. -/
theorem test_fetched_instructions_run :
    let u := outState (execInstructionFetch 0 0 false programmed) programmed
    let v := outState (execInstructionFetch 0 4 false u) u
    (u.core 0).getX 10 = 0xFFFFFFFFFFFFFFFF#64 ∧ (u.core 0).pc = 2#64 ∧ (v.core 0).getX 12 = 2#64 ∧ (v.core 0).pc = 8#64 := by decide +kernel

/-- Compressed words and the full ones of the same instruction: ADDI sp, sp, -16; SD ra, 8(sp); LD ra, 8(sp); RET; BNEZ a0, -2; and none for 0. -/
theorem test_compressed_words :
    expand 0x1141 = some 0xFF010113 ∧ expand 0xE406 = some 0x00113423 ∧ expand 0x60A2 = some 0x00813083 ∧ expand 0x8082 = some 0x00008067
      ∧ expand 0xFD7D = some 0xFE051FE3 ∧ expand 0 = none := by decide +kernel

/-- 1 / 3 in double to nearest is 3FD5555555555555, inexact; 1 / 0 is infinite and tells of it; the root of 2 is 3FF6A09E667F3BCD. -/
theorem test_double_arithmetic :
    fmtFP64.fdiv 0 0x3FF0000000000000 0x4008000000000000 = (0x3FD5555555555555, 1) ∧ fmtFP64.fdiv 0 0x3FF0000000000000 0 = (0x7FF0000000000000, 8)
      ∧ fmtFP64.fsqrt 0 0x4000000000000000 = (0x3FF6A09E667F3BCD, 1) := by decide +kernel

/-- A rank with a refresh owed, and one with a correction owed. -/
theorem witness_DramControllersServeAndSleep_refresh :
    let owed : ChanState := { postponed := [(3, 4)], dqsOwed := 1#8 }
    owed.refreshOwed 0 = true ∧ owed.refreshOwed 7 = false ∧ owed.dqsOwed.getLsbD 0 = true ∧ owed.dqsOwed.getLsbD 7 = false ∧ owed.selfRefresh = false
      ∧ (base.chan (.cellar 47 3)).dqsAt = 0 ∧ sget 0 base.dram.mr4At (8 * 47 + 7) = 0 ∧ base.field (chanPage (.vat 2 1)) 0x008 0 1 = 0 := by decide +kernel

theorem witness_StoresAreScrubbedMarchedAndWiped_visits :
    let seen := base.scrubMark (.vat 0 0)
    base.scrubDone (.vat 0 0) = false ∧ seen.scrubDone (.vat 0 0) = true ∧ base.scrubDone (.cellar 47 0) = false ∧ base.scrubDone (.store 3 17 7 4095) = false
      ∧ base.sto.marchHit = [] ∧ (marched true).sto.marchHit = [] ∧ base.mapSlots ≤ 1000000 ∧ base.chanSkipped (.vat (1000000 % 16) (0 / 4)) = false := by decide +kernel

/-- Triggers that are due, told or counted, and such that are not; a copy whose bank has a refresh due. -/
theorem witness_RepairsAreLoggedBeforeTheyAreTaken_due :
    let u := RepairUnit.vatRow 15 63 7 15 4095
    let s := { base with igr := { base.igr with due := [u, .vatChannelOut 15 63] } }
    let h := { remaps 1 with dram := { base.dram with vat := [(64 * 15 + 63, { postponed := [(16 * 7 + 15, 1)] })] } }
    s.triggerDue u true = true ∧ base.triggerDue u false = false ∧ base.triggerDue (.pressLane 47 5) false = true ∧ base.triggerDue (.pressLane 47 5) true = false
      ∧ s.triggerDue (.vatChannelOut 15 63) true = true ∧ base.triggerDue (.controlCore 17) false = false
      ∧ (∃ m, (remaps 1).igr.remap = [m] ∧ (remaps 1).copyHeld m = false ∧ h.igr.remap = [m] ∧ h.copyHeld m = true) := by
  refine ⟨by decide +kernel, by decide +kernel, by decide +kernel, by decide +kernel, by decide +kernel, by decide +kernel, _, rfl, by decide +kernel, rfl, by decide +kernel⟩

/-- A plain word names no command, and ERR_MASK of a page one; the page's words lie apart, and the page does not doze. -/
theorem witness_WriteOfStagedFieldOrConfigError_named :
    (∀ v ∈ [0, 1, 10000, 10001], ((base.touch 0x010).named .trust 0x010 0x100 v).isNone = true) ∧ ((base.touch 0x010).named .trust 0x010 0x01C 5).isSome = true
      ∧ base.reached .trust 0x010 0x01C = true ∧ fieldsApart (wordRows base.order 0x010 0x100) ∧ base.touch 0x012 = base ∧ (base.touch 0x012).named .trust 0x012 0x140 5 = none := by
  refine ⟨by decide, by decide, by decide, by decide, rfl, ?_⟩
  rfl

/-- A commit of two words of one page, neither of them refused; one of port 0's page, which may act at once. -/
theorem witness_CommittedFieldTakesEffectOrIsRefused_several :
    let c : Taken := { page := 0x010, req := reqCode .trust, vals := [(4096 * 0x010 + 0x100, 50#32), (4096 * 0x010 + 0x104, 7#32)] }
    let k := taken 0x008 0x104 0
    (committing c).reg.taken.find? (fun k => decide (k.page = 0x010)) = some c ∧ commitActs 0x010 c = false
      ∧ (∀ e ∈ c.vals, e.1 / 4096 = 0x010 ∧ 0x100 ≤ e.1 % 4096 ∧ fieldsApart (wordRows base.order 0x010 (e.1 % 4096))) ∧ (c.vals.map (fun e => e.1)).Nodup
      ∧ (∃ r ∈ wordRows base.order 0x010 0x100, r.acc = .rws)
      ∧ (committing k).reg.taken.find? (fun j => decide (j.page = 0x008)) = some k ∧ commitActs 0x008 k = true ∧ restful (committing k) = true
      ∧ (∀ e ∈ k.vals, e.1 / 4096 = 0x008 ∧ 0x100 ≤ e.1 % 4096 ∧ fieldsApart (wordRows base.order 0x008 (e.1 % 4096))) := by decide
/-- A cellar line of a cask of length 0, and one that has to be fetched; a host-tier line whose window is shut, and one whose port may ask for it. -/
theorem witness_MemReadReturnsTheHomesLine_below :
    let c := (served leased 2).setCask 0 { length := 3 }
    let h := port0 ((served leased 3).setWord 0x018 0x14C 3) (fun p => { p with bme := true })
    (served leased 2).lands 0 64 64 leased false ∧ ((served leased 2).home 0 = 2 ∧ ((served leased 2).cask (caskOf 64)).length = 0)
      ∧ (c.lands 0 64 64 leased false ∧ c.home 0 = 2 ∧ c.bufOf 0 = none ∧ (c.cask 0).quarantined = false ∧ c.cached 0 = none ∧ (c.cask 0).length ≠ 0)
      ∧ (served leased 3).lands 0 64 64 leased false ∧ ((served leased 3).home 0 = 3 ∧ (served leased 3).windowOnline ((served leased 3).hostPort 0) = false)
      ∧ h.lands 0 64 64 leased false ∧ (h.home 0 = 3 ∧ h.windowOnline (h.hostPort 0) = true ∧ h.hostPoison 0 1 = false ∧ portOf (h.hostPort 0) = some 0 ∧ h.canMaster 0 = true
        ∧ (nextTagOf (h.port 0)).isSome = true) :=
  ⟨lands_served 2 (by decide) false, by decide, ⟨⟨inService_of (by decide), dec2M, 0, opens_of (by decide), by decide, by decide⟩, by decide⟩,
    lands_served 3 (by decide) false, by decide, ⟨inService_of (by decide), dec2M, 0, opens_of (by decide), by decide, by decide⟩, by decide⟩

theorem slotFor_of (s : State) (u : SlotUse) (hu : s.mem.slotUse = []) (ho : s.mem.stackOut = 0#16) (hm : s.mapSlots < vatSlots) : s.slotFor u :=
  fun _ => takeSlot_isSome _ u hu ho hm

/-- A tile without a home, of a region at home in the cellar or the vat and of one that is vat-pinned; a cellar line without an open buffer; a line of a published region without a draft, with room for one and without. -/
theorem witness_MemWriteMergesIntoTheVatLine_first :
    let pinned := served { leased with policy := 1 } 0
    let drafty (r : Region) := served { r with kind := 2 } 0
    let full := (drafty leased).setWord 0x011 0x104 0
    (served leased 0).vatWhole ∧ (served leased 0).tileRegion 0 = some (0, leased) ∧ (served leased 0).home 0 = 0 ∧ leased.policy = 0
      ∧ 65536 * (served leased 0).field 0x018 0x10C 0 8 < (served leased 0).poolFree ∧ (served leased 0).slotFor .tile
      ∧ pinned.slotFor .pin ∧ pinned.tileRegion 0 = some (0, { leased with policy := 1 })
      ∧ ((served leased 2).bufOf 0 = none ∧ (served leased 2).cellarBlocked 0 = none)
      ∧ ((drafty leased).draftOf 0 0 = none ∧ (drafty leased).publishedLine 0 0 1 = none ∧ (drafty leased).draftsUsed < (drafty leased).field 0x011 0x104 0 21
        ∧ 0 < (drafty leased).poolFree) ∧ (drafty leased).slotFor .draft ∧ full.field 0x011 0x104 0 21 ≤ full.draftsUsed
      ∧ (drafty leased).lands 0 64 64 { leased with kind := 2 } true :=
  ⟨rfl, by decide, by decide, by decide, by decide, slotFor_of _ _ rfl rfl (by decide), slotFor_of _ _ rfl rfl (by decide), by decide, by decide, by decide,
    slotFor_of _ _ rfl rfl (by decide), by decide, ⟨inService_of (by decide), dec2M, 0, opens_of (by decide), by decide, by decide⟩⟩

/-- Port 1 owns the line that port 0 asks for, and a decoder of port 1 reaches it. -/
theorem witness_DirectoryTracksHolders_snoops :
    let s : State := { served shared 1 with dir := { entries := [(1, { owner := some 1 })] } }
    let t : State := { s with ports := s.ports.set 1 { s.ports[1] with decoders := s.ports[1].decoders.set 0 dec2M, biEnable := true } }
    t.opens 0 64 dec2M 64 ∧ t.dirPending 1 = false ∧ t.refusal 0 false false 64 = none ∧ t.refusal 0 true false 64 = none
      ∧ (t.dirEntry 1).holders.filter (fun q => decide (q ≠ 0)) = [1] ∧ t.walking 1 = false ∧ portOf 1 = some 1 ∧ (t.hostOf 1 1).isSome = true :=
  ⟨opens_of (by decide), by decide⟩

/-- The lines of the first chunk may be read; a pass that waits keeps no activations. -/
theorem witness_LayersAreFilledAndBegun_loads :
    let waits := { runs [layer 0 0 0] with phase := .waitRows, running := 0#16 }
    let w : Job := { runs [layer 0 0 0] with phase := .waitPass }
    let s := withJob waits (entry0 0x20 2)
    (∀ l ∈ (waits.record waits.recNo).chunkLines 0, lineOk s waits.actor (64 * l) false = true ∧ (s.lineAt (64 * l)).2 = false) ∧ (s.actsFor waits).1 ≤ 1
      ∧ w.keep = 0 ∧ w.actPoison = [] := by decide +kernel

/-- A layer of 600 rows on one row, which ends its first chunk of three: the next chunk's lines may be read. -/
theorem witness_ChunksPassesAndLayersFollow_next :
    let j : Job := runs [padTo 128 (leBytes 4 0x9441 ++ leBytes 8 0 ++ leBytes 4 5 ++ leBytes 4 600 ++ leBytes 4 1 ++ leBytes 4 1 ++ leBytes 4 0 ++ leBytes 8 (2 * 16384) ++ leBytes 8 (3 * 16384)
      ++ leBytes 16 0 ++ leBytes 8 (4 * 16384))]
    let s := withJob j (entry0 0x20 2)
    s.job 0 = some j ∧ (∀ y ∈ (j.record j.recNo).members, sget 0 j.chunks y ≤ 0) ∧ 0 + 1 < (j.record j.recNo).chunks ∧ j.actsHeld = false
      ∧ (∀ l ∈ (j.record j.recNo).chunkLines 1, lineOk s j.actor (64 * l) false = true ∧ (s.lineAt (64 * l)).2 = false) ∧ (j.record j.recNo).chunkLines 1 ≠ [] := by decide +kernel

/-- A layer became late at this very moment, on the row that has just gone idle. -/
theorem witness_LateLayersAndFaultsFollowTheirPolicy_governs :
    let j := { runs [layer 0 0 0] with phase := .late, lateAt := 0, rows := 1#16 }
    let s := withJob j (entry0 0x20 2)
    s.lst.jobs.find? (fun j => decide (nth16 s.tns.runBy 0 = j.id + 1)) = none ∧ s.lst.jobs.find? (s.lateNow 0) = some j ∧ s.job j.id = some j ∧ j.state = 2
      ∧ s.lateNow 1 j = false := by decide +kernel

/-- Every engine is in hold; and a descriptor whose engine has met an uncorrectable line. -/
theorem witness_ChainsAreStartedAndEnded_held :
    let e := { entry0 0x10 1 with dw1 := 1 }
    let s := withEntry (withQueue (mapped (master base)) queue0) e
    let held (s : State) : State := { s with pwr := { s.pwr with heatHold := 65535 } }
    let bad := chained { desc1 0 [] with ueAt := some 64 } []
    s.enginesHeld = false ∧ (held s).enginesHeld = true ∧ (held s).entry 0 0 = some e ∧ free (held s) = true ∧ (chained (desc1 0 []) []).rowHeld ((chained (desc1 0 []) []).descEngine (desc1 0 [])) = false
      ∧ (held (chained (desc1 0 []) [])).rowHeld ((chained (desc1 0 []) []).descEngine (desc1 0 [])) = true ∧ (desc1 0 []).ueAt = none
      ∧ bad.chain 3 = some { id := 3, entry := some (0, 0), actor := 0, cls := 1, descs := [{ desc1 0 [] with ueAt := some 64 }] }
      ∧ (held (session 2 0)).enginesHeld = true ∧ (session 2 0).enginesHeld = false ∧ (held (session 2 0)).kvTurn 0 0 2 = some (call0 1 2) := by decide +kernel

theorem witness_EngineUnitsHaveTheirEffect_places :
    let c := ((chained caskMove unit0).setHome 0 2 0).setHome 4 2 0
    serves c 0 = true ∧ serves c (4 * 16384) = true := by decide +kernel

/-- A surrogate call whose input was refused has run to its end. -/
theorem witness_GathersAndSurrogateCallsComplete_refused :
    let m : Model := { loaded := true, header := 0, running := some (0, 0, 0, 0), ended := some { jobOf [layer 0 0 0] with outcome := 0 }, inputRefused := true }
    (modelled 1 m).model 255 = m ∧ m.running = some (0, 0, 0, 0) ∧ m.unload = none ∧ (∃ j, m.ended = some j ∧ j.outcome ≠ 1) ∧ m.inputRefused = true := by
  refine ⟨by decide +kernel, rfl, rfl, ⟨_, rfl, by decide⟩, rfl⟩

/-- PERST# in a warm start: with the link down, and with it up again. -/
theorem witness_LinksTrainAndPortsReset_warm :
    let w : State := { trainable with pwr := { base.pwr with starting := 2 } }
    let on := w.setWord 0x008 0x100 0x01
    (w.port 0).perst = false ∧ w.pwr.starting = 2 ∧ w.linkUp 0 = false ∧ on.linkUp 0 = true ∧ on.pwr.starting = 2 ∧ (on.port 0).perst = false := by decide +kernel

/-- A contained port whose cause has the highest code: each cause of a lower one of the same moment. -/
theorem witness_ContainmentHoldsUntilItIsReleased_lower :
    let c := (queued queue0).setWord 0x008 0x108 15
    c.contained 0 = true ∧ c.linkUp 0 = true ∧ c.admits .trust 0x008 0x108 = true ∧ c.word64 0x008 0x110 = c.now
      ∧ (∀ n ∈ [1, 2, 3, 5, 6], n < c.field 0x008 0x108 1 4) ∧ (c.setWord 0x008 0x110 9).word64 0x008 0x110 ≠ c.now
      ∧ (c.setWord 0x008 0x108 3).field 0x008 0x108 1 4 ≤ 1 := by decide +kernel

/-- A place of shared memory outside the partition; no mesh error awaits the core, or one does. -/
theorem witness_CoresReachTheirStores_mesh :
    let s := running base
    (s.core 0).meshHit = none ∧ corePlace 0 0x10000000 = .store ⟨2, 0, 0⟩ ∧ s.barred ⟨2, 0, 0⟩ = false ∧ ((⟨2, 0, 0⟩ : Spot).secure && s.wiping) = false
      ∧ (s.stoRead ⟨2, 0, 0⟩ 8).2 = false ∧ ((s.modCore 0 (fun k => { k with meshHit := some true })).core 0).meshHit = some true := by decide +kernel

theorem witness_InterruptsAreRaisedClaimedAndConfigured_whole :
    base.halfHeld (bankPage 15) (bankBase 15 + 0x10) = false ∧ (running base).halfHeld 0x0C0 0x1A8 = false := by decide +kernel

/-- A core for which the repair log promises spare 17, and one for which it promises none. -/
theorem witness_CoresStartFetchSleepAndRetire_promised :
    let s : State := { running base with igr := { base.igr with log := [{ time := 1, action := 8, unit := 3, detail := 17 }] } }
    s.released = true ∧ s.promisedSpare 3 = some 17 ∧ s.promisedSpare 4 = none ∧ s.active 3 = true := by decide +kernel

/-- No request of port 0 with a tag is under way at the presses. -/
theorem witness_StoresAreScrubbedMarchedAndWiped_mesh : base.prs.reads = [] ∧ base.dir.meshHits = [] := by decide

/-- A redundant row that fails: the bank is the failing unit, and waits for a row copy in it. -/
theorem witness_RepairsAreLoggedBeforeTheyAreTaken_bank :
    let u := RepairUnit.vatRow 15 63 7 15 4095
    let done : State := { running base with igr := { base.igr with remapped := [(64 * 15 + 63, 16 * 7 + 15, some 4095)] } }
    let copied : State := { running base with igr := { (remaps 3).igr with waiting := [] } }
    done.failing u = .vatBank 15 63 7 15 ∧ (running base).failing u = u ∧ (running base).rowCopied (.vatBank 15 63 7 15) = false ∧ copied.rowCopied (.vatBank 15 63 7 15) = true ∧ copied.released = true
      ∧ (running base).failing (.vatBank 15 63 7 15) = .vatBank 15 63 7 15 := by decide +kernel

/-- The offset stands at COMMAND; a warm start has just begun; an address that is not the module's. -/
theorem witness_PowerAndManagementAct_transfers :
    let at16 : State := { base with mod := { base.mod with offset := 16 } }
    let begun : State := { base with pwr := { base.pwr with starting := 2 } }
    at16.mod.offset = 16 ∧ (begun.pwr.starting = 2 ∧ begun.pwr.startAt = begun.now ∧ begun.pwr.quiesced = false) ∧ (5 : Nat) ≠ base.mod.dynAddr.getD 0x3A
      ∧ base.mod.offset + 5 ≠ 0x10 ∧ base.pwr.starting ≠ 2 := by decide +kernel

/-- A warm start at STAGE 2 after a stop for WIPE_FAIL, and one with none; the hand-off block before the release and after it; no bad word. -/
theorem witness_StartsAndTheTrustCoreRunInOrder_again :
    let w (b : Bool) : State := { atStage 2 with pwr := { base.pwr with starting := 2 }, tru := { base.tru with wipeStop := b } }
    let rma (s : State) : State := { s with tru := { s.tru with lcNow := 2 } }
    (∀ b ∈ [true, false], (w b).stage = 2 ∧ (w b).pwr.starting = 2 ∧ (w b).tru.wipeStop = b)
      ∧ (rma base).debugOpen = true ∧ (rma base).debugWrites 2 0 handOffAt = none ∧ (rma (running base)).debugWrites 2 0 handOffAt = debugSpot 2 0 handOffAt
      ∧ (rma base).debugWrites 3 17 8 = some ⟨3, 17, 8⟩ ∧ given.badWord = none ∧ (areaBytes given).length = 8192
      ∧ ([.vat 0 0, .vat 0 0] : List Chan).count (.vat 0 0) ≤ 4 := by decide +kernel

theorem witness_OtpIsWrittenOnce : OtpKept base base ∧ ∃ t, step base = .next t :=
  ⟨⟨rfl, rfl, rfl, rfl, fun _ h => h, fun _ _ => rfl⟩, { base with now := 1 }, rfl⟩

/-! ### Small values of the spec -/

/-- R308: MINU keeps the lesser of two unsigned words; MIN compares them as signed. -/
theorem test_amo_min : amoResult .minu 4 0xFFFFFFFF 1 = 1 ∧ amoResult .min 4 0xFFFFFFFF 1 = 0xFFFFFFFF ∧ amoResult .add 4 0xFFFFFFFF 1 = 0 := by decide

/-- R388: the IDCODE. -/
theorem test_idcode : exec (.debugInstruction .idcode) base = .next { base with out := [.jtag 0x1A30F4C7] } := rfl

/-- An empty queue: a nanosecond passes (log entry 1), and a command at the front runs with the queue's rest. -/
theorem test_idle : step base = .next { base with now := 1 } := rfl
theorem test_front : step { base with pending := [.wipeEnd true, .heatWalk 0] } = exec (.wipeEnd true) { base with pending := [.heatWalk 0] } := rfl

end Sys2Proof.Tests
end

section
/-! PROOFS. Accesses of BAR0 that R8 does not take: an error that a page header has recorded outlasts the interrupt it raises, on page 0x0C1 too, and a bad access is carried out as that recording alone. -/

namespace Sys2Proof.Machine

section
variable (s : State)

/-! ### A recorded error outlasts the raising of interrupts -/

/-- A page header has recorded an error: the bit of ERR_STATUS is set, and ERR_INFO reads as info (R402, R403). -/
def State.holdsError (s : State) (page bit info : Nat) : Prop :=
  (s.word page 0x018).testBit bit = true ∧ s.word page 0x024 = info

theorem State.holdsError_of_words {s t : State} {page bit info : Nat} (h : s.holdsError page bit info)
    (h18 : t.word page 0x018 = s.word page 0x018) (h24 : t.word page 0x024 = s.word page 0x024) : t.holdsError page bit info := by
  rwa [State.holdsError, h18, h24]

theorem foldl_holdsError {α} {f : State → α → State} {page bit info : Nat}
    (hf : ∀ s a, s.holdsError page bit info → (f s a).holdsError page bit info) (l : List α) (s : State)
    (h : s.holdsError page bit info) : (l.foldl f s).holdsError page bit info := by
  induction l generalizing s with
  | nil => exact h
  | cons a l ih => exact ih _ (hf s a h)

section
variable {s} {page bit info : Nat} (h : s.holdsError page bit info)
include h

/-- The event counters of page 0x0C1 lie above its ERR_INFO. -/
theorem State.holdsError_count (i n : Nat) (hi : i < 6) : (s.count 0x0C1 i n).holdsError page bit info :=
  State.holdsError_of_words h (s.word_count _ _ _ _ _ (by omega)) (s.word_count _ _ _ _ _ (by omega))

theorem State.holdsError_setSrc (n : Nat) (v : Src) : (s.setSrc n v).holdsError page bit info := h

theorem State.holdsError_pushRedir (e : Redir) : (s.pushRedir e).1.holdsError page bit info :=
  State.holdsError_of_words h (s.word_pushRedir _ _ _) (s.word_pushRedir _ _ _)

/-- A rising bit leaves the bits that are set, of every page. -/
theorem State.holdsError_riseBit (b : Nat) (hb : b < 32) : (s.riseBit 0x0C1 b).1.holdsError page bit info := by
  obtain ⟨h18, h24⟩ := h
  refine ⟨?_, (s.word_riseBit _ _ _ _ (by omega) (by omega)).trans h24⟩
  by_cases hp : page = 0x0C1
  · subst hp
    rw [s.riseBit_status _ b hb, Nat.testBit_or, h18, Bool.true_or]
  · rwa [s.word_riseBit _ _ _ _ (by omega) (by omega)]

theorem State.holdsError_reach (l prio : Nat) : (s.reach l prio).holdsError page bit info := by
  have hm (f : Core → Core) : (s.modCore (s.physOf l) f).holdsError page bit info :=
    State.holdsError_of_words h (s.word_modCore _ _ _ _) (s.word_modCore _ _ _ _)
  unfold State.reach
  simp only []
  split
  · split
    · exact h
    · exact State.holdsError_count (hm _) _ _ (by omega)
  · split
    · split
      · exact hm _
      · exact h
    · exact h

/-- Reaching cores and counting the delivery on page 0x0C1. -/
theorem State.holdsError_reachAll (ts : List Nat) (prio : Nat) :
    ((ts.foldl (fun t l => t.reach l prio) s).count 0x0C1 0).holdsError page bit info :=
  State.holdsError_count (foldl_holdsError (fun _ _ k => State.holdsError_reach k _ _) ts s h) _ _ (by omega)

theorem State.holdsError_relay (fuel : Nat) : (State.raiseFuel.relay fuel s).holdsError page bit info := by
  cases fuel with
  | zero => exact h
  | succ n =>
    unfold State.raiseFuel.relay
    grind [State.holdsError_count, State.holdsError_setSrc, State.holdsError_pushRedir, foldl_holdsError,
      State.holdsError_reach]

/-- A bit of page 0x0C1 rises, and its source is raised where the bit is unmasked. -/
theorem State.holdsError_riseRelay (fuel b : Nat) (hb : b < 32) (raises : Bool) :
    (if raises then State.raiseFuel.relay fuel (s.riseBit 0x0C1 b).1 else (s.riseBit 0x0C1 b).1).holdsError page bit info := by
  have hr := State.holdsError_riseBit h b hb
  split
  · exact State.holdsError_relay hr fuel
  · exact hr

theorem State.holdsError_deliverFuel (fuel n : Nat) : (State.raiseFuel.deliverFuel fuel s n).holdsError page bit info := by
  unfold State.raiseFuel.deliverFuel
  simp only []
  split
  · exact h
  split
  · exact h
  have hr := State.holdsError_reachAll h (s.targets (s.src n)).1 (s.src n).prio
  split
  · exact hr
  split
  · exact hr
  next a b _ _ =>
    have hp := State.holdsError_pushRedir (State.holdsError_setSrc hr n { s.src n with redirected := true }) ⟨n, a, b⟩
    have h8 := State.holdsError_riseRelay (State.holdsError_count hp 3 1 (by omega)) fuel 8 (by omega)
    split
    · exact State.holdsError_riseRelay (h8 _) fuel 10 (by omega) _
    · exact h8 _

theorem State.holdsError_raise (n : Nat) : (s.raise n).holdsError page bit info := by
  unfold State.raise State.raiseFuel
  grind [State.holdsError_count, State.holdsError_setSrc, State.holdsError_deliverFuel]

/-- A message writes no word below 0x180. -/
theorem State.holdsError_sendMsix (q : Port) (v : Nat) (hv : v < 2048) : (s.sendMsix q v).holdsError page bit info :=
  State.holdsError_of_words h (s.word_sendMsix _ _ _ _ (by omega) (by omega) hv) (s.word_sendMsix _ _ _ _ (by omega) (by omega) hv)

theorem State.holdsError_pageInterrupt (p : Nat) : (s.pageInterrupt p).holdsError page bit info := by
  have hm (u : State) (q : Port) (w : Nat) (hu : u.holdsError page bit info) : (u.sendMsix q (bits w 0 11)).holdsError page bit info :=
    State.holdsError_sendMsix hu q _ (bits_lt w 0 11)
  unfold State.pageInterrupt State.field
  grind [State.holdsError_raise]

end

/-- An error's bit rises, and where it rose unmasked its page's interrupt is raised (R403). -/
theorem State.err_eq (page bit : Nat) : s.err page bit =
    if (s.riseBit page bit).2 && (s.riseBit page bit).1.unmasked page bit then (s.riseBit page bit).1.pageInterrupt page
    else (s.riseBit page bit).1 := rfl

/-- An error holds its bit of ERR_STATUS on every page, 0x0C1 included, and leaves ERR_INFO (R403). -/
theorem State.err_holdsError {s : State} {page bit info : Nat} (hi : s.word page 0x024 = info) (hb : bit < 32) :
    (s.err page bit).holdsError page bit info := by
  have hr : (s.riseBit page bit).1.holdsError page bit info :=
    ⟨by rw [s.riseBit_status _ _ hb, Nat.testBit_or, Nat.testBit_two_pow_self, Bool.or_true],
      (s.word_riseBit _ _ _ _ (by omega) (by omega)).trans hi⟩
  rw [State.err_eq]
  split
  · exact State.holdsError_pageInterrupt hr page
  · exact hr

theorem reqCode_lt (req : Requester) : reqCode req < 9 := by
  cases req with
  | port p => exact Nat.lt_trans p.isLt (by omega)
  | _ => simp [reqCode]

/-- An error of a requester's access to a register is recorded as R402 and R403 say. -/
theorem State.errInfo_recorded (page kind off : Nat) (req : Requester) (hk : kind < 4) (ho : off < 4096) :
    s.recorded (s.errInfo page kind off (reqCode req)) page kind off req := by
  obtain ⟨hbit, hinfo⟩ := State.err_holdsError (bit := kind) (s.word_setWord_self page 0x024
    (off % 4096 + reqCode req * 2 ^ 12 + kind * 2 ^ 16)) (by omega)
  refine ⟨hbit, s.errInfo_status page kind off (reqCode req) hk, hinfo.trans ?_⟩
  have := reqCode_lt req
  omega

/-! ### The register words an error leaves -/

/-- A page's interrupt leaves every register word but those of page 0x0C1 and the pending words of the ports (R252, R296). -/
theorem State.word_pageInterrupt_of_not_pend (page p o : Nat) (hp : p ≠ 0x0C1) (ho : o < 4096)
    (hn : ¬(8 ≤ p ∧ p < 14 ∧ 0x180 ≤ o ∧ o < 0x280)) : (s.pageInterrupt page).word p o = s.word p o := by
  have hm (u : State) (q : Port) (w : Nat) : (u.sendMsix q (bits w 0 11)).word p o = u.word p o :=
    u.word_sendMsix q _ p o ho (by have := q.isLt; unfold prtPage; omega) (bits_lt w 0 11)
  unfold State.pageInterrupt State.field
  grind [State.word_raise]

/-- An error leaves what its page's interrupt leaves, but for ERR_STATUS and ERR_FIRST of its page (R403). -/
theorem State.word_err_of_not_pend (page bit p o : Nat) (hp : p ≠ 0x0C1) (ho : o < 4096)
    (hn : ¬(8 ≤ p ∧ p < 14 ∧ 0x180 ≤ o ∧ o < 0x280)) (h18 : 4096 * p + o ≠ 4096 * page + 0x018)
    (h20 : 4096 * p + o ≠ 4096 * page + 0x020) : (s.err page bit).word p o = s.word p o := by
  have hr := s.word_riseBit page bit p o h18 h20
  rw [State.err_eq]
  split
  · exact (State.word_pageInterrupt_of_not_pend _ _ _ _ hp ho hn).trans hr
  · exact hr

/-- A common error moves ERR_STATUS, ERR_FIRST and ERR_INFO of its page, and what its page's interrupt moves (R402, R403). -/
theorem State.errInfo_keepsRegs (page kind off req : Nat) :
    s.keepsRegs (s.errInfo page kind off req) page [0x018, 0x020, 0x024] := by
  intro p o _ ho hp hl hn
  have hne : p ≠ page ∨ (o ≠ 0x018 ∧ o ≠ 0x020 ∧ o ≠ 0x024) := by
    by_cases e : p = page
    · exact .inr (by simpa using hl e)
    · exact .inl e
  unfold State.errInfo
  rw [State.word_err_of_not_pend _ _ _ _ _ hp ho hn (by omega) (by omega), State.word_setWord_ne _ _ _ _ _ _ (by omega)]

/-! ### Bad accesses -/

/-- A requester that may act has what it asks for carried out at once. -/
theorem State.inOrder_acting {s : State} {req : Requester} (c : Instr) (f : State → State) (h : s.acting req = true) :
    s.inOrder c req f = f s := by
  simp only [State.acting, Bool.and_eq_true, Bool.not_eq_true'] at h
  obtain ⟨⟨hpresent, hsecure⟩, hturn⟩ := h
  exact State.inOrder_open c f hpresent hsecure hturn

theorem exec_bar0BadAccess (s : State) (req : Requester) (page off width : Nat) (write : Bool) :
    exec (.bar0BadAccess req page off width write) s = execBar0BadAccess req page off width write s := rfl

theorem exec_registerWrite (s : State) (req : Requester) (page off : Nat) (wide : Bool) (v : DWord) :
    exec (.registerWrite req page off wide v) s = execRegisterWrite req page off wide v s := rfl

/-- BAR0_BAD_ACCESS of a requester that may act records the access, and a read answers zero (R8). -/
theorem exec_bar0BadAccess_acting {s : State} {req : Requester} {off width : Nat} (page : Nat) (write : Bool) (ho : off < 4096)
    (hb : goodAccess off width = false) (ha : s.acting req = true) :
    exec (.bar0BadAccess req page off width write) s
      = .next (if write then s.badAccess req page off else (s.badAccess req page off).emit (.readData req 0#64)) := by
  rw [exec_bar0BadAccess]
  simp [execBar0BadAccess, done, Nat.mod_eq_of_lt ho, hb, State.inOrder_acting _ _ ha]

/-- REGISTER_WRITE at an offset that its width does not divide records the access and writes nothing (R8). -/
theorem exec_registerWrite_bad {s : State} {req : Requester} {off : Nat} {wide : Bool} (page : Nat) (v : DWord) (ho : off < 4096)
    (hb : goodAccess off (if wide then 8 else 4) = false) (ha : s.acting req = true) :
    exec (.registerWrite req page off wide v) s = .next (s.badAccess req page off) := by
  rw [exec_registerWrite]
  simp [execRegisterWrite, done, Nat.mod_eq_of_lt ho, hb, State.inOrder_acting _ _ ha]

theorem State.badAccess_sees {s : State} {req : Requester} {page off : Nat} (h : s.sees req page off = true) :
    s.badAccess req page off = s.errInfo (errPage page) 1 off (reqCode req) := by
  simp [State.badAccess, h]

end

/-- Settles O4: where its requester may act and sees the page, a bad access is the recording of an ACCESS error and nothing else. -/
theorem badAccessReadsZeroAndIsRecorded : Obligations.BadAccessReadsZeroAndIsRecorded := by
  intro s req page off width ho hadmits
  obtain ⟨hact, hsees⟩ : s.acting req = true ∧ s.sees req page off = true := by
    simpa only [State.admits, Bool.and_eq_true] using hadmits
  refine ⟨fun hbad => ?_, fun wide v hbad => ?_⟩
  · obtain ⟨hstaged, htaken, hsel, -, -⟩ := State.reg_of_quiet (s.errInfo_quiet (errPage page) 1 off (reqCode req))
    have hread := exec_bar0BadAccess_acting page false ho hbad hact
    have hwrite := exec_bar0BadAccess_acting page true ho hbad hact
    simp only [State.badAccess_sees hsees, Bool.false_eq_true, if_false, if_true] at hread hwrite
    exact ⟨_, _, hread, hwrite, rfl, s.errInfo_recorded _ _ _ _ (by omega) ho, s.errInfo_changes _ _ _ _,
      s.errInfo_keepsRegs _ _ _ _, hstaged, htaken, hsel⟩
  · rw [exec_registerWrite_bad page v ho hbad hact, exec_bar0BadAccess_acting page true ho hbad hact, if_pos rfl]

end Sys2Proof.Machine
end

section
/-! PROOFS. A read of a port, of a line that is neither coherent nor published (R44): it is taken up at once, its map entries are looked up and its heat is counted, and then it is answered from the home of its tile. Two relations say what happens before the answer: Looks, of a look-up of map entries and of traffic to the memories, and Heats, of a counted access. -/

namespace Sys2Proof.Machine

/-! ### What a look-up leaves -/

/-- From s to t no data of a read was sent. -/
def State.sendsNoData (s t : State) : Prop := ∃ o, t.out = s.out ++ o ∧ ∀ q n d b, Out.memData q n d b ∉ o

theorem State.sendsNoData_refl (s : State) : s.sendsNoData s := ⟨[], by simp⟩

theorem State.sendsNoData.trans {s t u : State} (h : s.sendsNoData t) (k : t.sendsNoData u) : s.sendsNoData u := by
  obtain ⟨o, ho, hno⟩ := h
  obtain ⟨o', ho', hno'⟩ := k
  exact ⟨o ++ o', by rw [ho', ho, List.append_assoc], fun q n d b => by simp [hno, hno']⟩

/-- The state with everything set aside that a look-up of map entries and a memory access may touch: the caches of map entries, the memory controllers, what is sent, and the count of free values. -/
def State.unlooked (s : State) : State :=
  { s with mem := { s.mem with tmapCache := [], cmapCache := [] }, dram := {}, out := [], freeCtr := 0 }

/-- From s to t map entries were looked up and lines accessed, and no more (R20, R49). -/
structure State.Looks (s t : State) : Prop where
  frame : t.unlooked = s.unlooked
  sent : s.sendsNoData t

theorem State.Looks.refl (s : State) : s.Looks s := ⟨rfl, s.sendsNoData_refl⟩

theorem State.Looks.trans {s t u : State} (h : s.Looks t) (k : t.Looks u) : s.Looks u :=
  ⟨k.frame.trans h.frame, h.sent.trans k.sent⟩

theorem foldl_looks {α} {f : State → α → State} (hf : ∀ (s : State) (a : α), s.Looks (f s a)) (l : List α) (s : State) :
    s.Looks (l.foldl f s) := by
  induction l generalizing s with
  | nil => exact .refl s
  | cons a l ih => exact (hf s a).trans (ih _)

section
variable (s : State)

theorem State.modChan_looks (ch : Chan) (f : ChanState → ChanState) : s.Looks (s.modChan ch f) := by
  cases ch <;> exact ⟨rfl, s.sendsNoData_refl⟩

theorem State.dramOut_looks (ch : Chan) (cmd bank row : Nat) : s.Looks (s.dramOut ch cmd bank row) := by
  cases ch <;> exact ⟨rfl, _, rfl, by simp⟩

theorem State.dramPush_looks (ch : Chan) (r : DramReq) : s.Looks (s.dramPush ch r) := by
  unfold State.dramPush
  simp only []
  split
  · exact .refl s
  · split
    · exact (s.modChan_looks _ _).trans (State.dramOut_looks _ _ _ _ _)
    · exact s.modChan_looks _ _

theorem State.dramVat_looks (slot line : Nat) (write : Bool) (w : Traffic) : s.Looks (s.dramVat slot line write w) :=
  s.dramPush_looks _ _

theorem State.cellarPush_looks (package c b line : Nat) (write : Bool) (w : Traffic) : s.Looks (s.cellarPush package c b line write w) :=
  s.dramPush_looks _ _

theorem State.dramCellar_looks (package sector n : Nat) (write : Bool) (w : Traffic) : s.Looks (s.dramCellar package sector n write w) := by
  refine foldl_looks (fun t i => ?_) _ s
  simp only []
  split
  · exact (t.cellarPush_looks _ _ _ _ _ _).trans (State.cellarPush_looks _ _ _ _ _ _ _)
  · exact t.cellarPush_looks _ _ _ _ _ _

theorem State.cacheRoom_looks (cache : Sparse Nat) (ways : Nat) (place : Nat → Nat × Nat) : s.Looks (s.cacheRoom cache ways place).2 := by
  have hdraw : s.Looks s.draw.2 := ⟨rfl, s.sendsNoData_refl⟩
  unfold State.cacheRoom
  split
  · exact .refl s
  · simp only []
    split
    · exact hdraw
    · simp only []
      split
      · exact hdraw.trans (State.dramVat_looks _ _ _ _ _)
      · exact hdraw

theorem State.lookTile_looks (t : Nat) (w : Traffic) : s.Looks (s.lookTile t w) := by
  unfold State.lookTile
  split
  · exact .refl s
  · obtain ⟨hframe, hsent⟩ := (s.dramVat_looks _ _ _ _).trans (State.cacheRoom_looks _ s.mem.tmapCache tmapWays s.tmapPlace)
    exact ⟨hframe, hsent⟩

theorem State.lookCask_looks (k : Nat) (w : Traffic) : s.Looks (s.lookCask k w) := by
  unfold State.lookCask
  split
  · exact .refl s
  · obtain ⟨hframe, hsent⟩ := (s.dramVat_looks _ _ _ _).trans (State.cacheRoom_looks _ s.mem.cmapCache cmapWays s.cmapPlace)
    exact ⟨hframe, hsent⟩

end

/-! ### What a counted access leaves -/

/-- The state with everything set aside that a counted access to a tile may touch beside: the register words, for its event counters, the racking engine, and the tier map. -/
def State.unheated (s : State) : State :=
  { s.unlooked with reg := {}, rck := {}, mem := { s.unlooked.mem with tierMap := [] } }

/-- From s to t accesses were counted (R62, R64): every tile keeps its place, and every register word outside the racking engine's second page its value. -/
structure State.Heats (s t : State) : Prop where
  frame : t.unheated = s.unheated
  sent : s.sendsNoData t
  home : ∀ x, t.home x = s.home x
  loc : ∀ x, t.loc x = s.loc x
  word : ∀ p o, p ≠ 0x019 → o < 4096 → t.word p o = s.word p o

theorem State.Heats.refl (s : State) : s.Heats s := ⟨rfl, s.sendsNoData_refl, fun _ => rfl, fun _ => rfl, fun _ _ _ _ => rfl⟩

theorem State.Heats.trans {s t u : State} (h : s.Heats t) (k : t.Heats u) : s.Heats u where
  frame := k.frame.trans h.frame
  sent := h.sent.trans k.sent
  home x := (k.home x).trans (h.home x)
  loc x := (k.loc x).trans (h.loc x)
  word p o hp ho := (k.word p o hp ho).trans (h.word p o hp ho)

section
variable {s t : State}

theorem State.Looks.tierMap (h : s.Looks t) : t.mem.tierMap = s.mem.tierMap := congrArg (fun u => u.mem.tierMap) h.frame
theorem State.Looks.reg (h : s.Looks t) : t.reg = s.reg := (congrArg State.reg h.frame :)
theorem State.Looks.order (h : s.Looks t) : t.order = s.order := (congrArg State.order h.frame :)

theorem State.Looks.tmap (h : s.Looks t) (x : Nat) : t.tmap x = s.tmap x := by rw [State.tmap, h.tierMap, State.tmap]

theorem State.Looks.heats (h : s.Looks t) : s.Heats t where
  frame := (congrArg State.unheated h.frame :)
  sent := h.sent
  home x := by rw [State.home, h.tmap, State.home]
  loc x := by rw [State.loc, h.tmap, State.loc]
  word p o _ _ := by rw [State.word, h.reg, h.order, State.word]

theorem State.Looks.changesOnly (h : s.Looks t) : s.changesOnly t [.mem, .dram, .out, .freeCtr] := by
  intro q hq
  have hframe := h.frame
  simp only [State.unlooked, State.mk.injEq] at hframe
  cases q <;> simp_all [Part.same]

theorem State.Heats.changesOnly (h : s.Heats t) : s.changesOnly t lineTraffic := by
  intro q hq
  have hframe := h.frame
  simp only [State.unheated, State.unlooked, State.mk.injEq] at hframe
  cases q <;> simp_all [lineTraffic, Part.same]

/-! ### What a counted access leaves of what the answer rests on -/

theorem State.Heats.rgn (h : s.Heats t) : t.rgn = s.rgn := (congrArg State.rgn h.frame :)
theorem State.Heats.prs (h : s.Heats t) : t.prs = s.prs := (congrArg State.prs h.frame :)
theorem State.Heats.ports (h : s.Heats t) : t.ports = s.ports := (congrArg State.ports h.frame :)
theorem State.Heats.vat (h : s.Heats t) : t.mem.vat = s.mem.vat := congrArg (fun u => u.mem.vat) h.frame
theorem State.Heats.vatPoison (h : s.Heats t) : t.mem.vatPoison = s.mem.vatPoison := congrArg (fun u => u.mem.vatPoison) h.frame
theorem State.Heats.cellar (h : s.Heats t) : t.mem.cellar = s.mem.cellar := congrArg (fun u => u.mem.cellar) h.frame
theorem State.Heats.cellarBad (h : s.Heats t) : t.mem.cellarBad = s.mem.cellarBad := congrArg (fun u => u.mem.cellarBad) h.frame
theorem State.Heats.caskMap (h : s.Heats t) : t.mem.caskMap = s.mem.caskMap := congrArg (fun u => u.mem.caskMap) h.frame
theorem State.Heats.channelOut (h : s.Heats t) : t.mem.channelOut = s.mem.channelOut := congrArg (fun u => u.mem.channelOut) h.frame

theorem State.Heats.keepsBytes (h : s.Heats t) : s.keepsBytes t := ⟨h.vat, h.vatPoison, h.cellar⟩

theorem State.Heats.port (h : s.Heats t) (p : Port) : t.port p = s.port p := by rw [State.port, h.ports, State.port]

theorem State.Heats.field (h : s.Heats t) (p o lo w : Nat) (hp : p ≠ 0x019) (ho : o < 4096) : t.field p o lo w = s.field p o lo w := by
  rw [State.field, h.word p o hp ho, State.field]

/-- A port takes requests as READY, CONTAINED and its own state say (R226, R246, R250). -/
theorem State.portTakes_congr {p : Port} (h100 : t.word (prtPage p) 0x100 = s.word (prtPage p) 0x100)
    (h108 : t.word (prtPage p) 0x108 = s.word (prtPage p) 0x108) (hreset : (t.port p).resetAt = (s.port p).resetAt)
    (hl23 : (t.port p).l23 = (s.port p).l23) : t.portTakes p = s.portTakes p := by
  have hready : t.portIsReady p = s.portIsReady p := by rw [State.portIsReady, State.field, h100]; rfl
  have hcontained : t.contained p = s.contained p := by rw [State.contained, State.field, h108]; rfl
  rw [State.portTakes, hready, hcontained, hreset, hl23, State.portTakes]

theorem State.Heats.portTakes (h : s.Heats t) (p : Port) : t.portTakes p = s.portTakes p := by
  have hp : prtPage p ≠ 0x019 := by unfold prtPage; omega
  exact State.portTakes_congr (h.word _ _ hp (by omega)) (h.word _ _ hp (by omega)) (by rw [h.port]) (by rw [h.port])

theorem State.Heats.canMaster (h : s.Heats t) (p : Port) : t.canMaster p = s.canMaster p := by
  simp only [State.canMaster, h.portTakes, h.port]

theorem State.Heats.findRegion (h : s.Heats t) (a : Nat) : t.findRegion a = s.findRegion a := by
  rw [State.findRegion, h.rgn, State.findRegion]

theorem State.Heats.lineOut (h : s.Heats t) (slot line : Nat) : t.lineOut slot line = s.lineOut slot line := by
  simp only [State.lineOut, h.channelOut]

theorem State.Heats.cmapPlace (h : s.Heats t) (k : Nat) : t.cmapPlace k = s.cmapPlace k := by
  simp only [State.cmapPlace, State.rangeGib, h.field 0x012 0x100 0 15 (by decide) (by decide)]

theorem State.Heats.inService (h : s.Heats t) {a : Nat} (hs : s.inService a) : t.inService a := by
  simpa only [State.inService, h.lineOut, h.cmapPlace, h.home, h.loc, State.tmapPlace] using hs

theorem State.Heats.vatLine (h : s.Heats t) (slot line : Nat) : t.vatLine slot line = s.vatLine slot line := by
  simp only [State.vatLine, h.vatPoison, h.vat]

theorem State.Heats.cmap (h : s.Heats t) (k : Nat) : t.cmap k = s.cmap k := by rw [State.cmap, h.caskMap, State.cmap]

theorem State.Heats.cask (h : s.Heats t) (k : Nat) : t.cask k = s.cask k := by rw [State.cask, h.cmap, State.cask]

theorem State.Heats.bufOf (h : s.Heats t) (k : Nat) : t.bufOf k = s.bufOf k := by rw [State.bufOf, h.prs, State.bufOf]

theorem State.Heats.cached (h : s.Heats t) (k : Nat) : t.cached k = s.cached k := by rw [State.cached, h.prs, State.cached]

theorem State.Heats.hostPort (h : s.Heats t) (x : Nat) : t.hostPort x = s.hostPort x := by rw [State.hostPort, h.loc, State.hostPort]

theorem State.Heats.hostPoison (h : s.Heats t) (x i : Nat) : t.hostPoison x i = s.hostPoison x i := by
  rw [State.hostPoison, h.cmap, State.hostPoison]

/-- LOC names one of eight windows at most. -/
theorem State.hostPort_lt (s : State) (x : Nat) : s.hostPort x < 8 := bits_lt _ _ _

theorem State.Heats.windowOnline (h : s.Heats t) (x : Nat) : t.windowOnline (t.hostPort x) = s.windowOnline (s.hostPort x) := by
  have := s.hostPort_lt x
  rw [h.hostPort, State.windowOnline, h.field _ _ _ _ (by decide) (by omega), State.windowOnline]

theorem State.Heats.hostAddr (h : s.Heats t) (x off : Nat) : t.hostAddr x off = s.hostAddr x off := by
  have := s.hostPort_lt x
  simp only [State.hostAddr, State.windowAddr, State.word64, h.hostPort, h.loc]
  rw [h.word _ _ (by decide) (by omega), h.word _ _ (by decide) (by omega)]

end

/-! ### Looking up with the channel in service -/

section
variable (s : State)

theorem State.findTile_inService (t : Nat) (w : Traffic) (h : s.lineOut (s.tmapPlace t).1 (s.tmapPlace t).2 = false) :
    s.findTile t w .none = s.lookTile t w := by
  have hout := (s.lookTile_looks t w).heats.lineOut (s.tmapPlace t).1 (s.tmapPlace t).2
  rw [h] at hout
  simp only [State.findTile, State.tmapPlace] at hout ⊢
  simp [hout]

theorem State.findCask_inService (k : Nat) (w : Traffic) (h : s.lineOut (s.cmapPlace k).1 (s.cmapPlace k).2 = false) :
    s.findCask k w .none = s.lookCask k w := by
  have hlook := (s.lookCask_looks k w).heats
  have hout := hlook.lineOut (s.cmapPlace k).1 (s.cmapPlace k).2
  rw [h] at hout
  simp [State.findCask, hlook.cmapPlace, hout]

/-! ### Heat -/

/-- Replacing bits leaves those below and those above. -/
theorem setBits_parts (v lo w f : Nat) :
    setBits v lo w f % 2 ^ lo = v % 2 ^ lo ∧ setBits v lo w f / 2 ^ (lo + w) = v / 2 ^ (lo + w) := by
  have hlow : v = v % 2 ^ lo + 2 ^ lo * (v / 2 ^ lo) := (Nat.mod_add_div v _).symm
  have hmid : v / 2 ^ lo = bits v lo w + 2 ^ w * (v / 2 ^ lo / 2 ^ w) := (Nat.mod_add_div _ _).symm
  have hset : setBits v lo w f = v % 2 ^ lo + 2 ^ lo * (f % 2 ^ w + 2 ^ w * (v / 2 ^ lo / 2 ^ w)) := by
    have : v = v % 2 ^ lo + 2 ^ lo * (2 ^ w * (v / 2 ^ lo / 2 ^ w)) + bits v lo w * 2 ^ lo := by
      conv_lhs => rw [hlow, hmid]
      ring
    unfold setBits
    rw [Nat.sub_eq_of_eq_add this]
    ring
  have hl := Nat.mod_lt v (Nat.two_pow_pos lo)
  have hf := Nat.mod_lt f (Nat.two_pow_pos w)
  rw [hset, Nat.pow_add, ← Nat.div_div_eq_div_mul, ← Nat.div_div_eq_div_mul]
  refine ⟨by simp, ?_⟩
  rw [Nat.add_mul_div_left _ _ (Nat.two_pow_pos lo), Nat.div_eq_of_lt hl, Nat.zero_add,
    Nat.add_mul_div_left _ _ (Nat.two_pow_pos w), Nat.div_eq_of_lt hf, Nat.zero_add]

/-- A field between HOME and LOC of a tier-map entry is written without either (R51). -/
theorem home_loc_setBits (v lo w f : Nat) (hlo : 3 ≤ lo) (hhi : lo + w ≤ 24) :
    bits (setBits v lo w f) 0 3 = bits v 0 3 ∧ bits (setBits v lo w f) 24 32 = bits v 24 32 := by
  obtain ⟨hmod, hdiv⟩ := setBits_parts v lo w f
  refine ⟨?_, ?_⟩
  · have hdvd : 2 ^ 3 ∣ 2 ^ lo := Nat.pow_dvd_pow 2 hlo
    simp only [bits, Nat.pow_zero, Nat.div_one]
    rw [← Nat.mod_mod_of_dvd _ hdvd, hmod, Nat.mod_mod_of_dvd _ hdvd]
  · have hsplit : 2 ^ 24 = 2 ^ (lo + w) * 2 ^ (24 - (lo + w)) := by rw [← Nat.pow_add]; congr 1; omega
    simp only [bits]
    rw [hsplit, ← Nat.div_div_eq_div_mul, hdiv, Nat.div_div_eq_div_mul]

/-- The entry written keeps HOME and LOC of its tile. -/
def State.keepsPlace (t v : Nat) : Prop := bits v 0 3 = s.home t ∧ bits v 24 32 = s.loc t

theorem State.keepsPlace_setBits {t v : Nat} (hv : s.keepsPlace t v) (lo w f : Nat) (hlo : 3 ≤ lo) (hhi : lo + w ≤ 24) :
    s.keepsPlace t (setBits v lo w f) := by
  obtain ⟨hhome, hloc⟩ := home_loc_setBits v lo w f hlo hhi
  exact ⟨hhome.trans hv.1, hloc.trans hv.2⟩

theorem State.keepsPlace_tmap (t : Nat) : s.keepsPlace t (s.tmap t) := ⟨rfl, rfl⟩

theorem State.tmap_putTmap (t v x : Nat) : (s.putTmap t v).tmap x = if x = t then v % 2 ^ 64 else s.tmap x := by
  simp only [State.tmap, State.putTmap, sget_sset]
  split <;> rfl

theorem State.putTmap_heats {t v : Nat} (hv : s.keepsPlace t v) : s.Heats (s.putTmap t v) := by
  obtain ⟨hhome, hloc⟩ := hv
  have hlook := s.lookTile_looks t background
  refine ⟨(congrArg State.unheated hlook.frame :), hlook.sent, fun x => ?_, fun x => ?_, hlook.heats.word⟩
  · rw [State.home, State.tmap_putTmap]
    split
    · subst x
      rw [← hhome]
      simp only [bits]
      omega
    · rfl
  · rw [State.loc, State.tmap_putTmap]
    split
    · subst x
      rw [← hloc]
      simp only [bits]
      omega
    · rfl

theorem State.setTmap_heats {t v : Nat} (hin : s.lineOut (s.tmapPlace t).1 (s.tmapPlace t).2 = false) (hv : s.keepsPlace t v) :
    s.Heats (s.setTmap t v) := by
  have hlook := s.lookTile_looks t background
  have hv' : (s.lookTile t background).keepsPlace t v := by
    rwa [State.keepsPlace, hlook.heats.home, hlook.heats.loc]
  rw [State.setTmap, s.findTile_inService t background hin]
  simp only [hlook.tmap, if_true]
  exact hlook.heats.trans (State.putTmap_heats _ hv')

theorem State.writeHeat_heats {t : Nat} (h : Nat) (hin : s.lineOut (s.tmapPlace t).1 (s.tmapPlace t).2 = false) : s.Heats (s.writeHeat t h) := by
  have hv := s.keepsPlace_setBits (s.keepsPlace_setBits (s.keepsPlace_tmap t) 8 8 (min 255 h) (by omega) (by omega))
    16 8 (s.epoch % 256) (by omega) (by omega)
  refine s.setTmap_heats hin ?_
  split
  · exact hv
  · exact s.keepsPlace_setBits hv 4 1 0 (by omega) (by omega)

theorem State.acceptMove_heats {t : Nat} (kind : MoveKind) (hin : s.lineOut (s.tmapPlace t).1 (s.tmapPlace t).2 = false) :
    s.Heats (s.acceptMove t kind) := by
  unfold State.acceptMove
  split
  · exact .refl s
  · obtain ⟨hframe, hsent, hhome, hloc, hword⟩ :=
      s.setTmap_heats hin (s.keepsPlace_setBits (s.keepsPlace_tmap t) 3 1 (if true then 1 else 0) (by omega) (by omega))
    exact ⟨hframe, hsent, hhome, hloc, hword⟩

/-- The racking engine counts its events on its second page. -/
theorem State.count_heats (i n : Nat) (hi : i < 6) : s.Heats (s.count 0x019 i n) where
  frame := by unfold State.count; split <;> rfl
  sent := by unfold State.count; split <;> exact s.sendsNoData_refl
  home x := by unfold State.count; split <;> rfl
  loc x := by unfold State.count; split <;> rfl
  word p o hp ho := s.word_count _ _ _ _ _ (by omega)

theorem State.awaitMove_heats (t : Nat) : s.Heats (s.awaitMove t) := by
  unfold State.awaitMove
  split
  · exact .refl s
  · have hwait : s.Heats { s with rck := { s.rck with promoteWait := s.rck.promoteWait ++ [t] } } :=
      ⟨rfl, s.sendsNoData_refl, fun _ => rfl, fun _ => rfl, fun _ _ _ _ => rfl⟩
    exact hwait.trans (State.count_heats _ _ _ (by omega))

theorem State.promoteIfDue_heats {t : Nat} (hin : s.lineOut (s.tmapPlace t).1 (s.tmapPlace t).2 = false) : s.Heats (s.promoteIfDue t) := by
  unfold State.promoteIfDue
  split
  · split
    · exact s.acceptMove_heats _ hin
    · split
      · exact s.awaitMove_heats t
      · exact .refl s
  · exact .refl s

/-- An access to a tile without a home, or whose contents are lost, counts no heat (R62). -/
theorem State.heatAccess_bare {t : Nat} (inc : Nat) (h : s.home t = 0 ∨ s.home t = 4) : s.heatAccess t inc = s := by
  unfold State.heatAccess
  rw [if_neg (by omega)]

theorem State.heatAccess_heats {t : Nat} (inc : Nat) (hin : s.lineOut (s.tmapPlace t).1 (s.tmapPlace t).2 = false) :
    s.Heats (s.heatAccess t inc) := by
  unfold State.heatAccess
  split
  · have hheat := s.writeHeat_heats (min 255 (s.decayed t + inc)) hin
    exact hheat.trans (State.promoteIfDue_heats _ (by rwa [hheat.lineOut]))
  · exact .refl s

end

/-! ### Taking the request up -/

/-- A request is a read of a port, decoded to the unified address a (R27, R117). -/
structure MemReq.Reads (r : MemReq) (p : Port) (tag a : Nat) : Prop where
  port : r.port = p.val
  tag : r.tag = tag
  addr : r.addr = a
  op : r.op = 0
  decoded : r.decoded = true
  poison : r.poison = false

theorem exec_memRd (p : Port) (tag haddr : Nat) (mv : MetaValue) (upset : Upset) (s : State) :
    exec (.memRd p tag haddr mv upset) s = .next (s.request p (memReq p tag haddr 0 mv) upset) := rfl

theorem exec_memSpecRd (p : Port) (haddr : Nat) (s : State) :
    exec (.memSpecRd p haddr) s
      = .next (if !(s.portTakes p) then s else if s.ideRefuses p true then (s.ideFail p).settle else s.ideArrive p true) := rfl

section
variable {s : State} {p : Port}

/-- A flit of CXL.mem moves no stream that waits for no key-set switch (R253). -/
theorem State.ideArrive_mem (h : sget none (s.port p).ideGo 1 = none) : s.ideArrive p true = s := by
  simp [State.ideArrive, h]

theorem State.meshTake_spared (tag : Nat) (h : s.meshSpares p) : s.meshTake p tag = (none, s) := by
  have hfind : s.dir.meshHits.find? (fun e => decide (e.1 = p.val ∧ e.2.1 = tag)) = none :=
    List.find?_eq_none.mpr (fun e he => by simp [h e he])
  simp only [State.meshTake, hfind]

theorem State.standsBack_clear {r : MemReq} (h : s.clearOf p) (hr : r.port = p.val) : s.standsBack r = false := by
  obtain ⟨hwaiting, hdraft⟩ := h
  have hany : s.dir.waiting.any (s.standsBehind r) = false := by
    simp only [List.any_eq_false]
    intro w hw
    simp [State.standsBehind, hr, hwaiting w hw]
  simp [State.standsBack, hany, hr, hdraft]

/-- No class-0 allowance regulates a request of another class (R257). -/
theorem State.regulated_of_classOf {r : MemReq} (h : s.classOf r.addr ≠ 0) : s.regulated r = false := by
  cases hregion : s.findRegion r.addr with
  | none => simp [State.regulated, hregion]
  | some e =>
    have hcls : e.2.cls ≠ 0 := by simpa [State.classOf, hregion] using h
    simp [State.regulated, hregion, hcls]

/-- A request that opens is let in as it is decoded (R27, R242). -/
theorem State.request_opens {haddr a : Nat} {d : Decoder} (r : MemReq) (x : Upset) (h : s.opens p haddr d a) (hport : r.port = p.val)
    (hhaddr : r.haddr = haddr) :
    s.request p r x = s.letIn p { r with addr := a, decoded := true, hdmH := d.hdmH, back := decide (r.op = 2) && s.snooped p.val (a / 64) }
      { upset := x } := by
  obtain ⟨htakes, hide, hgo, hclear, hmesh, hdecode, -⟩ := h
  have hback (r' : MemReq) (hr : r'.port = r.port) : s.standsBack r' = false := State.standsBack_clear hclear (hr.trans hport)
  simp [State.request, htakes, hide, State.ideArrive_mem hgo, State.meshTake_spared r.tag hmesh, State.arrive, hhaddr, hdecode, hback]

/-- A read that lands on a line that is not coherent is served at once. -/
theorem State.request_lands {haddr a : Nat} {k : Region} (tag : Nat) (mv : MetaValue) (h : s.lands p haddr a k false) (hk : k.kind ≠ 1) :
    ∃ r : MemReq, r.Reads p tag a ∧ r.heated = false ∧ s.request p (memReq p tag haddr 0 mv) .none = s.serveRead r .none := by
  obtain ⟨-, d, g, hopens, hright, hregion⟩ := h
  obtain ⟨-, -, -, -, -, -, -, -, hclass⟩ := id hopens
  refine ⟨{ memReq p tag haddr 0 mv with addr := a, hdmH := d.hdmH }, ⟨rfl, rfl, rfl, rfl, rfl, rfl⟩, rfl, ?_⟩
  rw [State.request_opens _ _ hopens rfl rfl, State.letIn, State.regulated_of_classOf hclass]
  simp [State.takeReq, State.serve, memReq, hright, hregion, hk]

/-- A read of a line that is in no published region is served from its tile's home, once its map entry is looked up and its heat counted. -/
theorem State.serveRead_home {r : MemReq} {g : Nat} {k : Region} (hregion : s.findRegion r.addr = some (g, k)) (hk : k.kind ≠ 2)
    (hin : s.inService r.addr) (hheated : r.heated = false) :
    ∃ u, s.Heats u ∧ (s.home (tileOf r.addr) = 0 ∨ s.home (tileOf r.addr) = 4 → s.Looks u)
      ∧ s.serveRead r .none = u.serveHome { r with heated := true } .none := by
  have hlook := s.lookTile_looks (tileOf r.addr) (s.traffic r)
  have hfind := s.findTile_inService (tileOf r.addr) (s.traffic r) hin.1
  have hheat := State.heatAccess_heats (s.lookTile (tileOf r.addr) (s.traffic r))
    (s.lookTile (tileOf r.addr) (s.traffic r)).readInc (hlook.heats.inService hin).1
  have hpublished : ((s.lookTile (tileOf r.addr) (s.traffic r))).publishedAt r.addr = none := by
    simp [State.publishedAt, hlook.heats.findRegion, hregion, hk]
  refine ⟨_, hlook.heats.trans hheat, fun hbare => ?_, ?_⟩
  · rw [State.heatAccess_bare _ _ (by rwa [hlook.heats.home])]
    exact hlook
  · simp only [State.serveRead, hfind, hheated, hpublished, Bool.false_eq_true, if_false]

/-- A read that lands on a line that is neither coherent nor published is served from its tile's home, after look-ups and a counted access. -/
theorem exec_memRd_lands {haddr a : Nat} {k : Region} (tag : Nat) (mv : MetaValue) (h : s.lands p haddr a k false) (hk1 : k.kind ≠ 1)
    (hk2 : k.kind ≠ 2) :
    ∃ u r, MemReq.Reads r p tag a ∧ s.Heats u ∧ (s.home (tileOf a) = 0 ∨ s.home (tileOf a) = 4 → s.Looks u)
      ∧ exec (.memRd p tag haddr mv .none) s = .next (u.serveHome r .none) := by
  obtain ⟨r, ⟨hport, htag, rfl, hop, hdecoded, hpoison⟩, hheated, hrequest⟩ := State.request_lands tag mv h hk1
  obtain ⟨hin, -, g, -, -, hregion⟩ := h
  obtain ⟨u, hheats, hlooks, hserve⟩ := State.serveRead_home hregion hk2 hin hheated
  exact ⟨u, { r with heated := true }, ⟨hport, htag, rfl, hop, hdecoded, hpoison⟩, hheats, hlooks, by rw [exec_memRd, hrequest, hserve]⟩

end

/-! ### The answer -/

section
variable (s : State)

theorem State.count_changes (page i n : Nat) : s.changesOnly (s.count page i n) [.reg] := by
  unfold State.count
  split
  · exact s.changesOnly_refl _
  · intro q hq
    cases q <;> simp_all [Part.same]

theorem State.emit_changes (o : Out) : s.changesOnly (s.emit o) [.out] := by
  intro q hq
  cases q <;> simp_all [Part.same]

theorem portOf_val (p : Port) : portOf p.val = some p := by simp [portOf]

end

/-- From s to t nothing changed of what the answer to a port's read rests on: the bytes, the tiles' homes, the ports that take requests, and the regions. -/
structure State.Spares (s t : State) : Prop where
  bytes : s.keepsBytes t
  home : ∀ x, t.home x = s.home x
  takes : ∀ p, t.portTakes p = s.portTakes p
  rgn : t.rgn = s.rgn

theorem State.Spares.refl (s : State) : s.Spares s := ⟨⟨rfl, rfl, rfl⟩, fun _ => rfl, fun _ => rfl, rfl⟩

theorem State.Spares.trans {s t u : State} (h : s.Spares t) (k : t.Spares u) : s.Spares u where
  bytes := ⟨k.bytes.1.trans h.bytes.1, k.bytes.2.1.trans h.bytes.2.1, k.bytes.2.2.trans h.bytes.2.2⟩
  home x := (k.home x).trans (h.home x)
  takes p := (k.takes p).trans (h.takes p)
  rgn := k.rgn.trans h.rgn

theorem State.spares_of_mem {s t : State} (hmem : t.mem = s.mem) (htakes : ∀ p, t.portTakes p = s.portTakes p) (hrgn : t.rgn = s.rgn) :
    s.Spares t :=
  ⟨⟨by rw [hmem], by rw [hmem], by rw [hmem]⟩, fun x => by simp only [State.home, State.tmap, hmem], htakes, hrgn⟩

theorem State.Heats.spares {s t : State} (h : s.Heats t) : s.Spares t := ⟨h.keepsBytes, h.home, h.portTakes, h.rgn⟩

/-- The port takes requests, and the line at a is not coherent: a read of it is answered with data alone (R230). -/
def State.openTo (s : State) (p : Port) (a : Nat) : Prop := s.portTakes p = true ∧ s.coherent a = false

theorem State.Spares.openTo {s t : State} {p : Port} {a : Nat} (h : s.Spares t) (hs : s.openTo p a) : t.openTo p a := by
  simpa only [State.openTo, State.coherent, State.findRegion, h.takes, h.rgn] using hs

theorem State.openTo_of_lands {s : State} {p : Port} {haddr a : Nat} {k : Region} {write : Bool} (h : s.lands p haddr a k write)
    (hk : k.kind ≠ 1) : s.openTo p a := by
  obtain ⟨-, d, g, ⟨htakes, -⟩, -, hregion⟩ := h
  exact ⟨htakes, by simp [State.coherent, hregion, hk]⟩

section
variable {s : State} {p : Port} {tag a : Nat} {r : MemReq}

/-- A read that is answered with data: the last message is the line or, poisoned, zeros (R230, R243). -/
theorem State.respondRead_eq (hr : r.Reads p tag a) (hs : s.openTo p a) (data : List Byte) (poison : Bool) :
    s.respondRead r data poison
      = (if poison then s.count (prtPage p) 5 else s).emit (.memData p.val tag (if poison then zeroLine else data) poison) := by
  obtain ⟨hport, htag, haddr, -, -, hpoison⟩ := hr
  obtain ⟨htakes, hcoherent⟩ := hs
  have hcount : (s.count (prtPage p) 5).coherent a = false := by
    have hrgn := s.count_changes (prtPage p) 5 1 .rgn (by decide)
    rwa [State.coherent, State.findRegion, hrgn]
  cases poison <;>
    simp [State.respondRead, State.answers, hport, portOf_val, htakes, hpoison, htag, haddr, hcoherent, hcount, zeroLine]

theorem State.respondRead_answers (hr : r.Reads p tag a) (hs : s.openTo p a) (data : List Byte) (poison : Bool) :
    (s.respondRead r data poison).out.getLast? = some (.memData p.val tag (if poison then zeroLine else data) poison) := by
  simp [State.respondRead_eq hr hs]

theorem State.respondRead_changes (hr : r.Reads p tag a) (hs : s.openTo p a) (data : List Byte) (poison : Bool) :
    s.changesOnly (s.respondRead r data poison) (if poison then [.reg, .out] else [.out]) := by
  rw [State.respondRead_eq hr hs]
  cases poison with
  | false => exact State.emit_changes _ _
  | true => exact State.changesOnly_trans (s.count_changes _ _ _) (State.emit_changes _ _) (by simp) (by simp)

theorem State.respondRead_mem (hr : r.Reads p tag a) (hs : s.openTo p a) (data : List Byte) (poison : Bool) :
    (s.respondRead r data poison).mem = s.mem :=
  State.respondRead_changes hr hs data poison .mem (by cases poison <;> decide)

end

/-! ### Each home -/

section
variable {s : State} {r : MemReq}

theorem State.serveHome_none (h : s.home (tileOf r.addr) = 0) : s.serveHome r .none = s.respondRead r zeroLine false := by
  simp [State.serveHome, h, zeroLine]

theorem State.serveHome_lost (h : s.home (tileOf r.addr) = 4) : s.serveHome r .none = s.respondRead r [] true := by
  simp [State.serveHome, h]

theorem State.serveHome_vat (h : s.home (tileOf r.addr) = 1) (hin : s.inService r.addr) :
    s.serveHome r .none = (s.dramVat (s.loc (tileOf r.addr)) (lineOf r.addr) false (s.traffic r)).respondRead r
      (s.vatLine (s.loc (tileOf r.addr)) (lineOf r.addr)).1 (s.vatLine (s.loc (tileOf r.addr)) (lineOf r.addr)).2 := by
  obtain ⟨-, -, hout⟩ := hin
  simp [State.serveHome, h, State.readVatEcc, hout h]

theorem State.serveHome_cellar (h : s.home (tileOf r.addr) = 2) (hin : s.inService r.addr) :
    ∃ u, s.Looks u ∧ s.serveHome r .none = u.readCellar r := by
  obtain ⟨-, hout, -⟩ := hin
  have hlook := s.lookCask_looks (caskOf r.addr) (s.traffic r)
  refine ⟨_, hlook, ?_⟩
  simp [State.serveHome, h, s.findCask_inService _ _ hout, hlook.heats.home]

theorem State.serveHome_host (h : s.home (tileOf r.addr) = 3) (hin : s.inService r.addr) :
    ∃ u, s.Looks u ∧ s.serveHome r .none
      = if s.windowOnline (s.hostPort (tileOf r.addr)) = false ∨ s.hostPoison (tileOf r.addr) (lineOf r.addr) = true then u.respondRead r [] true
        else u.askHost r := by
  obtain ⟨-, hout, -⟩ := hin
  have hlook := s.lookCask_looks (caskOf r.addr) (s.traffic r)
  refine ⟨_, hlook, ?_⟩
  simp [State.serveHome, h, s.findCask_inService _ _ hout, hlook.heats.home, hlook.heats.windowOnline, hlook.heats.hostPoison]

end

/-! ### A line of a cellar tile -/

/-- What a read of a stored cask finds: poison where it is quarantined, the cask cache's content, or what its sectors decode to (R100 to R104). -/
def State.storedLines (s : State) (k : Nat) : List Byte × BitVec 64 :=
  let e := s.cask k
  let sectors := s.getSectors e.package e.sector e.length
  if e.quarantined then (List.replicate 4096 0#8, BitVec.allOnes 64)
  else match s.cached k with
    | some c => (Memory.bytes c.data 0 4096, c.poison)
    | none =>
      match decodeCask (some (e.method, e.table, e.poisonAny)) e.length sectors.1 sectors.2 s.tableLens with
      | .ok raw poison _ => (raw, poison)
      | .damaged _ => (List.replicate 4096 0#8, BitVec.allOnes 64)

/-- One line of a cask, from its buffer where written, else as it is stored (R105). -/
def State.caskLineHeld (s : State) (k i : Nat) : List Byte × Bool :=
  let stored := (((s.storedLines k).1.drop (64 * i)).take 64, (s.storedLines k).2.getLsbD i)
  match s.bufOf k with
  | some b => if b.mask.getLsbD i then b.line i else stored
  | none => stored

theorem State.Heats.tableLens {s t : State} (h : s.Heats t) : t.tableLens = s.tableLens := by
  funext id
  have htable : t.table id = s.table id := by rw [State.table, h.prs, State.table]
  simp only [State.tableLens, htable]

theorem State.Heats.storedLines {s t : State} (h : s.Heats t) (k : Nat) : t.storedLines k = s.storedLines k := by
  simp only [State.storedLines, h.cask, h.cached, State.getSectors, h.cellar, h.cellarBad, h.tableLens]

theorem State.Heats.caskLineHeld {s t : State} (h : s.Heats t) (k i : Nat) : t.caskLineHeld k i = s.caskLineHeld k i := by
  simp only [State.caskLineHeld, h.storedLines, h.bufOf]

section
variable (s : State)

theorem State.decodeNow_lines (k : Nat) (w : Traffic) (hq : (s.cask k).quarantined = false) (hc : s.cached k = none) :
    ((s.decodeNow k w).1, (s.decodeNow k w).2.1) = s.storedLines k := by
  have hdram := (s.dramCellar_looks (s.cask k).package (s.cask k).sector (s.cask k).length false w).heats
  rw [← hdram.storedLines]
  simp only [State.storedLines, hdram.cask, hdram.cached, hq, hc, Bool.false_eq_true, if_false]
  simp only [State.decodeNow, State.decodeRead, State.readSectors, hdram.cask, if_true, Bool.or_false]
  generalize decodeCask _ _ _ _ _ = content
  cases content with
  | ok raw poison excess => rfl
  | damaged code => rfl

theorem State.storedCask_lines (k : Nat) (w : Traffic) : ((s.storedCask k w).1, (s.storedCask k w).2.1) = s.storedLines k := by
  have hlook := (s.lookCask_looks k w).heats
  rw [← hlook.storedLines]
  unfold State.storedCask
  simp only []
  split
  · next hq => simp only [State.storedLines, hq, if_true]
  · next hq =>
    split
    · next c hc => simp only [State.storedLines, hq, hc, Bool.false_eq_true, if_false]
    · next hc => exact State.decodeNow_lines _ k w (by simpa using hq) hc

theorem State.caskLine_held (k i : Nat) (w : Traffic) : ((s.caskLine k i w).1, (s.caskLine k i w).2.1) = s.caskLineHeld k i := by
  have hstored := s.storedCask_lines k w
  unfold State.caskLine State.caskLineHeld
  simp only [← hstored]
  cases s.bufOf k with
  | none => rfl
  | some b =>
    dsimp only
    split <;> rfl

end

/-! ### What a line answered at once leaves -/

section
variable (s : State)

theorem State.prs_spares (x : PrsState) : s.Spares { s with prs := x } := State.spares_of_mem rfl (fun _ => rfl) rfl

theorem State.count_spares (page n : Nat) {i : Nat} (hi : i < 6) : s.Spares (s.count page i n) := by
  have hchanges := s.count_changes page i n
  have hmem : (s.count page i n).mem = s.mem := hchanges .mem (by decide)
  have hports : (s.count page i n).ports = s.ports := hchanges .ports (by decide)
  have hport (p : Port) : (s.count page i n).port p = s.port p := by rw [State.port, hports, State.port]
  refine State.spares_of_mem hmem (fun p => ?_) (hchanges .rgn (by decide))
  exact State.portTakes_congr (s.word_count _ _ _ _ _ (by unfold prtPage; omega)) (s.word_count _ _ _ _ _ (by unfold prtPage; omega))
    (by rw [hport]) (by rw [hport])

theorem State.emit_spares (o : Out) : s.Spares (s.emit o) := State.spares_of_mem rfl (fun _ => rfl) rfl

theorem State.respondRead_spares {p : Port} {tag a : Nat} {r : MemReq} (hr : r.Reads p tag a) (hs : s.openTo p a) (data : List Byte)
    (poison : Bool) : s.Spares (s.respondRead r data poison) := by
  rw [State.respondRead_eq hr hs]
  cases poison with
  | false => exact State.emit_spares _ _
  | true => exact (s.count_spares _ 1 (by omega)).trans (State.emit_spares _ _)

theorem State.port_of_quiet {s t : State} (h : t.quiet = s.quiet) (p : Port) :
    (t.port p).resetAt = (s.port p).resetAt ∧ (t.port p).l23 = (s.port p).l23 := by
  have hp := congrArg (fun u => u.ports[p]) h
  simp only [State.quiet, Fin.getElem_fin, Vector.getElem_map, PortState.mk.injEq] at hp
  simp only [State.port, Fin.getElem_fin]
  simp_all

theorem State.err_spares (page bit : Nat) : s.Spares (s.err page bit) := by
  have hquiet := s.err_quiet page bit
  have hmem : (s.err page bit).mem = s.mem := s.err_changes page bit .mem (by decide)
  refine State.spares_of_mem hmem (fun p => ?_) (s.err_changes page bit .rgn (by decide))
  obtain ⟨hreset, hl23⟩ := State.port_of_quiet hquiet p
  have hp := p.isLt
  exact State.portTakes_congr (s.word_err _ _ _ _ (by unfold prtPage; omega) (by omega) (by unfold prtPage; omega) (by unfold prtPage; omega))
    (s.word_err _ _ _ _ (by unfold prtPage; omega) (by omega) (by unfold prtPage; omega) (by unfold prtPage; omega)) hreset hl23

theorem State.putCmap_spares (k v : Nat) : s.Spares (s.putCmap k v) := by
  obtain ⟨hbytes, hhome, htakes, hrgn⟩ := (s.lookCask_looks k background).heats.spares
  exact ⟨hbytes, hhome, htakes, hrgn⟩

theorem State.setCmap_spares {k : Nat} (v : Nat) (hin : s.lineOut (s.cmapPlace k).1 (s.cmapPlace k).2 = false) : s.Spares (s.setCmap k v) := by
  have hlook := (s.lookCask_looks k background).heats
  rw [State.setCmap, s.findCask_inService k background hin]
  simp only [hlook.home, if_true]
  exact hlook.spares.trans (State.putCmap_spares _ _ _)

theorem State.pushQlog_spares (e : QEntry) : s.Spares (s.pushQlog e).1 := by
  unfold State.pushQlog
  split
  · exact s.prs_spares _
  · exact (s.prs_spares _).trans (State.err_spares _ _ _)

/-- A cask found damaged by its content alone is quarantined, logged, counted and told of (R103). -/
theorem State.quarantine_spares {k code : Nat} (foundBy sector : Nat) (hcode : code ≠ 6)
    (hin : s.lineOut (s.cmapPlace k).1 (s.cmapPlace k).2 = false) : s.Spares (s.quarantine k code foundBy sector) := by
  rw [State.quarantine, if_neg hcode]
  have hset := (s.setCmap_spares ({ s.cask k with quarantined := true } : CaskEntry).toNat hin).trans
    (State.prs_spares _ { s.prs with qReason := sset 0 s.prs.qReason k (code + 1) })
  exact ((hset.trans (State.pushQlog_spares _ _)).trans (State.count_spares _ _ 1 (by omega))).trans
    (State.err_spares _ _ _)

/-- A cask without sectors is 4,096 zero bytes, or its entry is damaged (R101). -/
theorem decodeCask_empty (entry : Option (Nat × Nat × Bool)) (bytes : List Byte) (bad : Bool) (tables : Nat → Option (List Nat)) :
    decodeCask entry 0 bytes bad tables = .ok (List.replicate 4096 0#8) 0#64 false ∨ decodeCask entry 0 bytes bad tables = .damaged 7 := by
  unfold decodeCask
  rw [if_pos rfl]
  split
  · exact .inl rfl
  · exact .inr rfl

theorem State.decodeNow_spares {k : Nat} (w : Traffic) (hempty : (s.cask k).length = 0)
    (hin : s.lineOut (s.cmapPlace k).1 (s.cmapPlace k).2 = false) : s.Spares (s.decodeNow k w).2.2 := by
  have hdram := (s.dramCellar_looks (s.cask k).package (s.cask k).sector (s.cask k).length false w).heats
  refine hdram.spares.trans ?_
  have hempty' := hempty
  rw [← hdram.cask] at hempty'
  simp only [State.decodeNow, State.decodeRead, State.readSectors, hempty', if_true]
  split
  · exact State.prs_spares _ _
  · next code hd =>
    have hcode : code = 7 := by
      rcases decodeCask_empty _ _ _ _ with h | h
      · rw [h] at hd; cases hd
      · rw [h] at hd; cases hd; rfl
    exact State.quarantine_spares _ _ _ (by omega) (by rw [hdram.cmapPlace, hdram.lineOut, hin])

/-- A cask of which no sector has to be read for a line of it (R103, R104). -/
def State.atHand (s : State) (k : Nat) : Prop := (s.cask k).quarantined = true ∨ (s.cached k).isSome = true ∨ (s.cask k).length = 0

theorem State.storedCask_spares {k : Nat} (w : Traffic) (h : s.atHand k) (hin : s.lineOut (s.cmapPlace k).1 (s.cmapPlace k).2 = false) :
    s.Spares (s.storedCask k w).2.2 := by
  have hlook := (s.lookCask_looks k w).heats
  refine hlook.spares.trans ?_
  unfold State.storedCask
  simp only []
  split
  · exact .refl _
  · next hq =>
    split
    · exact State.prs_spares _ _
    · next hc =>
      rw [State.atHand, ← hlook.cask, ← hlook.cached, hc] at h
      exact State.decodeNow_spares _ _ (by simpa [hq] using h) (by rw [hlook.cmapPlace, hlook.lineOut, hin])

end

/-! ### A read of a cellar tile -/

/-- A line that is answered at once: its cask's buffer holds it, or no sector of the cask has to be read (R103 to R105). -/
def State.lineHere (s : State) (k i : Nat) : Prop := (∃ b, s.bufOf k = some b ∧ b.mask.getLsbD i = true) ∨ s.atHand k

theorem State.Heats.lineHere {s t : State} (h : s.Heats t) (k i : Nat) : t.lineHere k i ↔ s.lineHere k i := by
  simp only [State.lineHere, State.atHand, h.bufOf, h.cask, h.cached]

section
variable {s : State}

theorem State.caskLine_spares {k i : Nat} (w : Traffic) (h : s.lineHere k i) (hin : s.lineOut (s.cmapPlace k).1 (s.cmapPlace k).2 = false) :
    s.Spares (s.caskLine k i w).2.2 := by
  unfold State.caskLine
  rcases h with ⟨b, hb, hmask⟩ | h
  · simp only [hb, hmask, if_true]
    exact .refl s
  · have hstored := s.storedCask_spares w h hin
    split
    · split
      · exact .refl s
      · exact hstored
    · exact hstored

theorem State.readCellar_here {r : MemReq} (h : s.lineHere (caskOf r.addr) (lineOf r.addr % 64)) :
    s.readCellar r = (s.caskLine (caskOf r.addr) (lineOf r.addr % 64) (s.traffic r)).2.2.respondRead r
      (s.caskLineHeld (caskOf r.addr) (lineOf r.addr % 64)).1 (s.caskLineHeld (caskOf r.addr) (lineOf r.addr % 64)).2 := by
  rw [← s.caskLine_held _ _ (s.traffic r)]
  rcases h with ⟨b, hb, hmask⟩ | hq | hc | hl
  · simp [State.readCellar, hb, hmask]
  · simp [State.readCellar, hq]
  · simp [State.readCellar, hc]
  · simp [State.readCellar, hl]

theorem State.readCellar_away {r : MemReq} (h : ¬ s.lineHere (caskOf r.addr) (lineOf r.addr % 64)) :
    s.readCellar r = s.askCask (caskOf r.addr) r := by
  obtain ⟨hbuf, hq, hc, hl⟩ : (∀ b, s.bufOf (caskOf r.addr) = some b → b.mask.getLsbD (lineOf r.addr % 64) = false)
      ∧ (s.cask (caskOf r.addr)).quarantined = false ∧ (s.cached (caskOf r.addr)).isSome = false ∧ (s.cask (caskOf r.addr)).length ≠ 0 := by
    simpa [State.lineHere, State.atHand] using h
  simp only [State.readCellar]
  rw [if_neg]
  simp only [hq, hc, hl, decide_false, Bool.or_false, Bool.not_eq_true]
  split
  · next b hb => exact hbuf b hb
  · rfl

/-- A request that joins a cask read is the last of it, and nothing but accesses to the cellar goes out for it (R100). -/
theorem State.askCask_queues (k : Nat) (r : MemReq) :
    (∃ x ∈ (s.askCask k r).prs.reads, x.cask = k ∧ ∃ r', x.reqs.getLast? = some r' ∧ r'.port = r.port ∧ r'.tag = r.tag)
      ∧ s.Spares (s.askCask k r) ∧ s.sendsNoData (s.askCask k r) := by
  unfold State.askCask
  simp only []
  split
  · next hany =>
    obtain ⟨x, hx, hk⟩ : ∃ x ∈ s.prs.reads, x.cask = k := by simpa using hany
    refine ⟨⟨_, List.mem_map_of_mem hx, ?_⟩, s.prs_spares _, s.sendsNoData_refl⟩
    simp [hk]
  · have hdram (u : State) := (u.dramCellar_looks (s.cask k).package (s.cask k).sector (s.cask k).length false (s.traffic r))
    refine ⟨?_, (s.prs_spares _).trans (hdram _).heats.spares, (hdram _).sent⟩
    rw [(hdram _).heats.prs]
    exact ⟨_, List.mem_append_right _ (List.mem_singleton_self _), rfl, _, rfl, rfl, rfl⟩

end

/-! ### A read of a host-tier tile -/

theorem State.modPort_port (s : State) (p : Port) (f : PortState → PortState) : (s.modPort p f).port p = f (s.port p) :=
  Vector.getElem_set_self p.isLt

/-- A read that may be issued goes out, and its tag awaits the data for the request (R44, R278). -/
theorem State.askHost_issues {s : State} {r : MemReq} {q : Port} (hq : portOf (s.hostPort (tileOf r.addr)) = some q)
    (hmaster : s.canMaster q = true) (htag : (nextTagOf (s.port q)).isSome = true) :
    ∃ g, s.keepsBytes (s.askHost r)
      ∧ (s.askHost r).out.getLast? = some (.dmaRead q.val g (s.hostAddr (tileOf r.addr) (64 * lineOf r.addr)) 64)
      ∧ ∃ x ∈ ((s.askHost r).port q).tags, x.tag = g ∧ x.consumer = .demand r := by
  obtain ⟨⟨g, q'⟩, hnext⟩ := Option.isSome_iff_exists.mp htag
  refine ⟨g, ?_⟩
  simp only [State.askHost, hq, hmaster, if_true, State.issueRead, hnext]
  refine ⟨⟨rfl, rfl, rfl⟩, by simp, ?_⟩
  simp only [State.port, State.emit_ports]
  rw [← State.port, State.modPort_port]
  exact ⟨_, List.mem_append_right _ (List.mem_singleton_self _), rfl, rfl⟩

/-! ### A read of each home -/

/-- A poisoned line of a slot holds no data (R335). -/
theorem State.vatLine_poisoned {s : State} {slot line : Nat} (h : (s.vatLine slot line).2 = true) : (s.vatLine slot line).1 = zeroLine := by
  unfold State.vatLine at h ⊢
  split at h
  · next hp => rw [if_pos hp]; rfl
  · cases h

section
variable {s : State} {p : Port} {haddr a : Nat} {k : Region} (tag : Nat) (mv : MetaValue) (h : s.lands p haddr a k false)
  (hk1 : k.kind ≠ 1) (hk2 : k.kind ≠ 2)
include h hk1 hk2

/-- A read of a tile that holds no bytes is answered after look-ups alone. -/
theorem exec_memRd_bare (data : List Byte) (poison : Bool) (hhome : s.home (tileOf a) = 0 ∨ s.home (tileOf a) = 4)
    (hserve : ∀ (u : State) (r : MemReq), u.home (tileOf r.addr) = s.home (tileOf a) → u.serveHome r .none = u.respondRead r data poison) :
    ∃ t, exec (.memRd p tag haddr mv .none) s = .next t
      ∧ t.out.getLast? = some (.memData p.val tag (if poison then zeroLine else data) poison)
      ∧ t.mem.tierMap = s.mem.tierMap ∧ s.keepsBytes t
      ∧ s.changesOnly t ((if poison then [.reg] else []) ++ [.mem, .dram, .out, .freeCtr]) := by
  obtain ⟨u, r, hr, hheats, hlooks, hexec⟩ := exec_memRd_lands tag mv h hk1 hk2
  have hlook := hlooks hhome
  have hopen := hheats.spares.openTo (State.openTo_of_lands h hk1)
  rw [hserve u r (by rw [hr.addr, hheats.home])] at hexec
  refine ⟨_, hexec, State.respondRead_answers hr hopen _ _, ?_, (hheats.spares.trans (u.respondRead_spares hr hopen _ _)).bytes, ?_⟩
  · rw [State.respondRead_mem hr hopen, hlook.tierMap]
  · exact State.changesOnly_trans hlook.changesOnly (State.respondRead_changes hr hopen _ _) (by simp) (by cases poison <;> simp)

theorem exec_memRd_vat (hhome : s.home (tileOf a) = 1) :
    ∃ t, exec (.memRd p tag haddr mv .none) s = .next t
      ∧ t.out.getLast? = some (.memData p.val tag (s.vatLine (s.loc (tileOf a)) (lineOf a)).1 (s.vatLine (s.loc (tileOf a)) (lineOf a)).2)
      ∧ (∀ x, t.home x = s.home x) ∧ s.keepsBytes t ∧ s.changesOnly t lineTraffic := by
  obtain ⟨u, r, hr, hheats, -, hexec⟩ := exec_memRd_lands tag mv h hk1 hk2
  obtain rfl := hr.addr
  rw [State.serveHome_vat (by rw [hheats.home, hhome]) (hheats.inService h.1), hheats.vatLine, hheats.loc] at hexec
  have htraffic := hheats.trans (u.dramVat_looks (s.loc (tileOf r.addr)) (lineOf r.addr) false (u.traffic r)).heats
  have hopen := htraffic.spares.openTo (State.openTo_of_lands h hk1)
  have hspares (d : List Byte) (q : Bool) := htraffic.spares.trans (State.respondRead_spares _ hr hopen d q)
  refine ⟨_, hexec, ?_, (hspares _ _).home, (hspares _ _).bytes, State.changesOnly_trans htraffic.changesOnly
    (State.respondRead_changes hr hopen _ _) (fun _ => id) ?_⟩
  · rw [State.respondRead_answers hr hopen]
    congr 2
    split
    · next hpoison => exact (State.vatLine_poisoned hpoison).symm
    · rfl
  · split <;> simp [lineTraffic]

theorem exec_memRd_cellar (hhome : s.home (tileOf a) = 2) :
    ∃ t, exec (.memRd p tag haddr mv .none) s = .next t ∧ s.keepsBytes t ∧ (∀ x, t.home x = s.home x)
      ∧ (s.lineHere (caskOf a) (lineOf a % 64) → t.out.getLast? = some (.memData p.val tag
          (if (s.caskLineHeld (caskOf a) (lineOf a % 64)).2 then zeroLine else (s.caskLineHeld (caskOf a) (lineOf a % 64)).1)
          (s.caskLineHeld (caskOf a) (lineOf a % 64)).2))
      ∧ (¬ s.lineHere (caskOf a) (lineOf a % 64) →
          (∃ x ∈ t.prs.reads, x.cask = caskOf a ∧ ∃ r, x.reqs.getLast? = some r ∧ r.port = p.val ∧ r.tag = tag) ∧ s.sendsNoData t) := by
  obtain ⟨u, r, hr, hheats, -, hexec⟩ := exec_memRd_lands tag mv h hk1 hk2
  obtain rfl := hr.addr
  obtain ⟨v, hlook, hserve⟩ := State.serveHome_cellar (by rw [hheats.home, hhome]) (hheats.inService h.1)
  have hfound := hheats.trans hlook.heats
  rw [hserve] at hexec
  by_cases hhere : s.lineHere (caskOf r.addr) (lineOf r.addr % 64)
  · have hhere' := (hfound.lineHere _ _).mpr hhere
    have hline := hfound.spares.trans (State.caskLine_spares (v.traffic r) hhere' (hfound.inService h.1).2.1)
    have hopen := hline.openTo (State.openTo_of_lands h hk1)
    have hspares (d : List Byte) (q : Bool) := hline.trans (State.respondRead_spares _ hr hopen d q)
    rw [State.readCellar_here hhere', hfound.caskLineHeld] at hexec
    exact ⟨_, hexec, (hspares _ _).bytes, (hspares _ _).home, fun _ => State.respondRead_answers hr hopen _ _, fun hn => absurd hhere hn⟩
  · rw [State.readCellar_away (fun hn => hhere ((hfound.lineHere _ _).mp hn))] at hexec
    obtain ⟨⟨x, hx, hcask, r', hlast, hport, htag⟩, hspares, hsent⟩ := State.askCask_queues (s := v) (caskOf r.addr) r
    have hkept := hfound.spares.trans hspares
    exact ⟨_, hexec, hkept.bytes, hkept.home, fun hn => absurd hn hhere,
      fun _ => ⟨⟨x, hx, hcask, r', hlast, hport.trans hr.port, htag.trans hr.tag⟩, hfound.sent.trans hsent⟩⟩

/-- The line of a host-tier tile cannot be read: its window is offline, or the line is poisoned (R53, R74). -/
theorem exec_memRd_hostLost (hhome : s.home (tileOf a) = 3)
    (hlost : s.windowOnline (s.hostPort (tileOf a)) = false ∨ s.hostPoison (tileOf a) (lineOf a) = true) :
    ∃ t, exec (.memRd p tag haddr mv .none) s = .next t ∧ t.out.getLast? = some (.memData p.val tag zeroLine true) ∧ s.keepsBytes t := by
  obtain ⟨u, r, hr, hheats, -, hexec⟩ := exec_memRd_lands tag mv h hk1 hk2
  obtain rfl := hr.addr
  obtain ⟨v, hlook, hserve⟩ := State.serveHome_host (by rw [hheats.home, hhome]) (hheats.inService h.1)
  have hfound := (hheats.trans hlook.heats).spares
  have hopen := hfound.openTo (State.openTo_of_lands h hk1)
  rw [hserve, if_pos (by rwa [hheats.windowOnline, hheats.hostPoison])] at hexec
  exact ⟨_, hexec, State.respondRead_answers hr hopen _ _, (hfound.trans (State.respondRead_spares _ hr hopen _ _)).bytes⟩

theorem exec_memRd_hostRead (hhome : s.home (tileOf a) = 3)
    (hlost : ¬ (s.windowOnline (s.hostPort (tileOf a)) = false ∨ s.hostPoison (tileOf a) (lineOf a) = true)) {q : Port}
    (hq : portOf (s.hostPort (tileOf a)) = some q) (hmaster : s.canMaster q = true) (htags : (nextTagOf (s.port q)).isSome = true) :
    ∃ t g r, exec (.memRd p tag haddr mv .none) s = .next t ∧ s.keepsBytes t
      ∧ t.out.getLast? = some (.dmaRead q.val g (s.hostAddr (tileOf a) (64 * lineOf a)) 64)
      ∧ (∃ x ∈ (t.port q).tags, x.tag = g ∧ x.consumer = .demand r) ∧ r.port = p.val ∧ r.tag = tag := by
  obtain ⟨u, r, hr, hheats, -, hexec⟩ := exec_memRd_lands tag mv h hk1 hk2
  obtain rfl := hr.addr
  obtain ⟨v, hlook, hserve⟩ := State.serveHome_host (by rw [hheats.home, hhome]) (hheats.inService h.1)
  have hfound := hheats.trans hlook.heats
  rw [hserve, if_neg (by rwa [hheats.windowOnline, hheats.hostPoison])] at hexec
  obtain ⟨g, hbytes, hout, htag⟩ := State.askHost_issues (s := v) (r := r) (q := q) (by rwa [hfound.hostPort]) (by rwa [hfound.canMaster])
    (by rwa [hfound.port])
  rw [hfound.hostAddr] at hout
  obtain ⟨hvat, hpoison, hcellar⟩ := hbytes
  exact ⟨_, g, r, hexec, ⟨hvat.trans hfound.vat, hpoison.trans hfound.vatPoison, hcellar.trans hfound.cellar⟩, hout, htag, hr.port, hr.tag⟩

end

/-- A speculative read that meets no IDE rule and no key-set switch has no effect (R230). -/
theorem exec_memSpecRd_ignored {s : State} {p : Port} (haddr : Nat)
    (h : s.portTakes p = true → s.ideRefuses p true = false ∧ sget none (s.port p).ideGo 1 = none) : exec (.memSpecRd p haddr) s = .next s := by
  rw [exec_memSpecRd]
  cases htakes : s.portTakes p with
  | false => rfl
  | true =>
    obtain ⟨hide, hgo⟩ := h htakes
    simp [hide, State.ideArrive_mem hgo]

/-- Settles O14, home by home: a read that lands is served from its tile's home after look-ups and a counted access, which keep the bytes, the homes and what the answer rests on. -/
theorem memReadReturnsTheHomesLine : Obligations.MemReadReturnsTheHomesLine := by
  refine ⟨fun s p tag haddr a mv k h hk1 hk2 => ⟨fun hhome => ?_, fun hhome => ?_, fun hhome => ?_, fun hhome => ?_, fun hhome => ⟨?_, ?_⟩⟩,
    fun s p haddr h => exec_memSpecRd_ignored haddr h⟩
  · exact exec_memRd_bare tag mv h hk1 hk2 zeroLine false (.inl hhome) (fun u r hu => State.serveHome_none (hu.trans hhome))
  · exact exec_memRd_vat tag mv h hk1 hk2 hhome
  · exact exec_memRd_bare tag mv h hk1 hk2 [] true (.inr hhome) (fun u r hu => State.serveHome_lost (hu.trans hhome))
  · have hheld := s.caskLine_held (caskOf a) (lineOf a % 64) ⟨k.cls, p.val⟩
    have hcellar := exec_memRd_cellar tag mv h hk1 hk2 hhome
    rw [← hheld] at hcellar
    exact hcellar
  · exact exec_memRd_hostLost tag mv h hk1 hk2 hhome
  · exact fun q hlost hq hmaster htags => exec_memRd_hostRead tag mv h hk1 hk2 hhome hlost hq hmaster htags

end Sys2Proof.Machine
end

section
/-! PROOFS. What the presses and the racking engine leave (R63 to R81, R100 to R107). Two relations: SparesCasks, of work that changes no cask's map entry and no cask cache, and Works, of any work on casks, each with every vat channel in service. -/

namespace Sys2Proof.Machine

/-! ### What the work of the presses leaves -/

/-- The state with everything set aside that the presses and the racking engine may touch, beside signals, while they change no cask: the memories but for the cask map and the channels out of service, the racking engine but for its re-encodes, the presses but for their caches and reads, the memory controllers, what the cooper finds due, and the count of free values. -/
def State.besideCasks (s : State) : State :=
  { s with
    mem := { channelOut := s.mem.channelOut, caskMap := s.mem.caskMap }
    rck := { reencodes := s.rck.reencodes }
    prs := { reads := s.prs.reads, cache := s.prs.cache }
    dram := {}
    igr := { s.igr with due := [] }
    freeCtr := 0 }

/-- The same with the cask map and the cask caches set aside too. -/
def State.besideWork (s : State) : State :=
  { s.besideCasks with mem := { channelOut := s.mem.channelOut }, prs := { reads := s.prs.reads } }

/-- With every vat channel in service, no cask changes from s to t, nor anything beside signals and the work of the presses and the racking engine. -/
def State.SparesCasks (s t : State) : Prop := s.vatWhole → t.quiet.besideCasks = s.quiet.besideCasks

/-- With every vat channel in service, nothing changes from s to t beside signals and work on casks. -/
def State.Works (s t : State) : Prop := s.vatWhole → t.quiet.besideWork = s.quiet.besideWork

section
variable {s t u : State}

theorem State.channelOut_of_besideWork (h : t.quiet.besideWork = s.quiet.besideWork) : t.mem.channelOut = s.mem.channelOut :=
  congrArg (fun v => v.mem.channelOut) h

theorem State.Works.refl (s : State) : s.Works s := fun _ => rfl

theorem State.Works.whole (h : s.Works t) (hs : s.vatWhole) : t.vatWhole := (State.channelOut_of_besideWork (h hs)).trans hs

theorem State.Works.trans (h : s.Works t) (k : t.Works u) : s.Works u := fun hs => (k (h.whole hs)).trans (h hs)

theorem State.SparesCasks.refl (s : State) : s.SparesCasks s := fun _ => rfl

theorem State.SparesCasks.works (h : s.SparesCasks t) : s.Works t := fun hs => (congrArg State.besideWork (h hs) :)

theorem State.SparesCasks.trans (h : s.SparesCasks t) (k : t.SparesCasks u) : s.SparesCasks u :=
  fun hs => (k (h.works.whole hs)).trans (h hs)

theorem State.SparesCasks.cask (h : s.SparesCasks t) (hs : s.vatWhole) (k : Nat) : t.cask k = s.cask k := by
  have hmap : t.mem.caskMap = s.mem.caskMap := congrArg (fun v => v.mem.caskMap) (h hs)
  rw [State.cask, State.cmap, hmap, State.cask, State.cmap]

theorem State.SparesCasks.cached (h : s.SparesCasks t) (hs : s.vatWhole) (k : Nat) : t.cached k = s.cached k := by
  have hcache : t.prs.cache = s.prs.cache := congrArg (fun v => v.prs.cache) (h hs)
  rw [State.cached, hcache, State.cached]

theorem State.Works.reads (h : s.Works t) (hs : s.vatWhole) : t.prs.reads = s.prs.reads := congrArg (fun v => v.prs.reads) (h hs)

theorem State.Works.reencodes (h : s.Works t) (hs : s.vatWhole) : t.rck.reencodes = s.rck.reencodes :=
  congrArg (fun v => v.rck.reencodes) (h hs)

theorem State.besideWork_draftPending (s : State) (p : Nat) : s.quiet.besideWork.draftPending p = s.draftPending p := by
  simp only [State.draftPending, State.besideWork, State.besideCasks, State.quiet, Vector.toList_map, List.any_map]
  rfl

/-- Work on casks lets nothing wait that did not wait before. -/
theorem State.Works.atRest (h : s.Works t) (hs : s.vatWhole) (hrest : s.atRest) : t.atRest := by
  have hbeside := h hs
  have hdir : t.dir = s.dir := (congrArg State.dir hbeside :)
  have hqmg : t.qmg = s.qmg := (congrArg State.qmg hbeside :)
  have hcopies : t.igr.copies = s.igr.copies := congrArg (fun v => v.igr.copies) hbeside
  obtain ⟨⟨hwaiting, hsnoops, hdraft⟩, hheld, hnone⟩ := hrest
  refine ⟨⟨by rw [hdir, hwaiting], by rwa [hdir], fun p => ?_⟩, by rwa [hqmg], by rw [hcopies, hnone]⟩
  rw [← t.besideWork_draftPending, hbeside, s.besideWork_draftPending, hdraft]

theorem foldl_works {α} {f : State → α → State} (hf : ∀ (s : State) (a : α), s.Works (f s a)) (l : List α) (s : State) :
    s.Works (l.foldl f s) := by
  induction l generalizing s with
  | nil => exact .refl s
  | cons a l ih => exact (hf s a).trans (ih _)

theorem foldl_sparesCasks {α} {f : State → α → State} (hf : ∀ (s : State) (a : α), s.SparesCasks (f s a)) (l : List α) (s : State) :
    s.SparesCasks (l.foldl f s) := by
  induction l generalizing s with
  | nil => exact .refl s
  | cons a l ih => exact (hf s a).trans (ih _)

theorem State.Looks.sparesCasks (h : s.Looks t) : s.SparesCasks t := fun _ => (congrArg (fun v => v.quiet.besideCasks) h.frame :)

/-- Signals change no cask. -/
theorem State.sparesCasks_of_quiet (h : t.quiet = s.quiet) : s.SparesCasks t := fun _ => (congrArg State.besideCasks h :)

/-- With every vat channel in service no line is out. -/
theorem State.lineOut_whole (hs : s.vatWhole) (slot line : Nat) : s.lineOut slot line = false := by
  simp [State.lineOut, hs, sget]

end

/-! ### Work that changes no cask -/

section
variable (s : State)

theorem State.count_sparesCasks (page i n : Nat) : s.SparesCasks (s.count page i n) := State.sparesCasks_of_quiet (s.count_quiet _ _ _)

theorem State.err_sparesCasks (page bit : Nat) : s.SparesCasks (s.err page bit) := State.sparesCasks_of_quiet (s.err_quiet _ _)

theorem State.setField_sparesCasks (page off lo w v : Nat) : s.SparesCasks (s.setField page off lo w v) := fun _ => rfl

theorem State.draw_sparesCasks : s.SparesCasks s.draw.2 := fun _ => rfl

/-- The memories change no cask but in the cask map. -/
theorem State.sparesCasks_of_mem {x : MemState} (hchannel : x.channelOut = s.mem.channelOut) (hcask : x.caskMap = s.mem.caskMap) :
    s.SparesCasks { s with mem := x } := fun _ => by
  simp only [State.besideCasks, State.quiet, hchannel, hcask]

theorem State.putTmap_sparesCasks (t v : Nat) : s.SparesCasks (s.putTmap t v) :=
  (s.lookTile_looks t background).sparesCasks.trans (State.sparesCasks_of_mem _ rfl rfl)

theorem State.setTmap_sparesCasks (t v : Nat) : s.SparesCasks (s.setTmap t v) := by
  intro hs
  have hlook := s.lookTile_looks t background
  rw [State.setTmap, s.findTile_inService t background (State.lineOut_whole hs _ _)]
  simp only [hlook.tmap, if_true]
  exact (hlook.sparesCasks.trans (State.putTmap_sparesCasks _ t v)) hs

/-- The racking engine changes no cask but in its list of re-encodes. -/
theorem State.sparesCasks_of_rck {x : RckState} (h : x.reencodes = s.rck.reencodes) : s.SparesCasks { s with rck := x } := fun _ => by
  simp only [State.besideCasks, State.quiet, h]

theorem State.acceptMove_sparesCasks (t : Nat) (kind : MoveKind) : s.SparesCasks (s.acceptMove t kind) := by
  unfold State.acceptMove
  split
  · exact .refl s
  · exact (s.setTmap_sparesCasks t _).trans (State.sparesCasks_of_rck _ rfl)

/-- Work that begins with a change of the presses beside their reads and caches. -/
theorem State.sparesCasks_of_prs {x : PrsState} {t : State} (h : State.SparesCasks { s with prs := x } t) (hreads : x.reads = s.prs.reads)
    (hcache : x.cache = s.prs.cache) : s.SparesCasks t :=
  State.SparesCasks.trans (fun _ => by simp only [State.besideCasks, State.quiet, hreads, hcache]) h

theorem State.pushQlog_sparesCasks (e : QEntry) : s.SparesCasks (s.pushQlog e).1 := by
  unfold State.pushQlog
  split
  · exact fun _ => rfl
  · exact s.sparesCasks_of_prs (State.err_sparesCasks _ _ _) rfl rfl

theorem State.reported_sparesCasks (u : RepairUnit) : s.SparesCasks (s.reported u) := by
  unfold State.reported
  split <;> exact fun _ => rfl

theorem State.recordUe_sparesCasks (whereTo foundBy addr : Nat) : s.SparesCasks (s.recordUe whereTo foundBy addr) := by
  have hrecord : s.SparesCasks (((s.setWord64 0x0E0 0x130 addr).setWord 0x0E0 0x138 (whereTo + foundBy * 2 ^ 4)).count 0x0E0 2 |>.err 0x0E0 9) :=
    State.sparesCasks_of_quiet (by simp)
  unfold State.recordUe
  simp only []
  split
  · exact hrecord.trans (State.reported_sparesCasks _ _)
  · exact hrecord

theorem State.markSectors_sparesCasks (p x n : Nat) (b : Bool) : s.SparesCasks (s.markSectors p x n b) := fun _ => rfl

theorem State.addRef_sparesCasks (id : Nat) : s.SparesCasks (s.addRef id) := by
  unfold State.addRef
  split <;> exact fun _ => rfl

theorem State.dropRef_sparesCasks (id : Nat) : s.SparesCasks (s.dropRef id) := by
  unfold State.dropRef
  split
  · exact .refl s
  · split <;> exact fun _ => rfl

theorem State.detach_sparesCasks (k : Nat) : s.SparesCasks (s.detach k) := by
  have hpushed (x : Sparse Nat) (e : QEntry) : s.SparesCasks (({ s with prs := { s.prs with qReason := x } } : State).pushQlog e).1 :=
    s.sparesCasks_of_prs (State.pushQlog_sparesCasks _ _) rfl rfl
  unfold State.detach
  simp only []
  split
  · exact fun _ => rfl
  · split
    · exact hpushed _ _
    · exact ((hpushed _ _).trans (State.markSectors_sparesCasks _ _ _ _ _)).trans (State.dropRef_sparesCasks _ _)

/-- What a cask holds is freed, its map entry being left to the caller. -/
theorem State.freeCask_sparesCasks (k : Nat) : s.SparesCasks (s.freeCask k) := by
  unfold State.freeCask
  simp only []
  split
  · exact s.detach_sparesCasks k
  · exact (s.markSectors_sparesCasks _ _ _ _).trans (State.dropRef_sparesCasks _ _)

theorem State.findRun_sparesCasks (package lo size n : Nat) : s.SparesCasks (s.findRun package lo size n).2 := by
  unfold State.findRun
  simp only []
  split <;> exact s.draw_sparesCasks

theorem foldl_snd_sparesCasks {α β} {f : α × State → β → α × State} (hf : ∀ (a : α × State) (b : β), a.2.SparesCasks (f a b).2)
    (l : List β) (a : α × State) : a.2.SparesCasks (l.foldl f a).2 := by
  induction l generalizing a with
  | nil => exact .refl _
  | cons b l ih => exact (hf a b).trans (ih _)

theorem State.findColumn_sparesCasks (t c g n : Nat) : s.SparesCasks (s.findColumn t c g n).2 := by
  refine foldl_snd_sparesCasks (fun a k => ?_) _ (none, s)
  split
  · exact .refl _
  · simp only []
    split
    · exact State.findRun_sparesCasks _ _ _ _ _
    · exact .refl _

theorem State.takeFor_sparesCasks {k g n p x : Nat} {u : State} (h : s.takeFor k g n = some (p, x, u)) : s.SparesCasks u := by
  unfold State.takeFor State.takeSectors at h
  split at h
  · have hrun := s.findRun_sparesCasks (s.cask k).package 0 caskSectors n
    simp only [] at h
    split at h
    · next hfind => cases h; rw [hfind] at hrun; exact hrun.trans (State.markSectors_sparesCasks _ _ _ _ _)
    · cases h
  · have hcolumn := s.findColumn_sparesCasks (k / 4) (k % 4) g n
    split at h
    · next hfind => cases h; rw [hfind] at hcolumn; exact hcolumn.trans (State.markSectors_sparesCasks _ _ _ _ _)
    · cases h

end

section
variable (s : State)

/-! ### Usage settles -/

theorem State.watermarks_sparesCasks : s.SparesCasks s.watermarks := by
  unfold State.watermarks
  extract_lets mark
  have hmark (u : State) (bit up down : Nat) : u.SparesCasks (mark u bit up down) := by
    simp only [mark]
    split
    · split
      · exact (u.setField_sparesCasks _ _ _ _ _).trans (State.err_sparesCasks _ _ _)
      · exact .refl u
    · split
      · exact .refl u
      · exact u.setField_sparesCasks _ _ _ _ _
  exact (hmark s 0 85 80).trans (hmark _ 1 95 90)

theorem spillFrom_sparesCasks (l : List Nat) (freed : Nat) : s.SparesCasks (spillFrom l freed s) := by
  induction l generalizing freed s with
  | nil => exact .refl s
  | cons t l ih =>
    unfold spillFrom
    split
    · exact .refl s
    · split
      · split
        · exact (s.count_sparesCasks _ _ _).trans (ih _ _)
        · exact ih _ _
      · exact (s.acceptMove_sparesCasks _ _).trans (ih _ _)

theorem recallFrom_sparesCasks (l : List Nat) (planned : Nat) : s.SparesCasks (recallFrom l planned s) := by
  induction l generalizing planned s with
  | nil => exact .refl s
  | cons t l ih =>
    unfold recallFrom
    split
    · exact .refl s
    · exact (s.acceptMove_sparesCasks _ _).trans (ih _ _)

theorem State.spillOn_sparesCasks : s.SparesCasks s.spillOn := by
  unfold State.spillOn
  split
  · exact .refl s
  split
  · exact s.setField_sparesCasks _ _ _ _ _
  split
  next d s1 hdrawn =>
    have hdraw : s.SparesCasks s1 := by
      cases hdrawn
      exact s.draw_sparesCasks
    extract_lets s2
    have hspill : s.SparesCasks s2 := by
      simp only [s2]
      split
      · exact hdraw.trans (spillFrom_sparesCasks _ _ _)
      · exact hdraw
    split
    · exact hspill
    · exact hspill.trans (State.setField_sparesCasks _ _ _ _ _ _)

theorem State.recallTiles_sparesCasks : s.SparesCasks s.recallTiles := by
  unfold State.recallTiles
  split
  · exact .refl s
  simp only []
  split
  · exact .refl s
  · exact s.draw_sparesCasks.trans (recallFrom_sparesCasks _ _ _)

theorem State.demoteIfLow_sparesCasks : s.SparesCasks s.demoteIfLow := by
  unfold State.demoteIfLow
  split
  · exact .refl s
  split
  · split
    · exact fun _ => rfl
    · exact .refl s
  split
  · have hdraw : s.SparesCasks ({ s with rck := { s.rck with demoting := true } } : State).draw.2 := fun _ => rfl
    exact hdraw.trans (foldl_sparesCasks (fun u t => u.acceptMove_sparesCasks t .demotion) _ _)
  · exact .refl s

/-- After usage or capacity changed, moves are accepted and flags set; no cask changes (R65, R77, R78, R80). -/
theorem State.settleUsage_sparesCasks : s.SparesCasks s.settleUsage := by
  unfold State.settleUsage
  extract_lets s1 s2 s3
  have hmarks : s.SparesCasks s1 := s.watermarks_sparesCasks
  have hdemote : s1.SparesCasks s2 := by
    simp only [s2]
    split
    · exact .refl s1
    · exact foldl_sparesCasks (fun u t => u.acceptMove_sparesCasks t .demotion) _ _
  have hclear : s2.SparesCasks s3 := by
    simp only [s3]
    split
    · exact (s2.setField_sparesCasks _ _ _ _ _).trans (State.setField_sparesCasks _ _ _ _ _ _)
    · exact .refl s2
  exact (((hmarks.trans hdemote).trans hclear).trans ((State.spillOn_sparesCasks _).trans (State.recallTiles_sparesCasks _))).trans
    (State.demoteIfLow_sparesCasks _)

/-! ### A cask's map entry is written -/

theorem State.setCmap_whole (k v : Nat) (hs : s.vatWhole) : s.setCmap k v = (s.lookCask k background).putCmap k v := by
  rw [State.setCmap, s.findCask_inService k background (State.lineOut_whole hs _ _)]
  simp [(s.lookCask_looks k background).heats.home]

/-- Memories of which no channel goes in or out of service are work. -/
theorem State.works_of_mem {x : MemState} (h : x.channelOut = s.mem.channelOut) : s.Works { s with mem := x } := fun _ => by
  simp only [State.besideWork, State.besideCasks, State.quiet, h]

theorem State.putCmap_works (k v : Nat) : s.Works (s.putCmap k v) :=
  (s.lookCask_looks k background).sparesCasks.works.trans (State.works_of_mem _ rfl)

theorem State.setCmap_works (k v : Nat) : s.Works (s.setCmap k v) := by
  intro hs
  rw [s.setCmap_whole k v hs]
  exact ((s.lookCask_looks k background).sparesCasks.works.trans (State.putCmap_works _ k v)) hs

theorem State.cmap_setCmap (k v x : Nat) (hs : s.vatWhole) : (s.setCmap k v).cmap x = if x = k then v % 2 ^ 64 else s.cmap x := by
  rw [s.setCmap_whole k v hs, ← (s.lookCask_looks k background).heats.cmap x]
  simp only [State.cmap, State.putCmap, sget_sset]
  split <;> rfl

theorem State.prs_setCmap (k v : Nat) (hs : s.vatWhole) : (s.setCmap k v).prs = s.prs := by
  rw [s.setCmap_whole k v hs]
  exact ((s.lookCask_looks k background).trans (State.lookCask_looks _ k background)).heats.prs

end

/-- Each field of a cask-map entry is of its width (R52). -/
def CaskEntry.fits (e : CaskEntry) : Prop :=
  e.sector < 2 ^ 30 ∧ e.package < 2 ^ 6 ∧ e.length < 2 ^ 7 ∧ e.method < 2 ^ 3 ∧ e.table < 2 ^ 12

theorem CaskEntry.ofNat_fits (v : Nat) : (CaskEntry.ofNat v).fits :=
  ⟨bits_lt _ _ _, bits_lt _ _ _, bits_lt _ _ _, bits_lt _ _ _, bits_lt _ _ _⟩

/-- An entry whose fields fit is read back as it was written (R52). -/
theorem CaskEntry.ofNat_toNat (e : CaskEntry) (h : e.fits) : CaskEntry.ofNat (e.toNat % 2 ^ 64) = e := by
  obtain ⟨sector, package, length, method, table, poisonAny, quarantined, stale⟩ := e
  obtain ⟨hsector, hpackage, hlength, hmethod, htable⟩ := h
  have hflag (b : Bool) (n : Nat) : (if b then 2 ^ n else 0) = b.toNat * 2 ^ n := by cases b <;> simp
  have hread (b : Bool) : decide (b.toNat = 1) = b := by cases b <;> rfl
  have hp := poisonAny.toNat_lt
  have hq := quarantined.toNat_lt
  have hs := stale.toNat_lt
  have hword : (CaskEntry.mk sector package length method table poisonAny quarantined stale).toNat < 2 ^ 64 := by
    simp only [CaskEntry.toNat, hflag] at *
    omega
  rw [Nat.mod_eq_of_lt hword]
  clear hword
  simp only [CaskEntry.ofNat, CaskEntry.toNat, hflag, bits, Nat.testBit_eq_decide_div_mod_eq, CaskEntry.mk.injEq] at *
  exact ⟨by omega, by omega, by omega, by omega, by omega, (decide_eq_decide.mpr (by omega)).trans (hread _),
    (decide_eq_decide.mpr (by omega)).trans (hread _), (decide_eq_decide.mpr (by omega)).trans (hread _)⟩

section
variable (s : State)

theorem State.setCask_works (k : Nat) (e : CaskEntry) : s.Works (s.setCask k e) := s.setCmap_works k e.toNat

theorem State.cask_setCask (k : Nat) (e : CaskEntry) (he : e.fits) (hs : s.vatWhole) : (s.setCask k e).cask k = e := by
  rw [State.cask, State.setCask, s.cmap_setCmap _ _ _ hs, if_pos rfl, CaskEntry.ofNat_toNat e he]

end

end Sys2Proof.Machine
end

section
/-! PROOFS. Casks are read and re-encoded (R81, R100 to R104): a returned read decodes its cask, which is cached or quarantined, and answers from what was found; a cask sent to be re-encoded is decoded, encoded again and stored anew, or gives up its sectors where it is zeros. -/

namespace Sys2Proof.Machine

/-! ### A cask is found damaged, or decoded -/

section
variable (s : State)

/-- The words above the ports' pages say nothing of the ports. -/
theorem State.setWord_spares (page off v : Nat) (hpage : 14 ≤ page) : s.Spares (s.setWord page off v) := by
  have hword (p : Port) (o : Nat) (ho : o < 4096) : (s.setWord page off v).word (prtPage p) o = s.word (prtPage p) o := by
    have := p.isLt
    exact s.word_setWord_ne _ _ _ _ _ (by unfold prtPage; omega)
  exact State.spares_of_mem rfl (fun p => State.portTakes_congr (hword p _ (by omega)) (hword p _ (by omega)) rfl rfl) rfl

theorem State.reported_spares (u : RepairUnit) : s.Spares (s.reported u) := by
  unfold State.reported
  split
  · exact .refl s
  · exact State.spares_of_mem rfl (fun _ => rfl) rfl

theorem State.recordUe_spares (whereTo foundBy addr : Nat) : s.Spares (s.recordUe whereTo foundBy addr) := by
  have hwords : s.Spares ((s.setWord64 0x0E0 0x130 addr).setWord 0x0E0 0x138 (whereTo + foundBy * 2 ^ 4)) :=
    ((s.setWord_spares _ _ _ (by omega)).trans (State.setWord_spares _ _ _ _ (by omega))).trans (State.setWord_spares _ _ _ _ (by omega))
  have hrecord := (hwords.trans (State.count_spares _ 0x0E0 1 (by omega : 2 < 6))).trans (State.err_spares _ 0x0E0 9)
  unfold State.recordUe
  simp only []
  split
  · exact hrecord.trans (State.reported_spares _ _)
  · exact hrecord

/-- A sector's error is recorded (R338). -/
def State.ueRecorded (k code foundBy sector : Nat) : State :=
  if code = 6 then s.recordUe 2 foundBy ((s.cask k).package * 2 ^ 32 + (s.cask k).sector + sector) else s

/-- The map entry e of a cask is marked quarantined, with the reason (R103). -/
def State.markDamaged (k code : Nat) (e : CaskEntry) : State :=
  { (s.setCask k { e with quarantined := true }) with prs := { s.prs with qReason := sset 0 s.prs.qReason k (code + 1) } }

/-- A damaged cask is logged and counted, and its press told of (R103). -/
def State.damageLogged (k code : Nat) (e : CaskEntry) : State :=
  ((s.pushQlog { press := e.package, cask := k, reason := code }).1.count (prsPage e.package) 4).err (prsPage e.package) 8

theorem State.quarantine_eq (k code foundBy sector : Nat) :
    s.quarantine k code foundBy sector = ((s.ueRecorded k code foundBy sector).markDamaged k code (s.cask k)).damageLogged k code (s.cask k) := rfl

theorem State.ueRecorded_spares (k code foundBy sector : Nat) :
    s.SparesCasks (s.ueRecorded k code foundBy sector) ∧ s.Spares (s.ueRecorded k code foundBy sector) := by
  unfold State.ueRecorded
  split
  · exact ⟨s.recordUe_sparesCasks _ _ _, s.recordUe_spares _ _ _⟩
  · exact ⟨.refl s, .refl s⟩

theorem State.markDamaged_works (k code : Nat) (e : CaskEntry) : s.Works (s.markDamaged k code e) := by
  intro hs
  rw [← s.setCask_works k { e with quarantined := true } hs]
  have hprs := s.prs_setCmap k ({ e with quarantined := true } : CaskEntry).toNat hs
  simp only [State.besideWork, State.besideCasks, State.quiet, State.markDamaged, State.setCask, hprs]

theorem State.markDamaged_spares (k code : Nat) (e : CaskEntry) (hs : s.vatWhole) : s.Spares (s.markDamaged k code e) :=
  (s.setCmap_spares _ (State.lineOut_whole hs _ _)).trans (State.prs_spares _ _)

theorem State.cask_markDamaged (k code : Nat) (e : CaskEntry) (he : e.fits) (hs : s.vatWhole) :
    (s.markDamaged k code e).cask k = { e with quarantined := true } := s.cask_setCask k _ he hs

theorem State.damageLogged_spares (k code : Nat) (e : CaskEntry) :
    s.SparesCasks (s.damageLogged k code e) ∧ s.Spares (s.damageLogged k code e) :=
  ⟨((s.pushQlog_sparesCasks _).trans (State.count_sparesCasks _ _ _ _)).trans (State.err_sparesCasks _ _ _),
    ((s.pushQlog_spares _).trans (State.count_spares _ _ 1 (by omega))).trans (State.err_spares _ _ _)⟩

/-- A cask found damaged is quarantined, whatever the damage (R103). -/
theorem State.quarantine_quarantines (k code foundBy sector : Nat) (hs : s.vatWhole) :
    s.Works (s.quarantine k code foundBy sector) ∧ s.Spares (s.quarantine k code foundBy sector)
      ∧ ((s.quarantine k code foundBy sector).cask k).quarantined = true := by
  rw [State.quarantine_eq]
  obtain ⟨hcasks1, hspares1⟩ := s.ueRecorded_spares k code foundBy sector
  have hs1 := hcasks1.works.whole hs
  have hworks2 := State.markDamaged_works (s.ueRecorded k code foundBy sector) k code (s.cask k)
  have hspares2 := State.markDamaged_spares _ k code (s.cask k) hs1
  obtain ⟨hcasks3, hspares3⟩ := State.damageLogged_spares ((s.ueRecorded k code foundBy sector).markDamaged k code (s.cask k)) k code (s.cask k)
  refine ⟨(hcasks1.works.trans hworks2).trans hcasks3.works, (hspares1.trans hspares2).trans hspares3, ?_⟩
  rw [hcasks3.cask (hworks2.whole hs1), State.cask_markDamaged _ k code (s.cask k) (CaskEntry.ofNat_fits (s.cmap k)) hs1]

theorem State.cachePut_works (k : Nat) (raw : List Byte) (poison : BitVec 64) : s.Works (s.cachePut k raw poison) := fun _ => rfl

theorem State.cachePut_cached (k : Nat) (raw : List Byte) (poison : BitVec 64) : ((s.cachePut k raw poison).cached k).isSome = true := by
  simp [State.cached, State.cachePut]

/-- What decoding finds in the sectors of a stored cask (R101). -/
def State.decodes (k : Nat) (bad : Bool) : Decoded :=
  let e := s.cask k
  let stored := s.getSectors e.package e.sector e.length
  decodeCask (some (e.method, e.table, e.poisonAny)) e.length stored.1 (stored.2 || bad) s.tableLens

/-- The read of a stored cask is counted, unless it has no sectors (R104). -/
def State.decodeCounted (k : Nat) : State := if (s.cask k).length = 0 then s else s.count (prsPage (s.cask k).package) 0

theorem State.decodeCounted_sparesCasks (k : Nat) : s.SparesCasks (s.decodeCounted k) := by
  unfold State.decodeCounted
  split
  · exact .refl s
  · exact s.count_sparesCasks _ _ _

theorem State.decodeCounted_spares (k : Nat) : s.Spares (s.decodeCounted k) := by
  unfold State.decodeCounted
  split
  · exact .refl s
  · exact s.count_spares _ _ (by omega)

variable {s}

/-- A cask that decodes is cached (R104). -/
theorem State.decodeRead_ok {k : Nat} {bad : Bool} {raw : List Byte} {poison : BitVec 64} {excess : Bool}
    (h : s.decodes k bad = .ok raw poison excess) : (s.decodeRead k bad).2.2 = (s.decodeCounted k).cachePut k raw poison := by
  simp only [State.decodes] at h
  simp only [State.decodeRead, State.readSectors, if_true, h]
  rfl

/-- A damaged cask is quarantined (R103). -/
theorem State.decodeRead_damaged {k : Nat} {bad : Bool} {code : Nat} (h : s.decodes k bad = .damaged code) :
    (s.decodeRead k bad).2.2 = (s.decodeCounted k).quarantine k code 0 (s.firstBad k []) := by
  simp only [State.decodes] at h
  simp only [State.decodeRead, State.readSectors, if_true, h]
  rfl

variable (s)

theorem State.decodeRead_works (k : Nat) (bad : Bool) : s.Works (s.decodeRead k bad).2.2 := by
  intro hs
  have hcount := (s.decodeCounted_sparesCasks k).works
  cases h : s.decodes k bad with
  | ok raw poison excess =>
    rw [State.decodeRead_ok h]
    exact (hcount.trans (State.cachePut_works _ _ _ _)) hs
  | damaged code =>
    rw [State.decodeRead_damaged h]
    exact (hcount.trans (State.quarantine_quarantines _ k code 0 _ (hcount.whole hs)).1) hs

theorem State.decodeRead_spares (k : Nat) (bad : Bool) (hs : s.vatWhole) : s.Spares (s.decodeRead k bad).2.2 := by
  have hcount := s.decodeCounted_spares k
  have hwhole := (s.decodeCounted_sparesCasks k).works.whole hs
  cases h : s.decodes k bad with
  | ok raw poison excess =>
    rw [State.decodeRead_ok h]
    exact hcount.trans (State.prs_spares _ _)
  | damaged code =>
    rw [State.decodeRead_damaged h]
    exact hcount.trans (State.quarantine_quarantines _ k code 0 _ hwhole).2.1

end

/-! ### A cask read returns -/

section
variable (s : State)

theorem State.respondRead_quiet (r : MemReq) (data : List Byte) (poison : Bool) : (s.respondRead r data poison).quiet = s.quiet := by
  unfold State.respondRead
  split
  · rfl
  · simp only [State.emit_quiet]
    split <;> split <;> simp

/-- A request of a port that takes requests is answered with data last, poisoned too where the request was (R230, R243, R316). -/
theorem State.respondRead_sends {r : MemReq} {p : Port} (hport : r.port = p.val) (htakes : s.portTakes p = true) (data : List Byte)
    (poison : Bool) : (s.respondRead r data (r.poison || poison)).out.getLast?
      = some (.memData p.val r.tag (if r.poison || poison then zeroLine else data) (r.poison || poison)) := by
  have hanswers : s.answers r = some p := by simp [State.answers, hport, portOf_val, htakes]
  have hbad : (r.poison || poison || (decide (r.op = 0) && r.poison)) = (r.poison || poison) := by
    cases r.poison <;> simp
  simp [State.respondRead, hanswers, hbad, zeroLine]

/-- The read of a cask is over (R100). -/
def State.readOver (k : Nat) : State := { s with prs := { s.prs with reads := s.prs.reads.filter (fun x => decide (x.cask ≠ k)) } }

/-- The cask that was read still lies in the cellar, in sectors, and not quarantined. -/
def State.stillStored (k : Nat) : Bool := decide (s.home (k / 4) = 2) && decide ((s.cask k).length ≠ 0) && !(s.cask k).quarantined

/-- What a returned read finds: the cask decoded, where it is still stored. -/
def State.readBack (k : Nat) (bad : Bool) : State := if s.stillStored k then ((s.readOver k).decodeRead k bad).2.2 else s.readOver k

variable {s}

theorem exec_caskReadReturn {k : Nat} {c : CaskRead} (bad : Bool) (hread : s.prs.reads.find? (fun c => decide (c.cask = k)) = some c) :
    exec (.caskReadReturn k bad) s = .next (c.reqs.foldl (fun u r =>
      u.respondRead r r.data (r.poison || (s.stillStored k && ((s.readBack k bad).cask k).quarantined))) (s.readBack k bad)) := by
  change execCaskReadReturn k bad s = _
  simp only [execCaskReadReturn, hread]
  rfl

/-- A stored cask is decoded for the one request that waits for it, which is then answered. -/
theorem exec_caskReadReturn_one {k : Nat} {c : CaskRead} {r : MemReq} (bad : Bool)
    (hread : s.prs.reads.find? (fun c => decide (c.cask = k)) = some c) (hone : c.reqs = [r]) (hstored : s.stillStored k = true) :
    exec (.caskReadReturn k bad) s = .next (((s.readOver k).decodeRead k bad).2.2.respondRead r r.data
      (r.poison || (((s.readOver k).decodeRead k bad).2.2.cask k).quarantined)) := by
  rw [exec_caskReadReturn bad hread, hone, State.readBack, if_pos hstored, hstored]
  rfl

end

section
variable {s : State} {k : Nat} {c : CaskRead} {r : MemReq} {p : Port} {bad : Bool}

theorem State.respondRead_sparesCasks (s : State) (r : MemReq) (data : List Byte) (poison : Bool) : s.SparesCasks (s.respondRead r data poison) :=
  State.sparesCasks_of_quiet (s.respondRead_quiet r data poison)

theorem State.readOver_reads (s : State) (k : Nat) : ∀ x ∈ (s.readOver k).prs.reads, x.cask ≠ k := by
  intro x hx
  simpa using (List.mem_filter.mp hx).2

/-- The read of a stored cask ends, and its one request is answered: by its line where the cask is sound after it, else by poison (R100, R103). -/
theorem exec_caskReadReturn_answers (hread : s.prs.reads.find? (fun c => decide (c.cask = k)) = some c) (hone : c.reqs = [r])
    (hport : r.port = p.val) (htakes : s.portTakes p = true) (hstored : s.stillStored k = true) (hs : s.vatWhole) :
    ∃ t, exec (.caskReadReturn k bad) s = .next t ∧ (∀ x ∈ t.prs.reads, x.cask ≠ k)
      ∧ ((s.readOver k).decodeRead k bad).2.2.SparesCasks t
      ∧ ∀ damaged, (((s.readOver k).decodeRead k bad).2.2.cask k).quarantined = damaged →
          t.out.getLast? = some (.memData p.val r.tag (if r.poison || damaged then zeroLine else r.data) (r.poison || damaged)) := by
  have hworks := (s.readOver k).decodeRead_works k bad
  have hdecoded : ((s.readOver k).decodeRead k bad).2.2.portTakes p = true :=
    (((s.readOver k).decodeRead_spares k bad hs).takes p).trans htakes
  have hanswered := State.respondRead_sparesCasks ((s.readOver k).decodeRead k bad).2.2 r r.data
  refine ⟨_, exec_caskReadReturn_one bad hread hone hstored, ?_, hanswered _, ?_⟩
  · rw [(hworks.trans (hanswered _).works).reads hs]
    exact s.readOver_reads k
  · rintro _ rfl
    exact State.respondRead_sends _ hport hdecoded _ _

/-- A cask that decodes is sound and in its press's cache (R104). -/
theorem State.decodeRead_sound {raw : List Byte} {poison : BitVec 64} {excess : Bool} (h : s.decodes k bad = .ok raw poison excess)
    (hs : s.vatWhole) : ((s.decodeRead k bad).2.2.cask k).quarantined = (s.cask k).quarantined ∧ ((s.decodeRead k bad).2.2.cached k).isSome = true := by
  rw [State.decodeRead_ok h]
  refine ⟨?_, State.cachePut_cached _ _ _ _⟩
  rw [← (s.decodeCounted_sparesCasks k).cask hs]
  rfl

theorem State.decodeRead_quarantines {code : Nat} (h : s.decodes k bad = .damaged code) (hs : s.vatWhole) :
    ((s.decodeRead k bad).2.2.cask k).quarantined = true := by
  rw [State.decodeRead_damaged h]
  exact (State.quarantine_quarantines _ _ _ _ _ ((s.decodeCounted_sparesCasks k).works.whole hs)).2.2

end

/-! ### A cask is sent to be re-encoded -/

section
variable {s : State} {k : Nat}

/-- Casks sent in this millisecond (R81). -/
def State.sentNow (s : State) : Nat := if s.rck.reencodeMs.1 = s.now / ms then s.rck.reencodeMs.2 else 0

/-- A cask is sent to its press. -/
def State.sendReencode (s : State) (k : Nat) : State :=
  { s with rck := { s.rck with reencodes := s.rck.reencodes ++ [k], reencodeMs := (s.now / ms, s.sentNow + 1) } }

theorem exec_reencode (s : State) (k : Nat) : exec (.reencode k) s = execReencode k s := rfl

theorem exec_reencode_sent (hen : s.field 0x018 0x100 2 1 = 1) (hrate : s.sentNow < s.field 0x018 0x118 0 16) (hhome : s.home (k / 4) = 2)
    (hstale : (s.cask k).stale = true) (hsound : (s.cask k).quarantined = false) (hmoving : s.moving (k / 4) = false)
    (hbuf : s.bufOf k = none) (hnew : s.rck.reencodes.contains k = false) : exec (.reencode k) s = .next (s.sendReencode k) := by
  rw [exec_reencode, execReencode]
  exact if_pos ⟨hen, hrate, hhome, hstale, by rw [hsound]; rfl, by rw [hmoving]; rfl, by rw [hbuf]; rfl, by rw [hnew]; rfl⟩

theorem exec_reencode_fresh (hfresh : (s.cask k).stale = false) : exec (.reencode k) s = .next s := by
  rw [exec_reencode, execReencode]
  exact if_neg (by simp [hfresh])

theorem State.rck_changes (s : State) (x : RckState) : s.changesOnly { s with rck := x } [.rck] := by
  intro q hq
  cases q <;> simp_all [Part.same]

end

/-! ### A re-encode ends -/

section
variable (s : State)

/-- The re-encode of a cask runs no more. -/
def State.reencodeOver (k : Nat) : State := { s with rck := { s.rck with reencodes := s.rck.reencodes.filter (fun x => decide (x ≠ k)) } }

theorem exec_reencodeEnd (k : Nat) : exec (.reencodeEnd k) s = .next (s.reencodeDone k).settleSnoops := rfl

theorem State.storedCask_works (k : Nat) (w : Traffic) : s.Works (s.storedCask k w).2.2 := by
  have hlook := (s.lookCask_looks k w).sparesCasks.works
  unfold State.storedCask
  simp only []
  split
  · exact hlook
  · split
    · exact hlook.trans (State.cachePut_works _ _ _ _)
    · exact (hlook.trans (State.dramCellar_looks _ _ _ _ _ _).sparesCasks.works).trans (State.decodeRead_works _ _ _)

theorem State.cacheDrop_works (k : Nat) : s.Works (s.cacheDrop k) := fun _ => rfl

theorem State.clearCasks_works (t : Nat) : s.Works (s.clearCasks t) := foldl_works (fun u _ => u.setCmap_works _ _) _ s

theorem State.zeroTest_works (t : Nat) : s.Works (s.zeroTest t) := by
  unfold State.zeroTest
  split
  · exact ((foldl_works (fun u _ => u.cacheDrop_works _) _ s).trans (State.clearCasks_works _ _)).trans
      (State.setTmap_sparesCasks _ _ _).works
  · exact .refl s

theorem State.storeCask_works (k package sector : Nat) (c : StoredCask) : s.Works (s.storeCask k package sector c) :=
  State.Works.trans (fun _ => rfl) (State.setCask_works (s.putSectors package sector c.bytes) k _)

/-- A cask of zeros gives up its sectors, its table reference and its cache entry (R81, R94, R104). -/
def State.emptyCask (k : Nat) : State := ((s.freeCask k).setCask k { package := (s.cask k).package, method := 1 }).cacheDrop k

/-- Its re-encode is counted, and where its tile is empty it goes home (R46). -/
def State.emptied (k : Nat) : State := (((s.emptyCask k).count 0x019 4).zeroTest (k / 4)).settleUsage

theorem State.emptyCask_works (k : Nat) : s.Works (s.emptyCask k) :=
  ((s.freeCask_sparesCasks k).works.trans (State.setCask_works _ _ _)).trans (State.cacheDrop_works _ _)

theorem State.emptied_works (k : Nat) : s.Works (s.emptied k) :=
  (((s.emptyCask_works k).trans (State.count_sparesCasks _ _ _ _).works).trans (State.zeroTest_works _ _)).trans
    (State.settleUsage_sparesCasks _).works

/-- A cask's new form is stored in the sectors taken for it, in place of the old one (R81). -/
def State.restored (k p x : Nat) (enc : StoredCask) : State :=
  ((((((s.addRef enc.table).freeCask k).storeCask k p x enc).dramCellar p x enc.length true background).cacheDrop k).count 0x019 4).settleUsage

theorem State.restored_works (k p x : Nat) (enc : StoredCask) : s.Works (s.restored k p x enc) :=
  (((((s.addRef_sparesCasks _).trans (State.freeCask_sparesCasks _ k)).works.trans (State.storeCask_works _ _ _ _ _)).trans
    (State.dramCellar_looks _ _ _ _ _ _).sparesCasks.works).trans (State.cacheDrop_works _ _)).trans
    ((State.count_sparesCasks _ _ _ _).trans (State.settleUsage_sparesCasks _)).works

/-- A cask is decoded, encoded again for its region e, and stored anew; with no room it stays as it is (R81). -/
def State.reencoded (k : Nat) (e : Nat × Region) : State :=
  let (raw, poison, u) := s.storedCask k background
  if (u.cask k).quarantined then u
  else
    let enc := encodeCask e.2.hint (u.curTable e.2) raw poison
    if enc.length = 0 then u.emptied k
    else match u.takeFor k e.1 enc.length with
      | none => u
      | some (p, x, v) => v.restored k p x enc

theorem State.reencoded_works (k : Nat) (e : Nat × Region) : s.Works (s.reencoded k e) := by
  have hstored := s.storedCask_works k background
  unfold State.reencoded
  simp only []
  split
  · exact hstored
  split
  · exact hstored.trans (State.emptied_works _ k)
  split
  · exact hstored
  · next htake => exact (hstored.trans (State.takeFor_sparesCasks _ htake).works).trans (State.restored_works _ _ _ _ _)

variable {s} {k : Nat}

/-- A re-encode of a cask that has left the cellar, or is quarantined, only ends. -/
theorem State.reencodeDone_void (h : s.rck.reencodes.contains k = true) (hvoid : s.home (k / 4) ≠ 2 ∨ (s.cask k).quarantined = true) :
    s.reencodeDone k = s.reencodeOver k := by
  unfold State.reencodeDone
  rw [if_pos h]
  simp only []
  split
  · rfl
  · exact if_pos hvoid

/-- So does one of a cask that lies in no region. -/
theorem State.reencodeDone_free (h : s.rck.reencodes.contains k = true) (hfree : s.tileRegion (k / 4) = none) :
    s.reencodeDone k = s.reencodeOver k := by
  unfold State.reencodeDone
  rw [if_pos h]
  simp only []
  split
  · rfl
  · next hregion => exact absurd (hregion.symm.trans hfree) (by simp)

/-- Any other is decoded and encoded again. -/
theorem State.reencodeDone_live {e : Nat × Region} (h : s.rck.reencodes.contains k = true) (hregion : s.tileRegion (k / 4) = some e)
    (hlive : ¬(s.home (k / 4) ≠ 2 ∨ (s.cask k).quarantined = true)) : s.reencodeDone k = (s.reencodeOver k).reencoded k e := by
  unfold State.reencodeDone
  rw [if_pos h]
  simp only []
  split
  · next hnone => exact absurd (hregion.symm.trans hnone) (by simp)
  · next hsome =>
    cases hregion.symm.trans hsome
    exact if_neg hlive

/-- The end of a re-encode is work on casks, once the cask is taken off the list (R81). -/
theorem State.reencodeDone_works (h : s.rck.reencodes.contains k = true) : (s.reencodeOver k).Works (s.reencodeDone k) := by
  by_cases hvoid : s.home (k / 4) ≠ 2 ∨ (s.cask k).quarantined = true
  · rw [State.reencodeDone_void h hvoid]
    exact .refl _
  · cases hregion : s.tileRegion (k / 4) with
    | none => rw [State.reencodeDone_free h hregion]; exact .refl _
    | some e => rw [State.reencodeDone_live h hregion hvoid]; exact State.reencoded_works _ _ _

end

/-! ### A cask of zeros is re-encoded -/

theorem mem_of_mem_chunks {α} {n : Nat} {x : α} {c : List α} (hx : x ∈ c) : ∀ {m : Nat} {l : List α}, c ∈ chunks n m l → x ∈ l
  | 0, _, h => by cases h
  | m + 1, l, h => by
    rcases List.mem_cons.mp h with rfl | h
    · exact List.mem_of_mem_take hx
    · exact List.mem_of_mem_drop (mem_of_mem_chunks hx h)

theorem blankPoison_zero {raw : List Byte} (poison : BitVec 64) (hraw : ∀ b ∈ raw, b = 0#8) : ∀ b ∈ blankPoison raw poison, b = 0#8 := by
  intro b hb
  obtain ⟨line, hline, hb⟩ := List.mem_flatten.mp hb
  obtain ⟨⟨held, i⟩, hheld, rfl⟩ := List.mem_map.mp hline
  dsimp only at hb
  split at hb
  · exact List.eq_of_mem_replicate hb
  · rcases List.mem_append.mp (mem_of_mem_chunks hb (List.fst_mem_of_mem_zipIdx hheld)) with hb | hb
    · exact hraw b hb
    · exact List.eq_of_mem_replicate hb

/-- A cask of zeros takes no sectors (R94). -/
theorem encodeCask_zero (hint : Nat) (cur : Option (Nat × Nat × List Nat)) {raw : List Byte} (hraw : ∀ b ∈ raw, b = 0#8) :
    (encodeCask hint cur raw 0#64).length = 0 := by
  have hblank : (blankPoison raw 0#64).all (fun b => decide (b = 0#8)) = true := by
    simpa using blankPoison_zero 0#64 hraw
  simp only [encodeCask, hblank, if_true]

/-- The cask holds no sectors and is in no cache, with every vat channel in service. -/
def State.bare (s : State) (k : Nat) : Prop := s.vatWhole ∧ (s.cask k).length = 0 ∧ s.cached k = none

section
variable {s t : State} {k : Nat}

theorem State.SparesCasks.bare (h : s.SparesCasks t) (hbare : s.bare k) : t.bare k := by
  obtain ⟨hs, hlength, hcached⟩ := hbare
  exact ⟨h.works.whole hs, by rw [h.cask hs, hlength], by rw [h.cached hs, hcached]⟩

theorem State.cached_cacheDrop (s : State) (j k : Nat) (h : j = k ∨ s.cached k = none) : (s.cacheDrop j).cached k = none := by
  simp only [State.cached, State.cacheDrop, List.find?_eq_none, List.mem_filter, decide_eq_true_eq] at *
  rintro e ⟨he, hj⟩
  rcases h with rfl | h
  · exact hj
  · exact h e he

theorem State.bare_cacheDrop (h : s.bare k) (j : Nat) : (s.cacheDrop j).bare k :=
  ⟨h.1, h.2.1, s.cached_cacheDrop j k (.inr h.2.2)⟩

theorem State.bare_clear (h : s.bare k) (j : Nat) : (s.setCmap j 0).bare k := by
  obtain ⟨hs, hlength, hcached⟩ := h
  refine ⟨(s.setCmap_works j 0).whole hs, ?_, ?_⟩
  · rw [State.cask, s.cmap_setCmap _ _ _ hs]
    split
    · rfl
    · exact hlength
  · rwa [State.cached, s.prs_setCmap _ _ hs]

theorem foldl_bare {α} {f : State → α → State} (hf : ∀ (s : State) (a : α), s.bare k → (f s a).bare k) (l : List α) (s : State)
    (h : s.bare k) : (l.foldl f s).bare k := by
  induction l generalizing s with
  | nil => exact h
  | cons a l ih => exact ih _ (hf s a h)

theorem State.bare_zeroTest (h : s.bare k) (t : Nat) : (s.zeroTest t).bare k := by
  unfold State.zeroTest
  split
  · have hdropped := foldl_bare (fun u c hu => State.bare_cacheDrop hu (4 * t + c)) [0, 1, 2, 3] s h
    have hcleared := foldl_bare (fun u c hu => State.bare_clear hu (4 * t + c)) [0, 1, 2, 3] _ hdropped
    exact (State.setTmap_sparesCasks _ _ _).bare hcleared
  · exact h

theorem State.emptyCask_bare (s : State) (k : Nat) (hs : s.vatWhole) : (s.emptyCask k).bare k := by
  have hfreed := (s.freeCask_sparesCasks k).works.whole hs
  obtain ⟨-, hpackage, -⟩ := CaskEntry.ofNat_fits (s.cmap k)
  have hset := State.cask_setCask (s.freeCask k) k { package := (s.cask k).package, method := 1 }
    ⟨by simp, hpackage, by simp, by simp, by simp⟩ hfreed
  exact ⟨(s.emptyCask_works k).whole hs, congrArg CaskEntry.length hset, State.cached_cacheDrop _ _ _ (.inl rfl)⟩

theorem State.emptied_bare (s : State) (k : Nat) (hs : s.vatWhole) : (s.emptied k).bare k :=
  (State.settleUsage_sparesCasks _).bare
    (State.bare_zeroTest ((State.count_sparesCasks _ 0x019 4 1).bare (s.emptyCask_bare k hs)) (k / 4))

/-- A cached cask is read from the cache (R104). -/
theorem State.storedCask_cached {c : CachedCask} (w : Traffic) (hsound : (s.cask k).quarantined = false) (hcached : s.cached k = some c) :
    s.storedCask k w
      = (Memory.bytes c.data 0 4096, c.poison, (s.lookCask k w).cachePut k (Memory.bytes c.data 0 4096) c.poison) := by
  have hlook := (s.lookCask_looks k w).heats
  simp [State.storedCask, hlook.cask, hlook.cached, hsound, hcached]

theorem bytes_nil_zero (a n : Nat) : ∀ b ∈ Memory.bytes [] a n, b = 0#8 := by
  simp [Memory.bytes, Memory.rd, sget]

/-- A cached cask of zeros, encoded again, is emptied (R81, R94). -/
theorem State.reencoded_zero {c : CachedCask} (e : Nat × Region) (hsound : (s.cask k).quarantined = false) (hcached : s.cached k = some c)
    (hdata : c.data = []) (hpoison : c.poison = 0#64) : s.reencoded k e = (s.storedCask k background).2.2.emptied k := by
  have hstored := State.storedCask_cached background hsound hcached
  rw [hdata, hpoison] at hstored
  have hsound2 : ((s.storedCask k background).2.2.cask k).quarantined = false := by
    rw [hstored, ← hsound, ← (s.lookCask_looks k background).heats.cask]
    rfl
  have hzero : ∀ b ∈ (s.storedCask k background).1, b = 0#8 := by
    rw [hstored]
    dsimp only
    exact bytes_nil_zero 0 4096
  have hclean : (s.storedCask k background).2.1 = 0#64 := by rw [hstored]
  simp only [State.reencoded, hsound2, hclean, encodeCask_zero _ _ hzero, Bool.false_eq_true, if_false, if_true]

theorem State.reencodeDone_bare {c : CachedCask} (h : s.rck.reencodes.contains k = true) (hs : s.vatWhole) (hhome : s.home (k / 4) = 2)
    (hregion : (s.tileRegion (k / 4)).isSome = true) (hsound : (s.cask k).quarantined = false) (hcached : s.cached k = some c)
    (hdata : c.data = []) (hpoison : c.poison = 0#64) : (s.reencodeDone k).bare k := by
  obtain ⟨e, hregion⟩ := Option.isSome_iff_exists.mp hregion
  rw [State.reencodeDone_live h hregion (by simp [hhome, hsound]),
    State.reencoded_zero (s := s.reencodeOver k) e hsound hcached hdata hpoison]
  exact State.emptied_bare _ k (((s.reencodeOver k).storedCask_works k background).whole hs)

end

/-- Settles O24, command by command: a returned read decodes the cask, which caches or quarantines it, and answers from what it found; a re-encode sent or ended is work on casks that lets nothing wait. -/
theorem casksAreReadAndReencoded : Obligations.CasksAreReadAndReencoded := by
  refine ⟨fun s k bad c r p hread hone hport htakes hhome hlength hsound hs => ?_, fun s k => ⟨?_, exec_reencode_fresh⟩, fun s k h hrest hs => ?_⟩
  · obtain ⟨t, hexec, hover, hkept, hanswer⟩ := exec_caskReadReturn_answers (bad := bad) hread hone hport htakes
      (by simp [State.stillStored, hhome, hlength, hsound]) hs
    have hwhole := ((s.readOver k).decodeRead_works k bad).whole hs
    refine ⟨t, hexec, hover, fun raw poison stale hdecoded => ?_, fun code hdamaged => ?_⟩
    · obtain ⟨hsame, hcached⟩ := State.decodeRead_sound (s := s.readOver k) hdecoded hs
      exact ⟨by simpa using hanswer false (hsame.trans hsound), by rwa [hkept.cached hwhole]⟩
    · have hquarantined := State.decodeRead_quarantines (s := s.readOver k) hdamaged hs
      exact ⟨by simpa using hanswer true hquarantined, by rwa [hkept.cask hwhole]⟩
  · intro sent hen hrate hhome hstale hsound hmoving hbuf hnew
    exact ⟨_, exec_reencode_sent hen hrate hhome hstale hsound hmoving hbuf hnew, s.rck_changes _, rfl⟩
  · have hworks := State.reencodeDone_works h
    have hended := State.settleSnoops_atRest (hworks.atRest hs hrest)
    refine ⟨_, exec_reencodeEnd s k, ?_⟩
    rw [hended]
    refine ⟨hworks.reencodes hs, fun hvoid => ?_, fun c hhome hregion hsound hcached hdata hpoison => ?_⟩
    · rw [State.reencodeDone_void h hvoid]
      exact s.rck_changes _
    · exact (State.reencodeDone_bare h hs hhome hregion hsound hcached hdata hpoison).2

end Sys2Proof.Machine
end

section
/-! PROOFS. What everything else keeps while the presses and the racking engine work on tiles and casks (R39 to R113), whatever vat channels are in service. Two relations: Tends, of any such work, and Settles, of what follows a change of usage, which changes no cask but those whose map entries are lost. -/

namespace Sys2Proof.Machine

/-! ### What work on tiles leaves -/

/-- A memory request waits for the data of a read (R44, R129). -/
def Tag.demanded (g : Tag) : Bool := match g.consumer with | .demand _ => true | _ => false

/-- The state with everything set aside that work on tiles and casks may touch: the memories but for the channels out of service and the packages being emptied, the racking engine, the presses but for their import sessions, the memory controllers, what the cooper finds due, the count of free values, and the reads of a port that no memory request waits for. -/
def State.besideTiles (s : State) : State :=
  { s with
    mem := { channelOut := s.mem.channelOut, evacuating := s.mem.evacuating }
    rck := {}
    prs := { sessions := s.prs.sessions }
    dram := {}
    igr := { s.igr with due := [] }
    freeCtr := 0
    ports := s.ports.map (fun q => { q with tags := q.tags.filter Tag.demanded }) }

/-- From s to t there was work on tiles and casks alone, and signals: no assembly buffer was opened or changed, and the range keeps its size. -/
structure State.Tends (s t : State) : Prop where
  frame : t.quiet.besideTiles = s.quiet.besideTiles
  bufs : ∀ b ∈ t.prs.bufs, b ∈ s.prs.bufs
  range : t.rangeGib = s.rangeGib

section
variable {s t u : State}

theorem State.Tends.refl (s : State) : s.Tends s := ⟨rfl, fun _ h => h, rfl⟩

theorem State.Tends.trans (h : s.Tends t) (k : t.Tends u) : s.Tends u :=
  ⟨k.frame.trans h.frame, fun b hb => h.bufs b (k.bufs b hb), k.range.trans h.range⟩

theorem foldl_tends {α} {f : State → α → State} (hf : ∀ (s : State) (a : α), s.Tends (f s a)) (l : List α) (s : State) :
    s.Tends (l.foldl f s) := by
  induction l generalizing s with
  | nil => exact .refl s
  | cons a l ih => exact (hf s a).trans (ih _)

theorem State.Tends.now (h : s.Tends t) : t.now = s.now := (congrArg State.now h.frame :)
theorem State.Tends.dir (h : s.Tends t) : t.dir = s.dir := (congrArg State.dir h.frame :)
theorem State.Tends.qmg (h : s.Tends t) : t.qmg = s.qmg := (congrArg State.qmg h.frame :)
theorem State.Tends.rgn (h : s.Tends t) : t.rgn = s.rgn := (congrArg State.rgn h.frame :)
theorem State.Tends.sessions (h : s.Tends t) : t.prs.sessions = s.prs.sessions := congrArg (fun v => v.prs.sessions) h.frame
theorem State.Tends.copies (h : s.Tends t) : t.igr.copies = s.igr.copies := congrArg (fun v => v.igr.copies) h.frame
theorem State.Tends.rowsLeaving (h : s.Tends t) : t.igr.rowsLeaving = s.igr.rowsLeaving := congrArg (fun v => v.igr.rowsLeaving) h.frame
theorem State.Tends.channelOut (h : s.Tends t) : t.mem.channelOut = s.mem.channelOut := congrArg (fun v => v.mem.channelOut) h.frame
theorem State.Tends.evacuating (h : s.Tends t) : t.mem.evacuating = s.mem.evacuating := congrArg (fun v => v.mem.evacuating) h.frame

theorem State.Tends.entry (h : s.Tends t) (q seq : Nat) : t.entry q seq = s.entry q seq := by rw [State.entry, h.qmg, State.entry]

theorem State.Tends.sessionOf (h : s.Tends t) (q : Nat) : t.sessionOf q = s.sessionOf q := by
  rw [State.sessionOf, h.sessions, State.sessionOf]

theorem State.Tends.lineOut (h : s.Tends t) (slot line : Nat) : t.lineOut slot line = s.lineOut slot line := by
  simp only [State.lineOut, h.channelOut]

theorem State.Tends.cmapPlace (h : s.Tends t) (k : Nat) : t.cmapPlace k = s.cmapPlace k := by simp only [State.cmapPlace, h.range]

/-- No buffer is opened. -/
theorem State.Tends.bufOf_none (h : s.Tends t) {k : Nat} (hs : s.bufOf k = none) : t.bufOf k = none := by
  rw [State.bufOf, List.find?_eq_none] at *
  exact fun b hb => hs b (h.bufs b hb)

theorem State.besideTiles_draftPending (s : State) (p : Nat) : s.quiet.besideTiles.draftPending p = s.draftPending p := by
  simp only [State.draftPending, State.besideTiles, State.quiet, Vector.toList_map, List.any_map, Function.comp_def, List.any_filter]
  congr 2
  funext q
  congr 1
  funext g
  cases hg : g.consumer <;> simp [Tag.demanded, hg]

/-- Work on tiles lets nothing wait that did not wait before. -/
theorem State.Tends.atRest (h : s.Tends t) (hrest : s.atRest) : t.atRest := by
  obtain ⟨⟨hwaiting, hsnoops, hdraft⟩, hheld, hnone⟩ := hrest
  refine ⟨⟨by rw [h.dir, hwaiting], by rwa [h.dir], fun p => ?_⟩, by rwa [h.qmg], by rw [h.copies, hnone]⟩
  rw [← t.besideTiles_draftPending, h.frame, s.besideTiles_draftPending, hdraft]

theorem State.rangeGib_of_word (h : t.word 0x012 0x100 = s.word 0x012 0x100) : t.rangeGib = s.rangeGib := by
  simp only [State.rangeGib, State.field, h]

theorem State.Looks.tends (h : s.Looks t) : s.Tends t where
  frame := (congrArg (fun v => v.quiet.besideTiles) h.frame :)
  bufs := by rw [h.heats.prs]; exact fun _ => id
  range := State.rangeGib_of_word (h.heats.word _ _ (by decide) (by decide))

/-- Signals that leave RANGE_GIB. -/
theorem State.tends_of_quiet (h : t.quiet = s.quiet) (hword : t.word 0x012 0x100 = s.word 0x012 0x100) : s.Tends t where
  frame := (congrArg State.besideTiles h :)
  bufs := by rw [show t.prs = s.prs from (congrArg State.prs h :)]; exact fun _ => id
  range := State.rangeGib_of_word hword

end

section
variable (s : State)

/-! ### Signals, maps and moves -/

theorem State.count_tends (page n : Nat) {i : Nat} (hi : i < 6) : s.Tends (s.count page i n) :=
  State.tends_of_quiet (s.count_quiet _ _ _) (s.word_count _ _ _ _ _ (by omega))

theorem State.err_tends (page bit : Nat) : s.Tends (s.err page bit) :=
  State.tends_of_quiet (s.err_quiet _ _) (s.word_err _ _ _ _ (by decide) (by decide) (by omega) (by omega))

theorem State.setField_tends (page off lo w v : Nat) (h : 4096 * 0x012 + 0x100 ≠ 4096 * page + off) : s.Tends (s.setField page off lo w v) :=
  State.tends_of_quiet rfl (s.word_setWord_ne _ _ _ _ _ h)

theorem State.draw_tends : s.Tends s.draw.2 := ⟨rfl, fun _ h => h, rfl⟩

theorem State.rck_tends (x : RckState) : s.Tends { s with rck := x } := ⟨rfl, fun _ h => h, rfl⟩

theorem State.mem_tends {x : MemState} (hchannel : x.channelOut = s.mem.channelOut) (hevacuating : x.evacuating = s.mem.evacuating) :
    s.Tends { s with mem := x } :=
  ⟨by simp only [State.besideTiles, State.quiet, hchannel, hevacuating], fun _ h => h, rfl⟩

theorem State.prs_tends {x : PrsState} (hsessions : x.sessions = s.prs.sessions) (hbufs : ∀ b ∈ x.bufs, b ∈ s.prs.bufs) :
    s.Tends { s with prs := x } :=
  ⟨by simp only [State.besideTiles, State.quiet, hsessions], hbufs, rfl⟩

theorem State.putTmap_tends (t v : Nat) : s.Tends (s.putTmap t v) := (s.lookTile_looks t background).tends.trans (State.mem_tends _ rfl rfl)

theorem State.putCmap_tends (k v : Nat) : s.Tends (s.putCmap k v) := (s.lookCask_looks k background).tends.trans (State.mem_tends _ rfl rfl)

theorem State.flushChecks_tends : s.Tends s.flushChecks := by
  refine foldl_tends (fun u p => ?_) _ s
  unfold State.flushCheck
  split
  · exact .refl u
  · exact u.prs_tends rfl (fun _ => id)

theorem State.dropBuf_tends (k : Nat) : s.Tends (s.dropBuf k) := by
  have hdrop := s.prs_tends (x := { s.prs with bufs := s.prs.bufs.filter (fun b => decide (b.cask ≠ k)) }) rfl
    (fun _ hb => (List.mem_filter.mp hb).1)
  exact hdrop.trans (State.flushChecks_tends _)

theorem State.cacheDrop_tends (k : Nat) : s.Tends (s.cacheDrop k) := s.prs_tends rfl (fun _ => id)

theorem State.markSectors_tends (p x n : Nat) (b : Bool) : s.Tends (s.markSectors p x n b) := s.mem_tends rfl rfl

theorem State.freeDest_tends (m : Move) : s.Tends (s.freeDest m) := by
  unfold State.freeDest
  split
  · exact .refl s
  · exact s.mem_tends rfl rfl
  · exact foldl_tends (fun u p => u.markSectors_tends _ _ _ _) _ s
  · exact .refl s

/-- Changing only reads that no memory request waits for, so that none comes to. -/
theorem filter_demanded_map {f : Tag → Tag} (hf : ∀ g, f g = g ∨ g.demanded = false ∧ (f g).demanded = false) (l : List Tag) :
    (l.map f).filter Tag.demanded = l.filter Tag.demanded := by
  induction l with
  | nil => rfl
  | cons g l ih =>
    rcases hf g with hg | ⟨hg, hfg⟩
    · simp [hg, List.filter_cons, ih]
    · simp [hg, hfg, ih]

/-- The reads that a move awaits are none that a memory request waits for. -/
theorem State.dropReads_tends (t : Nat) : s.Tends (s.dropReads t) := by
  refine ⟨?_, fun _ h => h, rfl⟩
  simp only [State.besideTiles, State.quiet, State.dropReads, Vector.map_map]
  congr 2
  funext q
  simp only [Function.comp_apply, PortState.mk.injEq, and_true, true_and]
  refine filter_demanded_map (fun g => ?_) q.tags
  obtain ⟨tag, haddr, bytes, consumer, cls, issuedAt, timeoutUs, got, data, ep, quarantined⟩ := g
  cases consumer with
  | move u off =>
    dsimp only
    split
    · exact .inr ⟨rfl, rfl⟩
    · exact .inl rfl
  | _ => exact .inl rfl

theorem State.dropMove_tends (t : Nat) : s.Tends (s.dropMove t) := by
  unfold State.dropMove
  split
  · exact .refl s
  · next m _ =>
    exact (((s.freeDest_tends m).trans (State.putTmap_tends _ _ _)).trans (State.rck_tends _ _)).trans (State.dropReads_tends _ _)

theorem State.setUse_tends (slot : Nat) (u : SlotUse) : s.Tends (s.setUse slot u) := s.mem_tends rfl rfl

theorem State.setWord64_tends (page off v : Nat) (h : 4096 * 0x012 + 0x100 ≠ 4096 * page + off)
    (h4 : 4096 * 0x012 + 0x100 ≠ 4096 * page + (off + 4)) : s.Tends (s.setWord64 page off v) :=
  State.tends_of_quiet rfl ((State.word_setWord_ne _ _ _ _ _ _ h4).trans (s.word_setWord_ne _ _ _ _ _ h))

/-- A slot of the pin reservation whose tile is lost is one of the pool (R54). -/
def State.unpinned (t : Nat) : State := if s.home t = 1 ∧ s.useOf (s.loc t) = .pin then s.setUse (s.loc t) .tile else s

/-- The window space of a tile that is lost stays taken (R50). -/
def State.windowKept (t : Nat) : State := if s.home t = 3 then { s with mem := { s.mem with lostHost := s.mem.lostHost ++ [s.loc t] } } else s

/-- The buffer, the cache entry and the map entry of a cask go. -/
def State.loseCask (k : Nat) : State := ((s.dropBuf k).cacheDrop k).putCmap k 0

theorem State.loseTile_eq (t : Nat) : s.loseTile t
    = (((([0, 1, 2, 3].foldl (fun u c => State.loseCask u (4 * t + c)) (((s.unpinned t).windowKept t).dropMove t)).putTmap t 4).setWord64
        0x019 0x140 (16384 * t)).err 0x018 13) := rfl

theorem State.unpinned_tends (t : Nat) : s.Tends (s.unpinned t) := by
  unfold State.unpinned
  split
  · exact s.setUse_tends _ _
  · exact .refl s

theorem State.windowKept_tends (t : Nat) : s.Tends (s.windowKept t) := by
  unfold State.windowKept
  split
  · exact s.mem_tends rfl rfl
  · exact .refl s

theorem State.loseCask_tends (k : Nat) : s.Tends (s.loseCask k) :=
  ((s.dropBuf_tends k).trans (State.cacheDrop_tends _ _)).trans (State.putCmap_tends _ _ _)

/-- A tile's map entries are lost (R50). -/
theorem State.loseTile_tends (t : Nat) : s.Tends (s.loseTile t) := by
  rw [State.loseTile_eq]
  have hmove := ((s.unpinned_tends t).trans (State.windowKept_tends _ t)).trans (State.dropMove_tends _ t)
  have hcasks := hmove.trans (foldl_tends (fun u c => u.loseCask_tends (4 * t + c)) [0, 1, 2, 3] _)
  exact ((hcasks.trans (State.putTmap_tends _ _ _)).trans (State.setWord64_tends _ _ _ _ (by decide) (by decide))).trans
    (State.err_tends _ _ _)

theorem State.mapOut_tends (place : Nat × Nat) (q : Nat) : s.Tends (s.mapOut place q) := foldl_tends (fun u t => u.loseTile_tends t) _ s

/-- A tile's map entry is looked up, or lost where its channel is out of service (R49, R50, R350). -/
theorem State.findTile_tends (t : Nat) (w : Traffic) : s.Tends (s.findTile t w .none) := by
  have hlook := (s.lookTile_looks t w).tends
  unfold State.findTile
  extract_lets miss s1
  split
  · exact hlook.trans (State.mapOut_tends _ _ _)
  · exact hlook

theorem State.findCask_tends (k : Nat) (w : Traffic) : s.Tends (s.findCask k w .none) := by
  have hlook := (s.lookCask_looks k w).tends
  unfold State.findCask
  extract_lets miss s1
  split
  · exact hlook.trans (State.mapOut_tends _ _ _)
  · exact hlook

theorem State.setTmap_tends (t v : Nat) : s.Tends (s.setTmap t v) := by
  have hfind := s.findTile_tends t background
  unfold State.setTmap
  extract_lets u
  split
  · exact hfind.trans (State.putTmap_tends _ _ _)
  · exact hfind

theorem State.setCmap_tends (k v : Nat) : s.Tends (s.setCmap k v) := by
  have hfind := s.findCask_tends k background
  unfold State.setCmap
  extract_lets u
  split
  · exact hfind.trans (State.putCmap_tends _ _ _)
  · exact hfind

end

/-! ### Usage settles -/

/-- The map entries of a cask and of its tile lie in vat channels in service (R47, R350). -/
def State.placed (s : State) (k : Nat) : Prop :=
  s.lineOut (s.tmapPlace (k / 4)).1 (s.tmapPlace (k / 4)).2 = false ∧ s.lineOut (s.cmapPlace k).1 (s.cmapPlace k).2 = false

/-- From s to t a change of usage was followed up: work on tiles that changes no cask but those whose map entries are lost. -/
structure State.Settles (s t : State) : Prop where
  tends : s.Tends t
  casks : ∀ k, s.placed k → t.cask k = s.cask k

section
variable {s t u : State}

theorem State.Tends.placed (h : s.Tends t) {k : Nat} (hs : s.placed k) : t.placed k := by
  simpa only [State.placed, h.lineOut, h.cmapPlace, State.tmapPlace] using hs

theorem State.Settles.refl (s : State) : s.Settles s := ⟨.refl s, fun _ _ => rfl⟩

theorem State.Settles.trans (h : s.Settles t) (k : t.Settles u) : s.Settles u :=
  ⟨h.tends.trans k.tends, fun c hc => (k.casks c (h.tends.placed hc)).trans (h.casks c hc)⟩

theorem State.cask_of_caskMap (h : t.mem.caskMap = s.mem.caskMap) (k : Nat) : t.cask k = s.cask k := by
  rw [State.cask, State.cmap, h, State.cask, State.cmap]

/-- Work on tiles that writes no cask's map entry. -/
theorem State.Tends.settles (h : s.Tends t) (hmap : t.mem.caskMap = s.mem.caskMap) : s.Settles t :=
  ⟨h, fun k _ => State.cask_of_caskMap hmap k⟩

theorem foldl_settles {α} {f : State → α → State} (hf : ∀ (s : State) (a : α), s.Settles (f s a)) (l : List α) (s : State) :
    s.Settles (l.foldl f s) := by
  induction l generalizing s with
  | nil => exact .refl s
  | cons a l ih => exact (hf s a).trans (ih _)

end

section
variable (s : State)

theorem State.cmap_putCmap (k v x : Nat) : (s.putCmap k v).cmap x = if x = k then v % 2 ^ 64 else s.cmap x := by
  simp only [State.cmap, State.putCmap, sget_sset]
  split <;> rfl

theorem State.putTmap_caskMap (t v : Nat) : (s.putTmap t v).mem.caskMap = s.mem.caskMap := (s.lookTile_looks t background).heats.caskMap

theorem foldl_caskMap {α} {f : State → α → State} (hf : ∀ (s : State) (a : α), (f s a).mem.caskMap = s.mem.caskMap) (l : List α) (s : State) :
    (l.foldl f s).mem.caskMap = s.mem.caskMap := by
  induction l generalizing s with
  | nil => rfl
  | cons a l ih => exact (ih _).trans (hf s a)

theorem State.markSectors_caskMap (p x n : Nat) (b : Bool) : (s.markSectors p x n b).mem.caskMap = s.mem.caskMap := rfl

theorem State.freeDest_caskMap (m : Move) : (s.freeDest m).mem.caskMap = s.mem.caskMap := by
  unfold State.freeDest
  split
  · rfl
  · rfl
  · exact foldl_caskMap (fun u p => u.markSectors_caskMap _ _ _ _) _ s
  · rfl

theorem State.dropMove_caskMap (t : Nat) : (s.dropMove t).mem.caskMap = s.mem.caskMap := by
  unfold State.dropMove
  split
  · rfl
  · exact (State.putTmap_caskMap _ _ _).trans (s.freeDest_caskMap _)

theorem State.flushChecks_mem : s.flushChecks.mem = s.mem := by
  have hcheck (u : State) (p : Nat) : (u.flushCheck p).mem = u.mem := by
    unfold State.flushCheck
    split <;> rfl
  unfold State.flushChecks
  generalize (List.range 48).filter (fun p => s.prs.flushing.getLsbD p) = l
  induction l generalizing s with
  | nil => rfl
  | cons p l ih => exact (ih _).trans (hcheck s p)

theorem State.dropBuf_mem (k : Nat) : (s.dropBuf k).mem = s.mem := State.flushChecks_mem _

theorem State.err_mem (page bit : Nat) : (s.err page bit).mem = s.mem := s.err_changes page bit .mem (by decide)

/-- The casks of a tile that is lost are the only ones whose map entries change (R50, R53). -/
theorem State.loseTile_cask {t k : Nat} (h : k / 4 ≠ t) : (s.loseTile t).cask k = s.cask k := by
  have hstart : (((s.unpinned t).windowKept t).dropMove t).mem.caskMap = s.mem.caskMap := by
    rw [State.dropMove_caskMap]
    unfold State.windowKept State.unpinned
    split <;> split <;> rfl
  have hcask (u : State) {j : Nat} (hj : j / 4 = t) : (u.loseCask j).cask k = u.cask k := by
    rw [State.cask, State.loseCask, State.cmap_putCmap, if_neg (by rintro rfl; exact h hj), State.cmap]
    exact State.cask_of_caskMap (congrArg MemState.caskMap (u.dropBuf_mem j)) k
  have hmap : (s.loseTile t).mem.caskMap
      = ([0, 1, 2, 3].foldl (fun u c => State.loseCask u (4 * t + c)) (((s.unpinned t).windowKept t).dropMove t)).mem.caskMap := by
    rw [State.loseTile_eq, State.err_mem, State.setWord64_mem, State.putTmap_caskMap]
  rw [State.cask_of_caskMap hmap, ← State.cask_of_caskMap hstart]
  simp only [List.foldl_cons, List.foldl_nil]
  rw [hcask _ (by omega), hcask _ (by omega), hcask _ (by omega), hcask _ (by omega)]

theorem loseTiles_cask {l : List Nat} {k : Nat} (h : k / 4 ∉ l) : (l.foldl State.loseTile s).cask k = s.cask k := by
  induction l generalizing s with
  | nil => rfl
  | cons t l ih =>
    obtain ⟨ht, hl⟩ := not_or.mp (mt List.mem_cons.mpr h)
    exact (ih _ hl).trans (s.loseTile_cask ht)

/-- A codeword of the map reserve whose channel is out describes no tile and no cask whose entries are in service (R47, R50). -/
theorem State.placed_not_lost {t k : Nat} (hout : s.lineOut (s.tmapPlace t).1 (s.tmapPlace t).2 = true) (hk : s.placed k) :
    k / 4 ∉ s.mapTiles (s.tmapPlace t).1 (s.tmapPlace t).2 (t % 8 / 2) := by
  obtain ⟨htile, hcask⟩ := hk
  have hapart (place : Nat × Nat) (h : s.lineOut place.1 place.2 = false) : place ≠ s.tmapPlace t := by
    rintro rfl
    rw [hout] at h
    cases h
  have htile := hapart _ htile
  have hcask := hapart _ hcask
  unfold State.mapTiles
  extract_lets b casks
  intro hmem
  have hb : b = 8 * (t - t % 2) := by simp only [b, State.tmapPlace]; omega
  split at hmem
  · refine htile ?_
    have htwin : k / 4 / 8 = t / 8 := by
      simp only [List.mem_cons, List.not_mem_nil, or_false] at hmem
      omega
    simp only [State.tmapPlace, Prod.mk.injEq]
    omega
  · refine hcask ?_
    simp only [List.mem_singleton] at hmem
    have hc : casks = 524288 * s.rangeGib := by simp only [casks]; omega
    simp only [State.cmapPlace, State.tmapPlace, Prod.mk.injEq]
    omega

theorem State.findTile_settles (t : Nat) (w : Traffic) : s.Settles (s.findTile t w .none) := by
  have hlook := s.lookTile_looks t w
  refine ⟨s.findTile_tends t w, fun k hk => ?_⟩
  have hk := hlook.tends.placed hk
  rw [← hlook.heats.cask]
  unfold State.findTile
  extract_lets miss s1
  split
  · next hout =>
    obtain ⟨-, hout⟩ := (Bool.and_eq_true _ _).mp hout
    exact loseTiles_cask _ (s1.placed_not_lost hout hk)
  · rfl

theorem State.setTmap_settles (t v : Nat) : s.Settles (s.setTmap t v) := by
  have hfind := s.findTile_settles t background
  unfold State.setTmap
  extract_lets u
  split
  · exact hfind.trans ((u.putTmap_tends t v).settles (u.putTmap_caskMap t v))
  · exact hfind

theorem State.count_settles (page n : Nat) {i : Nat} (hi : i < 6) : s.Settles (s.count page i n) :=
  (s.count_tends page n hi).settles (congrArg MemState.caskMap (s.count_changes page i n .mem (by decide)))

theorem State.err_settles (page bit : Nat) : s.Settles (s.err page bit) := (s.err_tends page bit).settles (by rw [s.err_mem])

theorem State.setField_settles (page off lo w v : Nat) (h : 4096 * 0x012 + 0x100 ≠ 4096 * page + off) : s.Settles (s.setField page off lo w v) :=
  (s.setField_tends page off lo w v h).settles rfl

theorem State.draw_settles : s.Settles s.draw.2 := s.draw_tends.settles rfl

theorem State.rck_settles (x : RckState) : s.Settles { s with rck := x } := (s.rck_tends x).settles rfl

theorem State.acceptMove_settles (t : Nat) (kind : MoveKind) : s.Settles (s.acceptMove t kind) := by
  unfold State.acceptMove
  split
  · exact .refl s
  · exact (s.setTmap_settles t _).trans (State.rck_settles _ _)

theorem State.watermarks_settles : s.Settles s.watermarks := by
  unfold State.watermarks
  extract_lets mark
  have hmark (u : State) (bit up down : Nat) : u.Settles (mark u bit up down) := by
    simp only [mark]
    split
    · split
      · exact (u.setField_settles _ _ _ _ _ (by decide)).trans (State.err_settles _ _ _)
      · exact .refl u
    · split
      · exact .refl u
      · exact u.setField_settles _ _ _ _ _ (by decide)
  exact (hmark s 0 85 80).trans (hmark _ 1 95 90)

theorem spillFrom_settles (l : List Nat) (freed : Nat) : s.Settles (spillFrom l freed s) := by
  induction l generalizing freed s with
  | nil => exact .refl s
  | cons t l ih =>
    unfold spillFrom
    split
    · exact .refl s
    · split
      · split
        · exact (s.count_settles _ _ (by omega)).trans (ih _ _)
        · exact ih _ _
      · exact (s.acceptMove_settles _ _).trans (ih _ _)

theorem recallFrom_settles (l : List Nat) (planned : Nat) : s.Settles (recallFrom l planned s) := by
  induction l generalizing planned s with
  | nil => exact .refl s
  | cons t l ih =>
    unfold recallFrom
    split
    · exact .refl s
    · exact (s.acceptMove_settles _ _).trans (ih _ _)

theorem State.spillOn_settles : s.Settles s.spillOn := by
  unfold State.spillOn
  split
  · exact .refl s
  split
  · exact s.setField_settles _ _ _ _ _ (by decide)
  split
  next d s1 hdrawn =>
    have hdraw : s.Settles s1 := by
      cases hdrawn
      exact s.draw_settles
    extract_lets s2
    have hspill : s.Settles s2 := by
      simp only [s2]
      split
      · exact hdraw.trans (spillFrom_settles _ _ _)
      · exact hdraw
    split
    · exact hspill
    · exact hspill.trans (State.setField_settles _ _ _ _ _ _ (by decide))

theorem State.recallTiles_settles : s.Settles s.recallTiles := by
  unfold State.recallTiles
  split
  · exact .refl s
  simp only []
  split
  · exact .refl s
  · exact s.draw_settles.trans (recallFrom_settles _ _ _)

theorem State.demoteIfLow_settles : s.Settles s.demoteIfLow := by
  unfold State.demoteIfLow
  split
  · exact .refl s
  split
  · split
    · exact s.rck_settles _
    · exact .refl s
  split
  · exact ((s.rck_settles { s.rck with demoting := true }).trans (State.draw_settles _)).trans
      (foldl_settles (fun u t => u.acceptMove_settles t .demotion) _ _)
  · exact .refl s

/-- After usage or capacity changed, moves are accepted and flags set (R65, R77, R78, R80). -/
theorem State.settleUsage_settles : s.Settles s.settleUsage := by
  unfold State.settleUsage
  extract_lets s1 s2 s3
  have hdemote : s1.Settles s2 := by
    simp only [s2]
    split
    · exact .refl s1
    · exact foldl_settles (fun u t => u.acceptMove_settles t .demotion) _ _
  have hclear : s2.Settles s3 := by
    simp only [s3]
    split
    · exact (s2.setField_settles _ _ _ _ _ (by decide)).trans (State.setField_settles _ _ _ _ _ _ (by decide))
    · exact .refl s2
  exact (((s.watermarks_settles.trans hdemote).trans hclear).trans ((State.spillOn_settles _).trans (State.recallTiles_settles _))).trans
    (State.demoteIfLow_settles _)

end

end Sys2Proof.Machine
end

section
/-! PROOFS. Assembly buffers are sealed (R105 to R108): a timer or a FLUSH marks buffers as sealing and nothing more, and a seal is work on tiles that closes its buffer. -/

namespace Sys2Proof.Machine

/-! ### Work of the presses -/

section
variable (s : State)

theorem State.addRef_tends (id : Nat) : s.Tends (s.addRef id) := by
  unfold State.addRef
  split
  · exact .refl s
  · exact s.prs_tends rfl (fun _ h => h)

theorem State.slotFreed_tends : s.Tends s.slotFreed := s.prs_tends rfl (fun _ h => h)

theorem State.setTable_tends (id : Nat) (t : Table) : s.Tends (s.setTable id t) := s.prs_tends rfl (fun _ h => h)

theorem State.dropRef_tends (id : Nat) : s.Tends (s.dropRef id) := by
  unfold State.dropRef
  split
  · exact .refl s
  · split
    · exact (s.setTable_tends id {}).trans (State.slotFreed_tends _)
    · exact s.setTable_tends _ _

theorem State.setCask_tends (k : Nat) (e : CaskEntry) : s.Tends (s.setCask k e) := s.setCmap_tends k e.toNat

theorem State.putSectors_tends (p x : Nat) (l : List Byte) : s.Tends (s.putSectors p x l) := s.mem_tends rfl rfl

theorem State.storeCask_tends (k p x : Nat) (c : StoredCask) : s.Tends (s.storeCask k p x c) :=
  (s.putSectors_tends p x c.bytes).trans (State.setCask_tends _ k _)

theorem State.reported_tends (u : RepairUnit) : s.Tends (s.reported u) := by
  unfold State.reported
  split
  · exact .refl s
  · exact ⟨rfl, fun _ h => h, rfl⟩

theorem State.setWord_tends (page off v : Nat) (h : 4096 * 0x012 + 0x100 ≠ 4096 * page + off) : s.Tends (s.setWord page off v) :=
  State.tends_of_quiet rfl (s.word_setWord_ne _ _ _ _ _ h)

theorem State.recordUe_tends (whereTo foundBy addr : Nat) : s.Tends (s.recordUe whereTo foundBy addr) := by
  have hrecord := (((s.setWord64_tends 0x0E0 0x130 addr (by decide) (by decide)).trans
    (State.setWord_tends _ 0x0E0 0x138 (whereTo + foundBy * 2 ^ 4) (by decide))).trans (State.count_tends _ 0x0E0 1 (by omega : 2 < 6))).trans
    (State.err_tends _ 0x0E0 9)
  unfold State.recordUe
  simp only []
  split
  · exact hrecord.trans (State.reported_tends _ _)
  · exact hrecord

theorem State.pushQlog_tends (e : QEntry) : s.Tends (s.pushQlog e).1 := by
  unfold State.pushQlog
  split
  · exact s.prs_tends rfl (fun _ h => h)
  · have hovf := s.prs_tends (x := { s.prs with
        qlogOvf := sset 0 s.prs.qlogOvf e.press (min 255 (sget 0 s.prs.qlogOvf e.press + 1)) }) rfl (fun _ h => h)
    exact hovf.trans (State.err_tends _ _ _)

theorem State.markDamaged_tends (k code : Nat) (e : CaskEntry) : s.Tends (s.markDamaged k code e) := by
  have hset := s.setCask_tends k { e with quarantined := true }
  exact ⟨congrArg (fun v => { v with prs := { sessions := s.prs.sessions } }) hset.frame, fun _ h => h, hset.range⟩

/-- A cask found damaged is quarantined (R103). -/
theorem State.quarantine_tends (k code foundBy sector : Nat) : s.Tends (s.quarantine k code foundBy sector) := by
  rw [State.quarantine_eq]
  have hue : s.Tends (s.ueRecorded k code foundBy sector) := by
    unfold State.ueRecorded
    split
    · exact s.recordUe_tends _ _ _
    · exact .refl s
  exact (hue.trans (State.markDamaged_tends _ k code _)).trans
    (((State.pushQlog_tends _ _).trans (State.count_tends _ _ 1 (by omega))).trans (State.err_tends _ _ _))

theorem State.cachePut_tends (k : Nat) (raw : List Byte) (poison : BitVec 64) : s.Tends (s.cachePut k raw poison) := s.prs_tends rfl (fun _ h => h)

theorem State.decodeRead_tends (k : Nat) (bad : Bool) : s.Tends (s.decodeRead k bad).2.2 := by
  have hcount : s.Tends (s.decodeCounted k) := by
    unfold State.decodeCounted
    split
    · exact .refl s
    · exact s.count_tends _ _ (by omega)
  cases h : s.decodes k bad with
  | ok raw poison excess =>
    rw [State.decodeRead_ok h]
    exact hcount.trans (State.cachePut_tends _ _ _ _)
  | damaged code =>
    rw [State.decodeRead_damaged h]
    exact hcount.trans (State.quarantine_tends _ _ _ _ _)

theorem State.storedCask_tends (k : Nat) (w : Traffic) : s.Tends (s.storedCask k w).2.2 := by
  have hlook := (s.lookCask_looks k w).tends
  unfold State.storedCask
  simp only []
  split
  · exact hlook
  · split
    · exact hlook.trans (State.cachePut_tends _ _ _ _)
    · exact (hlook.trans (State.dramCellar_looks _ _ _ _ _ _).tends).trans (State.decodeRead_tends _ _ _)

/-- Merging a buffer's lines over it, a cask is read as it is stored (R107). -/
theorem State.caskContent_state (k : Nat) (w : Traffic) : (s.caskContent k w).2.2 = (s.storedCask k w).2.2 := by
  unfold State.caskContent
  dsimp only
  split <;> rfl

theorem State.caskContent_tends (k : Nat) (w : Traffic) : s.Tends (s.caskContent k w).2.2 := by
  rw [State.caskContent_state]
  exact s.storedCask_tends k w

theorem State.detach_tends (k : Nat) : s.Tends (s.detach k) := by
  have hpushed (x : Sparse Nat) (e : QEntry) : s.Tends (({ s with prs := { s.prs with qReason := x } } : State).pushQlog e).1 :=
    State.Tends.trans (s.prs_tends (x := { s.prs with qReason := x }) rfl (fun _ h => h)) (State.pushQlog_tends _ e)
  unfold State.detach
  simp only []
  split
  · exact s.prs_tends rfl (fun _ h => h)
  · split
    · exact hpushed _ _
    · exact ((hpushed _ _).trans (State.markSectors_tends _ _ _ _ _)).trans (State.dropRef_tends _ _)

theorem State.freeCask_tends (k : Nat) : s.Tends (s.freeCask k) := by
  unfold State.freeCask
  simp only []
  split
  · exact s.detach_tends k
  · exact (s.markSectors_tends _ _ _ _).trans (State.dropRef_tends _ _)

theorem State.findRun_tends (package lo size n : Nat) : s.Tends (s.findRun package lo size n).2 := by
  unfold State.findRun
  simp only []
  split <;> exact s.draw_tends

theorem foldl_snd_tends {α β} {f : α × State → β → α × State} (hf : ∀ (a : α × State) (b : β), a.2.Tends (f a b).2)
    (l : List β) (a : α × State) : a.2.Tends (l.foldl f a).2 := by
  induction l generalizing a with
  | nil => exact .refl _
  | cons b l ih => exact (hf a b).trans (ih _)

theorem State.findColumn_tends (t c g n : Nat) : s.Tends (s.findColumn t c g n).2 := by
  refine foldl_snd_tends (fun a k => ?_) _ (none, s)
  split
  · exact .refl _
  · simp only []
    split
    · exact State.findRun_tends _ _ _ _ _
    · exact .refl _

theorem State.takeSectors_tends {t c g n p x : Nat} {u : State} (h : s.takeSectors t c g n = some (p, x, u)) : s.Tends u := by
  have hcolumn := s.findColumn_tends t c g n
  unfold State.takeSectors at h
  split at h
  · next hfind =>
    cases h
    rw [hfind] at hcolumn
    exact hcolumn.trans (State.markSectors_tends _ _ _ _ _)
  · cases h

theorem State.setHome_tends (t home loc : Nat) : s.Tends (s.setHome t home loc) := s.setTmap_tends t _

theorem State.clearCasks_tends (t : Nat) : s.Tends (s.clearCasks t) := foldl_tends (fun u _ => u.setCmap_tends _ _) _ s

/-- A tile without sectors and buffers goes home (R46). -/
theorem State.zeroTest_tends (t : Nat) : s.Tends (s.zeroTest t) := by
  unfold State.zeroTest
  split
  · exact ((foldl_tends (fun u _ => u.cacheDrop_tends _) _ s).trans (State.clearCasks_tends _ t)).trans (State.setHome_tends _ _ _ _)
  · exact .refl s

theorem State.settleUsage_tends : s.Tends s.settleUsage := s.settleUsage_settles.tends

theorem State.trainCount_tends (g k : Nat) : s.Tends (s.trainCount g k) := by
  unfold State.trainCount
  extract_lets r had now
  split
  · exact s.prs_tends rfl (fun _ h => h)
  · exact s.prs_tends rfl (fun _ h => h)

/-! ### A tile that finds no sectors goes to the vat -/

variable {s} in
theorem State.takeSlot_tends {use : SlotUse} {slot : Nat} {u : State} (h : s.takeSlot use = some (slot, u)) : s.Tends u := by
  unfold State.takeSlot at h
  simp only [] at h
  split at h
  · cases h
  · cases h
    exact (s.draw_tends.trans (State.setUse_tends _ slot use)).trans (State.mem_tends _ rfl rfl)

variable {s} in
theorem State.takePool_tends {use : SlotUse} {slot : Nat} {u : State} (h : s.takePool use = some (slot, u)) : s.Tends u := by
  unfold State.takePool at h
  split at h
  · cases h
  · exact State.takeSlot_tends h

variable {s} in
theorem State.takeEmergency_tends {slot : Nat} {u : State} (h : s.takeEmergency = some (slot, u)) : s.Tends u := by
  unfold State.takeEmergency at h
  split at h
  · cases h
  · obtain ⟨⟨slot, v⟩, htake, heq⟩ := Option.map_eq_some_iff.mp h
    cases heq
    exact (State.takeSlot_tends htake).trans (State.count_tends _ _ _ (by omega))

theorem State.freeBacking_tends (t : Nat) : s.Tends (s.freeBacking t) := by
  unfold State.freeBacking
  split
  · exact s.setUse_tends _ _
  split
  · exact (foldl_tends (fun u c => ((u.freeCask_tends (4 * t + c)).trans (State.dropBuf_tends _ _)).trans (State.cacheDrop_tends _ _)) _ s).trans
      (State.clearCasks_tends _ t)
  split
  · exact s.clearCasks_tends t
  · exact .refl s

theorem State.putVatLine_tends (slot line : Nat) (v : List Byte × Bool) : s.Tends (s.putVatLine slot line v) := s.mem_tends rfl rfl

theorem State.toVat_tends (t slot : Nat) (w : Traffic) : s.Tends (s.toVat t slot w) := by
  unfold State.toVat
  refine (((foldl_tends (fun u c => ?_) _ s).trans (State.dropMove_tends _ t)).trans (State.freeBacking_tends _ t)).trans (State.setHome_tends _ _ _ _)
  exact (u.caskContent_tends (4 * t + c) w).trans
    (foldl_tends (fun v i => (v.putVatLine_tends _ _ _).trans (State.dramVat_looks _ _ _ _ _).tends) _ _)

theorem State.spillOn_tends : s.Tends s.spillOn := s.spillOn_settles.tends

theorem State.exhausted_tends : s.Tends s.exhausted := by
  have hset := (s.setField_tends 0x018 0x11C 2 1 1 (by decide)).trans (State.err_tends _ 0x018 10)
  unfold State.exhausted
  extract_lets s1
  split
  · exact (hset.trans (State.setField_tends _ _ _ _ _ _ (by decide))).trans (State.spillOn_tends _)
  · exact hset

theorem State.pushExh_tends (t : Nat) (sealed : Bool) : s.Tends (s.pushExh t sealed) := by
  unfold State.pushExh
  split
  · exact s.rck_tends _
  · exact (s.rck_tends { s.rck with exhOvf := min 255 (s.rck.exhOvf + 1) }).trans (State.err_tends _ _ _)

theorem State.capDrop_tends (t : Nat) (atSeal : Bool) : s.Tends (s.capDrop t atSeal) := by
  have hfreed := ((s.dropMove_tends t).trans (State.freeBacking_tends _ t)).trans (State.setHome_tends _ t 4 0)
  have hlogged := (hfreed.trans (State.pushExh_tends _ t atSeal)).trans (State.setField_tends _ 0x018 0x11C 4 1 1 (by decide))
  exact ((hlogged.trans (State.err_tends _ _ _)).trans (State.count_tends _ _ _ (by omega))).trans (State.settleUsage_tends _)

theorem State.sealToVat_tends (t : Nat) (w : Traffic) : s.Tends (s.sealToVat t w) := by
  unfold State.sealToVat
  split
  · next htake => exact ((State.takePool_tends htake).trans (State.toVat_tends _ _ _ _)).trans (State.settleUsage_tends _)
  · extract_lets s0
    have hexhausted : s.Tends s0 := s.exhausted_tends
    split
    · next htake =>
      exact ((hexhausted.trans (State.takeEmergency_tends htake)).trans (State.toVat_tends _ _ _ _)).trans (State.settleUsage_tends _)
    · exact hexhausted.trans (State.capDrop_tends _ _ _)

/-! ### A seal ends -/

/-- What a seal counts before its buffer closes, with the cask cache following the merged content (R96, R104, R107). -/
def State.sealCounted (k g p : Nat) (b : AsmBuf) (enc : StoredCask) (raw : List Byte) (poison : BitVec 64) : State :=
  let u1 := s.count (prsPage p) 1
  let u2 := if enc.method = 0 then u1.count (prsPage p) 2 else u1
  let u3 := if b.forced then u2.count (prsPage p) 5 else u2
  let u4 := if (u3.cached k).isSome then u3.cachePut k (blankPoison raw poison) poison else u3
  if enc.method = 0 ∨ enc.method = 3 ∨ enc.method = 4 ∨ enc.method = 5 then u4.trainCount g k else u4

/-- A sealed cask's buffer closes (R107). -/
def State.sealClosed (k : Nat) : State := (((s.dropBuf k).zeroTest (k / 4)).settleCask k).settleUsage

/-- The sealed cask stays in the sectors of the old one, of which those it does not need are freed (R107). -/
def State.sealedInPlace (k : Nat) (w : Traffic) (old : CaskEntry) (enc : StoredCask) : State :=
  ((((s.addRef enc.table).storeCask k old.package old.sector enc).dramCellar old.package old.sector enc.length true w).markSectors
    old.package (old.sector + enc.length) (old.length - enc.length) false).dropRef old.table

/-- A cask of a cellar tile is merged with its buffer, encoded and stored (R107). -/
def State.sealMerged (k g : Nat) (r : Region) (b : AsmBuf) : State :=
  let w : Traffic := ⟨r.cls, 6⟩
  let (raw, poison, s1) := s.caskContent k w
  let old := s1.cask k
  let enc := encodeCask r.hint (s1.curTable r) raw poison
  if enc.length ≤ old.length ∧ !old.quarantined then
    ((s1.sealedInPlace k w old enc).sealCounted k g old.package b enc raw poison).sealClosed k
  else if enc.length = 0 then
    (((s1.freeCask k).setCask k { package := old.package, method := 1 }).sealCounted k g old.package b enc raw poison).sealClosed k
  else
    match s1.takeSectors (k / 4) (k % 4) g enc.length with
    | some (np, nx, u) =>
      (((((u.addRef enc.table).dramCellar np nx enc.length true w).freeCask k).storeCask k np nx enc).sealCounted
        k g old.package b enc raw poison).sealClosed k
    | none => ((s1.count (prsPage old.package) 1).sealToVat (k / 4) w).dropBuf k

/-- The map entries of a cask are looked up for its seal (R20, R49). -/
def State.sealLooked (k cls : Nat) : State := (s.findTile (k / 4) ⟨cls, 6⟩ .none).findCask k ⟨cls, 6⟩ .none

variable {s} in
theorem State.sealCask_eq {k g : Nat} {r : Region} {b : AsmBuf} (hbuf : s.bufOf k = some b) (hregion : s.tileRegion (k / 4) = some (g, r)) :
    s.sealCask k = if (s.sealLooked k r.cls).home (k / 4) ≠ 2 then (s.sealLooked k r.cls).dropBuf k
      else (s.sealLooked k r.cls).sealMerged k g r b := by
  unfold State.sealCask
  dsimp only
  rw [hbuf, hregion]
  rfl

variable {s} in
theorem State.sealCask_free {k : Nat} {b : AsmBuf} (hbuf : s.bufOf k = some b) (hregion : s.tileRegion (k / 4) = none) :
    s.sealCask k = s.dropBuf k := by
  unfold State.sealCask
  dsimp only
  rw [hbuf, hregion]

theorem State.sealCounted_tends (k g p : Nat) (b : AsmBuf) (enc : StoredCask) (raw : List Byte) (poison : BitVec 64) :
    s.Tends (s.sealCounted k g p b enc raw poison) := by
  unfold State.sealCounted
  extract_lets u1 u2 u3 u4
  have h1 : s.Tends u1 := s.count_tends _ _ (by omega)
  have h2 : u1.Tends u2 := by
    simp only [u2]
    split
    · exact u1.count_tends _ _ (by omega)
    · exact .refl u1
  have h3 : u2.Tends u3 := by
    simp only [u3]
    split
    · exact u2.count_tends _ _ (by omega)
    · exact .refl u2
  have h4 : u3.Tends u4 := by
    simp only [u4]
    split
    · exact u3.cachePut_tends _ _ _
    · exact .refl u3
  have hcounted := ((h1.trans h2).trans h3).trans h4
  split
  · exact hcounted.trans (u4.trainCount_tends g k)
  · exact hcounted

theorem State.dropBuf_bufOf (k : Nat) : (s.dropBuf k).bufOf k = none := by
  refine (State.flushChecks_tends _).bufOf_none ?_
  simp [State.bufOf]

/-- No row and no package is being emptied (R348, R349). -/
def State.unmoved : Prop := s.igr.rowsLeaving = [] ∧ s.mem.evacuating = 0#48

end

section
variable {s t : State}

theorem State.Tends.unmoved (h : s.Tends t) (hs : s.unmoved) : t.unmoved :=
  ⟨h.rowsLeaving.trans hs.1, h.evacuating.trans hs.2⟩

/-- From s to t there was work on tiles, and the buffer of a cask was closed. -/
def State.Closes (s t : State) (k : Nat) : Prop := s.Tends t ∧ t.bufOf k = none

theorem State.Tends.closes {u : State} {k : Nat} (h : s.Tends t) (hc : t.Closes u k) : s.Closes u k := ⟨h.trans hc.1, hc.2⟩

theorem State.dropBuf_closes (s : State) (k : Nat) : s.Closes (s.dropBuf k) k := ⟨s.dropBuf_tends k, s.dropBuf_bufOf k⟩

/-- A cask that has been sealed is only looked up by the cooper, which empties nothing (R348, R349). -/
theorem State.settleCask_unmoved (k : Nat) (hs : s.unmoved) : s.settleCask k = s.findCask k background .none := by
  obtain ⟨hrows, hevacuating⟩ := (s.findCask_tends k background).unmoved hs
  unfold State.settleCask
  simp only [show upsetAt [] (4096 * k) isCaskMap = Upset.none from rfl, hrows, hevacuating]
  simp

theorem State.sealClosed_closes (k : Nat) (hs : s.unmoved) : s.Closes (s.sealClosed k) k := by
  have hzero := (s.dropBuf_tends k).trans (State.zeroTest_tends _ (k / 4))
  rw [State.sealClosed, State.settleCask_unmoved k (hzero.unmoved hs)]
  have hrest := (State.findCask_tends ((s.dropBuf k).zeroTest (k / 4)) k background).trans (State.settleUsage_tends _)
  exact ⟨hzero.trans hrest, ((State.zeroTest_tends _ _).trans hrest).bufOf_none (s.dropBuf_bufOf k)⟩

theorem State.sealedInPlace_tends (s : State) (k : Nat) (w : Traffic) (old : CaskEntry) (enc : StoredCask) :
    s.Tends (s.sealedInPlace k w old enc) :=
  ((((s.addRef_tends _).trans (State.storeCask_tends _ _ _ _ _)).trans (State.dramCellar_looks _ _ _ _ _ _).tends).trans
    (State.markSectors_tends _ _ _ _ _)).trans (State.dropRef_tends _ _)

theorem State.sealMerged_closes (k g : Nat) (r : Region) (b : AsmBuf) (hs : s.unmoved) : s.Closes (s.sealMerged k g r b) k := by
  have hcontent := s.caskContent_tends k ⟨r.cls, 6⟩
  have hend {u : State} (h : s.Tends u) (p : Nat) (enc : StoredCask) (raw : List Byte) (poison : BitVec 64) :
      s.Closes ((u.sealCounted k g p b enc raw poison).sealClosed k) k := by
    have hcounted := h.trans (u.sealCounted_tends k g p b enc raw poison)
    exact hcounted.closes (State.sealClosed_closes k (hcounted.unmoved hs))
  unfold State.sealMerged
  dsimp only
  split
  · exact hend (hcontent.trans (State.sealedInPlace_tends _ _ _ _ _)) _ _ _ _
  split
  · exact hend ((hcontent.trans (State.freeCask_tends _ _)).trans (State.setCask_tends _ _ _)) _ _ _ _
  split
  · next htake =>
    have hroom := hcontent.trans (State.takeSectors_tends _ htake)
    exact hend ((((hroom.trans (State.addRef_tends _ _)).trans (State.dramCellar_looks _ _ _ _ _ _).tends).trans
      (State.freeCask_tends _ _)).trans (State.storeCask_tends _ _ _ _ _)) _ _ _ _
  · exact ((hcontent.trans (State.count_tends _ _ _ (by omega))).trans (State.sealToVat_tends _ _ _)).closes (State.dropBuf_closes _ k)

/-- A seal is work on tiles that closes its buffer (R107). -/
theorem State.sealCask_closes {k : Nat} {b : AsmBuf} (hbuf : s.bufOf k = some b) (hs : s.unmoved) : s.Closes (s.sealCask k) k := by
  cases hregion : s.tileRegion (k / 4) with
  | none =>
    rw [State.sealCask_free hbuf hregion]
    exact s.dropBuf_closes k
  | some e =>
    obtain ⟨g, r⟩ := e
    have hlooked := (s.findTile_tends (k / 4) ⟨r.cls, 6⟩).trans (State.findCask_tends _ k ⟨r.cls, 6⟩)
    rw [State.sealCask_eq hbuf hregion]
    split
    · exact hlooked.closes (State.dropBuf_closes _ k)
    · exact hlooked.closes (State.sealMerged_closes k g r b (hlooked.unmoved hs))

end

/-! ### A cask of zeros is sealed -/

section
variable {s t : State} {k : Nat}

/-- A cask that a read of it finds undamaged: it is not quarantined, and cached or decoded (R101 to R104). -/
def State.sound (s : State) (k : Nat) : Prop :=
  (s.cask k).quarantined = false ∧ (s.cached k = none → ∃ raw poison excess, s.decodes k false = .ok raw poison excess)

theorem State.bufOf_of_prs (h : t.prs = s.prs) (k : Nat) : t.bufOf k = s.bufOf k := by rw [State.bufOf, h, State.bufOf]

theorem State.decodeCounted_changes (s : State) (k : Nat) : s.changesOnly (s.decodeCounted k) [.reg] := by
  unfold State.decodeCounted
  split
  · exact s.changesOnly_refl _
  · exact s.count_changes _ _ _

theorem State.Heats.decodes (h : s.Heats t) (k : Nat) (bad : Bool) : t.decodes k bad = s.decodes k bad := by
  simp only [State.decodes, h.cask, State.getSectors, h.cellar, h.cellarBad, h.tableLens]

/-- A cask that is not quarantined after a read of it was sound. -/
theorem State.sound_of_read {w : Traffic} (hread : ((s.storedCask k w).2.2.cask k).quarantined = false) (hs : s.vatWhole) : s.sound k := by
  have hlook := (s.lookCask_looks k w).heats
  have hdram := ((s.lookCask k w).dramCellar_looks (s.cask k).package (s.cask k).sector (s.cask k).length false w)
  have hread' := hread
  unfold State.storedCask at hread
  simp only [hlook.cask, hlook.cached] at hread
  split at hread
  · next hq => rw [hlook.cask, hq] at hread; cases hread
  · next hq =>
    refine ⟨by simpa using hq, fun hcached => ?_⟩
    simp only [hcached, State.decodeNow, hlook.cask] at hread
    rw [← hlook.decodes, ← hdram.heats.decodes]
    cases hdecoded : State.decodes (s.lookCask k w |>.dramCellar (s.cask k).package (s.cask k).sector (s.cask k).length false w) k false with
    | ok raw poison excess => exact ⟨raw, poison, excess, rfl⟩
    | damaged code =>
      rw [State.decodeRead_quarantines hdecoded (hdram.tends.channelOut.trans ((s.lookCask_looks k w).tends.channelOut.trans hs))] at hread
      cases hread

/-- A read of a sound cask changes no cask and no buffer. -/
theorem State.sound.storedCask (h : s.sound k) (w : Traffic) :
    (s.storedCask k w).2.2.bufOf k = s.bufOf k ∧ (s.storedCask k w).2.2.cask k = s.cask k := by
  obtain ⟨hq, hdecodes⟩ := h
  have hlook := (s.lookCask_looks k w).heats
  have hdram := ((s.lookCask k w).dramCellar_looks (s.cask k).package (s.cask k).sector (s.cask k).length false w).heats
  cases hcached : s.cached k with
  | some c =>
    rw [State.storedCask_cached w hq hcached]
    exact ⟨hlook.bufOf k, hlook.cask k⟩
  | none =>
    obtain ⟨raw, poison, excess, hok⟩ := hdecodes hcached
    rw [← hlook.decodes, ← hdram.decodes] at hok
    have hcounted := State.decodeCounted_changes ((s.lookCask k w).dramCellar (s.cask k).package (s.cask k).sector (s.cask k).length false w) k
    have hcask := (State.cask_of_caskMap (congrArg MemState.caskMap (hcounted .mem (by decide))) k).trans ((hdram.cask k).trans (hlook.cask k))
    have hbuf := (State.bufOf_of_prs (hcounted .prs (by decide)) k).trans ((hdram.bufOf k).trans (hlook.bufOf k))
    unfold State.storedCask
    simp only [hlook.cask, hlook.cached, hq, hcached, State.decodeNow, Bool.false_eq_true, if_false, State.decodeRead_ok hok]
    exact ⟨hbuf, hcask⟩

/-- The content of a cask as a read of it finds it: what is stored, with its buffer's lines over it (R105, R107). -/
def State.contentLines (s : State) (k : Nat) : List Byte × BitVec 64 :=
  match s.bufOf k with
  | none => s.storedLines k
  | some b => overlay (s.storedLines k).1 (s.storedLines k).2 b

theorem State.Heats.contentLines (h : s.Heats t) (k : Nat) : t.contentLines k = s.contentLines k := by
  simp only [State.contentLines, h.bufOf, h.storedLines]

theorem State.sound.caskContent_lines (h : s.sound k) (w : Traffic) : ((s.caskContent k w).1, (s.caskContent k w).2.1) = s.contentLines k := by
  unfold State.caskContent State.contentLines
  simp only [(h.storedCask w).1, ← s.storedCask_lines k w]
  cases s.bufOf k <;> rfl

theorem State.Heats.sound (h : s.Heats t) (hs : s.sound k) : t.sound k := by
  simpa only [State.sound, h.cask, h.cached, h.decodes] using hs

/-- With every vat channel in service the map entries of a cask are looked up for its seal, and no more. -/
theorem State.sealLooked_looks (s : State) (k cls : Nat) (hs : s.vatWhole) : s.Looks (s.sealLooked k cls) := by
  have htile := s.lookTile_looks (k / 4) ⟨cls, 6⟩
  have hwhole : (s.lookTile (k / 4) ⟨cls, 6⟩).vatWhole := htile.tends.channelOut.trans hs
  rw [State.sealLooked, s.findTile_inService _ _ (State.lineOut_whole hs _ _), State.findCask_inService _ _ _ (State.lineOut_whole hwhole _ _)]
  exact htile.trans (State.lookCask_looks _ _ _)

/-- A cask of zeros without poison is encoded as no sectors, by METHOD 1 (R94). -/
theorem encodeCask_blank (hint : Nat) (cur : Option (Nat × Nat × List Nat)) {raw : List Byte} (hraw : ∀ b ∈ raw, b = 0#8) :
    encodeCask hint cur raw 0#64 = ⟨1, 0, 0, 0#64, []⟩ := by
  have hblank : (blankPoison raw 0#64).all (fun b => decide (b = 0#8)) = true := by
    simpa using blankPoison_zero 0#64 hraw
  simp only [encodeCask, hblank, if_true]

/-- With every vat channel in service, the cask holds no sectors. -/
def State.vacant (s : State) (k : Nat) : Prop := s.vatWhole ∧ (s.cask k).length = 0

theorem State.SparesCasks.vacant (h : s.SparesCasks t) (hs : s.vacant k) : t.vacant k := by
  obtain ⟨hwhole, hlength⟩ := hs
  exact ⟨h.works.whole hwhole, by rw [h.cask hwhole, hlength]⟩

theorem State.vacant_of_mem (h : t.mem = s.mem) (hs : s.vacant k) : t.vacant k := by
  obtain ⟨hwhole, hlength⟩ := hs
  exact ⟨by rwa [State.vatWhole, h], by rwa [State.cask_of_caskMap (congrArg MemState.caskMap h)]⟩

theorem foldl_vacant {α} {f : State → α → State} (hf : ∀ (s : State) (a : α), s.vacant k → (f s a).vacant k) (l : List α) (s : State)
    (h : s.vacant k) : (l.foldl f s).vacant k := by
  induction l generalizing s with
  | nil => exact h
  | cons a l ih => exact ih _ (hf s a h)

theorem State.setCmap_vacant (j : Nat) (h : s.vacant k) : (s.setCmap j 0).vacant k := by
  obtain ⟨hwhole, hlength⟩ := h
  refine ⟨(s.setCmap_works j 0).whole hwhole, ?_⟩
  rw [State.cask, s.cmap_setCmap _ _ _ hwhole]
  split
  · rfl
  · exact hlength

theorem State.zeroTest_vacant (t : Nat) (h : s.vacant k) : (s.zeroTest t).vacant k := by
  unfold State.zeroTest
  split
  · have hdropped := foldl_vacant (fun u c hu => State.vacant_of_mem (t := u.cacheDrop (4 * t + c)) rfl hu) [0, 1, 2, 3] s h
    exact (State.setTmap_sparesCasks _ _ _).vacant (foldl_vacant (fun u c hu => State.setCmap_vacant (4 * t + c) hu) [0, 1, 2, 3] _ hdropped)
  · exact h

theorem State.count_mem (s : State) (page i n : Nat) : (s.count page i n).mem = s.mem := s.count_changes page i n .mem (by decide)

theorem State.trainCount_mem (s : State) (g k : Nat) : (s.trainCount g k).mem = s.mem := by
  unfold State.trainCount
  extract_lets
  split <;> rfl

theorem State.sealCounted_mem (s : State) (k g p : Nat) (b : AsmBuf) (enc : StoredCask) (raw : List Byte) (poison : BitVec 64) :
    (s.sealCounted k g p b enc raw poison).mem = s.mem := by
  unfold State.sealCounted
  extract_lets u1 u2 u3 u4
  have h1 : u1.mem = s.mem := s.count_mem _ _ _
  have h2 : u2.mem = u1.mem := by
    simp only [u2]
    split
    · exact u1.count_mem _ _ _
    · rfl
  have h3 : u3.mem = u2.mem := by
    simp only [u3]
    split
    · exact u2.count_mem _ _ _
    · rfl
  have h4 : u4.mem = u3.mem := by
    simp only [u4]
    split <;> rfl
  have hcounted := h4.trans (h3.trans (h2.trans h1))
  split
  · exact (u4.trainCount_mem g k).trans hcounted
  · exact hcounted

theorem State.sealClosed_vacant (h : s.vacant k) (hs : s.unmoved) : (s.sealClosed k).vacant k := by
  have hclosed := State.zeroTest_vacant (k / 4) (State.vacant_of_mem (s.dropBuf_mem k) h)
  have htends := (s.dropBuf_tends k).trans (State.zeroTest_tends _ (k / 4))
  rw [State.sealClosed, State.settleCask_unmoved k (htends.unmoved hs), State.findCask_inService _ _ _ (State.lineOut_whole hclosed.1 _ _)]
  exact (State.settleUsage_sparesCasks _).vacant ((State.lookCask_looks _ _ _).sparesCasks.vacant hclosed)

theorem State.storeCask_blank (s : State) (k p x : Nat) :
    s.storeCask k p x ⟨1, 0, 0, 0#64, []⟩ = (s.putSectors p x []).setCask k { package := p, method := 1 } := by
  simp [State.storeCask]

/-- A cask sealed as zeros keeps no sector (R107). -/
theorem State.sealedInPlace_vacant (w : Traffic) {old : CaskEntry} (hold : old.fits) (hs : s.vatWhole) :
    (s.sealedInPlace k w old ⟨1, 0, 0, 0#64, []⟩).vacant k := by
  obtain ⟨-, hpackage, -⟩ := hold
  have hput : ((s.addRef 0).putSectors old.package old.sector []).vatWhole :=
    ((s.addRef_tends 0).trans (State.putSectors_tends _ _ _ _)).channelOut.trans hs
  have hcask := State.cask_setCask _ k { package := old.package, method := 1 } ⟨by simp, hpackage, by simp, by simp, by simp⟩ hput
  have hstored : ((s.addRef 0).storeCask k old.package old.sector ⟨1, 0, 0, 0#64, []⟩).vacant k := by
    rw [State.storeCask_blank]
    exact ⟨(State.setCask_tends _ _ _).channelOut.trans hput, by rw [hcask]⟩
  exact (((State.dramCellar_looks _ _ _ _ _ _).sparesCasks.trans (State.markSectors_sparesCasks _ _ _ _ _)).trans
    (State.dropRef_sparesCasks _ _)).vacant hstored

theorem State.sealMerged_vacant {g : Nat} {r : Region} (b : AsmBuf) (hzero : ∀ x ∈ (s.caskContent k ⟨r.cls, 6⟩).1, x = 0#8)
    (hclean : (s.caskContent k ⟨r.cls, 6⟩).2.1 = 0#64) (hread : ((s.caskContent k ⟨r.cls, 6⟩).2.2.cask k).quarantined = false)
    (hs : s.vatWhole) (hunmoved : s.unmoved) : (s.sealMerged k g r b).vacant k := by
  have hcontent := s.caskContent_tends k ⟨r.cls, 6⟩
  have hplace := State.sealedInPlace_vacant (k := k) ⟨r.cls, 6⟩ (CaskEntry.ofNat_fits ((s.caskContent k ⟨r.cls, 6⟩).2.2.cmap k))
    (hcontent.channelOut.trans hs)
  unfold State.sealMerged
  simp only [hclean, encodeCask_blank _ _ hzero, hread, Nat.zero_le, Bool.not_false, and_self, if_true]
  exact State.sealClosed_vacant (State.vacant_of_mem (State.sealCounted_mem _ _ _ _ _ _ _ _) hplace)
    (((hcontent.trans (State.sealedInPlace_tends _ _ _ _ _)).trans (State.sealCounted_tends _ _ _ _ _ _ _ _)).unmoved hunmoved)

/-- A cask whose merged content is zero holds no sectors once it is sealed (R107). -/
theorem State.sealCask_vacant {b : AsmBuf} {g : Nat} {r : Region} (hbuf : s.bufOf k = some b) (hregion : s.tileRegion (k / 4) = some (g, r))
    (hhome : s.home (k / 4) = 2) (hzero : ∀ x ∈ (s.caskContent k ⟨r.cls, 6⟩).1, x = 0#8) (hclean : (s.caskContent k ⟨r.cls, 6⟩).2.1 = 0#64)
    (hread : ((s.caskContent k ⟨r.cls, 6⟩).2.2.cask k).quarantined = false) (hs : s.vatWhole) (hunmoved : s.unmoved) : (s.sealCask k).vacant k := by
  rw [State.caskContent_state] at hread
  have hlooks := s.sealLooked_looks k r.cls hs
  have hsound := State.sound_of_read hread hs
  have hsound' := hlooks.heats.sound hsound
  have hcontent : (((s.sealLooked k r.cls).caskContent k ⟨r.cls, 6⟩).1, ((s.sealLooked k r.cls).caskContent k ⟨r.cls, 6⟩).2.1)
      = ((s.caskContent k ⟨r.cls, 6⟩).1, (s.caskContent k ⟨r.cls, 6⟩).2.1) := by
    rw [hsound'.caskContent_lines, hsound.caskContent_lines, hlooks.heats.contentLines]
  obtain ⟨hraw, hpoison⟩ := Prod.mk.inj hcontent
  have hquarantined : (((s.sealLooked k r.cls).caskContent k ⟨r.cls, 6⟩).2.2.cask k).quarantined = false := by
    rw [State.caskContent_state, (hsound'.storedCask _).2, hsound'.1]
  rw [State.sealCask_eq hbuf hregion, if_neg (by rw [hlooks.heats.home, hhome]; decide)]
  exact State.sealMerged_vacant b (by rwa [hraw]) (hpoison.trans hclean) hquarantined (hlooks.tends.channelOut.trans hs)
    (hlooks.tends.unmoved hunmoved)

end

/-! ### Buffers are marked as sealing -/

section
variable {s : State} {k : Nat} {b : AsmBuf}

/-- Changing the elements of a list, but not whether one is the element sought. -/
theorem find?_map_of_kept {α} {p : α → Bool} {f : α → α} (h : ∀ a, p (f a) = p a) (l : List α) : (l.map f).find? p = (l.find? p).map f := by
  rw [List.find?_map, show p ∘ f = p from funext h]

/-- A buffer marked as sealing. -/
theorem State.beginSeal_bufOf (hbuf : s.bufOf k = some b) : (s.beginSeal k false false).bufOf k = some { b with sealing := true } := by
  have hcask : b.cask = k := by simpa using List.find?_some hbuf
  unfold State.bufOf at hbuf
  unfold State.bufOf State.beginSeal
  rw [find?_map_of_kept (fun x => by split <;> rfl), hbuf, Option.map_some, if_pos hcask, Bool.or_false, Bool.or_false]

theorem State.until_beginSeal_changes (s : State) (due k : Nat) : s.changesOnly ((s.until due).beginSeal k false false) [.now, .prs] := by
  intro q hq
  cases q <;> simp_all [Part.same, State.beginSeal, State.until]

/-- The buffers of some casks are marked as sealing for a FLUSH (R106). -/
theorem beginSeals_flush (l : List Nat) (s : State) :
    l.foldl (fun w k => w.beginSeal k false true) s
      = { s with prs := { s.prs with bufs := s.prs.bufs.map (fun b => if b.cask ∈ l then { b with sealing := true, flush := true } else b) } } := by
  induction l generalizing s with
  | nil => simp
  | cons k l ih =>
    rw [List.foldl_cons, ih]
    simp only [State.beginSeal, List.map_map]
    congr 3
    funext b
    dsimp only [Function.comp_apply]
    by_cases hk : b.cask = k <;> by_cases hl : b.cask ∈ l <;> simp [hk, hl]

theorem exec_sealTimeout (hbuf : s.bufOf k = some b) : exec (.sealTimeout k) s
    = .next (if s.timerSeals b then (s.until (b.idleFrom + s.sealTime k)).beginSeal k false false else s) := by
  change execSealTimeout k s = _
  rw [execSealTimeout, hbuf]
  dsimp only
  split <;> rfl

theorem exec_sealAgeLimit (hbuf : s.bufOf k = some b) : exec (.sealAgeLimit k) s
    = .next (if s.timerSeals b then (s.until (b.openedAt + 16 * s.sealTime k)).beginSeal k false false else s) := by
  change execSealAgeLimit k s = _
  rw [execSealAgeLimit, hbuf]
  dsimp only
  split <;> rfl

theorem exec_sealEnd (hbuf : s.bufOf k = some b) (hsealing : b.sealing = true) : exec (.sealEnd k) s
    = .next (if s.rck.reencodes.contains k then s else (s.sealCask k).settleSnoops) := by
  change execSealEnd k s = _
  rw [execSealEnd, hbuf]
  cases h : s.rck.reencodes.contains k <;> simp [hsealing, done]

/-- The casks with a buffer of a press. -/
def State.pressBufs (s : State) (press : Nat) : List Nat := (s.prs.bufs.filter (fun b => decide ((s.cask b.cask).package = press))).map (fun b => b.cask)

/-- The press's buffers are marked, and it is FLUSHING (R106). -/
def State.flushed (s : State) (press : Nat) : State :=
  let v := (s.pressBufs press).foldl (fun w k => w.beginSeal k false true) s
  { v with prs := { v.prs with flushing := v.prs.flushing ||| BitVec.ofNat 48 (2 ^ press) } }

theorem exec_flush {req : Requester} {press : Fin 48} (h : s.admits req (prsPage press.val) 0x100 = true) :
    exec (.flush req press) s = .next (if s.pressBufs press.val = [] then s else s.flushed press.val) := by
  change execFlush req press s = _
  rw [execFlush, State.viaReg_admits _ _ h]
  rfl

theorem State.mem_pressBufs (hb : b ∈ s.prs.bufs) (press : Nat) : b.cask ∈ s.pressBufs press ↔ (s.cask b.cask).package = press := by
  constructor
  · intro h
    obtain ⟨x, hx, hcask⟩ := List.mem_map.mp h
    rw [← hcask]
    simpa using (List.mem_filter.mp hx).2
  · intro h
    exact List.mem_map.mpr ⟨b, List.mem_filter.mpr ⟨hb, by simpa using h⟩, rfl⟩

theorem State.flushed_bufs (s : State) (press : Nat) : (s.flushed press).prs.bufs
    = s.prs.bufs.map (fun b => if (s.cask b.cask).package = press then { b with sealing := true, flush := true } else b) := by
  simp only [State.flushed, beginSeals_flush]
  refine List.map_congr_left (fun b hb => ?_)
  simp only [State.mem_pressBufs hb]

theorem State.flushed_flushing (s : State) (press : Fin 48) : (s.flushed press.val).prs.flushing.getLsbD press.val = true := by
  simp only [State.flushed, BitVec.getLsbD_or, BitVec.getLsbD_ofNat, press.isLt, Nat.testBit_two_pow_self, decide_true, Bool.and_self, Bool.or_true]

theorem State.flushed_changes (s : State) (press : Nat) : s.changesOnly (s.flushed press) [.prs] := by
  simp only [State.flushed, beginSeals_flush]
  intro q hq
  cases q <;> simp_all [Part.same]

end

/-- Settles O23, command by command: a timer marks its buffer as sealing once its moment has come, a FLUSH marks those of its press, and the end of a seal, work on tiles that lets nothing wait, closes the buffer. -/
theorem buffersAreSealed : Obligations.BuffersAreSealed := by
  refine ⟨fun s k b hbuf => ⟨fun hseals => ⟨?_, ?_⟩, fun hseals => ⟨?_, ?_⟩, fun hsealing hruns => ?_, fun hsealing hruns hrest hs hrows hevacuating => ?_⟩,
    fun s req press hadmits => ⟨fun hopen => ?_, fun hnone => ?_⟩⟩
  · rw [exec_sealTimeout hbuf, if_pos hseals]
    exact ⟨_, rfl, State.beginSeal_bufOf hbuf, s.until_beginSeal_changes _ k, rfl⟩
  · rw [exec_sealAgeLimit hbuf, if_pos hseals]
    exact ⟨_, rfl, State.beginSeal_bufOf hbuf, s.until_beginSeal_changes _ k, rfl⟩
  · rw [exec_sealTimeout hbuf, hseals, if_neg Bool.false_ne_true]
  · rw [exec_sealAgeLimit hbuf, hseals, if_neg Bool.false_ne_true]
  · rw [exec_sealEnd hbuf hsealing, if_pos hruns]
  · obtain ⟨htends, hclosed⟩ := State.sealCask_closes hbuf ⟨hrows, hevacuating⟩
    rw [exec_sealEnd hbuf hsealing, hruns, if_neg Bool.false_ne_true, State.settleSnoops_atRest (htends.atRest hrest)]
    refine ⟨_, rfl, hclosed, fun g r hhome hregion _ hzero hclean hread => ?_⟩
    exact (State.sealCask_vacant hbuf hregion hhome (by simpa using hzero) hclean hread hs ⟨hrows, hevacuating⟩).2
  · obtain ⟨b, hb, hpress⟩ := hopen
    have hsome := List.ne_nil_of_mem ((State.mem_pressBufs hb press.val).mpr hpress)
    rw [exec_flush hadmits, if_neg hsome]
    exact ⟨_, rfl, s.flushed_changes _, s.flushed_flushing press, s.flushed_bufs _⟩
  · have hnil : s.pressBufs press.val = [] := by simpa [State.pressBufs] using hnone
    rw [exec_flush hadmits, if_pos hnil]

end Sys2Proof.Machine
end

section
/-! PROOFS. Casks are exported (R109, R110, R273): a CASK_EXPORT sends a stored cask as it stands, or ends with the reason why not. -/

namespace Sys2Proof.Machine

/-! ### An entry runs -/

section
variable {s t : State} {q seq : Nat} {e : Entry}

theorem State.entry_key (h : s.entry q seq = some e) : e.queue = q ∧ e.seq = seq := by simpa using List.find?_some h

theorem State.runEntry_started {opcode : Nat} (f : Queue → Entry → State) (h : s.entry q seq = some e) (hstage : e.stage = 1)
    (hopcode : e.opcode = opcode) : s.runEntry q seq opcode f = f (s.queue q) e := by
  simp [State.runEntry, h, hstage, hopcode]

/-- An entry is changed, but for the queue and the sequence number that name it. -/
theorem State.entry_modEntry {f : Entry → Entry} (hf : ∀ x, (f x).queue = x.queue ∧ (f x).seq = x.seq) (h : s.entry q seq = some e) :
    (s.modEntry q seq f).entry q seq = some (f e) := by
  have hkey := State.entry_key h
  unfold State.entry at h
  unfold State.entry State.modEntry
  rw [find?_map_of_kept (fun x => by split <;> simp [hf]), h, Option.map_some, if_pos hkey]

theorem State.modEntry_changes (s : State) (q seq : Nat) (f : Entry → Entry) : s.changesOnly (s.modEntry q seq f) [.qmg] := by
  intro p hp
  cases p <;> simp_all [Part.same, State.modEntry]

/-- An entry that has not ended ends (R273). -/
theorem State.entry_endEntry (status v0 v1 v2 : Nat) (h : s.entry q seq = some e) (hstage : e.stage ≠ 3) :
    (s.endEntry q seq status v0 v1 v2).entry q seq = some { e with
      stage := 3, status := status, v0 := v0 % 2 ^ 32, v1 := v1 % 2 ^ 32, v2 := v2 % 2 ^ 64, endedAt := s.now } := by
  rw [State.endEntry, State.entry_modEntry (fun x => by split <;> exact ⟨rfl, rfl⟩) h, if_neg hstage]

theorem State.endEntry_changes (s : State) (q seq status v0 v1 v2 : Nat) : s.changesOnly (s.endEntry q seq status v0 v1 v2) [.qmg] :=
  s.modEntry_changes _ _ _

/-- The owner's port may issue, and the operation goes on (R234, R244, R246). -/
theorem State.needPort_may {k : Queue} {p : Port} (q seq : Nat) (f : Port → State) (hport : k.port = some p) (hmaster : s.canMaster p = true) :
    s.needPort k q seq f = f p := by
  have hmaster' := hmaster
  simp only [State.canMaster, State.portTakes, Bool.and_eq_true, Bool.not_eq_true'] at hmaster'
  obtain ⟨⟨⟨⟨⟨-, hcontained⟩, -⟩, -⟩, hbme⟩, -⟩ := hmaster'
  simp [State.needPort, hport, hcontained, hbme, hmaster]

/-- No line is held: queue work takes no place and gives none up (R116, R118). -/
theorem State.engHoldAll_unheld {k : Worker} {c : Instr} (hcmd : k.cmd = some c) (runs : List (Nat × Nat × Bool)) (h : s.unheld) :
    s.engHoldAll k runs = (false, s) := by
  obtain ⟨hentries, hsnoops, hwaiting, hpassed, -⟩ := h
  have hheld (a n : Nat) : s.heldIn a n = [] := by
    have hnone : s.dir.waiting.filterMap waitedLine = [] := List.filterMap_eq_nil_iff.mpr hwaiting
    simp [State.heldIn, hentries, hsnoops, hnone]
  have howns : ∀ w ∈ s.dir.waiting, k.owns w = false := by
    intro w hw
    have hw := hwaiting w hw
    obtain ⟨why, r⟩ := w
    cases why <;> simp_all [Worker.owns, placeOf, waitedLine]
  have hleave : s.dir.waiting.filter (fun w => !(k.owns w)) = s.dir.waiting := List.filter_eq_self.mpr (fun w hw => by simp [howns w hw])
  have hgo : s.goOn k = s := by
    simp only [State.goOn, State.leavePlaces, hleave, hpassed, List.filter_nil]
    rw [← hpassed]
  have hlines : runs.flatMap (fun r => (s.heldIn r.1 r.2.1).map (fun l => (l, r.2.2))) = [] := by simp [hheld]
  rw [State.engHoldAll, hlines]
  simp [State.holdLines, hgo]

end

/-! ### A cask is exported -/

section
variable {s : State} {k : Queue} {a : Nat} {g : Nat} {r : Region}

theorem Memory.bytes_length (m : Memory) (a n : Nat) : (Memory.bytes m a n).length = n := by simp [Memory.bytes]

theorem State.Heats.qmg {s t : State} (h : s.Heats t) : t.qmg = s.qmg := (congrArg State.qmg h.frame :)

/-- A quarantined cask has no image (R110). -/
theorem State.exportImage_quarantined (hright : s.refusal k.actor false false a = none) (hregion : s.findRegion a = some (g, r))
    (hhome : s.home (tileOf a) = 2) (hin : s.inService a) (hquarantined : (s.cask (a / 4096)).quarantined = true) :
    s.exportImage k a [] = (.inl 9, false, s.lookTile (tileOf a) (workTraffic k.actor k.cls)) := by
  have hlook := (s.lookTile_looks (tileOf a) (workTraffic k.actor k.cls)).heats
  simp only [State.exportImage, hright, hregion, show upsetAt [] a isTileMap = Upset.none from rfl, s.findTile_inService _ _ hin.1,
    hlook.home, hhome, hlook.cask, hquarantined, and_self, if_true]

/-- The map entries of a cask are looked up for its CASK_EXPORT, and its sectors read (R19, R20, R110). -/
def State.exportRead (s : State) (k : Queue) (a : Nat) : State :=
  ((s.lookTile (tileOf a) (workTraffic k.actor k.cls)).lookCask (a / 4096) (workTraffic k.actor k.cls)).dramCellar
    (s.cask (a / 4096)).package (s.cask (a / 4096)).sector (s.cask (a / 4096)).length false (workTraffic k.actor k.cls)

theorem State.exportRead_looks (s : State) (k : Queue) (a : Nat) : s.Looks (s.exportRead k a) :=
  ((s.lookTile_looks _ _).trans (State.lookCask_looks _ _ _)).trans (State.dramCellar_looks _ _ _ _ _ _)

/-- The bytes of the sectors of a stored cask, and whether one has an uncorrectable error. -/
def State.sectorsOf (s : State) (k : Nat) : List Byte × Bool := s.getSectors (s.cask k).package (s.cask k).sector (s.cask k).length

/-- The image of a sound cask is what its sectors hold (R109, R110). -/
theorem State.exportImage_sound (hright : s.refusal k.actor false false a = none) (hregion : s.findRegion a = some (g, r)) (hkind : r.kind ≠ 2)
    (hhome : s.home (tileOf a) = 2) (hin : s.inService a) (hsound : (s.cask (a / 4096)).quarantined = false) (hbuf : s.bufOf (a / 4096) = none)
    (hlength : (s.cask (a / 4096)).length ≠ 0) (hreads : (s.sectorsOf (a / 4096)).2 = false) :
    s.exportImage k a [] = (.inr (s.sectorsOf (a / 4096)).1, false, (s.exportRead k a).heatAccess (tileOf a) (s.exportRead k a).engineInc) := by
  have hlook := s.lookTile_looks (tileOf a) (workTraffic k.actor k.cls)
  have hcask := (State.lookCask_looks (s.lookTile (tileOf a) (workTraffic k.actor k.cls)) (a / 4096) (workTraffic k.actor k.cls)).heats
  have hfind := State.findCask_inService _ (a / 4096) (workTraffic k.actor k.cls) (hlook.heats.inService hin).2.1
  have hread := (s.exportRead_looks k a).heats.home (tileOf a)
  unfold State.exportRead at hread ⊢
  unfold State.sectorsOf State.getSectors at *
  simp [State.exportImage, hright, hregion, hkind, show upsetAt [] a isTileMap = Upset.none from rfl,
    show upsetAt [] a isCaskMap = Upset.none from rfl, s.findTile_inService _ _ hin.1, hfind, hlook.heats.home, hhome, hlook.heats.cask,
    hcask.cask, hsound, hlook.heats.bufOf, hbuf, State.readSectors, State.getSectors, hread, hlength, hcask.cellar, hcask.cellarBad,
    hlook.heats.cellar, hlook.heats.cellarBad, hreads]

/-- A CASK_EXPORT of one cask whose image has a status in its place ends with it (R110). -/
theorem State.exportRun_stopped {u : State} {st : Nat} {refused : Bool} (p : Option Port) (buf room : Nat)
    (himage : s.exportImage k a [] = (.inl st, refused, u)) : s.exportRun k p [] 1 a buf room 0 0 false = (st, 0, 0, u) := by
  simp only [State.exportRun, himage]

/-- A room too small for the image ends a CASK_EXPORT before anything was read (R110). -/
theorem State.exportRun_full {u : State} {image : List Byte} {refused : Bool} (p : Option Port) {buf room : Nat}
    (himage : s.exportImage k a [] = (.inr image, refused, u)) (hroom : room < image.length) :
    s.exportRun k p [] 1 a buf room 0 0 false = (10, 0, 0, s) := by
  simp only [State.exportRun, himage, hroom, if_true]

/-- An image that has room is sent to host memory (R110). -/
theorem State.exportRun_sent {u : State} {image : List Byte} (p : Port) {buf room : Nat}
    (himage : s.exportImage k a [] = (.inr image, false, u)) (hroom : image.length ≤ room) :
    s.exportRun k (some p) [] 1 a buf room 0 0 false = (0, 1, image.length, u.dmaBytes p.val buf k.cls image) := by
  simp [State.exportRun, himage, hroom, State.putImage]

theorem foldl_emit {α} (f : α → Out) (l : List α) (s : State) :
    l.foldl (fun u x => u.emit (f x)) s = { s with out := s.out ++ l.map f } := by
  induction l generalizing s with
  | nil => simp
  | cons x l ih => rw [List.foldl_cons, ih]; simp [State.emit]

/-- Bytes sent to host memory go out a line at a time, and nothing else changes. -/
theorem State.dmaBytes_eq (s : State) (p haddr cls : Nat) (l : List Byte) : s.dmaBytes p haddr cls l
    = { s with out := s.out ++ ((chunks 64 (l.length / 64) l).zipIdx).map (fun z => .dmaWrite p (haddr + 64 * z.2) z.1 false cls) } :=
  foldl_emit _ _ s

theorem State.dmaBytes_qmg (s : State) (p haddr cls : Nat) (l : List Byte) : (s.dmaBytes p haddr cls l).qmg = s.qmg := by rw [State.dmaBytes_eq]

theorem State.entry_of_qmg {s t : State} (h : t.qmg = s.qmg) (q seq : Nat) : t.entry q seq = s.entry q seq := by rw [State.entry, h, State.entry]

theorem State.sectorsOf_length (s : State) (k : Nat) : (s.sectorsOf k).1.length = 64 * (s.cask k).length := Memory.bytes_length _ _ _

end

/-- A started entry of a queue whose port may issue and has a tag free, with its buffer in host memory, while no line is held (R116, R246, R278). -/
structure State.Issues (s : State) (q seq : Nat) (e : Entry) (p : Port) : Prop where
  entry : s.entry q seq = some e
  stage : e.stage = 1
  host : e.host1 = true
  port : (s.queue q).port = some p
  master : s.canMaster p = true
  tag : (nextTagOf (s.port p)).isSome = true
  unheld : s.unheld

section
variable {s : State} {q seq : Nat} {e : Entry} {p : Port}

/-- A CASK_EXPORT into host memory ends its entry with what it has sent (R110). -/
theorem exec_caskExport_host (h : s.Issues q seq e p) (hopcode : e.opcode = 0x30) (hone : e.dw1 = 1) {status casks bytes : Nat}
    {u : State} (hrun : s.exportRun (s.queue q) (some p) [] 1 e.a0 e.a1 e.a2 0 0 false = (status, casks, bytes, u)) :
    exec (.caskExport q seq []) s = .next (u.endEntry q seq status casks 0 bytes) := by
  change execCaskExport q seq [] s = _
  have hheld (runs : List (Nat × Nat × Bool)) :
      s.engHoldAll ⟨(s.queue q).actor, (s.queue q).cls, some (.caskExport q seq []), 0⟩ runs = (false, s) :=
    State.engHoldAll_unheld rfl runs h.unheld
  rw [execCaskExport, State.runEntry_started _ h.entry h.stage hopcode]
  simp only [h.host, if_true, State.needPort_may q seq _ h.port h.master, hone, hrun, hheld, Bool.false_eq_true, if_false]
  rfl

variable {g : Nat} {r : Region} (h : s.Issues q seq e p) (hopcode : e.opcode = 0x30) (hone : e.dw1 = 1)
  (hright : s.refusal (s.queue q).actor false false e.a0 = none) (hregion : s.findRegion e.a0 = some (g, r))
  (hhome : s.home (tileOf e.a0) = 2) (hin : s.inService e.a0)
include h hopcode hone hright hregion hhome hin

/-- The CASK_EXPORT of a quarantined cask (R110). -/
theorem exec_caskExport_quarantined (hquarantined : (s.cask (e.a0 / 4096)).quarantined = true) :
    ∃ t x, exec (.caskExport q seq []) s = .next t ∧ t.entry q seq = some x ∧ x.stage = 3 ∧ x.status = 9 ∧ x.v0 = 0
      ∧ s.changesOnly t [.qmg, .mem, .dram, .out, .freeCtr] ∧ s.keepsBytes t := by
  have hlook := s.lookTile_looks (tileOf e.a0) (workTraffic (s.queue q).actor (s.queue q).cls)
  have hrun := State.exportRun_stopped (some p) e.a1 e.a2 (State.exportImage_quarantined hright hregion hhome hin hquarantined)
  have hentry := State.entry_endEntry 9 0 0 0 ((hlook.tends.entry q seq).trans h.entry) (by rw [h.stage]; decide)
  exact ⟨_, _, exec_caskExport_host h hopcode hone hrun, hentry, rfl, rfl, rfl,
    State.changesOnly_trans hlook.changesOnly (State.endEntry_changes _ _ _ _ _ _ _) (by simp) (by simp), hlook.heats.keepsBytes⟩

variable (hkind : r.kind ≠ 2) (hsound : (s.cask (e.a0 / 4096)).quarantined = false) (hbuf : s.bufOf (e.a0 / 4096) = none)
  (hlength : (s.cask (e.a0 / 4096)).length ≠ 0) (hreads : (s.sectorsOf (e.a0 / 4096)).2 = false)
include hkind hsound hbuf hlength hreads

/-- The CASK_EXPORT of a sound cask into room enough (R109, R110). -/
theorem exec_caskExport_sent (hroom : 64 * (s.cask (e.a0 / 4096)).length ≤ e.a2) :
    ∃ t x, exec (.caskExport q seq []) s = .next t ∧ t.entry q seq = some x ∧ x.stage = 3 ∧ x.status = 0 ∧ x.v0 = 1
      ∧ x.v2 = 64 * (s.cask (e.a0 / 4096)).length
      ∧ ∃ o, t.out = s.out ++ o ++ ((chunks 64 (s.cask (e.a0 / 4096)).length (s.sectorsOf (e.a0 / 4096)).1).zipIdx).map
          (fun z => .dmaWrite p.val (e.a1 + 64 * z.2) z.1 false (s.queue q).cls) := by
  have himage := State.exportImage_sound hright hregion hkind hhome hin hsound hbuf hlength hreads
  have hread := (s.exportRead_looks (s.queue q) e.a0).heats
  have hheats := hread.trans (State.heatAccess_heats _ (s.exportRead (s.queue q) e.a0).engineInc (hread.inService hin).1)
  have hrun := State.exportRun_sent p (buf := e.a1) (room := e.a2) himage (by rwa [s.sectorsOf_length])
  obtain ⟨-, -, hfits, -, -⟩ := CaskEntry.ofNat_fits (s.cmap (e.a0 / 4096))
  have hentry := (State.entry_of_qmg (State.dmaBytes_qmg _ p.val e.a1 (s.queue q).cls (s.sectorsOf (e.a0 / 4096)).1) q seq).trans
    ((State.entry_of_qmg hheats.qmg q seq).trans h.entry)
  obtain ⟨o, hout, -⟩ := hheats.sent
  refine ⟨_, _, exec_caskExport_host h hopcode hone hrun, State.entry_endEntry 0 1 0 _ hentry (by rw [h.stage]; decide), rfl, rfl, rfl, ?_, o, ?_⟩
  · rw [s.sectorsOf_length]
    exact Nat.mod_eq_of_lt (show 64 * (CaskEntry.ofNat (s.cmap (e.a0 / 4096))).length < 2 ^ 64 by omega)
  · change (State.dmaBytes _ _ _ _ _).out = _
    rw [State.dmaBytes_eq, hout, s.sectorsOf_length, Nat.mul_div_cancel_left _ (by decide)]

/-- The CASK_EXPORT of a sound cask into too small a room (R110). -/
theorem exec_caskExport_full (hroom : e.a2 < 64 * (s.cask (e.a0 / 4096)).length) :
    ∃ t x, exec (.caskExport q seq []) s = .next t ∧ t.entry q seq = some x ∧ x.stage = 3 ∧ x.status = 10 ∧ x.v0 = 0 ∧ s.changesOnly t [.qmg] := by
  have himage := State.exportImage_sound hright hregion hkind hhome hin hsound hbuf hlength hreads
  have hrun := State.exportRun_full (some p) (buf := e.a1) himage (by rwa [s.sectorsOf_length])
  exact ⟨_, _, exec_caskExport_host h hopcode hone hrun, State.entry_endEntry 10 0 0 0 h.entry (by rw [h.stage]; decide), rfl, rfl, rfl,
    s.endEntry_changes _ _ _ _ _ _⟩

end

end Sys2Proof.Machine
end

section
/-! PROOFS. Import sessions (R111, R112, R272, R278): a segment is read from host memory and joins its session, and a session ends with its reason. -/

namespace Sys2Proof.Machine

/-! ### A segment is read -/

section
variable {s t u : State} {p : Port} {haddr n cls given : Nat}

theorem State.modPort_changes (s : State) (p : Port) (f : PortState → PortState) : s.changesOnly (s.modPort p f) [.ports] := by
  intro x hx
  cases x <;> simp_all [Part.same, State.modPort]

theorem nextTagOf_freed {x : PortState} (h : x.freed ≠ []) : (nextTagOf x).isSome = true := by
  unfold nextTagOf
  split
  · rfl
  · split
    · next hnil => exact absurd hnil h
    · rfl

/-- With a tag free a read goes out, and its tag is the last of the port (R278). -/
theorem State.issueRead_issues (haddr bytes cls : Nat) (c : Consumer) (h : (nextTagOf (s.port p)).isSome = true) :
    ∃ u, s.issueRead p haddr bytes cls c = some u ∧ (∃ g, (u.port p).tags.getLast? = some g) ∧ s.changesOnly u [.ports, .out] := by
  obtain ⟨⟨tag, x⟩, hnext⟩ := Option.isSome_iff_exists.mp h
  simp only [State.issueRead, hnext]
  refine ⟨_, rfl, ?_, State.changesOnly_trans (s.modPort_changes _ _) (State.emit_changes _ _) (by simp) (by simp)⟩
  rw [State.port, State.emit_ports, ← State.port, State.modPort_port, List.getLast?_concat]
  exact ⟨_, rfl⟩

/-- A read that is answered in full frees its tag again (R278, R279). -/
theorem State.readWithin_answers (haddr bytes cls : Nat) (h : (nextTagOf (s.port p)).isSome = true) :
    ∃ u, s.readWithin p haddr bytes cls true = (true, u) ∧ s.changesOnly u [.ports, .out] ∧ (nextTagOf (u.port p)).isSome = true := by
  obtain ⟨u, hissue, ⟨g, hlast⟩, hu⟩ := State.issueRead_issues haddr bytes cls .gone h
  refine ⟨u.freeTag p g.tag, ?_, State.changesOnly_trans hu (u.modPort_changes _ _) (by simp) (by simp), ?_⟩
  · simp only [State.readWithin, State.tagWithin, if_pos h, hissue, hlast, if_true]
  · rw [State.freeTag, State.modPort_port]
    exact nextTagOf_freed (by simp)

/-- Every read of a run whose bytes all come is answered (R278). -/
theorem State.readRun_answers (haddr cls : Nat) (h : (nextTagOf (s.port p)).isSome = true) (hgiven : n ≤ given) :
    ∃ u, s.readRun p haddr n cls given = (true, u) ∧ s.changesOnly u [.ports, .out] := by
  unfold State.readRun
  dsimp only
  generalize hsize : max 64 (s.port p).mrrs = size
  have hpos : 0 < size := by omega
  have hin : ∀ i ∈ List.range ((n + size - 1) / size), size * i ≤ n := by
    intro i hi
    have hle : size * (i + 1) ≤ n + size - 1 := (Nat.mul_le_mul_left _ (List.mem_range.mp hi)).trans (Nat.mul_div_le _ _)
    rw [Nat.mul_add] at hle
    omega
  clear hsize
  generalize List.range ((n + size - 1) / size) = l at hin ⊢
  induction l generalizing s with
  | nil => exact ⟨s, rfl, s.changesOnly_refl _⟩
  | cons i l ih =>
    have hi := hin i List.mem_cons_self
    obtain ⟨v, hread, hv, htag⟩ := State.readWithin_answers (haddr + size * i) (min size (n - size * i)) cls h
    obtain ⟨u, hrun, hu⟩ := ih htag (fun j hj => hin j (List.mem_cons_of_mem _ hj))
    refine ⟨u, ?_, State.changesOnly_trans hv hu (by simp) (by simp)⟩
    rw [List.foldl_cons, if_pos rfl, decide_eq_true (by omega), hread]
    exact hrun

theorem wipeLines_nil (l : List Byte) : wipeLines l [] = l := by simp [wipeLines, List.zipIdx_map_fst]

/-- A segment that comes whole from host memory, with no line poisoned, is handed on (R272, R278). -/
theorem State.withSegment_whole {k : Queue} {e : Entry} {l : List Byte} (c : Instr) (f : List Byte → Bool → State → State) (timeout : State → State)
    (hhost : e.host1 = true) (hport : k.port = some p) (hmaster : s.canMaster p = true) (htag : (nextTagOf (s.port p)).isSome = true)
    (hlength : l.length = e.a2) : ∃ u, s.withSegment c k e (some l) [] f timeout = f l false u ∧ s.changesOnly u [.ports, .out] := by
  obtain ⟨u, hrun, hu⟩ := State.readRun_answers (n := e.a2) (given := l.length) e.a1 k.cls htag (by omega)
  refine ⟨u, ?_, hu⟩
  have hfree : (nextTagOf (s.port p)).isNone = false := by simpa using htag
  simp only [State.withSegment, hhost, if_true, State.needPort_may e.queue e.seq _ hport hmaster, hfree, Option.getD_some, wipeLines_nil, hrun,
    List.take_of_length_le hlength.le, List.any_nil, Bool.false_eq_true, false_and, if_false]

end

/-! ### A segment joins a session -/

section
variable {s t : State} {q seq status : Nat} {x y : Session} {e : Entry} {l : List Byte}

theorem State.sessionOf_key (h : s.sessionOf q = some x) : x.queue = q := by simpa using List.find?_some h

theorem State.sessionOf_putSession (x : Session) : (s.putSession x).sessionOf x.queue = some x := by
  have hnone : (s.prs.sessions.filter (fun y => decide (y.queue ≠ x.queue))).find? (fun y => decide (y.queue = x.queue)) = none := by
    simp [List.find?_eq_none]
  rw [State.sessionOf, State.putSession, List.find?_append, hnone, Option.none_or]
  simp

/-- The session with a segment's bytes added (R111). -/
def Session.joined (x : Session) (now : Nat) (l : List Byte) : Session := { x with tail := x.tail ++ l, lastAt := now }

theorem State.addSegment_of_run (hrun : s.importRun (x.joined s.now l) (x.count + 1) = (status, x.joined s.now l, s)) :
    s.addSegment x l false = (status, (s.putSession (x.joined s.now l)).settleUsage) := by
  unfold Session.joined at hrun ⊢
  simp only [State.addSegment, Bool.or_false, hrun, Bool.false_eq_true, false_and, if_false]
  split
  · rfl
  · next h => rw [not_not.mp h]

section
variable (hstaged : x.staged.length < x.count) (hhead : 64 ≤ (x.tail ++ l).length)
include hstaged hhead

/-- A segment that leaves an image short of its sectors joins the session, and nothing is staged (R111). -/
theorem State.addSegment_waiting (hform : (readHead (x.tail ++ l)).wellFormed = true) (hvalues : (readHead (x.tail ++ l)).valuesOk = true)
    (hshort : (x.tail ++ l).length < 64 * (readHead (x.tail ++ l)).sectors) :
    s.addSegment x l false = (0, (s.putSession (x.joined s.now l)).settleUsage) := by
  apply State.addSegment_of_run
  have hnext : s.importNext (x.joined s.now l) = none := by
    rw [State.importNext, if_neg (by simp only [Session.joined]; omega)]
    simp only [Session.joined, hform, hvalues, hshort, Bool.not_true, Bool.or_self, Bool.false_eq_true, if_true, if_false]
  simp only [State.importRun, hnext]

/-- A segment that shows a header that breaks R83 fails its import (R112). -/
theorem State.addSegment_malformed (hbad : (readHead (x.tail ++ l)).wellFormed = false ∨ (readHead (x.tail ++ l)).valuesOk = false) :
    s.addSegment x l false = (12, (s.putSession (x.joined s.now l)).settleUsage) := by
  apply State.addSegment_of_run
  have hnext : s.importNext (x.joined s.now l) = some (12, x.joined s.now l, s) := by
    rw [State.importNext, if_neg (by simp only [Session.joined]; omega), if_pos]
    simpa [Session.joined] using hbad
  simp only [State.importRun, hnext]
  rfl

end

theorem State.sessionOf_settled (h : x.queue = q) : (s.putSession x).settleUsage.sessionOf q = some x := by
  rw [(s.putSession x).settleUsage_tends.sessionOf, ← h, s.sessionOf_putSession]

/-! ### A session ends -/

theorem State.freeStaged_tends (c : Staged) : s.Tends (s.freeStaged c) := (s.markSectors_tends _ _ _ _).trans (State.dropRef_tends _ _)

theorem State.dropStaged_tends (x : Session) : s.Tends (s.dropStaged x) := (foldl_tends (fun u c => u.freeStaged_tends c) _ s).trans (State.settleUsage_tends _)

/-- Of a queue whose session is taken away no session is left. -/
theorem State.sessionOf_filtered (h : t.prs.sessions = s.prs.sessions.filter (fun z => decide (z.queue ≠ q))) : t.sessionOf q = none := by
  simp [State.sessionOf, h, List.find?_eq_none]

/-- A session that fails ends its CASK_IMPORT entry with the reason and the casks it had checked (R112, R272). -/
theorem State.endSession_ends (hsession : s.sessionOf q = some y) (hentry : s.entry q y.seq = some e) (hstage : e.stage ≠ 3) (hstatus : status ≠ 17) :
    (s.endSession q status).now = s.now ∧ (s.endSession q status).sessionOf q = none
      ∧ ∃ x, (s.endSession q status).entry q y.seq = some x ∧ x.stage = 3 ∧ x.status = status ∧ x.v0 = 0 ∧ x.v1 = y.staged.length % 2 ^ 32 := by
  have hdrop := s.dropStaged_tends y
  simp only [State.endSession, hsession, if_neg hstatus]
  exact ⟨hdrop.now, State.sessionOf_filtered (s := (s.dropStaged y).endEntry q y.seq status 0 y.staged.length 0) rfl, _,
    State.entry_endEntry status 0 y.staged.length 0 ((hdrop.entry _ _).trans hentry) hstage, rfl, rfl, rfl, rfl⟩

/-- The limit of an import session passes (R112). -/
theorem exec_importTimeout_incomplete (hsession : s.sessionOf q = some y) (hentry : s.entry q y.seq = some e) (hstage : e.stage ≠ 3)
    (hopen : y.complete = false) :
    ∃ t x, exec (.importTimeout q) s = .next t ∧ t.now = max s.now (y.lastAt + us * s.field 0x020 0x240 0 20) ∧ t.sessionOf q = none
      ∧ t.entry q y.seq = some x ∧ x.stage = 3 ∧ x.status = 11 ∧ x.v0 = 0 ∧ x.v1 = y.staged.length % 2 ^ 32 := by
  obtain ⟨hnow, hgone, x, hx⟩ := State.endSession_ends (s := s.until (y.lastAt + us * s.field 0x020 0x240 0 20)) (status := 11)
    hsession hentry hstage (by decide)
  refine ⟨_, x, ?_, hnow, hgone, hx⟩
  change execImportTimeout q s = _
  simp [execImportTimeout, hsession, hopen, done]

theorem exec_importTimeout_complete (hsession : s.sessionOf q = some y) (hwhole : y.complete = true) : exec (.importTimeout q) s = .next s := by
  change execImportTimeout q s = _
  simp [execImportTimeout, hsession, hwhole, done]

end

/-! ### The commands of an import -/

/-- The session that a CASK_IMPORT opens, without its bytes (R111). -/
def Entry.opens (e : Entry) (now : Nat) : Session := { queue := e.queue, seq := e.seq, dest := e.a0 / 4096, count := e.dw1, lastAt := now }

/-- The state in which a CASK_IMPORT runs with its session open (R111, R272). -/
def State.opened (s : State) (e : Entry) : State := (s.putSession (e.opens s.now)).modEntry e.queue e.seq (fun y => { y with stage := 2 })

theorem State.entry_opened {s : State} {q seq : Nat} {e : Entry} (hentry : s.entry q seq = some e) : (s.opened e).entry q seq = some { e with stage := 2 } := by
  obtain ⟨rfl, rfl⟩ := State.entry_key hentry
  exact State.entry_modEntry (fun _ => ⟨rfl, rfl⟩) hentry

section
variable {s : State} {q seq : Nat} {e : Entry} {p : Port} {l : List Byte} (h : s.Issues q seq e p) (hfinal : e.final = false)
  (hlength : l.length = e.a2)
include h hfinal hlength

/-- CASK_IMPORT of a queue without a session, while fewer than 16 are open (R111, R272). -/
theorem exec_caskImport_opens (hopcode : e.opcode = 0x31) (hnone : s.sessionOf q = none) (hroom : s.prs.sessions.length < 16) :
    ∃ u, s.changesOnly u [.ports, .out] ∧ exec (.caskImport q seq (some l)) s = .next (
      let r := (u.opened e).addSegment (e.opens u.now) l false
      if r.1 = 0 then r.2 else r.2.endSession q r.1) := by
  obtain ⟨rfl, rfl⟩ := State.entry_key h.entry
  obtain ⟨u, hrun, hu⟩ := State.withSegment_whole (.caskImport e.queue e.seq (some l) []) _ _ h.host h.port h.master h.tag hlength
  refine ⟨u, hu, ?_⟩
  change execCaskImport e.queue e.seq (some l) s [] = _
  rw [execCaskImport, State.runEntry_started _ h.entry h.stage hopcode, hnone, if_neg (by simp), if_neg (by omega), hrun, hfinal]
  rfl

/-- The first bytes of an image that is not whole wait in the session (R111). -/
theorem exec_caskImport_waiting (hopcode : e.opcode = 0x31) (hnone : s.sessionOf q = none) (hroom : s.prs.sessions.length < 16)
    (hcount : 0 < e.dw1) (hhead : 64 ≤ l.length) (hform : (readHead l).wellFormed = true) (hvalues : (readHead l).valuesOk = true)
    (hshort : l.length < 64 * (readHead l).sectors) :
    ∃ t, exec (.caskImport q seq (some l)) s = .next t ∧ t.entry q seq = some { e with stage := 2 }
      ∧ t.sessionOf q = some { queue := q, seq := seq, dest := e.a0 / 4096, count := e.dw1, tail := l, lastAt := s.now } := by
  obtain ⟨u, hu, hexec⟩ := exec_caskImport_opens h hfinal hlength hopcode hnone hroom
  have hopened := State.entry_opened ((State.entry_of_qmg (hu .qmg (by simp)) q seq).trans h.entry)
  rw [State.addSegment_waiting (x := e.opens u.now) hcount hhead hform hvalues hshort] at hexec
  refine ⟨_, hexec, (State.settleUsage_tends _).entry q seq |>.trans hopened, ?_⟩
  obtain ⟨rfl, rfl⟩ := State.entry_key h.entry
  rw [show s.now = u.now from (hu .now (by simp)).symm]
  exact State.sessionOf_settled (s := u.opened e) (x := (e.opens u.now).joined u.now l) rfl

/-- An import whose first header breaks R83 ends with FORMAT (R112). -/
theorem exec_caskImport_malformed (hopcode : e.opcode = 0x31) (hnone : s.sessionOf q = none) (hroom : s.prs.sessions.length < 16)
    (hcount : 0 < e.dw1) (hhead : 64 ≤ l.length) (hbad : (readHead l).wellFormed = false ∨ (readHead l).valuesOk = false) :
    ∃ t x, exec (.caskImport q seq (some l)) s = .next t ∧ t.entry q seq = some x ∧ x.stage = 3 ∧ x.status = 12 ∧ t.sessionOf q = none := by
  obtain ⟨u, hu, hexec⟩ := exec_caskImport_opens h hfinal hlength hopcode hnone hroom
  have hopened := State.entry_opened ((State.entry_of_qmg (hu .qmg (by simp)) q seq).trans h.entry)
  rw [State.addSegment_malformed (x := e.opens u.now) hcount hhead hbad] at hexec
  obtain ⟨rfl, rfl⟩ := State.entry_key h.entry
  obtain ⟨-, hgone, x, hentry, hstage, hstatus, -⟩ := State.endSession_ends (status := 12)
    (State.sessionOf_settled (s := u.opened e) (x := (e.opens u.now).joined u.now l) rfl)
    ((State.settleUsage_tends _).entry _ _ |>.trans hopened) (show 2 ≠ 3 by decide) (by decide)
  exact ⟨_, x, hexec, hentry, hstage, hstatus, hgone⟩

/-- A CASK_IMPORT_DATA entry notes the session that it serves (R272). -/
def State.noteSession (s : State) (q seq n : Nat) : State := s.modEntry q seq (fun x => { x with session := some n })

/-- Bytes that leave an image short of its sectors join the session of their queue, and their entry ends with the casks staged (R111, R272). -/
theorem exec_caskImportData_waiting {y : Session} (hopcode : e.opcode = 0x32) (hsession : s.sessionOf q = some y) (hstaged : y.staged.length < y.count)
    (hhead : 64 ≤ (y.tail ++ l).length) (hform : (readHead (y.tail ++ l)).wellFormed = true) (hvalues : (readHead (y.tail ++ l)).valuesOk = true)
    (hshort : (y.tail ++ l).length < 64 * (readHead (y.tail ++ l)).sectors) :
    ∃ t x, exec (.caskImportData q seq (some l)) s = .next t ∧ t.entry q seq = some x ∧ x.stage = 3 ∧ x.status = 0
      ∧ x.v0 = y.staged.length % 2 ^ 32 ∧ t.sessionOf q = some { y with tail := y.tail ++ l, lastAt := s.now } := by
  have hnoted : (s.noteSession q seq y.seq).entry q seq = some { e with session := some y.seq } := State.entry_modEntry (fun _ => ⟨rfl, rfl⟩) h.entry
  obtain ⟨u, hrun, hu⟩ := State.withSegment_whole (s := s.noteSession q seq y.seq) (k := s.queue q) (.caskImportData q seq (some l) []) _ _ h.host h.port h.master h.tag hlength
  have hentry := (State.entry_of_qmg (hu .qmg (by simp)) q seq).trans hnoted
  have hkept := (State.settleUsage_tends (u.putSession (y.joined u.now l)))
  have hjoined := State.sessionOf_settled (s := u) (x := y.joined u.now l) (q := q)
    (show y.queue = q from State.sessionOf_key hsession)
  refine ⟨_, _, ?_, State.entry_endEntry 0 y.staged.length 0 0 ((hkept.entry q seq).trans hentry) (by rw [h.stage]; decide), rfl, rfl, rfl, ?_⟩
  · change execCaskImportData q seq (some l) s [] = _
    rw [execCaskImportData, State.runEntry_started _ h.entry h.stage hopcode, hsession]
    refine (congrArg done hrun).trans ?_
    simp only [hfinal, State.addSegment_waiting hstaged hhead hform hvalues hshort, hjoined, Bool.false_eq_true, if_false, if_true]
    rfl
  · rw [show s.now = u.now from (hu .now (by simp)).symm]
    exact hjoined

end

end Sys2Proof.Machine
end

section
/-! PROOFS. The commit of an import session (R112, R113): a staged cask becomes the stored one of a cellar tile, and its session ends with the casks committed. -/

namespace Sys2Proof.Machine

/-! ### A stored cask is replaced -/

section
variable {s : State} {n : Nat}

/-- A counted access may promote the tile, and changes no cask (R62, R64). -/
theorem State.heatAccess_settles (s : State) (t inc : Nat) : s.Settles (s.heatAccess t inc) := by
  have hpromote (u : State) : u.Settles (u.promoteIfDue t) := by
    unfold State.promoteIfDue State.awaitMove
    split
    · split
      · exact u.acceptMove_settles t _
      · split
        · split
          · exact .refl u
          · exact (u.rck_settles _).trans (State.count_settles _ _ _ (by decide))
        · exact .refl u
    · exact .refl u
  unfold State.heatAccess
  split
  · exact (s.setTmap_settles t _).trans (hpromote _)
  · exact .refl s

/-- An entry whose fields fit is the stored one once it is written, where its place is in service (R52). -/
theorem State.cask_setCask_placed (e : CaskEntry) (he : e.fits) (h : s.placed n) : (s.setCask n e).cask n = e := by
  obtain ⟨-, hplace⟩ := h
  have hhome := (s.lookCask_looks n background).heats.home (n / 4)
  rw [State.cask, State.setCask, State.setCmap, s.findCask_inService n background hplace, if_pos hhome, State.cmap_putCmap, if_pos rfl,
    CaskEntry.ofNat_toNat e he]

/-- A tile with a cask that holds sectors is no tile of zeros (R82). -/
theorem State.zeroTest_stored (hlength : (s.cask n).length ≠ 0) : s.zeroTest (n / 4) = s := by
  have hmem : n % 4 ∈ [0, 1, 2, 3] := by
    have := Nat.mod_lt n (show 4 > 0 by decide)
    interval_cases n % 4 <;> decide
  have hcask : 4 * (n / 4) + n % 4 = n := Nat.div_add_mod n 4
  rw [State.zeroTest, if_neg]
  rintro ⟨-, -, hall⟩
  have hzero := List.all_eq_true.mp hall _ hmem
  rw [hcask] at hzero
  simp [hlength] at hzero

/-- The cask-map entry of a staged cask (R52, R113). -/
def Staged.entry (c : Staged) : CaskEntry :=
  { sector := c.sector, package := c.package, length := c.bytes.length / 64, method := (readHead c.bytes).method,
    table := (readHead c.bytes).table, poisonAny := decide ((readHead c.bytes).poison ≠ 0#64) }

/-- The stored cask gives way to the staged one, with its buffer and its cached content (R108, R113). -/
def State.replaceCask (s : State) (n : Nat) (c : Staged) : State := (((s.freeCask n).dropBuf n).cacheDrop n).setCask n c.entry

theorem State.commitCask_eq {c : Staged} (hmethod : (readHead c.bytes).method ≠ 1) : s.commitCask n c
    = (((s.replaceCask n c).heatAccess (n / 4) (s.replaceCask n c).engineInc).zeroTest (n / 4)).settleUsage := by
  simp only [State.commitCask, hmethod, decide_false, Bool.false_and, Bool.false_eq_true, if_false]
  rfl

/-- A staged cask becomes the stored one with one cask-map update (R113). -/
theorem State.commitCask_commits {c : Staged} (hplaced : s.placed n) (hfits : c.entry.fits) (hlength : c.entry.length ≠ 0)
    (hmethod : (readHead c.bytes).method ≠ 1) : s.Tends (s.commitCask n c) ∧ (s.commitCask n c).cask n = c.entry := by
  have hclear := ((s.freeCask_tends n).trans (State.dropBuf_tends _ n)).trans (State.cacheDrop_tends _ n)
  have hswap : s.Tends (s.replaceCask n c) := hclear.trans (State.setCask_tends _ n c.entry)
  have hheat := (s.replaceCask n c).heatAccess_settles (n / 4) (s.replaceCask n c).engineInc
  have hcask := (hheat.casks n (hswap.placed hplaced)).trans (State.cask_setCask_placed c.entry hfits (hclear.placed hplaced))
  have hsettle := hheat.trans (State.settleUsage_settles _)
  rw [State.commitCask_eq hmethod, State.zeroTest_stored (by rwa [hcask])]
  exact ⟨hswap.trans hsettle.tends,
    ((State.settleUsage_settles _).casks n ((hswap.trans hheat.tends).placed hplaced)).trans hcask⟩

/-- Into a cellar cask without a buffer a staged cask is committed by its map entry (R113). -/
theorem State.commitOne_cellar {k : Queue} {c : Staged} {g : Nat} {r : Region} (hregion : s.findRegion (4096 * n) = some (g, r)) (hkind : r.kind ≠ 2)
    (hhome : s.home (n / 4) = 2) (hplaced : s.placed n) (hbuf : s.bufOf n = none) :
    s.commitOne k n c = (false, ((s.lookTile (n / 4) (workTraffic k.actor k.cls)).lookCask n (workTraffic k.actor k.cls)).commitCask n c) := by
  have htile := s.lookTile_looks (n / 4) (workTraffic k.actor k.cls)
  have hlook := (htile.trans (State.lookCask_looks _ n (workTraffic k.actor k.cls))).heats
  simp only [State.commitOne, hregion, s.findTile_inService _ _ hplaced.1, State.findCask_inService _ n _ (htile.tends.placed hplaced).2, hkind,
    hlook.home, hlook.bufOf, hhome, hbuf, if_true, if_false, show ¬ (2 = 0 ∨ 2 = 4) by decide]

end

/-! ### The last cask of a session -/

/-- Nothing waits, and no holder is asked: no waiting work is looked at again. -/
theorem State.settle_idle {s : State} (hwaiting : s.dir.waiting = []) (hsnoops : s.dir.snoops = []) : s.settle = s := by
  have hdue : s.dir.snoops.filter s.answerDue = [] := by rw [hsnoops, List.filter_nil]
  have hnone : s.dir.snoops.any s.answerDue = false := by rw [hsnoops, List.any_nil]
  have hsame : { s with dir := { s.dir with waiting := [] } } = s := by rw [← hwaiting]
  simp only [State.settle, State.settleFuel, State.takeAnswers, hdue, List.foldl_nil, hwaiting, settleFrom, hsame, hnone, Bool.false_eq_true, if_false]

/-- A complete session of one cask, of which nothing is committed or dropped, and whose tile does not move (R113). -/
structure State.Commits (s : State) (q : Nat) (y : Session) (c : Staged) : Prop where
  session : s.sessionOf q = some y
  final : y.final = true
  count : y.count = 1
  staged : y.staged = [c]
  committed : y.committed = 0
  dropped : y.dropped = false
  still : s.moving (y.dest / 4) = false

section
variable {s : State} {q : Nat} {y : Session} {e : Entry} {c : Staged} {g : Nat} {r : Region} (h : s.Commits q y c)
include h

/-- The commit of a session begins (R112, R113). -/
theorem exec_importCommit_begins (hright : s.refusal (s.queue q).actor true false (4096 * y.dest) = none) (hunheld : s.unheld) :
    exec (.importCommit q) s = .next ((s.commitSession (s.queue q) y).settle) := by
  have hcasks : (List.range (y.count - y.committed)).map (fun i => y.dest + y.committed + i) = [y.dest] := by simp [h.count, h.committed]
  have hcomplete : y.complete = true := by simp [Session.complete, h.final, h.count, h.staged]
  have hheld (runs : List (Nat × Nat × Bool)) :
      s.engHoldAll ⟨(s.queue q).actor, (s.queue q).cls, some (.importCommit q), 0⟩ runs = (false, s) :=
    State.engHoldAll_unheld rfl runs hunheld
  have hnone : [y.dest].find? (fun n => (s.refusal (s.queue q).actor true false (4096 * n)).isSome) = none := by simp [hright]
  change execImportCommit q s = _
  simp only [execImportCommit, h.session, hcasks, hnone, hcomplete, State.engHoldRun, hheld]
  simp [h.still, done]

/-- The one cask of a session is committed, and its entry ends (R113). -/
theorem State.commitSession_last {k : Queue} {u : State} (hone : s.commitOne k y.dest c = (false, u)) :
    s.commitSession k y = (State.endEntry
      { u with prs := { u.prs with sessions := u.prs.sessions.filter (fun z => decide (z.queue ≠ y.queue)) } } y.queue y.seq 0 1 0 0).flushChecks := by
  obtain ⟨-, -, hcount, hstaged, hcommitted, hdropped, hstill⟩ := h
  simp [State.commitSession, State.commitRun, hcount, hstaged, hcommitted, hdropped, hstill, hone]

/-- The staged cask of a session is the stored one, and the session is gone, its entry ended (R112, R113). -/
theorem State.commitSession_commits {k : Queue} (hentry : s.entry q y.seq = some e) (hstage : e.stage ≠ 3)
    (hregion : s.findRegion (4096 * y.dest) = some (g, r)) (hkind : r.kind ≠ 2) (hhome : s.home (y.dest / 4) = 2) (hplaced : s.placed y.dest)
    (hbuf : s.bufOf y.dest = none) (hfits : c.entry.fits) (hlength : c.entry.length ≠ 0) (hmethod : (readHead c.bytes).method ≠ 1) :
    (s.commitSession k y).dir = s.dir ∧ (s.commitSession k y).sessionOf q = none
      ∧ (∃ x, (s.commitSession k y).entry q y.seq = some x ∧ x.stage = 3 ∧ x.status = 0 ∧ x.v0 = 1) ∧ (s.commitSession k y).cask y.dest = c.entry := by
  obtain rfl := State.sessionOf_key h.session
  have hlook := ((s.lookTile_looks (y.dest / 4) (workTraffic k.actor k.cls)).trans
    (State.lookCask_looks _ y.dest (workTraffic k.actor k.cls))).tends
  obtain ⟨htends, hcask⟩ := State.commitCask_commits (c := c) (hlook.placed hplaced) hfits hlength hmethod
  have hlast := State.commitSession_last h (State.commitOne_cellar (k := k) hregion hkind hhome hplaced hbuf)
  have hall := hlook.trans htends
  generalize State.commitCask _ y.dest c = u at hall hcask hlast
  rw [hlast]
  have hflush := State.flushChecks_tends (State.endEntry
    { u with prs := { u.prs with sessions := u.prs.sessions.filter (fun z => decide (z.queue ≠ y.queue)) } } y.queue y.seq 0 1 0 0)
  exact ⟨hflush.dir.trans hall.dir, (hflush.sessionOf _).trans (State.sessionOf_filtered (s := u) rfl),
    ⟨_, (hflush.entry _ _).trans (State.entry_endEntry 0 1 0 0 ((hall.entry _ _).trans hentry) hstage), rfl, rfl, rfl⟩,
    (State.cask_of_caskMap (congrArg MemState.caskMap (State.flushChecks_mem _)) _).trans hcask⟩

end

theorem State.placed_of_inService {s : State} {n : Nat} (h : s.inService (4096 * n)) : s.placed n := by
  obtain ⟨htile, hcask, -⟩ := h
  rw [show tileOf (4096 * n) = n / 4 by unfold tileOf; omega] at htile
  rw [show caskOf (4096 * n) = n by unfold caskOf; omega] at hcask
  exact ⟨htile, hcask⟩

/-- The fields of a staged cask fit its map entry (R52, R83). -/
theorem Staged.entry_fits {c : Staged} (hsector : c.sector < 2 ^ 30) (hpackage : c.package < 64) (hlength : c.bytes.length / 64 < 128) : c.entry.fits :=
  ⟨hsector, hpackage, hlength, bits_lt _ _ _, bits_lt _ _ _⟩

/-! ### The statement -/

/-- Settles O32: a started entry whose port may issue runs to its end in one step, a CASK_EXPORT on what the cask's sectors hold and an import on
what the next image of its session shows; a session that fails frees what it staged, and one that commits writes the map entry of its cask,
which no move that the change of usage starts can touch. -/
theorem casksAreExportedAndImported : Obligations.CasksAreExportedAndImported := by
  refine ⟨?_, ?_⟩
  · intro s q seq e p l hentry hstage hhost hport hmaster htag hunheld
    have h : s.Issues q seq e p := ⟨hentry, hstage, hhost, hport, hmaster, htag, hunheld⟩
    refine ⟨?_, ?_, ?_⟩
    · intro g r hopcode hone hright hregion hkind hhome hin
      refine ⟨exec_caskExport_quarantined h hopcode hone hright hregion hhome hin, ?_⟩
      intro hsound hbuf hlength hreads
      exact ⟨exec_caskExport_sent h hopcode hone hright hregion hhome hin hkind hsound hbuf hlength hreads,
        exec_caskExport_full h hopcode hone hright hregion hhome hin hkind hsound hbuf hlength hreads⟩
    · intro hopcode hfinal hcount hlength hhead hnone hroom
      exact ⟨exec_caskImport_waiting h hfinal hlength hopcode hnone hroom hcount hhead,
        exec_caskImport_malformed h hfinal hlength hopcode hnone hroom hcount hhead⟩
    · intro y hopcode hfinal hlength hsession _ hstaged hhead hform hvalues hshort
      exact exec_caskImportData_waiting h hfinal hlength hopcode hsession hstaged hhead hform hvalues hshort
  · intro s q y e hsession hentry hstage
    refine ⟨exec_importTimeout_incomplete hsession hentry hstage, exec_importTimeout_complete hsession, ?_⟩
    intro c g r hfinal hcount hstaged hcommitted hdropped hstill hright hregion hkind hunheld hwaiting hhome hin hbuf hpackage hsector hpos hfew hmethod
    have h : s.Commits q y c := ⟨hsession, hfinal, hcount, hstaged, hcommitted, hdropped, hstill⟩
    have ⟨_, hsnoops, _⟩ := hunheld
    obtain ⟨hdir, hgone, ⟨x, hended, hend, hstatus, hcasks⟩, hcask⟩ := State.commitSession_commits (k := s.queue q) h hentry hstage hregion hkind hhome
      (State.placed_of_inService hin) hbuf (Staged.entry_fits hsector hpackage hfew) hpos.ne' hmethod
    refine ⟨_, x, ?_, hgone, hended, hend, hstatus, hcasks, hcask⟩
    rw [exec_importCommit_begins h hright hunheld, State.settle_idle (by rw [hdir, hwaiting]) (by rw [hdir, hsnoops])]

end Sys2Proof.Machine
end

section
/-! PROOFS. Containment of a port (R245, R246) and the copies of the cooper (R260, R349), taken apart one step at a time; and a state in which a holder that answers no snoop is contained later than its time limit (R121). -/

namespace Sys2Proof.Machine

/-! ### What a copy of the cooper leaves -/

/-- A key with a value other than the default is listed. -/
theorem exists_listed_of_sget {β : Type} {d : β} {m : Sparse β} {k : Nat} (h : sget d m k ≠ d) : ∃ e ∈ m, e.1 = k := by
  by_contra hnone
  refine h (?_ : sget d m k = d)
  rw [show m = m.filter (fun e => decide (e.1 ≠ k)) from
    (List.filter_eq_self.2 (fun e he => by simpa using fun hk => hnone ⟨e, he, hk⟩)).symm]
  exact sget_dropped _ d m k (by simp)

/-- The state with everything set aside that a copy of a cask by the cooper leaves to free values (R59, R349): what the sectors hold and which are taken, the cask map, the memory controllers of the cellar, the messages out and the count of free values. -/
def State.besideCopy (s : State) : State :=
  { s with
    mem := { s.mem with cellar := [], cellarBad := [], sectorUse := [], caskMap := [] }
    dram := { s.dram with cellar := [] }
    out := []
    freeCtr := 0 }

/-- The state with a cask map given, and what else a copy leaves to free values taken from another state. -/
def State.withCopyOf (s t : State) (casks : Sparse DWord) : State :=
  { s with
    mem := { s.mem with cellar := t.mem.cellar, cellarBad := t.mem.cellarBad, sectorUse := t.mem.sectorUse, caskMap := casks }
    dram := { s.dram with cellar := t.dram.cellar }
    out := t.out
    freeCtr := t.freeCtr }

/-- The cooper counts one copy more, of cask k, whose map entry has been written and whose decoded content is in no cache (R104, R349). -/
def State.copyCounted (s : State) (k : Nat) : State :=
  { s with
    mem := { s.mem with cmapCache := sset 0 s.mem.cmapCache k 2 }
    prs := { s.prs with cache := s.prs.cache.filter (fun e => decide (e.cask ≠ k)) }
    igr := { s.igr with copies := s.igr.copies + 1 } }

/-- From s to t nothing changed that a copy does not leave to free values, and the cask map neither. -/
structure State.Copies (s t : State) : Prop where
  frame : t.besideCopy = s.besideCopy
  casks : t.mem.caskMap = s.mem.caskMap

theorem State.eq_withCopyOf {s t : State} (h : t.besideCopy = s.besideCopy) : t = s.withCopyOf t t.mem.caskMap :=
  calc t = t.besideCopy.withCopyOf t t.mem.caskMap := rfl
    _ = s.besideCopy.withCopyOf t t.mem.caskMap := by rw [h]
    _ = s.withCopyOf t t.mem.caskMap := rfl

theorem State.Copies.refl (s : State) : s.Copies s := ⟨rfl, rfl⟩

theorem State.Copies.trans {s t u : State} (h : s.Copies t) (k : t.Copies u) : s.Copies u :=
  ⟨k.frame.trans h.frame, k.casks.trans h.casks⟩

theorem State.Copies.cmapCache {s t : State} (h : s.Copies t) : t.mem.cmapCache = s.mem.cmapCache := congrArg (fun u => u.mem.cmapCache) h.frame
theorem State.Copies.tierMap {s t : State} (h : s.Copies t) : t.mem.tierMap = s.mem.tierMap := congrArg (fun u => u.mem.tierMap) h.frame

theorem foldl_copies {α} {f : State → α → State} (hf : ∀ (s : State) (a : α), s.Copies (f s a)) (l : List α) (s : State) :
    s.Copies (l.foldl f s) := by
  induction l generalizing s with
  | nil => exact .refl s
  | cons a l ih => exact (hf s a).trans (ih _)

theorem foldl_snd_copies {α β} {f : α × State → β → α × State} (hf : ∀ (a : α × State) (b : β), a.2.Copies (f a b).2)
    (l : List β) (a : α × State) : a.2.Copies (l.foldl f a).2 := by
  induction l generalizing a with
  | nil => exact .refl _
  | cons b l ih => exact (hf a b).trans (ih _)

section
variable (s : State)

theorem State.cellarPush_copies (package c b line : Nat) (write : Bool) (w : Traffic) : s.Copies (s.cellarPush package c b line write w) := by
  unfold State.cellarPush State.dramPush State.modChan State.dramOut
  simp only []
  split
  · exact .refl s
  · split <;> exact ⟨rfl, rfl⟩

theorem State.dramCellar_copies (package sector n : Nat) (write : Bool) (w : Traffic) : s.Copies (s.dramCellar package sector n write w) := by
  refine foldl_copies (fun u i => ?_) _ s
  simp only []
  split
  · exact (u.cellarPush_copies _ _ _ _ _ _).trans (State.cellarPush_copies _ _ _ _ _ _ _)
  · exact u.cellarPush_copies _ _ _ _ _ _

theorem State.putSectors_copies (package x : Nat) (l : List Byte) : s.Copies (s.putSectors package x l) := ⟨rfl, rfl⟩

theorem State.markSectors_copies (package x n : Nat) (b : Bool) : s.Copies (s.markSectors package x n b) := ⟨rfl, rfl⟩

theorem State.findRun_copies (package lo size n : Nat) : s.Copies (s.findRun package lo size n).2 := by
  unfold State.findRun State.draw
  simp only []
  split <;> exact ⟨rfl, rfl⟩

theorem State.findColumn_copies (t c g n : Nat) : s.Copies (s.findColumn t c g n).2 := by
  refine foldl_snd_copies (fun a k => ?_) _ (none, s)
  split
  · exact .refl _
  · simp only []
    split
    · exact State.findRun_copies _ _ _ _ _
    · exact .refl _

theorem State.copySectors_copies (p x q y n : Nat) : s.Copies (s.copySectors p x q y n) := by
  have h := ((s.dramCellar_copies p x n false background).trans (State.putSectors_copies _ q y (s.getSectors p x n).1)).trans
    (State.dramCellar_copies _ q y n true background)
  exact h.trans ⟨rfl, rfl⟩

/-- The entry of a cask that is in the racking engine's cache is written at once (R49). -/
theorem State.setCmap_cached (k v : Nat) (h : sget 0 s.mem.cmapCache k ≠ 0) :
    s.setCmap k v = { s with mem := { s.mem with caskMap := sset 0#64 s.mem.caskMap k (BitVec.ofNat 64 v), cmapCache := sset 0 s.mem.cmapCache k 2 } } := by
  have hlook : s.lookCask k background = s := if_pos h
  have hfind : s.findCask k background .none = s := by simp [State.findCask, hlook, h]
  rw [State.setCmap, hfind]
  simp only [if_true, State.putCmap, hlook]

/-- What a cask moved by the cooper leaves, its map entry being in the cache (R349). -/
theorem State.moveCask_besideCopy (k q y : Nat) (h : sget 0 s.mem.cmapCache k ≠ 0) :
    (s.moveCask k q y).besideCopy = (s.copyCounted k).besideCopy ∧
      ∃ v, (s.moveCask k q y).mem.caskMap = sset 0#64 s.mem.caskMap k v := by
  let e := s.cask k
  have hcopy := (s.copySectors_copies e.package e.sector q y e.length).trans (State.markSectors_copies _ q y e.length true)
  let s1 := (s.copySectors e.package e.sector q y e.length).markSectors q y e.length true
  let s2 := ({ s1 with igr := { s1.igr with copies := s1.igr.copies + 1 } } : State).markSectors e.package e.sector e.length false
  have hcached : sget 0 s2.mem.cmapCache k ≠ 0 := by
    rw [show s2.mem.cmapCache = s.mem.cmapCache from hcopy.cmapCache]; exact h
  have hmove : s.moveCask k q y = (s2.setCmap k ({ e with package := q, sector := y } : CaskEntry).toNat).cacheDrop k := rfl
  rw [hmove, s2.setCmap_cached _ _ hcached]
  refine ⟨?_, _, congrArg (fun m => sset 0#64 m k _) hcopy.casks⟩
  · have hcounted : s1.besideCopy.copyCounted k = s.besideCopy.copyCounted k := by rw [hcopy.frame]
    exact hcounted

/-- A quarantined cask of an evacuating package moves, with nothing else of it done, where its column has room (R349). -/
theorem State.evacuateCask_copies (k : Nat) (host : HostLines) {g : Nat} {r : Region} (hcached : sget 0 s.mem.cmapCache k ≠ 0)
    (hregion : s.tileRegion (k / 4) = some (g, r)) (hlength : (s.cask k).length ≠ 0) (hbad : (s.cask k).quarantined = true)
    (hroom : (s.findColumn (k / 4) (k % 4) g (s.cask k).length).1.isSome = true) :
    (s.evacuateCask k host).besideCopy = (s.copyCounted k).besideCopy ∧
      ∃ v, (s.evacuateCask k host).mem.caskMap = sset 0#64 s.mem.caskMap k v := by
  have hread : s.copyFinds k host = s := by simp [State.copyFinds, hbad]
  have hsearch := s.findColumn_copies (k / 4) (k % 4) g (s.cask k).length
  obtain ⟨⟨p, x⟩, hfound⟩ := Option.isSome_iff_exists.1 hroom
  let u := (s.findColumn (k / 4) (k % 4) g (s.cask k).length).2
  have hmove : s.evacuateCask k host = u.moveCask k p x := by
    have hpair : s.findColumn (k / 4) (k % 4) g (s.cask k).length = (some (p, x), u) := Prod.ext hfound rfl
    simp only [State.evacuateCask, hregion, hlength, if_false, hread, hpair]
  obtain ⟨hframe, v, hcasks⟩ := u.moveCask_besideCopy k p x (by rw [show u.mem.cmapCache = s.mem.cmapCache from hsearch.cmapCache]; exact hcached)
  have hcounted : u.besideCopy.copyCounted k = s.besideCopy.copyCounted k := by rw [hsearch.frame]
  rw [hmove]
  exact ⟨hframe.trans hcounted, v, by rw [hcasks, show u.mem.caskMap = s.mem.caskMap from hsearch.casks]⟩

/-- An evacuating package that still holds a stored cask is not retired (R349). -/
theorem State.retirePackage_held {p k : Nat} (hentry : s.cmap k ≠ 0) (hhome : s.home (k / 4) = 2) (hp : (s.cask k).package = p) :
    s.retirePackage p = s := by
  obtain ⟨e, he, rfl⟩ := exists_listed_of_sget (d := 0#64) (m := s.mem.caskMap) (k := k) (fun h => hentry (by simp [State.cmap, h]))
  have hholds : s.mem.caskMap.any (fun e => decide (s.home (e.1 / 4) = 2) && decide ((s.cask e.1).package = p)) = true :=
    List.any_eq_true.2 ⟨e, he, by simp [hhome, hp]⟩
  simp [State.retirePackage, hholds]

end

section
variable (s : State)

/-- A cask of an evacuating package that may move leaves it, and the package is retired where it holds no cask any more (R349). -/
theorem State.settleCask_evacuates {k : Nat} (hbit : (s.findCask k background .none).mem.evacuating.getLsbD ((s.findCask k background .none).cask k).package = true)
    (hstill : (s.findCask k background .none).caskStill k false = true) :
    s.settleCask k = ((s.findCask k background .none).evacuateCask k []).retirePackage ((s.findCask k background .none).cask k).package := by
  have hupset : upsetAt [] (4096 * k) isCaskMap = .none := rfl
  simp only [State.settleCask, hupset, hbit, hstill, if_true]

/-- A demotion, spill or recall that runs is abandoned before its deadline (R67, R70). -/
theorem State.abandonMove_running {t page evt : Nat} {m : Move} (hm : s.moveOf t = some m) (hkind : m.kind ≠ .promotion) :
    s.abandonMove t page evt false = (((s.dropMove t).restartTimers t).count page evt).settleUsage.afterMove t := by
  simp [State.abandonMove, hm, hkind]

/-- The one open read of a port, for a move, brings no more data (R70, R246). -/
theorem State.loseReads_move {p : Port} {g : Tag} {t off : Nat} (hopen : (s.port p).tags.filter (fun t => !t.quarantined) = [g])
    (hg : g.consumer = .move t off) : s.loseReads p = ((s.quarantineAll p).abandonMove t 0x019 2 false).loseFetch p := by
  simp only [State.loseReads, hopen, List.foldl, hg, State.failRead]

/-- The records of a containment: its cause, its time and its error (R245). -/
def State.containRecorded (s : State) (p : Port) (cause : Nat) : State :=
  (((s.aer p (fatalEvent cause)).setWord (prtPage p) 0x108 (1 + cause * 2)).setWord64 (prtPage p) 0x110 (s.aer p (fatalEvent cause)).now).errCount (prtPage p) 8 0

/-- What a containment does to a port's queues, once its requests, snoops and reads are gone (R246). -/
def State.queuesContained (s : State) (p : Port) : State := (s.queuesOf p).foldl (fun u q => u.containQueue q) s

/-- A port that is not contained enters containment (R245, R246). -/
theorem State.contain_first {p : Port} {cause : Nat} (hp : s.contained p = false) (hc : cause ≤ 5) :
    s.contain p cause = (((s.containRecorded p cause).losePort p (if cause = 4 then 4 else 0) false).queuesContained p) := by
  simp only [State.contain, hp, Bool.false_eq_true, if_false, hc, if_true]
  rfl

/-- No request waits for the line of a draft's home where no read's data is for a request (R129). -/
theorem State.draftPending_of_undemanded (h : s.ports.toList.all (fun q => q.tags.all (fun g => !g.demanded)) = true) (p : Nat) :
    s.draftPending p = false := by
  simp only [List.all_eq_true] at h
  simp only [State.draftPending, List.any_eq_false]
  intro q hq hany
  obtain ⟨g, hg, hwaits⟩ := List.any_eq_true.1 hany
  have hnone := h q hq g hg
  simp only [Tag.demanded] at hnone
  split at hnone <;> simp_all

end

/-! ### A containment that takes longer than TIMEOUT_US -/

/-- A quarantined cask of one sector, in package 3. -/
def staleCask : CaskEntry := { package := 3, length := 1, quarantined := true }

/-- A snoop to port 0 that it never answers. -/
def silentSnoop : Snoop := { port := 0, line := 0, kind := 2, biId := 0, biTag := 4, issuedAt := 0 }

/-- The recall of tile 1, and its read at port 0. -/
def runningRecall : Move := { tile := 1, kind := .recall, phase := .copy }
def recallRead : Tag := { tag := 0, haddr := 0, bytes := 64, consumer := .move 1 0, issuedAt := 0, timeoutUs := 0 }

/-- A published region of 2 MiB. -/
def publishedRegion : Region := { valid := true, kind := 2, size := 2 ^ 21 }

/-- Port 0 does not answer a snoop while it brings the data of a recall of tile 1, one of whose casks is to leave an evacuating package. The submission ring of the cooper's queue begins in the middle of a line of tile 2, a tile of a published region that is at home behind port 1. (R262 has rings begin at a multiple of 4 KiB. The statement ranges over every state, so over this one.) -/
@[irreducible] def skewedRing : State :=
  let s := (State.reset.setWord 0x018 0x15C 2).setWord 0x009 0x100 0x81
  { s with
    rgn := { entries := [(0, publishedRegion)] }
    mem :=
      { tierMap := [(1, 0xA#64), (2, BitVec.ofNat 64 (3 + 2 ^ 53)), (3, 2#64)]
        caskMap := [(7, BitVec.ofNat 64 staleCask.toNat), (12, BitVec.ofNat 64 staleCask.toNat)]
        tmapCache := [(1, 1), (2, 1), (3, 1)]
        cmapCache := [(4, 1), (5, 1), (6, 1), (7, 1), (8, 1)]
        packageIn := 2 ^ 7
        evacuating := 2 ^ 3 }
    rck := { moves := [runningRecall] }
    dir := { snoops := [silentSnoop] }
    edn := { drafts := [⟨0, 7, [], true⟩] }
    igr := { s.igr with copyAt := some 0 }
    ports := (s.ports.set 0 { tags := [recallRead], nextTag := 1 }).set 1 { bme := true }
    qmg := { queues := [(0, { ownKind := 3, ownId := 1, state := 1, sqBase := 32768 + 32 })] } }

/-- The time limit of the snoop has passed, and port 0 is a lost holder. -/
@[irreducible] def holderLost : State :=
  ((skewedRing.until (silentSnoop.issuedAt + us * skewedRing.field 0x010 0x100 0 14)).errCount 0x010 10 3).lostOwner (0 : Port).val 4

/-- Its containment is recorded, and its host window is offline. -/
@[irreducible] def windowLost : State :=
  (((((holderLost.containRecorded 0 4).dropRequests 0 false).lostOwner (0 : Port).val 4).loseMember (0 : Port).val).loseDrafts 0).windowOff 0

/-- The recall of tile 1 has been taken out of flight. -/
@[irreducible] def recallDropped : State := ((((windowLost.quarantineAll 0).dropMove 1).restartTimers 1).count 0x019 2).settleUsage

/-- Its casks are looked at again (R349): the last one, which is to leave its package, comes next. -/
@[irreducible] def copyDue : State := ((((recallDropped.zeroTest 1).settleCask 4).settleCask 5).settleCask 6).findCask 7 background .none

/-- That cask has left its package. -/
@[irreducible] def copyMade : State := copyDue.evacuateCask 7 []

/-- What remains of the containment after that copy. -/
def containmentRest (u : State) : State :=
  let v := ((u.promoteAgain 1).loseFetch 0).queuesContained 0
  (v.settlePort (0 : Port).val (sget 0 v.dir.walkCause (0 : Port).val)).settleSnoops

/-- The copy's entry goes into a part of a line of tile 2, and so its line is read from the memory behind port 1, which does not answer in the 2 ms of its own limit. -/
theorem containmentRest_now (casks : Sparse DWord)
    (h : casks = sdel copyDue.mem.caskMap 7 ∨ casks = sput copyDue.mem.caskMap 7 (sget 0#64 copyMade.mem.caskMap 7)) :
    (containmentRest ((copyDue.copyCounted 7).withCopyOf copyMade casks)).now = 2100000 := by
  rcases h with h | h
  · have hunlisted : (containmentRest ((copyDue.copyCounted 7).withCopyOf copyMade (sdel copyDue.mem.caskMap 7))).now = 2100000 := by decide +kernel
    rwa [h]
  · have hlisted : (containmentRest ((copyDue.copyCounted 7).withCopyOf copyMade
        (sput copyDue.mem.caskMap 7 (sget 0#64 copyMade.mem.caskMap 7)))).now = 2100000 := by decide +kernel
    rwa [h]

/-- The state after the copy, up to what the copy leaves to free values. -/
theorem copyMade_copies : copyMade.besideCopy = (copyDue.copyCounted 7).besideCopy ∧
    ∃ v, copyMade.mem.caskMap = sset 0#64 copyDue.mem.caskMap 7 v := by
  have hcached : sget 0 copyDue.mem.cmapCache 7 ≠ 0 := by decide +kernel
  have hregion : copyDue.tileRegion (7 / 4) = some (0, publishedRegion) := by decide +kernel
  have hlength : (copyDue.cask 7).length ≠ 0 := by decide +kernel
  have hbad : (copyDue.cask 7).quarantined = true := by decide +kernel
  have hroom : (copyDue.findColumn (7 / 4) (7 % 4) 0 (copyDue.cask 7).length).1.isSome = true := by decide +kernel
  rw [copyMade]
  exact copyDue.evacuateCask_copies 7 [] hcached hregion hlength hbad hroom

theorem copyMade_eq : ∃ casks, (casks = sdel copyDue.mem.caskMap 7 ∨ casks = sput copyDue.mem.caskMap 7 (sget 0#64 copyMade.mem.caskMap 7)) ∧
    copyMade = (copyDue.copyCounted 7).withCopyOf copyMade casks := by
  obtain ⟨hframe, v, hcasks⟩ := copyMade_copies
  refine ⟨copyMade.mem.caskMap, ?_, State.eq_withCopyOf hframe⟩
  have hv : sget 0#64 copyMade.mem.caskMap 7 = v := by rw [hcasks, sget_sset_self]
  rw [hv, hcasks, sset]
  split
  · exact .inl rfl
  · exact .inr rfl

/-- The package keeps cask 12, and stays. -/
theorem copyMade_retirePackage : copyMade.retirePackage 3 = copyMade := by
  obtain ⟨hframe, v, hcasks⟩ := copyMade_copies
  have hkept : copyMade.cmap 12 = copyDue.cmap 12 := by simp [State.cmap, hcasks, sget_sset_ne]
  have htier : copyMade.mem.tierMap = copyDue.mem.tierMap := congrArg (fun u => u.mem.tierMap) hframe
  have hentry : copyDue.cmap 12 ≠ 0 := by decide +kernel
  have hhome : copyDue.home 3 = 2 := by decide +kernel
  have hpackage : (copyDue.cask 12).package = 3 := by decide +kernel
  refine copyMade.retirePackage_held (k := 12) (by rwa [hkept]) ?_ (by rwa [State.cask, hkept])
  rwa [State.home, State.tmap, htier]

theorem recallDropped_afterMove : recallDropped.afterMove 1 = copyMade.promoteAgain 1 := by
  have hbit : copyDue.mem.evacuating.getLsbD (copyDue.cask 7).package = true := by decide +kernel
  have hstill : copyDue.caskStill 7 false = true := by decide +kernel
  have hpackage : (copyDue.cask 7).package = 3 := by decide +kernel
  have hlast : ((((recallDropped.zeroTest 1).settleCask 4).settleCask 5).settleCask 6).settleCask 7 = copyMade := by
    rw [State.settleCask_evacuates, ← copyDue, hpackage, ← copyMade, copyMade_retirePackage]
    · rwa [← copyDue]
    · rwa [← copyDue]
  exact congrArg (fun u => u.promoteAgain 1) hlast

theorem exec_biTimeout_skewedRing : exec (.biTimeout 0 4) skewedRing = .next (containmentRest copyMade) := by
  have hsnoop : skewedRing.dir.snoops.find? (fun n => decide (n.port = (0 : Port).val ∧ n.biTag = 4) && n.answer.isNone) = some silentSnoop := by
    decide +kernel
  have hfirst : holderLost.contained 0 = false := by decide +kernel
  have hopen : (windowLost.port 0).tags.filter (fun t => !t.quarantined) = [recallRead] := by decide +kernel
  have hmove : (windowLost.quarantineAll 0).moveOf 1 = some runningRecall := by decide +kernel
  have hreads : windowLost.loseReads 0 = (copyMade.promoteAgain 1).loseFetch 0 := by
    rw [windowLost.loseReads_move hopen rfl, State.abandonMove_running _ hmove (by decide), ← recallDropped, recallDropped_afterMove]
  have hcontain : holderLost.contain 0 4 = ((copyMade.promoteAgain 1).loseFetch 0).queuesContained 0 := by
    rw [holderLost.contain_first hfirst (by decide), if_pos rfl, State.losePort, ← windowLost, hreads]
  have hholder : holderLost.containHolder 0 4 = containmentRest copyMade := by
    rw [State.containHolder, hcontain]
    rfl
  calc exec (.biTimeout 0 4) skewedRing = execBiTimeout 0 4 skewedRing := rfl
    _ = .next (holderLost.containHolder 0 4) := by rw [execBiTimeout, hsnoop, holderLost]; rfl
    _ = .next (containmentRest copyMade) := by rw [hholder]

theorem skewedRing_atRest : skewedRing.atRest := by
  have hanswers : ∀ n ∈ skewedRing.dir.snoops, n.answer = none := by decide +kernel
  have hundemanded : skewedRing.ports.toList.all (fun q => q.tags.all (fun g => !g.demanded)) = true := by decide +kernel
  have hheld : ∀ e ∈ skewedRing.qmg.queues, e.2.held = [] := by decide +kernel
  have hcopies : skewedRing.igr.copies = 0 := by decide +kernel
  have hwaiting : skewedRing.dir.waiting = [] := by decide +kernel
  exact ⟨⟨hwaiting, hanswers, skewedRing.draftPending_of_undemanded hundemanded⟩, hheld, hcopies⟩

/-- Refutes O19, in its first clause: the time base can end later than the snoop's time limit. In skewedRing, the containment of port 0 ends a recall of tile 1, and the cask that waited for that to leave its package is copied. The cooper's entry for the copy takes two lines in part, since its ring is not aligned; their home is behind port 1, and the read of the first runs into port 1's own time limit. The claim gives 100,000 ns; the time base is at 2,100,000 ns. Rings that are aligned, as R262 has them, do not bring this about, but the statement does not ask for it. -/
theorem not_lostHoldersAreSettled : ¬ Obligations.LostHoldersAreSettled := by
  unfold Obligations.LostHoldersAreSettled
  rintro ⟨htimeout, -, -⟩
  have hfound : skewedRing.dir.snoops.find? (fun n => decide (n.port = (0 : Port).val ∧ n.biTag = 4)) = some silentSnoop := by decide +kernel
  obtain ⟨t, hexec, hnow, -⟩ := htimeout skewedRing 0 4 silentSnoop (by decide +kernel) (by decide +kernel) skewedRing_atRest hfound
  obtain ⟨casks, hcasks, hcopy⟩ := copyMade_eq
  have hlate : t.now = 2100000 := by
    have ht : containmentRest copyMade = t := Host.Outcome.next.inj (exec_biTimeout_skewedRing.symm.trans hexec)
    rw [← ht, hcopy]
    exact containmentRest_now casks hcasks
  have hlimit : max skewedRing.now (silentSnoop.issuedAt + 1000 * skewedRing.field 0x010 0x100 0 14) = 100000 := by decide +kernel
  rw [hlate, hlimit] at hnow
  exact absurd hnow (by decide)

end Sys2Proof.Machine
end

section
/-! PROOFS. What work on tiles and casks, whatever it is, keeps of what else goes on: the directory, the editions, the writes that wait for a draft's home, and the record of containment of each port (R245). -/

namespace Sys2Proof.Machine

/-! ### What is kept -/

/-- The record of a port's containment: PRT_CONTAIN (R245). -/
def State.cause (s : State) (p : Port) : Nat := s.word (prtPage p) 0x108

/-- What a port's loss and the end of its reads keep as well, where no line is settled. -/
structure Told where
  dir : DirState
  cause : Port → Nat

/-- What work on tiles and casks keeps. -/
structure Kept where
  edn : EdnState
  pending : Nat → Bool
  told : Told

def State.kept (s : State) : Kept := ⟨s.edn, s.draftPending, ⟨s.dir, s.cause⟩⟩

theorem foldl_kept {α} {f : State → α → State} (hf : ∀ (s : State) (a : α), (f s a).kept = s.kept) (l : List α) (s : State) :
    (l.foldl f s).kept = s.kept := by
  induction l generalizing s with
  | nil => rfl
  | cons a l ih => exact (ih _).trans (hf s a)

/-- The same, for a state carried along with other data. -/
theorem foldl_carried_kept {α β} (g : α → State) {f : α → β → α} (hf : ∀ (a : α) (b : β), (g (f a b)).kept = (g a).kept)
    (l : List β) (a : α) : (g (l.foldl f a)).kept = (g a).kept := by
  induction l generalizing a with
  | nil => rfl
  | cons b l ih => exact (ih _).trans (hf a b)

/-- Which writes wait for a draft's home follows from the reads that are outstanding. -/
theorem State.draftPending_of_tags {s t : State} (h : t.ports.map (fun q => q.tags) = s.ports.map (fun q => q.tags)) :
    t.draftPending = s.draftPending := by
  have hany (u : State) (f : Tag → Bool) :
      u.ports.toList.any (fun q => q.tags.any f) = (u.ports.map (fun q => q.tags)).toList.any (fun l => l.any f) := by
    simp only [Vector.toList_map, List.any_map, Function.comp_def]
  funext p
  simp only [State.draftPending]
  rw [hany, hany, h]

theorem State.Tends.kept {s t : State} (h : s.Tends t) (hedn : t.edn = s.edn) (hcause : t.cause = s.cause) : t.kept = s.kept := by
  have hpending : t.draftPending = s.draftPending := by
    funext p
    rw [← t.besideTiles_draftPending, h.frame, s.besideTiles_draftPending]
  rw [State.kept, hedn, h.dir, hpending, hcause, State.kept]

section
variable (s : State)

@[simp] theorem State.kept_mem (x : MemState) : ({ s with mem := x } : State).kept = s.kept := rfl
@[simp] theorem State.kept_rck (x : RckState) : ({ s with rck := x } : State).kept = s.kept := rfl
@[simp] theorem State.kept_prs (x : PrsState) : ({ s with prs := x } : State).kept = s.kept := rfl
@[simp] theorem State.kept_igr (x : IgrState) : ({ s with igr := x } : State).kept = s.kept := rfl

/-- A register word at another offset than that of PRT_CONTAIN. -/
@[simp] theorem State.setWord_kept (page off v : Nat) (h : off % 4096 ≠ 0x108) : (s.setWord page off v).kept = s.kept := by
  have hcause : (s.setWord page off v).cause = s.cause := by
    funext p
    exact s.word_setWord_ne _ _ _ _ _ (by omega)
  rw [State.kept, hcause]
  rfl

@[simp] theorem State.setField_kept (page off lo w v : Nat) (h : off % 4096 ≠ 0x108) : (s.setField page off lo w v).kept = s.kept :=
  s.setWord_kept _ _ _ h

@[simp] theorem State.setWord64_kept (page off v : Nat) (h : off % 4096 ≠ 0x108) (h4 : (off + 4) % 4096 ≠ 0x108) :
    (s.setWord64 page off v).kept = s.kept := (State.setWord_kept _ _ _ _ h4).trans (s.setWord_kept _ _ _ h)

@[simp] theorem State.count_kept (page i n : Nat) (h : (0x028 + 4 * i) % 4096 ≠ 0x108) : (s.count page i n).kept = s.kept := by
  unfold State.count
  split
  · rfl
  · exact s.setWord_kept _ _ _ h

@[simp] theorem State.emit_kept (o : Out) : (s.emit o).kept = s.kept := rfl

/-- A change of a port that leaves its reads. -/
theorem State.modPort_kept (p : Port) (f : PortState → PortState) (h : ∀ q, (f q).tags = q.tags) : (s.modPort p f).kept = s.kept := by
  have hpending : (s.modPort p f).draftPending = s.draftPending := by
    refine State.draftPending_of_tags ?_
    ext1 i hi
    simp only [State.modPort, Vector.getElem_map, Vector.getElem_set]
    split
    · next hip => simp [h, hip]
    · rfl
  rw [State.kept, hpending]
  rfl

@[simp] theorem State.err_kept (page bit : Nat) : (s.err page bit).kept = s.kept := by
  have hcause : (s.err page bit).cause = s.cause := by
    funext p
    have := p.isLt
    exact s.word_err _ _ _ _ (by simp only [prtPage]; omega) (by decide) (by simp only [prtPage]; omega) (by simp only [prtPage]; omega)
  exact (s.err_tends page bit).kept (s.err_changes page bit .edn (by decide)) hcause

@[simp] theorem State.draw_kept : s.draw.2.kept = s.kept := rfl

theorem State.Looks.kept {s t : State} (h : s.Looks t) : t.kept = s.kept :=
  h.tends.kept (congrArg State.edn h.frame :) (by funext p; rw [State.cause, State.word, h.reg, h.order]; rfl)

@[simp] theorem State.dramVat_kept (slot line : Nat) (write : Bool) (w : Traffic) : (s.dramVat slot line write w).kept = s.kept :=
  (s.dramVat_looks slot line write w).kept

@[simp] theorem State.dramCellar_kept (package sector n : Nat) (write : Bool) (w : Traffic) : (s.dramCellar package sector n write w).kept = s.kept :=
  (s.dramCellar_looks package sector n write w).kept

@[simp] theorem State.lookTile_kept (t : Nat) (w : Traffic) : (s.lookTile t w).kept = s.kept := (s.lookTile_looks t w).kept

@[simp] theorem State.lookCask_kept (k : Nat) (w : Traffic) : (s.lookCask k w).kept = s.kept := (s.lookCask_looks k w).kept

/-! ### Map entries and slots -/

@[simp] theorem State.putTmap_kept (t v : Nat) : (s.putTmap t v).kept = s.kept := by simp [State.putTmap]

@[simp] theorem State.putCmap_kept (k v : Nat) : (s.putCmap k v).kept = s.kept := by simp [State.putCmap]

@[simp] theorem State.setUse_kept (slot : Nat) (u : SlotUse) : (s.setUse slot u).kept = s.kept := rfl

@[simp] theorem State.freeSlot_kept (slot : Nat) : (s.freeSlot slot).kept = s.kept := rfl

@[simp] theorem State.markSectors_kept (p x n : Nat) (b : Bool) : (s.markSectors p x n b).kept = s.kept := rfl

@[simp] theorem State.putVatLine_kept (slot line : Nat) (v : List Byte × Bool) : (s.putVatLine slot line v).kept = s.kept := rfl

@[simp] theorem State.putSectors_kept (p x : Nat) (l : List Byte) : (s.putSectors p x l).kept = s.kept := rfl

@[simp] theorem State.withholdRow_kept (p c rank bank row : Nat) (on : Bool) : (s.withholdRow p c rank bank row on).kept = s.kept := rfl

@[simp] theorem State.cacheDrop_kept (k : Nat) : (s.cacheDrop k).kept = s.kept := rfl

@[simp] theorem State.cachePut_kept (k : Nat) (raw : List Byte) (poison : BitVec 64) : (s.cachePut k raw poison).kept = s.kept := rfl

@[simp] theorem State.modMove_kept (t : Nat) (f : Move → Move) : (s.modMove t f).kept = s.kept := rfl

@[simp] theorem State.markMove_kept (t i : Nat) : (s.markMove t i).kept = s.kept := rfl

@[simp] theorem State.flushChecks_kept : s.flushChecks.kept = s.kept := by
  refine foldl_kept (fun u p => ?_) _ s
  unfold State.flushCheck
  split
  · rfl
  · rfl

@[simp] theorem State.dropBuf_kept (k : Nat) : (s.dropBuf k).kept = s.kept := by simp [State.dropBuf]

@[simp] theorem State.freeDest_kept (m : Move) : (s.freeDest m).kept = s.kept := by
  unfold State.freeDest
  split
  · rfl
  · rfl
  · exact foldl_kept (fun u p => u.markSectors_kept _ _ _ _) _ s
  · rfl

/-- The reads of a move are none that a request waits for. -/
@[simp] theorem State.dropReads_kept (t : Nat) : (s.dropReads t).kept = s.kept := (s.dropReads_tends t).kept rfl rfl

@[simp] theorem State.dropMove_kept (t : Nat) : (s.dropMove t).kept = s.kept := by
  unfold State.dropMove
  split
  · rfl
  · simp

/-! ### Map entries that are lost or found damaged -/

@[simp] theorem State.loseCask_kept (k : Nat) : (s.loseCask k).kept = s.kept := by simp [State.loseCask]

@[simp] theorem State.loseTile_kept (t : Nat) : (s.loseTile t).kept = s.kept := by
  have hstart : ((s.unpinned t).windowKept t).kept = s.kept := by
    unfold State.windowKept State.unpinned
    split <;> split <;> rfl
  simp [State.loseTile_eq, hstart]

@[simp] theorem State.mapOut_kept (place : Nat × Nat) (q : Nat) : (s.mapOut place q).kept = s.kept :=
  foldl_kept (fun u t => u.loseTile_kept t) _ s

@[simp] theorem State.reported_kept (u : RepairUnit) : (s.reported u).kept = s.kept := by
  unfold State.reported
  split <;> rfl

@[simp] theorem State.overflowed_kept (kind index : Nat) : (s.overflowed kind index).kept = s.kept := by
  unfold State.overflowed
  split
  · simp only []
    split
    · exact State.reported_kept _ _
    · rfl
  · split
    · simp [foldl_kept (f := fun u (e : Nat × Nat) => u.reported _) (fun u e => u.reported_kept _)]
    · rfl

@[simp] theorem State.pushBucket_kept (kind index : Nat) : (s.pushBucket kind index).kept = s.kept := by
  unfold State.pushBucket
  split <;> rfl

@[simp] theorem State.addBucket_kept (kind index n : Nat) : (s.addBucket kind index n).kept = s.kept := by
  have hopen : (if sget 0 s.igr.level (bucketKey kind index) = 0 then
      { s with igr := { s.igr with leakAt := sset 0 s.igr.leakAt (bucketKey kind index) s.now } } else s).kept = s.kept := by
    split <;> rfl
  unfold State.addBucket
  simp only []
  split
  · simp [hopen]
  · simp [hopen]

@[simp] theorem State.corrected_kept (double : Bool) (units : List (Nat × Nat)) : (s.corrected double units).kept = s.kept := by
  have hcount : (s.count 0x0E0 (if double then 1 else 0)).kept = s.kept := by cases double <;> simp
  exact (foldl_kept (fun u e => u.addBucket_kept _ _ _) _ _).trans hcount

@[simp] theorem State.suspect_kept (u : RepairUnit) (double : Bool) : (s.suspect u double).kept = s.kept := by
  unfold State.suspect
  extract_lets _ _ _ next _ s1
  split
  · exact State.reported_kept s1 u
  · rfl

@[simp] theorem State.recordUe_kept (whereTo foundBy addr : Nat) : (s.recordUe whereTo foundBy addr).kept = s.kept := by
  unfold State.recordUe
  simp only []
  split <;> simp

@[simp] theorem State.readMap_kept (slot line q : Nat) (flips : BitVec 144) (foundBy : Nat) : (s.readMap slot line q flips foundBy).kept = s.kept := by
  have hlose (u : State) (l : List Nat) : (l.foldl State.loseTile u).kept = u.kept := foldl_kept (fun u t => u.loseTile_kept t) l u
  unfold State.readMap
  simp only []
  split
  · rfl
  · rw [hlose]
    split <;> simp
  · simp
  · simp [hlose]

@[simp] theorem State.findTile_kept (t : Nat) (w : Traffic) (upset : Upset) : (s.findTile t w upset).kept = s.kept := by
  unfold State.findTile
  simp only []
  split
  · simp
  · split
    · split <;> simp
    · simp

@[simp] theorem State.findCask_kept (k : Nat) (w : Traffic) (upset : Upset) : (s.findCask k w upset).kept = s.kept := by
  unfold State.findCask
  simp only []
  split
  · simp
  · split
    · split <;> simp
    · simp

@[simp] theorem State.setTmap_kept (t v : Nat) : (s.setTmap t v).kept = s.kept := by
  unfold State.setTmap
  simp only []
  split <;> simp

@[simp] theorem State.setCmap_kept (k v : Nat) : (s.setCmap k v).kept = s.kept := by
  unfold State.setCmap
  simp only []
  split <;> simp

@[simp] theorem State.setHome_kept (t home loc : Nat) : (s.setHome t home loc).kept = s.kept := s.setTmap_kept t _

@[simp] theorem State.setMoving_kept (t : Nat) (b : Bool) : (s.setMoving t b).kept = s.kept := s.setTmap_kept t _

@[simp] theorem State.setCask_kept (k : Nat) (e : CaskEntry) : (s.setCask k e).kept = s.kept := s.setCmap_kept k _

@[simp] theorem State.clearCasks_kept (t : Nat) : (s.clearCasks t).kept = s.kept := foldl_kept (fun u _ => u.setCmap_kept _ _) _ s

@[simp] theorem State.setHostPoison_kept (t i : Nat) (b : Bool) : (s.setHostPoison t i b).kept = s.kept := s.setCmap_kept _ _

@[simp] theorem State.acceptMove_kept (t : Nat) (kind : MoveKind) : (s.acceptMove t kind).kept = s.kept := by
  unfold State.acceptMove
  split
  · rfl
  · simp

end

/-! ### Usage settles -/

/-- What follows a change of usage goes by steps of these kinds: a field of the racking engine's first page, its errors and counts, its own state, a free value, and a move accepted (R65, R77, R78, R80). -/
inductive State.Upkeep (s : State) : State → Prop where
  | refl : s.Upkeep s
  | field {t : State} (h : s.Upkeep t) (lo w v : Nat) : s.Upkeep (t.setField 0x018 0x11C lo w v)
  | err {t : State} (h : s.Upkeep t) (bit : Nat) : s.Upkeep (t.err 0x018 bit)
  | count {t : State} (h : s.Upkeep t) : s.Upkeep (t.count 0x019 0)
  | rck {t : State} (h : s.Upkeep t) (x : RckState) : s.Upkeep { t with rck := x }
  | draw {t : State} (h : s.Upkeep t) : s.Upkeep t.draw.2
  | accept {t : State} (h : s.Upkeep t) (tile : Nat) (kind : MoveKind) : s.Upkeep (t.acceptMove tile kind)

section
variable {s t : State}

theorem State.Upkeep.trans {u : State} (h : s.Upkeep t) (k : t.Upkeep u) : s.Upkeep u := by
  induction k with
  | refl => exact h
  | field _ lo w v ih => exact .field ih lo w v
  | err _ bit ih => exact .err ih bit
  | count _ ih => exact .count ih
  | rck _ x ih => exact .rck ih x
  | draw _ ih => exact .draw ih
  | accept _ tile kind ih => exact .accept ih tile kind

theorem State.Upkeep.kept (h : s.Upkeep t) : t.kept = s.kept := by
  induction h with
  | refl => rfl
  | field _ lo w v ih => simpa using ih
  | err _ bit ih => simpa using ih
  | count _ ih => simpa using ih
  | rck _ x ih => simpa using ih
  | draw _ ih => exact ih
  | accept _ tile kind ih => simpa using ih

theorem foldl_acceptMove_upkeep (kind : MoveKind) (l : List Nat) (h : s.Upkeep t) : s.Upkeep (l.foldl (fun u v => u.acceptMove v kind) t) := by
  induction l generalizing t with
  | nil => exact h
  | cons v l ih => exact ih (.accept h v kind)

end

section
variable (s : State)

theorem State.watermarks_upkeep : s.Upkeep s.watermarks := by
  unfold State.watermarks
  extract_lets mark
  have hmark (u : State) (bit up down : Nat) : u.Upkeep (mark u bit up down) := by
    simp only [mark]
    split
    · split
      · exact .err (.field .refl _ _ _) _
      · exact .refl
    · split
      · exact .refl
      · exact .field .refl _ _ _
  exact (hmark s 0 85 80).trans (hmark _ 1 95 90)

theorem spillFrom_upkeep (l : List Nat) (freed : Nat) : s.Upkeep (spillFrom l freed s) := by
  induction l generalizing freed s with
  | nil => exact .refl
  | cons t l ih =>
    unfold spillFrom
    split
    · exact .refl
    · split
      · split
        · exact (State.Upkeep.count .refl).trans (ih _ _)
        · exact ih _ _
      · exact (State.Upkeep.accept .refl t .spill).trans (ih _ _)

theorem recallFrom_upkeep (l : List Nat) (planned : Nat) : s.Upkeep (recallFrom l planned s) := by
  induction l generalizing planned s with
  | nil => exact .refl
  | cons t l ih =>
    unfold recallFrom
    split
    · exact .refl
    · exact (State.Upkeep.accept .refl t .recall).trans (ih _ _)

theorem State.spillOn_upkeep : s.Upkeep s.spillOn := by
  unfold State.spillOn
  split
  · exact .refl
  split
  · exact .field .refl _ _ _
  split
  next d s1 hdrawn =>
  have hdraw : s.Upkeep s1 := by
    cases hdrawn
    exact .draw .refl
  extract_lets s2
  have hspill : s.Upkeep s2 := by
    simp only [s2]
    split
    · exact hdraw.trans (spillFrom_upkeep _ _ _)
    · exact hdraw
  split
  · exact hspill
  · exact .field hspill _ _ _

theorem State.recallTiles_upkeep : s.Upkeep s.recallTiles := by
  unfold State.recallTiles
  split
  · exact .refl
  simp only []
  split
  · exact .refl
  · exact (State.Upkeep.draw .refl).trans (recallFrom_upkeep _ _ _)

theorem State.demoteIfLow_upkeep : s.Upkeep s.demoteIfLow := by
  unfold State.demoteIfLow
  split
  · exact .refl
  split
  · split
    · exact .rck .refl _
    · exact .refl
  split
  · exact foldl_acceptMove_upkeep .demotion _ (.draw (.rck .refl _))
  · exact .refl

theorem State.settleUsage_upkeep : s.Upkeep s.settleUsage := by
  unfold State.settleUsage
  extract_lets s1 s2 s3
  have hdemote : s1.Upkeep s2 := by
    simp only [s2]
    split
    · exact .refl
    · exact foldl_acceptMove_upkeep .demotion _ .refl
  have hclear : s2.Upkeep s3 := by
    simp only [s3]
    split
    · exact .field (.field .refl _ _ _) _ _ _
    · exact .refl
  exact (((s.watermarks_upkeep.trans hdemote).trans hclear).trans ((State.spillOn_upkeep _).trans (State.recallTiles_upkeep _))).trans
    (State.demoteIfLow_upkeep _)

@[simp] theorem State.spillOn_kept : s.spillOn.kept = s.kept := s.spillOn_upkeep.kept
@[simp] theorem State.demoteIfLow_kept : s.demoteIfLow.kept = s.kept := s.demoteIfLow_upkeep.kept
@[simp] theorem State.settleUsage_kept : s.settleUsage.kept = s.kept := s.settleUsage_upkeep.kept

end

end Sys2Proof.Machine
end

section
/-! PROOFS. The same, of tables, casks and logs: taking slots and sectors, reading and moving casks. -/

namespace Sys2Proof.Machine

/-! ### Tables, casks and logs -/

section
variable (s : State)

@[simp] theorem State.slotFreed_kept : s.slotFreed.kept = s.kept := rfl

@[simp] theorem State.setTable_kept (id : Nat) (t : Table) : (s.setTable id t).kept = s.kept := rfl

@[simp] theorem State.addRef_kept (id : Nat) : (s.addRef id).kept = s.kept := by
  unfold State.addRef
  split <;> rfl

@[simp] theorem State.dropRef_kept (id : Nat) : (s.dropRef id).kept = s.kept := by
  unfold State.dropRef
  split
  · rfl
  · split <;> rfl

@[simp] theorem State.pushQlog_kept (e : QEntry) : (s.pushQlog e).1.kept = s.kept := by
  unfold State.pushQlog
  split <;> simp

@[simp] theorem State.detach_kept (k : Nat) : (s.detach k).kept = s.kept := by
  unfold State.detach
  simp only []
  split
  · rfl
  · split <;> simp

@[simp] theorem State.freeCask_kept (k : Nat) : (s.freeCask k).kept = s.kept := by
  unfold State.freeCask
  simp only []
  split <;> simp

@[simp] theorem State.freeBacking_kept (t : Nat) : (s.freeBacking t).kept = s.kept := by
  have hcasks (u : State) (c : Nat) : (((u.freeCask (4 * t + c)).dropBuf (4 * t + c)).cacheDrop (4 * t + c)).kept = u.kept := by simp
  unfold State.freeBacking
  split
  · rfl
  split
  · rw [State.clearCasks_kept, foldl_kept hcasks]
  split
  · simp
  · rfl

@[simp] theorem State.pushExh_kept (t : Nat) (sealed : Bool) : (s.pushExh t sealed).kept = s.kept := by
  unfold State.pushExh
  split <;> simp

@[simp] theorem State.capDrop_kept (t : Nat) (atSeal : Bool) : (s.capDrop t atSeal).kept = s.kept := by simp [State.capDrop]

@[simp] theorem State.exhausted_kept : s.exhausted.kept = s.kept := by
  unfold State.exhausted
  simp only []
  split <;> simp

@[simp] theorem State.trainCount_kept (g k : Nat) : (s.trainCount g k).kept = s.kept := by
  unfold State.trainCount
  extract_lets r had now s1
  split <;> rfl

@[simp] theorem State.storeCask_kept (k p x : Nat) (c : StoredCask) : (s.storeCask k p x c).kept = s.kept := by simp [State.storeCask]

@[simp] theorem State.zeroTest_kept (t : Nat) : (s.zeroTest t).kept = s.kept := by
  unfold State.zeroTest
  split
  · rw [State.setHome_kept, State.clearCasks_kept]
    rfl
  · rfl

@[simp] theorem State.beginSeal_kept (k : Nat) (forced flush : Bool) : (s.beginSeal k forced flush).kept = s.kept := rfl

/-! ### Slots and sectors taken -/

theorem State.takeSlot_kept {u : SlotUse} {x : Nat} {t : State} (h : s.takeSlot u = some (x, t)) : t.kept = s.kept := by
  unfold State.takeSlot at h
  split at h
  next hdrawn =>
  cases hdrawn
  split at h
  · cases h
  · cases h
    rfl

theorem State.takePool_kept {u : SlotUse} {x : Nat} {t : State} (h : s.takePool u = some (x, t)) : t.kept = s.kept := by
  unfold State.takePool at h
  split at h
  · cases h
  · exact s.takeSlot_kept h

theorem State.takeEmergency_kept {x : Nat} {t : State} (h : s.takeEmergency = some (x, t)) : t.kept = s.kept := by
  unfold State.takeEmergency at h
  split at h
  · cases h
  · obtain ⟨⟨y, u⟩, hu, h⟩ := Option.map_eq_some_iff.1 h
    cases h
    simp [s.takeSlot_kept hu]

@[simp] theorem State.findRun_kept (package lo size n : Nat) : (s.findRun package lo size n).2.kept = s.kept := by
  unfold State.findRun
  simp only []
  split <;> rfl

@[simp] theorem State.findColumn_kept (t c g n : Nat) : (s.findColumn t c g n).2.kept = s.kept := by
  refine foldl_carried_kept Prod.snd (fun a k => ?_) _ (none, s)
  split
  · rfl
  · simp only []
    split
    · exact State.findRun_kept _ _ _ _ _
    · rfl

@[simp] theorem State.findRelocation_kept (t c g n : Nat) : (s.findRelocation t c g n).2.kept = s.kept := by
  refine foldl_carried_kept Prod.snd (fun a p => ?_) _ (none, s)
  split
  · rfl
  · split
    · exact State.findRun_kept _ _ _ _ _
    · rfl

@[simp] theorem State.findReloc_kept (p n : Nat) : (s.findReloc p n).2.kept = s.kept := by
  unfold State.findReloc
  simp only [State.kept_mem, State.findRun_kept]
  refine foldl_kept (fun u x => ?_) _ s
  split <;> rfl

theorem State.takeSectors_kept {t c g n p x : Nat} {u : State} (h : s.takeSectors t c g n = some (p, x, u)) : u.kept = s.kept := by
  have hcolumn := s.findColumn_kept t c g n
  unfold State.takeSectors at h
  split at h
  · next hfind =>
    cases h
    rwa [hfind] at hcolumn
  · cases h

theorem State.takeFor_kept {k g n p x : Nat} {u : State} (h : s.takeFor k g n = some (p, x, u)) : u.kept = s.kept := by
  unfold State.takeFor at h
  split at h
  · have hrun := s.findRun_kept (s.cask k).package 0 caskSectors n
    simp only [] at h
    split at h
    · next hfind =>
      cases h
      rwa [hfind] at hrun
    · cases h
  · exact s.takeSectors_kept h

/-! ### Casks read -/

@[simp] theorem State.upsetSector_kept (k i : Nat) (bytes : List Byte) (q : Nat) (flips : BitVec 144) :
    (s.upsetSector k i bytes q flips).2.2.kept = s.kept := by
  unfold State.upsetSector
  simp only []
  split <;> simp

@[simp] theorem State.readSectors_kept (k : Nat) (host : HostLines) : (s.readSectors k host).2.2.kept = s.kept := by
  unfold State.readSectors
  simp only []
  split
  · rfl
  · refine foldl_carried_kept (fun a : List Byte × Bool × State => a.2.2) (fun a i => ?_) _ _
    split
    · exact State.upsetSector_kept _ _ _ _ _ _
    · rfl

@[simp] theorem State.quarantine_kept (k code foundBy sector : Nat) : (s.quarantine k code foundBy sector).kept = s.kept := by
  have hrecorded (addr : Nat) : (if code = 6 then s.recordUe 2 foundBy addr else s).kept = s.kept := by
    split <;> simp
  simp [State.quarantine, hrecorded]

@[simp] theorem State.decodeRead_kept (k : Nat) (bad : Bool) (host : HostLines) : (s.decodeRead k bad host).2.2.kept = s.kept := by
  have hcounted (u : State) (p n : Nat) : (if n = 0 then u else u.count (prsPage p) 0).kept = u.kept := by
    split <;> simp
  unfold State.decodeRead
  simp only []
  split <;> simp [hcounted]

@[simp] theorem State.decodeNow_kept (k : Nat) (w : Traffic) (host : HostLines) : (s.decodeNow k w host).2.2.kept = s.kept := by
  simp [State.decodeNow]

@[simp] theorem State.storedCask_kept (k : Nat) (w : Traffic) (host : HostLines) : (s.storedCask k w host).2.2.kept = s.kept := by
  unfold State.storedCask
  simp only []
  split
  · simp
  · split <;> simp

@[simp] theorem State.caskContent_kept (k : Nat) (w : Traffic) (host : HostLines) : (s.caskContent k w host).2.2.kept = s.kept := by
  have hstored := s.storedCask_kept k w host
  unfold State.caskContent
  simp only []
  split <;> exact hstored

/-! ### Casks that the cooper moves -/

@[simp] theorem State.repaired_kept : s.repaired.kept = s.kept := by simp [State.repaired]

@[simp] theorem State.retirePackage_kept (p : Nat) : (s.retirePackage p).kept = s.kept := by
  unfold State.retirePackage
  simp only []
  split <;> simp

@[simp] theorem State.copyFinds_kept (k : Nat) (host : HostLines) : (s.copyFinds k host).kept = s.kept := by
  unfold State.copyFinds
  simp only []
  split
  · rfl
  · split <;> simp

@[simp] theorem State.copySectors_kept (p x q y n : Nat) : (s.copySectors p x q y n).kept = s.kept := by simp [State.copySectors]

@[simp] theorem State.moveCask_kept (k q y : Nat) : (s.moveCask k q y).kept = s.kept := by simp [State.moveCask]

@[simp] theorem State.evacuateCask_kept (k : Nat) (host : HostLines) : (s.evacuateCask k host).kept = s.kept := by
  unfold State.evacuateCask
  simp only []
  split
  · rfl
  next g _ _ =>
  split
  · split <;> simp
  have hcolumn := (s.copyFinds k host).findColumn_kept (k / 4) (k % 4) g (s.cask k).length
  split
  · next hfind => simpa [hfind] using hcolumn
  · next u hfind =>
    have hreloc := u.findRelocation_kept (k / 4) (k % 4) g (s.cask k).length
    have hu : u.kept = s.kept := by simpa [hfind] using hcolumn
    split
    · next hfound => simpa [hfound, hu] using hreloc
    · next hfound => simpa [hfound, hu] using hreloc

@[simp] theorem State.rowsEmptied_kept : s.rowsEmptied.kept = s.kept := by
  refine foldl_kept (fun u x => ?_) _ s
  split
  · split <;> simp
  · rfl

@[simp] theorem State.settleCask_kept (k : Nat) (host : HostLines) : (s.settleCask k host).kept = s.kept := by
  unfold State.settleCask
  simp only []
  generalize hfound : s.findCask k background (upsetAt host (4096 * k) isCaskMap) = u
  have hu : u.kept = s.kept := by simp [← hfound]
  split
  · split <;> simp [hu]
  split
  · exact hu
  split
  · have hreloc := u.findReloc_kept (u.cask k).package (u.cask k).length
    split
    · next hfind => simpa [hfind, hu] using hreloc
    · next hfind => simpa [hfind, hu] using hreloc
  · simp [hu]

/-! ### Seals and re-encodings -/

@[simp] theorem State.toVat_kept (t slot : Nat) (w : Traffic) (host : HostLines) : (s.toVat t slot w host).kept = s.kept := by
  simp only [State.toVat, State.setHome_kept, State.freeBacking_kept, State.dropMove_kept]
  refine foldl_kept (fun u c => ?_) _ s
  exact (foldl_kept (fun v i => by simp) _ _).trans (u.caskContent_kept _ _ _)

@[simp] theorem State.sealToVat_kept (t : Nat) (w : Traffic) (host : HostLines) : (s.sealToVat t w host).kept = s.kept := by
  unfold State.sealToVat
  split
  · next htake => simp [s.takePool_kept htake]
  · simp only []
    split
    · next htake => simp [State.takeEmergency_kept _ htake]
    · simp

end

end Sys2Proof.Machine
end

section
/-! PROOFS. The same, of seals, re-encodings and the writing of a line of a tile, whatever its home. -/

namespace Sys2Proof.Machine
section
variable (s : State)

@[simp] theorem State.sealCask_kept (k : Nat) (host : HostLines) : (s.sealCask k host).kept = s.kept := by
  unfold State.sealCask
  extract_lets t
  split
  next b g r _ _ =>
    extract_lets w u
    have hu : u.kept = s.kept := by simp [u]
    split
    · simp [hu]
    have hcontent := u.caskContent_kept k w host
    split
    next raw poison s1 hread =>
    rw [hread] at hcontent
    have hs1 : s1.kept = s.kept := hcontent.trans hu
    extract_lets old enc p done1 stored written freed
    have hdone (v : State) : (done1 v).kept = v.kept := by
      simp [done1, apply_ite State.kept]
    split
    · simp [hdone, written, stored, hs1]
    split
    · simp [hdone, freed, hs1]
    split
    · next htake => simp [hdone, hs1, State.takeSectors_kept _ htake]
    · simp [hs1]
  · simp

@[simp] theorem State.reencodeDone_kept (k : Nat) (host : HostLines) : (s.reencodeDone k host).kept = s.kept := by
  unfold State.reencodeDone
  split
  swap
  · rfl
  extract_lets _ s1
  have hs1 : s1.kept = s.kept := rfl
  split
  · exact hs1
  split
  · exact hs1
  have hstored := s1.storedCask_kept k background host
  split
  next hread =>
  rw [hread, hs1] at hstored
  split
  · exact hstored
  extract_lets enc freed
  split
  · simp [freed, hstored]
  split
  · exact hstored
  · next htake => simp [hstored, State.takeFor_kept _ htake]

@[simp] theorem State.finishSeal_kept (k : Nat) : (s.finishSeal k).kept = s.kept := by simp [State.finishSeal]

@[simp] theorem State.freeBuffer_kept (p fuel : Nat) : (s.freeBuffer p fuel).kept = s.kept := by
  induction fuel generalizing s with
  | zero => rfl
  | succ fuel ih =>
    unfold State.freeBuffer
    split
    · rfl
    split
    · simp [ih]
    split
    · simp [ih]
    · rfl

/-! ### Lines written -/

@[simp] theorem State.writeBuf_kept (k i : Nat) (new : List Byte) (be : BitVec 64) (poison : Bool) (w : Traffic) (host : HostLines) :
    (s.writeBuf k i new be poison w host).kept = s.kept := by
  unfold State.writeBuf
  extract_lets b0 whole
  split
  next old s1 hread =>
  have hs1 : s1.kept = s.kept := by
    split at hread
    · cases hread
      rfl
    split at hread
    · cases hread
      rfl
    · cases hread
      split
      · exact (State.count_kept _ _ _ _ (by decide)).trans (s.storedCask_kept k w host)
      · exact s.storedCask_kept k w host
  exact hs1

@[simp] theorem State.writeVat_kept (slot line : Nat) (new : List Byte) (be : BitVec 64) (poison : Bool) :
    (s.writeVat slot line new be poison).kept = s.kept := rfl

@[simp] theorem State.readVatEcc_kept (slot line a : Nat) (upset : Upset) (foundBy : Nat) :
    (s.readVatEcc slot line a upset foundBy).2.2.kept = s.kept := by
  unfold State.readVatEcc
  simp only []
  split
  · rfl
  split
  · split
    · rfl
    · split <;> simp
    · simp
    · simp
  · rfl

@[simp] theorem State.mergeVat_kept (slot line a : Nat) (new : List Byte) (be : BitVec 64) (poison : Bool) (upset : Upset) :
    (s.mergeVat slot line a new be poison upset).kept = s.kept := by
  unfold State.mergeVat
  split
  · rfl
  · simp

@[simp] theorem State.writeCask_kept (k i : Nat) (new : List Byte) (be : BitVec 64) (poison : Bool) (w : Traffic) (host : HostLines) :
    (s.writeCask k i new be poison w host).kept = s.kept := by
  unfold State.writeCask
  extract_lets s1
  have hs1 : s1.kept = s.kept := by
    simp only [s1]
    split <;> simp
  split
  · simp [hs1]
  split
  · simp [hs1]
  · exact hs1

@[simp] theorem State.poisonSlot_kept (slot : Nat) (w : Traffic) : (s.poisonSlot slot w).kept = s.kept :=
  foldl_kept (fun u i => by simp) _ s

@[simp] theorem State.vatHome_kept (t slot : Nat) (poisoned : Bool) (w : Traffic) : (s.vatHome t slot poisoned w).kept = s.kept := by
  unfold State.vatHome
  simp only []
  split <;> simp

@[simp] theorem State.cellarHome_kept (t g : Nat) (poisoned : Bool) (w : Traffic) : (s.cellarHome t g poisoned w).kept = s.kept := by
  unfold State.cellarHome
  extract_lets s1
  have hs1 : s1.kept = s.kept := (foldl_kept (fun u c => by simp) _ _).trans (s.setHome_kept _ _ _)
  split
  · exact (foldl_kept (fun u i => by simp) _ _).trans hs1
  · exact hs1

@[simp] theorem State.firstHome_kept (t : Nat) (w : Traffic) : (s.firstHome t w).kept = s.kept := by
  unfold State.firstHome
  split
  · rfl
  extract_lets poisoned spare cellar
  have hspare (u : State) : (spare u).kept = u.kept := by
    simp only [spare]
    split
    · next htake => simp [State.takePool_kept _ htake]
    · split
      · next htake => simp [State.takeEmergency_kept _ htake]
      · simp
  have hcellar (u : State) : (cellar u).kept = u.kept := by
    simp only [cellar]
    split
    · simp
    · exact hspare u
  split
  · split
    · next htake => simp [State.takeSlot_kept _ htake]
    · exact hcellar s
  split
  · exact hcellar s
  split
  · split
    · next htake => simp [State.takePool_kept _ htake]
    · exact hcellar s
  · simp [hcellar]

@[simp] theorem State.dmaOut_kept (p haddr : Nat) (data : List Byte) (cls : Nat) : (s.dmaOut p haddr data cls).kept = s.kept := by
  unfold State.dmaOut
  split
  · split
    · exact s.modPort_kept _ _ (fun _ => rfl)
    · rfl
  · rfl

@[simp] theorem State.dmaLine_kept (p haddr : Nat) (data : List Byte) (be : BitVec 64) (cls : Nat) :
    (s.dmaLine p haddr data be cls).kept = s.kept := foldl_kept (fun u _ => u.dmaOut_kept _ _ _ _) _ s

@[simp] theorem State.writeHost_kept (t i : Nat) (new : List Byte) (be : BitVec 64) (poison : Bool) (cls : Nat) :
    (s.writeHost t i new be poison cls).kept = s.kept := by
  unfold State.writeHost
  simp only []
  split
  · simp
  split
  · simp
  split
  · simp
  split
  · rfl
  · simp

/-- A write of a line of a tile into its home, whatever home it has and takes (R19, R45, R68, R79). -/
@[simp] theorem State.writeTile_kept (t i : Nat) (new : List Byte) (be : BitVec 64) (poison : Bool) (w : Traffic) (host : HostLines) :
    (s.writeTile t i new be poison w host).kept = s.kept := by
  unfold State.writeTile
  extract_lets a s' u s1 s2
  have hfound : u.kept = s.kept := by
    simp only [u, s']
    split <;> simp
  have hhomed : s1.kept = s.kept := by
    simp only [s1]
    split <;> simp [hfound]
  have hwritten : s2.kept = s.kept := by
    simp only [s2]
    split <;> simp [hhomed]
  exact hwritten

end

end Sys2Proof.Machine
end

section
/-! PROOFS. What follows a change of usage (R65, R77, R78, R80) leaves of the vat: its lines, its free slots, and the places of the tiles whose map entries are in service. -/

namespace Sys2Proof.Machine

/-! ### Tiles that are lost leave the others -/

/-- From s to t no line of the vat changed, no free slot was taken, and of the tier map only entries of the tiles listed. -/
structure State.Loses (l : List Nat) (s t : State) : Prop where
  vat : t.mem.vat = s.mem.vat
  poison : t.mem.vatPoison = s.mem.vatPoison
  free : ∀ y, s.useOf y = .free → t.useOf y = .free
  tmap : ∀ x, x ∉ l → t.tmap x = s.tmap x

section
variable {l : List Nat} {s t u : State}

theorem State.Loses.refl (l : List Nat) (s : State) : State.Loses l s s := ⟨rfl, rfl, fun _ h => h, fun _ _ => rfl⟩

theorem State.Loses.trans (h : State.Loses l s t) (k : State.Loses l t u) : State.Loses l s u where
  vat := k.vat.trans h.vat
  poison := k.poison.trans h.poison
  free y hy := k.free y (h.free y hy)
  tmap x hx := (k.tmap x hx).trans (h.tmap x hx)

/-- A step that leaves what the memories hold. -/
theorem State.loses_of_mem (h : t.mem = s.mem) : State.Loses l s t :=
  ⟨by rw [h], by rw [h], fun y hy => by rwa [State.useOf, h], fun x _ => by rw [State.tmap, h, State.tmap]⟩

theorem State.Looks.loses (h : s.Looks t) : State.Loses l s t where
  vat := h.heats.vat
  poison := h.heats.vatPoison
  free y hy := by rwa [State.useOf, show t.mem.slotUse = s.mem.slotUse from congrArg (fun v => v.mem.slotUse) h.frame]
  tmap x _ := h.tmap x

theorem foldl_loses {α} {f : State → α → State} (as : List α) (hf : ∀ (s : State), ∀ a ∈ as, State.Loses l s (f s a)) (s : State) :
    State.Loses l s (as.foldl f s) := by
  induction as generalizing s with
  | nil => exact .refl l s
  | cons a as ih => exact (hf s a (by simp)).trans (ih (fun u b hb => hf u b (by simp [hb])) _)

end

section
variable (l : List Nat) (s : State)

theorem State.putTmap_loses {t : Nat} (v : Nat) (ht : t ∈ l) : State.Loses l s (s.putTmap t v) := by
  have hlook : State.Loses l s (s.lookTile t background) := (s.lookTile_looks t background).loses
  refine ⟨hlook.vat, hlook.poison, hlook.free, fun x hx => ?_⟩
  rw [State.tmap_putTmap, if_neg (by rintro rfl; exact hx ht)]

theorem State.putCmap_loses (k v : Nat) : State.Loses l s (s.putCmap k v) := by
  have hlook : State.Loses l s (s.lookCask k background) := (s.lookCask_looks k background).loses
  exact ⟨hlook.vat, hlook.poison, hlook.free, hlook.tmap⟩

theorem State.freeSlot_loses (x : Nat) : State.Loses l s (s.freeSlot x) := by
  refine ⟨rfl, rfl, fun y hy => ?_, fun _ _ => rfl⟩
  simp only [State.useOf, State.freeSlot, State.setUse, sget_sset] at hy ⊢
  split
  · rfl
  · exact hy

theorem State.markSectors_loses (p x n : Nat) (b : Bool) : State.Loses l s (s.markSectors p x n b) := ⟨rfl, rfl, fun _ h => h, fun _ _ => rfl⟩

theorem State.freeDest_loses (m : Move) : State.Loses l s (s.freeDest m) := by
  unfold State.freeDest
  split
  · exact .refl l s
  · exact s.freeSlot_loses l _
  · exact foldl_loses _ (fun u p _ => u.markSectors_loses l _ _ _ _) s
  · exact .refl l s

theorem State.dropMove_loses {t : Nat} (ht : t ∈ l) : State.Loses l s (s.dropMove t) := by
  unfold State.dropMove
  split
  · exact .refl l s
  · exact ((s.freeDest_loses l _).trans (State.putTmap_loses l _ _ ht)).trans (State.loses_of_mem rfl)

/-- The slot of a tile that is lost and pinned was not free. -/
theorem State.unpinned_loses (t : Nat) : State.Loses l s (s.unpinned t) := by
  unfold State.unpinned
  split
  · next h =>
    obtain ⟨-, hpin⟩ := h
    refine ⟨rfl, rfl, fun y hy => ?_, fun _ _ => rfl⟩
    have hne : y ≠ s.loc t := by
      rintro rfl
      rw [hpin] at hy
      cases hy
    simp only [State.useOf, State.setUse, sget_sset] at hy ⊢
    rwa [if_neg hne]
  · exact .refl l s

theorem State.loseTile_loses {t : Nat} (ht : t ∈ l) : State.Loses l s (s.loseTile t) := by
  have hwindow (u : State) : State.Loses l u (u.windowKept t) := by
    unfold State.windowKept
    split
    · exact ⟨rfl, rfl, fun _ h => h, fun _ _ => rfl⟩
    · exact .refl l u
  have hcask (u : State) (k : Nat) : State.Loses l u (u.loseCask k) :=
    ((State.loses_of_mem (u.dropBuf_mem k)).trans (State.loses_of_mem (t := (u.dropBuf k).cacheDrop k) rfl)).trans (State.putCmap_loses l _ _ _)
  have hmove := ((s.unpinned_loses l t).trans (hwindow _)).trans (State.dropMove_loses l _ ht)
  rw [State.loseTile_eq]
  exact ((hmove.trans (foldl_loses _ (fun u c _ => hcask u _) _)).trans (State.putTmap_loses l _ _ ht)).trans
    (State.loses_of_mem (by rw [State.err_mem, State.setWord64_mem]))

end

/-! ### What settling usage leaves of the vat -/

/-- From s to t no line of the vat changed, no free slot was taken, and the tiles whose map entries are in service keep their places. -/
structure State.Upholds (s t : State) : Prop where
  vat : t.mem.vat = s.mem.vat
  poison : t.mem.vatPoison = s.mem.vatPoison
  free : ∀ y, s.useOf y = .free → t.useOf y = .free
  placed : ∀ k, s.placed k → t.placed k
  home : ∀ k, s.placed k → t.home (k / 4) = s.home (k / 4)
  loc : ∀ k, s.placed k → t.loc (k / 4) = s.loc (k / 4)

section
variable {s t u : State}

theorem State.Upholds.refl (s : State) : s.Upholds s := ⟨rfl, rfl, fun _ h => h, fun _ h => h, fun _ _ => rfl, fun _ _ => rfl⟩

theorem State.Upholds.trans (h : s.Upholds t) (k : t.Upholds u) : s.Upholds u where
  vat := k.vat.trans h.vat
  poison := k.poison.trans h.poison
  free y hy := k.free y (h.free y hy)
  placed c hc := k.placed c (h.placed c hc)
  home c hc := (k.home c (h.placed c hc)).trans (h.home c hc)
  loc c hc := (k.loc c (h.placed c hc)).trans (h.loc c hc)

theorem State.Upholds.vatLine (h : s.Upholds t) (slot line : Nat) : t.vatLine slot line = s.vatLine slot line := by
  simp only [State.vatLine, h.poison, h.vat]

theorem State.Upholds.place (h : s.Upholds t) {x : Nat} (hx : s.placed (4 * x)) : t.home x = s.home x ∧ t.loc x = s.loc x := by
  have hdiv : 4 * x / 4 = x := by omega
  exact ⟨by simpa only [hdiv] using h.home _ hx, by simpa only [hdiv] using h.loc _ hx⟩

theorem State.Heats.placed (h : s.Heats t) {k : Nat} (hs : s.placed k) : t.placed k := by
  simpa only [State.placed, h.lineOut, h.cmapPlace, State.tmapPlace] using hs

theorem State.Heats.upholds (h : s.Heats t) : s.Upholds t where
  vat := h.vat
  poison := h.vatPoison
  free y hy := by rwa [State.useOf, show t.mem.slotUse = s.mem.slotUse from congrArg (fun v => v.mem.slotUse) h.frame]
  placed _ hk := h.placed hk
  home k _ := h.home (k / 4)
  loc k _ := h.loc (k / 4)

/-- Signals that leave the size of the range. -/
theorem State.upholds_of_tends (h : s.Tends t) (hmem : t.mem = s.mem) : s.Upholds t where
  vat := by rw [hmem]
  poison := by rw [hmem]
  free y hy := by rwa [State.useOf, hmem]
  placed _ hk := h.placed hk
  home k _ := by rw [State.home, State.tmap, hmem]; rfl
  loc k _ := by rw [State.loc, State.tmap, hmem]; rfl

end

section
variable (s : State)

/-- Looking up a tile loses no tile whose map entries are in service (R50). -/
theorem State.findTile_upholds (t : Nat) (w : Traffic) : s.Upholds (s.findTile t w .none) := by
  have hlook := s.lookTile_looks t w
  unfold State.findTile
  extract_lets miss s1
  split
  · next hout =>
    obtain ⟨-, hout⟩ := (Bool.and_eq_true _ _).mp hout
    have hlost : State.Loses (s1.mapTiles (s1.tmapPlace t).1 (s1.tmapPlace t).2 (t % 8 / 2)) s (s1.mapOut (s1.tmapPlace t) (t % 8 / 2)) :=
      hlook.loses.trans (foldl_loses _ (fun u x hx => u.loseTile_loses _ hx) s1)
    have hkept (k : Nat) (hk : s.placed k) := hlost.tmap (k / 4) (s1.placed_not_lost hout (hlook.tends.placed hk))
    exact ⟨hlost.vat, hlost.poison, hlost.free, fun k hk => (hlook.tends.trans (State.mapOut_tends _ _ _)).placed hk,
      fun k hk => by rw [State.home, hkept k hk, State.home], fun k hk => by rw [State.loc, hkept k hk, State.loc]⟩
  · exact hlook.heats.upholds

/-- A move that is accepted leaves the tile where it is (R67). -/
theorem State.acceptMove_upholds (t : Nat) (kind : MoveKind) : s.Upholds (s.acceptMove t kind) := by
  have hfind := s.findTile_upholds t background
  have hset : s.Upholds (s.setMoving t true) := by
    unfold State.setMoving State.setTmap
    extract_lets u
    split
    · next htmap =>
      have hkeeps := u.keepsPlace_setBits (u.keepsPlace_tmap t) 3 1 (if true then 1 else 0) (by omega) (by omega)
      rw [htmap] at hkeeps
      exact hfind.trans (u.putTmap_heats hkeeps).upholds
    · exact hfind
  unfold State.acceptMove
  split
  · exact .refl s
  · exact hset.trans (State.upholds_of_tends (State.rck_tends _ _) rfl)

theorem State.Upkeep.upholds {s t : State} (h : s.Upkeep t) : s.Upholds t := by
  induction h with
  | refl => exact .refl s
  | field _ lo w v ih => exact ih.trans (State.upholds_of_tends (State.setField_tends _ _ _ _ _ _ (by decide)) rfl)
  | err _ bit ih => exact ih.trans (State.upholds_of_tends (State.err_tends _ _ _) (State.err_mem _ _ _))
  | count _ ih => exact ih.trans (State.upholds_of_tends (State.count_tends _ _ _ (by omega)) (State.count_mem _ _ _ _))
  | rck _ x ih => exact ih.trans (State.upholds_of_tends (State.rck_tends _ _) rfl)
  | draw _ ih => exact ih.trans (State.upholds_of_tends (State.draw_tends _) rfl)
  | accept _ tile kind ih => exact ih.trans (State.acceptMove_upholds _ _ _)

end

end Sys2Proof.Machine
end

section
/-! PROOFS. The folding of publications (R137): the lines of a draft tile written into its home one by one, and the publications taken from their list. -/

namespace Sys2Proof.Machine

/-! ### Lines of the vat -/

theorem bytes_store_self (m : Memory) (a : Nat) {l : List Byte} (hl : l.length = 64) : Memory.bytes (m.store a l) a 64 = l := by
  refine List.ext_getElem (by simp [Memory.bytes, hl]) (fun i hi _ => ?_)
  have hi : i < l.length := by simpa [Memory.bytes, hl] using hi
  simp [Memory.bytes, Memory.rd_store_inside l m a i hi, hi]

theorem bytes_store_apart (m : Memory) {a b : Nat} {l : List Byte} (h : b + 64 ≤ a ∨ a + l.length ≤ b) :
    Memory.bytes (m.store a l) b 64 = Memory.bytes m b 64 := by
  refine List.map_congr_left (fun i hi => Memory.rd_store_outside l m a (b + i) ?_)
  have := List.mem_range.1 hi
  omega

/-- A line as it is kept: 64 bytes, all of them zero where it is poisoned (R335). -/
def keptLine (v : List Byte × Bool) : Prop := v.1.length = 64 ∧ (v.2 = true → v.1 = List.replicate 64 0#8)

section
variable (s : State)

theorem State.vatLine_kept (slot line : Nat) : keptLine (s.vatLine slot line) := by
  unfold State.vatLine
  split
  · exact ⟨by simp, fun _ => rfl⟩
  · exact ⟨Memory.bytes_length _ _ _, by simp⟩

theorem State.vatLine_putVatLine_self (slot line : Nat) {v : List Byte × Bool} (hv : keptLine v) :
    (s.putVatLine slot line v).vatLine slot line = v := by
  obtain ⟨hlength, hzero⟩ := hv
  have htake : v.1.take 64 = v.1 := List.take_of_length_le (by omega)
  simp only [State.vatLine, State.putVatLine, sget_sset_self, htake]
  split
  · next hpoison => exact Prod.ext (hzero hpoison).symm hpoison.symm
  · next hclean => exact Prod.ext (bytes_store_self _ _ hlength) (by simpa using hclean)

theorem State.vatLine_putVatLine_apart {slot line x j : Nat} (v : List Byte × Bool) (hline : line < 256) (hj : j < 256) (h : x ≠ slot ∨ j ≠ line) :
    (s.putVatLine slot line v).vatLine x j = s.vatLine x j := by
  have hapart : 16384 * x + 64 * j + 64 ≤ 16384 * slot + 64 * line ∨ 16384 * slot + 64 * line + (v.1.take 64).length ≤ 16384 * x + 64 * j := by
    have : (v.1.take 64).length ≤ 64 := by simp
    omega
  simp only [State.vatLine, State.putVatLine, sget_sset_ne _ _ _ _ _ _ (show 256 * x + j ≠ 256 * slot + line by omega), bytes_store_apart _ hapart]

end

/-- A write of every byte leaves the line written (R79). -/
theorem writeOver_full (old : List Byte × Bool) {v : List Byte × Bool} (hv : keptLine v) : writeOver old v.1 fullBe v.2 = v := by
  obtain ⟨hlength, hzero⟩ := hv
  unfold writeOver
  split
  · next hpoison => exact Prod.ext (hzero hpoison).symm hpoison.symm
  · next hclean =>
    rw [if_pos rfl]
    refine Prod.ext (List.ext_getElem (by simp [mergeLine, hlength]) (fun i hi _ => ?_)) (by simpa using hclean)
    have hi : i < 64 := by simpa [mergeLine] using hi
    have hbe : fullBe.getLsbD i = true := by rw [fullBe, BitVec.getLsbD_allOnes, decide_eq_true hi]
    simp only [mergeLine, List.getElem_map, List.getElem_range, hbe, if_true]
    exact List.getD_eq_getElem _ _ (by omega)

/-! ### A line folded -/

section
variable (s : State)

/-- A line of a vat tile whose map entry is in service is written in place (R19, R68). -/
theorem State.writeTile_vat {t : Nat} (i : Nat) {v : List Byte × Bool} (w : Traffic) (hhome : s.home t = 1)
    (hin : s.lineOut (s.tmapPlace t).1 (s.tmapPlace t).2 = false) (hv : keptLine v) :
    s.writeTile t i v.1 fullBe v.2 w = (((s.lookTile t w).putVatLine (s.loc t) i v).dramVat (s.loc t) i true w).markMove t i := by
  have hlook := (s.lookTile_looks t w).heats
  have hhome' : (s.lookTile t w).home t = 1 := by rw [hlook.home, hhome]
  have hupset : upsetAt [] (16384 * t + 64 * i) isTileMap = .none := rfl
  simp [State.writeTile, hupset, s.findTile_inService t w hin, hhome', State.mergeVat, State.writeVat, writeOver_full _ hv, hlook.loc]

/-- One line of a draft tile goes to the tile's home (R137). -/
def State.foldLine (d : DraftTile) (u : State) (i : Nat) : State :=
  if d.mask.getLsbD i then
    let v := u.draftCell d.slot i
    (u.dramVat d.slot i false background).writeTile d.tile i v.1 fullBe v.2 background
  else u

theorem State.foldTile_eq (d : DraftTile) : s.foldTile d = ((List.range 256).foldl (State.foldLine d) s).count 0x011 5 := rfl

theorem State.draftCell_kept (slot i : Nat) : keptLine (s.draftCell slot i) := by
  unfold State.draftCell
  split
  · exact ⟨by simp, fun _ => rfl⟩
  · exact s.vatLine_kept slot i

end

/-- While the first n lines of a draft tile have been folded into its home, the tile and the channels are as at the start, and so are the draft's lines. -/
structure State.Folded (s : State) (d : DraftTile) (n : Nat) (t : State) : Prop where
  placed : ∀ k, s.placed k → t.placed k
  lineOut : ∀ slot line, t.lineOut slot line = s.lineOut slot line
  home : t.home d.tile = s.home d.tile
  loc : t.loc d.tile = s.loc d.tile
  draft : ∀ i, i < 256 → t.vatLine d.slot i = s.vatLine d.slot i
  lines : ∀ i, i < 256 → t.vatLine (s.loc d.tile) i = if i < n ∧ d.mask.getLsbD i = true then s.vatLine d.slot i else s.vatLine (s.loc d.tile) i

section
variable {s t : State} {d : DraftTile} {n : Nat}

theorem State.Folded.start (s : State) (d : DraftTile) : s.Folded d 0 s :=
  ⟨fun _ h => h, fun _ _ => rfl, rfl, rfl, fun _ _ => rfl, fun i _ => by simp⟩

/-- One more line. -/
theorem State.Folded.line (h : s.Folded d n t) (hn : n < 256) (hhome : s.home d.tile = 1) (hin : s.placed (4 * d.tile))
    (hapart : s.loc d.tile ≠ d.slot) (hslot : s.lineOut d.slot n = false) : s.Folded d (n + 1) (State.foldLine d t n) := by
  have hplaced := h.placed _ hin
  rw [State.placed, show 4 * d.tile / 4 = d.tile by omega] at hplaced
  have hcell : t.draftCell d.slot n = s.vatLine d.slot n := by rw [State.draftCell, h.lineOut, hslot]; exact h.draft n hn
  unfold State.foldLine
  split
  · next hmarked =>
    have hread := (t.dramVat_looks d.slot n false background).heats
    have hlook := hread.trans ((t.dramVat d.slot n false background).lookTile_looks d.tile background).heats
    have hwrite := (t.dramVat d.slot n false background).writeTile_vat n (v := t.draftCell d.slot n) background
      (by rw [hread.home, h.home, hhome]) (by rw [hread.lineOut]; exact hplaced.1) (t.draftCell_kept _ _)
    rw [hread.loc, h.loc, hcell] at hwrite
    simp only [hcell, hwrite]
    let x := (t.dramVat d.slot n false background).lookTile d.tile background
    let y := x.putVatLine (s.loc d.tile) n (s.vatLine d.slot n)
    have hdone : y.Heats ((y.dramVat (s.loc d.tile) n true background).markMove d.tile n) :=
      (y.dramVat_looks _ _ _ _).heats.trans ⟨rfl, State.sendsNoData_refl _, fun _ => rfl, fun _ => rfl, fun _ _ _ _ => rfl⟩
    refine ⟨fun k hk => hdone.placed (hlook.placed (h.placed k hk)), fun slot line => ?_, ?_, ?_, fun i hi => ?_, fun i hi => ?_⟩
    · exact (hdone.lineOut _ _).trans ((hlook.lineOut _ _).trans (h.lineOut _ _))
    · exact (hdone.home _).trans ((hlook.home _).trans h.home)
    · exact (hdone.loc _).trans ((hlook.loc _).trans h.loc)
    · rw [hdone.vatLine, x.vatLine_putVatLine_apart _ hn hi (.inl (Ne.symm hapart)), hlook.vatLine, h.draft i hi]
    · rw [hdone.vatLine]
      by_cases hin : i = n
      · subst hin
        rw [x.vatLine_putVatLine_self _ _ (s.vatLine_kept _ _), if_pos ⟨by omega, hmarked⟩]
      · rw [x.vatLine_putVatLine_apart _ hn hi (.inr hin), hlook.vatLine, h.lines i hi]
        simp only [show i < n + 1 ↔ i < n by omega]
  · next hbare =>
    refine ⟨h.placed, h.lineOut, h.home, h.loc, h.draft, fun i hi => ?_⟩
    rw [h.lines i hi]
    by_cases hin : i = n
    · subst hin
      simp [hbare]
    · simp only [show i < n + 1 ↔ i < n by omega]

theorem State.Folded.lines_range (hhome : s.home d.tile = 1) (hin : s.placed (4 * d.tile)) (hapart : s.loc d.tile ≠ d.slot)
    (hslot : ∀ i, i < 256 → s.lineOut d.slot i = false) : ∀ n, n ≤ 256 → s.Folded d n ((List.range n).foldl (State.foldLine d) s)
  | 0, _ => .start s d
  | n + 1, hn => by
    rw [List.range_succ, List.foldl_append]
    exact (State.Folded.lines_range hhome hin hapart hslot n (by omega)).line (by omega) hhome hin hapart (hslot n (by omega))

/-- A whole tile. -/
theorem State.Folded.tile (hhome : s.home d.tile = 1) (hin : s.placed (4 * d.tile)) (hapart : s.loc d.tile ≠ d.slot)
    (hslot : ∀ i, i < 256 → s.lineOut d.slot i = false) : s.Folded d 256 (s.foldTile d) := by
  have h := State.Folded.lines_range hhome hin hapart hslot 256 (Nat.le_refl _)
  generalize hx : (List.range 256).foldl (State.foldLine d) s = x at h
  rw [State.foldTile_eq, hx]
  have hcount := State.upholds_of_tends (x.count_tends 0x011 1 (i := 5) (by omega)) (x.count_mem _ _ _)
  have hmem : (x.count 0x011 5).mem = x.mem := x.count_mem _ _ _
  exact ⟨fun k hk => hcount.placed k (h.placed k hk), fun slot line => by rw [State.lineOut, hmem]; exact h.lineOut slot line,
    by rw [State.home, State.tmap, hmem]; exact h.home, by rw [State.loc, State.tmap, hmem]; exact h.loc,
    fun i hi => by rw [State.vatLine, hmem]; exact h.draft i hi, fun i hi => by rw [State.vatLine, hmem]; exact h.lines i hi⟩

end

/-! ### Publications folded -/

section
variable (s : State)

@[simp] theorem State.foldTile_kept (d : DraftTile) : (s.foldTile d).kept = s.kept := by
  rw [State.foldTile_eq, State.count_kept _ _ _ _ (by decide)]
  refine foldl_kept (fun u i => ?_) _ s
  unfold State.foldLine
  split <;> simp

@[simp] theorem State.freeDraftTiles_kept (l : List DraftTile) : (s.freeDraftTiles l).kept = s.kept :=
  foldl_kept (fun u (d : DraftTile) => u.freeSlot_kept d.slot) l s

/-- The oldest publication is folded (R137). -/
def State.foldOldest (p : Publication) (rest : List Publication) : State :=
  ((p.tiles.foldl State.foldTile { s with edn := { s.edn with pubs := rest } }).freeDraftTiles p.tiles).settleUsage

theorem State.foldOldest_kept (p : Publication) (rest : List Publication) :
    (s.foldOldest p rest).kept = { s.kept with edn := { s.edn with pubs := rest } } := by
  rw [State.foldOldest, State.settleUsage_kept, State.freeDraftTiles_kept, foldl_kept State.foldTile_kept]
  rfl

theorem foldThrough_cons (g : Nat) (p : Publication) (rest : List Publication) :
    foldThrough g (p :: rest) s = if p.region = g then s.foldOldest p rest else foldThrough g rest (s.foldOldest p rest) := rfl

/-- Folding up to the first publication of a region takes those before it and itself from the list. -/
theorem foldThrough_kept (g : Nat) (l : List Publication) (hl : ∃ p ∈ l, p.region = g) :
    (foldThrough g l s).kept = { s.kept with edn := { s.edn with pubs := (l.dropWhile (fun x => decide (x.region ≠ g))).tail } } := by
  induction l generalizing s with
  | nil => simp at hl
  | cons p rest ih =>
    rw [foldThrough_cons]
    have hkept := s.foldOldest_kept p rest
    split
    · next hp => simp [hkept, hp]
    · next hp =>
      have hrest : ∃ q ∈ rest, q.region = g := by
        obtain ⟨q, hq, hg⟩ := hl
        rcases List.mem_cons.1 hq with rfl | hq
        · exact absurd hg hp
        · exact ⟨q, hq, hg⟩
      have hedn : (s.foldOldest p rest).edn = { s.edn with pubs := rest } := congrArg Kept.edn hkept
      rw [ih _ hrest, hkept, hedn]
      simp [hp]

theorem State.calm_of_kept {s t : State} (hdir : t.dir = s.dir) (hpending : t.draftPending = s.draftPending) (h : s.calm) : t.calm := by
  obtain ⟨hwaiting, hanswers, hdrafts⟩ := h
  exact ⟨by rw [hdir, hwaiting], by rwa [hdir], fun p => by rw [hpending, hdrafts]⟩

theorem exec_publicationFold_none (region : Fin 4096) (h : ∀ p ∈ s.edn.pubs, p.region ≠ region.val) :
    exec (.publicationFold region) s = .next s := by
  have hnone : s.edn.pubs.any (fun p => decide (p.region = region.val)) = false := by simpa using h
  have hexec : execPublicationFold region s = .next s := by rw [execPublicationFold, hnone]; rfl
  exact hexec

/-- With nothing waiting, a fold ends when the publications have been folded. -/
theorem exec_publicationFold_some {region : Fin 4096} (hcalm : s.calm) (h : ∃ p ∈ s.edn.pubs, p.region = region.val) :
    exec (.publicationFold region) s = .next (foldThrough region.val s.edn.pubs s) := by
  have hsome : s.edn.pubs.any (fun p => decide (p.region = region.val)) = true := by simpa using h
  have hkept := foldThrough_kept s region.val s.edn.pubs h
  have hsettled : (foldThrough region.val s.edn.pubs s).settle = foldThrough region.val s.edn.pubs s :=
    State.settle_calm (State.calm_of_kept (congrArg (fun k => k.told.dir) hkept) (congrArg Kept.pending hkept) hcalm)
  have hexec : execPublicationFold region s = .next (foldThrough region.val s.edn.pubs s).settle := by rw [execPublicationFold, hsome]; rfl
  exact hexec.trans (by rw [hsettled])

/-- A publication of one tile, at home in the vat, is folded: its marked lines are the home's, its slot is free (R137). -/
theorem State.foldOldest_tile {p : Publication} (rest : List Publication) {d : DraftTile} (hp : p.tiles = [d]) (hhome : s.home d.tile = 1)
    (hin : s.placed (4 * d.tile)) (hapart : s.loc d.tile ≠ d.slot) (hslot : ∀ i, i < 256 → s.lineOut d.slot i = false) :
    (s.foldOldest p rest).useOf d.slot = .free ∧ (s.foldOldest p rest).home d.tile = 1 ∧ (s.foldOldest p rest).loc d.tile = s.loc d.tile
      ∧ ∀ i, i < 256 → (s.foldOldest p rest).vatLine (s.loc d.tile) i
          = if d.mask.getLsbD i then s.vatLine d.slot i else s.vatLine (s.loc d.tile) i := by
  have hfolded : State.Folded { s with edn := { s.edn with pubs := rest } } d 256 (State.foldTile { s with edn := { s.edn with pubs := rest } } d) :=
    State.Folded.tile hhome hin hapart hslot
  generalize hx : State.foldTile { s with edn := { s.edn with pubs := rest } } d = x at hfolded
  have hfold : s.foldOldest p rest = (x.freeSlot d.slot).settleUsage := by rw [State.foldOldest, hp, ← hx]; rfl
  have hsettled := (x.freeSlot d.slot).settleUsage_upkeep.upholds
  obtain ⟨hhome', hloc'⟩ := hsettled.place (hfolded.placed _ hin)
  have hfree : (x.freeSlot d.slot).useOf d.slot = .free := by simp [State.useOf, State.freeSlot, State.setUse]
  rw [hfold]
  refine ⟨hsettled.free _ hfree, hhome'.trans (hfolded.home.trans hhome), hloc'.trans hfolded.loc, fun i hi => ?_⟩
  rw [hsettled.vatLine]
  refine (hfolded.lines i hi).trans ?_
  simp only [hi, true_and]
  rfl

end

/-- Settles O31: each publication's fold leaves the directory, the drafts and the other publications (foldOldest_kept); what a fold of one tile writes follows line by line (Folded), and settling usage afterwards moves no tile whose map entries are in service (Upholds). -/
theorem publicationsAreFolded : Obligations.PublicationsAreFolded := by
  unfold Obligations.PublicationsAreFolded
  intro s region
  refine ⟨exec_publicationFold_none s region, fun hcalm hsome => ?_, fun p rest d hpubs hregion htiles hhome hapart hin hcalm => ?_⟩
  · have hkept := foldThrough_kept s region.val s.edn.pubs hsome
    exact ⟨_, exec_publicationFold_some s hcalm hsome, congrArg (fun k => k.edn.pubs) hkept, congrArg (fun k => k.edn.drafts) hkept⟩
  · have hsome : ∃ q ∈ s.edn.pubs, q.region = region.val := ⟨p, by rw [hpubs]; exact List.mem_cons_self, hregion⟩
    have hplaced : s.placed (4 * d.tile) :=
      State.placed_of_inService (by rw [show 4096 * (4 * d.tile) = 16384 * d.tile + 64 * 0 by omega]; exact (hin 0 (by omega)).1)
    have hfold : foldThrough region.val s.edn.pubs s = s.foldOldest p rest := by rw [hpubs, foldThrough_cons, if_pos hregion]
    have hexec := exec_publicationFold_some s hcalm hsome
    rw [hfold] at hexec
    exact ⟨_, hexec, congrArg (fun k => k.edn.pubs) (s.foldOldest_kept p rest),
      s.foldOldest_tile rest htiles hhome hplaced hapart (fun i hi => (hin i hi).2)⟩

end Sys2Proof.Machine
end

section
/-! PROOFS. What the loss of a port (R123, R139, R224, R246) leaves of the directory's requests and snoops, and of the record of containment of each port. -/

namespace Sys2Proof.Machine

/-! ### Signals, entries and queues -/

/-- What the settling of a line keeps as well (R124): the requests that wait, the snoops in flight, and the records of containment. -/
structure Asked where
  waiting : List (WaitWhy × MemReq)
  snoops : List Snoop
  cause : Port → Nat

def Told.asked (k : Told) : Asked := ⟨k.dir.waiting, k.dir.snoops, k.cause⟩

theorem foldl_told {α} {f : State → α → State} (hf : ∀ (s : State) (a : α), (f s a).kept.told = s.kept.told) (l : List α) (s : State) :
    (l.foldl f s).kept.told = s.kept.told := by
  induction l generalizing s with
  | nil => rfl
  | cons a l ih => exact (ih _).trans (hf s a)

theorem foldl_asked {α} {f : State → α → State} (hf : ∀ (s : State) (a : α), (f s a).kept.told.asked = s.kept.told.asked) (l : List α)
    (s : State) : (l.foldl f s).kept.told.asked = s.kept.told.asked := by
  induction l generalizing s with
  | nil => rfl
  | cons a l ih => exact (ih _).trans (hf s a)

section
variable (s : State)

@[simp] theorem State.told_edn (x : EdnState) : ({ s with edn := x } : State).kept.told = s.kept.told := rfl
@[simp] theorem State.kept_qmg (x : QmgState) : ({ s with qmg := x } : State).kept = s.kept := rfl
@[simp] theorem State.kept_svc (x : SvcState) : ({ s with svc := x } : State).kept = s.kept := rfl

@[simp] theorem State.modPort_told (p : Port) (f : PortState → PortState) : (s.modPort p f).kept.told = s.kept.told := rfl

@[simp] theorem State.aer_told (p : Port) (bit : Nat) : (s.aer p bit).kept.told = s.kept.told := rfl

@[simp] theorem State.quarantineAll_told (p : Port) : (s.quarantineAll p).kept.told = s.kept.told := rfl

@[simp] theorem State.errCount_kept (page bit i : Nat) (h : (0x028 + 4 * i) % 4096 ≠ 0x108) : (s.errCount page bit i).kept = s.kept := by
  simp [State.errCount, h]

@[simp] theorem State.modQueue_kept (q : Nat) (f : Queue → Queue) : (s.modQueue q f).kept = s.kept := rfl

@[simp] theorem State.modEntry_kept (q seq : Nat) (f : Entry → Entry) : (s.modEntry q seq f).kept = s.kept := rfl

@[simp] theorem State.endEntry_kept (q seq status v0 v1 v2 : Nat) : (s.endEntry q seq status v0 v1 v2).kept = s.kept := rfl

@[simp] theorem State.setGroup_kept (g : Nat) (x : Group) : (s.setGroup g x).kept = s.kept := rfl

@[simp] theorem State.restartTimers_kept (t : Nat) : (s.restartTimers t).kept = s.kept := rfl

/-- Signals leave everything but the register words they write. -/
theorem State.told_of_quiet {s t : State} (h : t.quiet = s.quiet) (hcause : t.cause = s.cause) : t.kept.told = s.kept.told := by
  have hdir : t.dir = s.dir := (congrArg State.dir h :)
  rw [State.kept, hdir, hcause, State.kept]

@[simp] theorem State.raise_told (n : Nat) : (s.raise n).kept.told = s.kept.told := by
  refine State.told_of_quiet (s.raise_quiet n) (funext fun p => ?_)
  have := p.isLt
  exact s.word_raise _ _ _ (by simp only [prtPage]; omega) (by decide)

/-- The pending words of a message's vectors begin at 0x180 of their page, and end within it. -/
theorem State.sendMsix_told (p : Port) {v : Nat} (hv : v < 4096) : (s.sendMsix p v).kept.told = s.kept.told := by
  unfold State.sendMsix
  split
  · split
    · rfl
    · rfl
  · refine State.told_of_quiet (by simp) (funext fun q => ?_)
    rw [State.cause, State.word_intxLevel]
    exact s.word_setWord_ne _ _ _ _ _ (by simp only [prtPage]; omega)

@[simp] theorem State.signal_told (q : Nat) : (s.signal q).kept.told = s.kept.told := by
  unfold State.signal
  simp only []
  split
  · split
    · exact State.sendMsix_told _ _ (bits_lt _ 10 12)
    · simp
    · simp
  · simp

@[simp] theorem State.haltQueue_told (q status : Nat) : (s.haltQueue q status).kept.told = s.kept.told := by
  unfold State.haltQueue
  split
  · simp
  · rfl

@[simp] theorem State.pendingHalt_told (q : Nat) : (s.pendingHalt q).kept.told = s.kept.told := by
  unfold State.pendingHalt
  split
  · split
    · simp
    · rfl
  · rfl

@[simp] theorem State.containQueue_told (q : Nat) : (s.containQueue q).kept.told = s.kept.told := by
  unfold State.containQueue
  split
  · simp
  · rfl

/-! ### Answers and drafts -/

@[simp] theorem State.respondCmp_kept (r : MemReq) (granted : MetaValue) : (s.respondCmp r granted).kept = s.kept := by
  unfold State.respondCmp
  split <;> rfl

@[simp] theorem State.respondRead_kept (r : MemReq) (data : List Byte) (poison : Bool) : (s.respondRead r data poison).kept = s.kept := by
  unfold State.respondRead
  split
  · rfl
  · simp only [State.emit_kept]
    split <;> split <;> simp

@[simp] theorem State.viewMerged_kept (g w t i : Nat) (be : BitVec 64) (poison : Bool) (upset : Upset) :
    (s.viewMerged g w t i be poison upset).2.kept = s.kept := by
  unfold State.viewMerged
  split
  · rfl
  · split
    · rfl
    · exact State.readVatEcc_kept _ _ _ _ _ _

@[simp] theorem State.putDraft_told (d : Draft) : (s.putDraft d).kept.told = s.kept.told := rfl

@[simp] theorem State.breakDraft_told (d : Draft) : (s.breakDraft d).kept.told = s.kept.told := by simp [State.breakDraft]

@[simp] theorem State.writeDraft_told (g w t i : Nat) (old : List Byte × Bool) (new : List Byte) (be : BitVec 64) (poison : Bool) (by' : Traffic)
    (upset : Upset) : (s.writeDraft g w t i old new be poison by' upset).2.kept.told = s.kept.told := by
  unfold State.writeDraft
  extract_lets d put
  have hput (u : State) (e : DraftTile) : (put u e).kept.told = u.kept.told := by
    simp only [put, State.dramVat_kept, State.putVatLine_kept, State.putDraft_told, State.viewMerged_kept]
  split
  · rfl
  split
  · exact hput _ _
  split
  · exact s.breakDraft_told _
  split
  · next htake => simp only [State.settleUsage_kept, hput, s.takePool_kept htake]
  · exact s.breakDraft_told _

@[simp] theorem State.endDraftWrite_told (r : MemReq) (old : List Byte × Bool) (upset : Upset) :
    (s.endDraftWrite r old upset).kept.told = s.kept.told := by
  unfold State.endDraftWrite
  split
  · split <;> simp
  · simp

@[simp] theorem State.endDemand_told (r : MemReq) (data : List Byte) (poison : Bool) : (s.endDemand r data poison).kept.told = s.kept.told := by
  unfold State.endDemand
  split <;> simp

@[simp] theorem State.discardDraft_told (g w : Nat) : (s.discardDraft g w).kept.told = s.kept.told := by
  unfold State.discardDraft
  split
  · rfl
  · rw [State.settleUsage_kept]
    exact (State.told_edn _ _).trans (congrArg Kept.told (s.freeDraftTiles_kept _))

/-! ### Moves that end -/

@[simp] theorem State.writeHeat_kept (t h : Nat) : (s.writeHeat t h).kept = s.kept := s.setTmap_kept t _

@[simp] theorem State.awaitMove_kept (t : Nat) : (s.awaitMove t).kept = s.kept := by
  unfold State.awaitMove
  split <;> simp

@[simp] theorem State.promoteIfDue_kept (t : Nat) : (s.promoteIfDue t).kept = s.kept := by
  unfold State.promoteIfDue
  split
  · split
    · simp
    · split <;> simp
  · rfl

@[simp] theorem State.promoteAgain_kept (t : Nat) : (s.promoteAgain t).kept = s.kept := by
  unfold State.promoteAgain
  split
  · simp only []
    split
    · split <;> simp
    · simp
  · rfl

@[simp] theorem State.afterMove_kept (t : Nat) : (s.afterMove t).kept = s.kept := by
  rw [State.afterMove, State.promoteAgain_kept, foldl_kept (fun u c => u.settleCask_kept _ _), State.zeroTest_kept]

theorem State.abandonMove_kept (t page evt : Nat) (atDeadline : Bool) (h : (0x028 + 4 * evt) % 4096 ≠ 0x108) :
    (s.abandonMove t page evt atDeadline).kept = s.kept := by
  unfold State.abandonMove
  split
  · rfl
  · simp [apply_ite State.kept, h]

@[simp] theorem State.abandonWhere_kept (p : Move → Bool) : (s.abandonWhere p).kept = s.kept :=
  foldl_kept (fun u _ => u.abandonMove_kept _ _ _ _ (by decide)) _ s

/-! ### The loss of a port -/

@[simp] theorem State.dropHeld_kept (p : Port) : (s.dropHeld p).kept = s.kept := by
  refine (foldl_kept (fun u h => foldl_kept (fun v t => ?_) _ u) _ _).trans (s.modPort_kept _ _ (fun _ => rfl))
  split <;> simp

@[simp] theorem State.windowOff_kept (p : Port) : (s.windowOff p).kept = s.kept := by
  have hoff : (0x14C + 0x10 * p.val) % 4096 ≠ 0x108 := by omega
  unfold State.windowOff
  split
  · simp [hoff]
  · rfl

@[simp] theorem State.loseDrafts_told (p : Port) : (s.loseDrafts p).kept.told = s.kept.told := by
  unfold State.loseDrafts
  simp only []
  split
  · rfl
  · rw [State.err_kept, foldl_told (fun u d => u.discardDraft_told _ _)]

@[simp] theorem State.endCall_kept (q seq result value : Nat) : (s.endCall q seq result value).kept = s.kept := rfl

@[simp] theorem State.contributeTo_kept (g : Nat) (c : Contribution) : (s.contributeTo g c).kept = s.kept := by
  unfold State.contributeTo
  split <;> rfl

@[simp] theorem State.endRound_kept (g result : Nat) : (s.endRound g result).kept = s.kept := by
  have hdrain (u : State) : (u.drainLater g).kept = u.kept := foldl_kept (fun v c => v.contributeTo_kept _ _) _ _
  rw [State.endRound, hdrain, foldl_kept (fun u c => u.endCall_kept _ _ _ _), State.setGroup_kept]

@[simp] theorem State.loseMember_kept (p : Nat) : (s.loseMember p).kept = s.kept := foldl_kept (fun u _ => u.endRound_kept _ _) _ s

@[simp] theorem State.failRead_told (c : Consumer) (status : Nat) : (s.failRead c status).kept.told = s.kept.told := by
  unfold State.failRead
  split
  · split <;> simp
  · rw [State.abandonMove_kept _ _ _ _ _ (by decide)]
  · rfl
  · split <;> simp
  · rfl

@[simp] theorem State.loseFetch_told (p : Port) : (s.loseFetch p).kept.told = s.kept.told := by
  unfold State.loseFetch
  split
  · split <;> rfl
  · rfl

@[simp] theorem State.loseReads_told (p : Port) : (s.loseReads p).kept.told = s.kept.told := by
  rw [State.loseReads, State.loseFetch_told, foldl_told (fun u t => u.failRead_told _ _), State.quarantineAll_told]

/-! ### Lines that are settled -/

@[simp] theorem State.setDir_asked (line : Nat) (e : DirEntry) : (s.setDir line e).kept.told.asked = s.kept.told.asked := by
  unfold State.setDir
  split
  · rfl
  · split <;> rfl

@[simp] theorem State.poisonLine_kept (line : Nat) (w : Traffic) : (s.poisonLine line w).kept = s.kept := by
  unfold State.poisonLine
  extract_lets t i s1 u
  have hfound : u.kept = s.kept := by
    simp only [u, s1]
    split <;> simp
  split
  · exact hfound
  split
  · simp [hfound]
  · simp [hfound]

@[simp] theorem State.logLost_asked (line p cause : Nat) : (s.logLost line p cause).kept.told.asked = s.kept.told.asked := by
  have hcount : ((s.count 0x010 2).err 0x010 8).kept = s.kept := by simp
  unfold State.logLost
  simp only []
  split
  · exact congrArg (fun k => k.told.asked) hcount
  · rw [State.err_kept, State.count_kept _ _ _ _ (by decide)]
    exact congrArg (fun k => k.told.asked) hcount

@[simp] theorem State.settleHolder_asked (line p cause : Nat) (w : Traffic) : (s.settleHolder line p cause w).kept.told.asked = s.kept.told.asked := by
  unfold State.settleHolder
  simp only []
  split
  · simp
  split
  · simp
  · rfl

@[simp] theorem State.settlePort_asked (p cause : Nat) : (s.settlePort p cause).kept.told.asked = s.kept.told.asked :=
  foldl_asked (fun u _ => u.settleHolder_asked _ _ _ _) _ s

end

end Sys2Proof.Machine
end

section
/-! PROOFS. What work of the queues, the completions and the cooper's entries (R118, R260, R273) leaves of the record of containment of each port. -/

namespace Sys2Proof.Machine

theorem foldl_cause {α} {f : State → α → State} (hf : ∀ (s : State) (a : α), (f s a).kept.told.asked.cause = s.kept.told.asked.cause)
    (l : List α) (s : State) : (l.foldl f s).kept.told.asked.cause = s.kept.told.asked.cause := by
  induction l generalizing s with
  | nil => rfl
  | cons a l ih => exact (ih _).trans (hf s a)

/-- The same, for a state carried along with other data. -/
theorem foldl_carried_cause {α β} (g : α → State) {f : α → β → α}
    (hf : ∀ (a : α) (b : β), (g (f a b)).kept.told.asked.cause = (g a).kept.told.asked.cause) (l : List β) (a : α) :
    (g (l.foldl f a)).kept.told.asked.cause = (g a).kept.told.asked.cause := by
  induction l generalizing a with
  | nil => rfl
  | cons b l ih => exact (ih _).trans (hf a b)

section
variable (s : State)

/-! ### Queue work meets lines -/

@[simp] theorem State.cause_dir (x : DirState) : ({ s with dir := x } : State).kept.told.asked.cause = s.kept.told.asked.cause := rfl

@[simp] theorem State.takePlace_cause (line : Nat) (write : Bool) (k : Worker) :
    (s.takePlace line write k).kept.told.asked.cause = s.kept.told.asked.cause := by
  unfold State.takePlace
  extract_lets why l op mine before
  split <;> rfl

@[simp] theorem State.settleWalkers_asked (line : Nat) (w : Traffic) : (s.settleWalkers line w).kept.told.asked = s.kept.told.asked :=
  foldl_asked (fun u _ => u.settleHolder_asked _ _ _ _) _ s

@[simp] theorem State.snoop_cause (q line kind : Nat) (w : Traffic) : (s.snoop q line kind w).kept.told.asked.cause = s.kept.told.asked.cause := by
  unfold State.snoop
  split
  · simp
  split
  · rfl
  split
  · simp
  · simp

@[simp] theorem State.engHold_cause (k : Worker) (line : Nat) (write : Bool) :
    (s.engHold k line write).2.kept.told.asked.cause = s.kept.told.asked.cause := by
  unfold State.engHold
  split
  · rfl
  split
  · simp
  split
  · rfl
  extract_lets w s1
  have hs1 : s1.kept.told.asked.cause = s.kept.told.asked.cause := by simp [s1]
  split
  extract_lets s2
  have hs2 : s2.kept.told.asked.cause = s.kept.told.asked.cause := (foldl_cause (fun u _ => u.snoop_cause _ _ _ _) _ _).trans hs1
  split
  · simp [hs2]
  · exact hs2

@[simp] theorem State.goOn_cause (k : Worker) : (s.goOn k).kept.told.asked.cause = s.kept.told.asked.cause := rfl

@[simp] theorem State.engHoldRun_cause (k : Worker) (a n : Nat) (write : Bool) :
    (s.engHoldRun k a n write).2.kept.told.asked.cause = s.kept.told.asked.cause := by
  unfold State.engHoldRun State.engHoldAll State.holdLines
  simp only []
  split
  · refine foldl_carried_cause Prod.snd (fun a l => ?_) _ (false, s)
    exact a.2.engHold_cause k l.1 l.2
  · rw [State.goOn_cause]
    refine foldl_carried_cause Prod.snd (fun a l => ?_) _ (false, s)
    exact a.2.engHold_cause k l.1 l.2

/-! ### Reads of host memory and of tiles -/

@[simp] theorem State.until_cause (due : Nat) : (s.until due).kept.told = s.kept.told := rfl

@[simp] theorem State.freeTag_told (p : Port) (tag : Nat) : (s.freeTag p tag).kept.told = s.kept.told := rfl

@[simp] theorem State.tagWithin_told (p : Port) : (s.tagWithin p).kept.told = s.kept.told := by
  unfold State.tagWithin
  split
  · rfl
  · split <;> rfl

theorem State.issueRead_told {p : Port} {haddr bytes cls : Nat} {c : Consumer} {timer : Port} {u : State}
    (h : s.issueRead p haddr bytes cls c timer = some u) : u.kept.told = s.kept.told := by
  unfold State.issueRead at h
  split at h
  · cases h
  · cases h
    rfl

@[simp] theorem State.readTimedOut_told (p : Port) (tag : Nat) : (s.readTimedOut p tag).kept.told = s.kept.told := by
  have herror : ((s.aer p 2).errCount 0x0B0 11 2).kept.told = s.kept.told := by simp
  exact herror

@[simp] theorem State.readWithin_told (p : Port) (haddr bytes cls : Nat) (answered : Bool) (timer : Port) :
    (s.readWithin p haddr bytes cls answered timer).2.kept.told = s.kept.told := by
  unfold State.readWithin
  split
  · rfl
  next u hissue =>
  have hu : u.kept.told = s.kept.told := (State.issueRead_told _ hissue).trans (s.tagWithin_told p)
  split
  · exact hu
  split
  · exact hu
  · exact (State.readTimedOut_told _ _ _).trans hu

@[simp] theorem State.readHost_told (t i : Nat) (host : HostLines) (w : Traffic) : (s.readHost t i host w).2.2.kept.told = s.kept.told := by
  unfold State.readHost
  extract_lets zero
  split
  · rfl
  next p _ =>
  extract_lets ask
  have hask (b : Bool) : (ask b).2.kept.told = s.kept.told := by
    simp only [ask]
    split
    · simp
    · rfl
  split
  · rfl
  split
  · have hanswered := hask true
    split
    · next u hread =>
      rw [hread] at hanswered
      split
      · simp [hanswered]
      · exact hanswered
    · next u hread =>
      rw [hread] at hanswered
      simp [hanswered]
  · simp [hask]

@[simp] theorem State.caskLine_kept (k i : Nat) (w : Traffic) (host : HostLines) : (s.caskLine k i w host).2.2.kept = s.kept := by
  unfold State.caskLine
  split
  · split
    · rfl
    · simp
  · simp

@[simp] theorem State.readTileEcc_told (t i : Nat) (host : HostLines) (w : Traffic) : (s.readTileEcc t i host w).2.2.2.kept.told = s.kept.told := by
  unfold State.readTileEcc
  extract_lets a u v
  have hu : u.kept = s.kept := by simp [u]
  have hv : v.kept = s.kept := by simp [v, hu]
  split
  · rw [hu]
  · simp [hu]
  · split
    · simp [hv]
    · rw [hv]
  · split
    · simp [hv]
    · rw [hv]
  · rw [hu]

/-! ### Writes of queue work -/

@[simp] theorem State.recordRefusal_kept (actor : Actor) (write : Bool) (a reason : Nat) : (s.recordRefusal actor write a reason).kept = s.kept := by
  unfold State.recordRefusal
  simp only []
  split <;> simp

@[simp] theorem State.heatAccess_kept (t inc : Nat) : (s.heatAccess t inc).kept = s.kept := by
  unfold State.heatAccess
  split
  · simp
  · rfl

@[simp] theorem State.engWrite_told (actor cls a at' : Nat) (new : List Byte) (be : BitVec 64) (poison : Bool) (host : HostLines) (heat : Bool) :
    (s.engWrite actor cls a at' new be poison host heat).2.kept.told = s.kept.told := by
  unfold State.engWrite
  split
  · rfl
  split
  · simp
  extract_lets t i w counts s2
  have hs2 : s2.kept = s.kept := by simp [s2]
  split
  · rfl
  split
  · split
    next old s1 hread =>
    have hs1 : s1.kept.told = s.kept.told := by
      split at hread
      · cases hread
        exact s.readTileEcc_told t i host w
      · cases hread
        rfl
    simp [hs1]
  · split
    · simp [hs2]
    · rw [hs2]

@[simp] theorem State.engPut_told (actor cls a : Nat) (l : List Byte) (host : HostLines) (heat : Bool) :
    (s.engPut actor cls a l host heat).2.kept.told = s.kept.told := by
  have hstore (fuel : Nat) : ∀ (u : State) (a : Nat) (l : List Byte), (u.engStore actor cls host heat fuel a l).2.kept.told = u.kept.told := by
    induction fuel with
    | zero => exact fun u a l => rfl
    | succ fuel ih =>
      intro u a l
      unfold State.engStore
      split
      · rfl
      · simp [ih]
  exact hstore _ _ _ _

@[simp] theorem State.hostFor_kept (actor a : Nat) (be : BitVec 64) : (s.hostFor actor a be).2.kept = s.kept := by
  unfold State.hostFor
  split
  · split <;> rfl
  · rfl

/-! ### Completions and entries -/

@[simp] theorem State.countSignal_told (q status : Nat) (noInt : Bool) : (s.countSignal q status noInt).kept.told = s.kept.told := by
  unfold State.countSignal
  simp only []
  split
  · rfl
  split
  · simp
  split
  · rfl
  split <;> simp

/-- The bytes `l` of a completion entry are written at the address `a` of a queue's ring, or not (R265, R277, R118). -/
def State.placeEntry (k : Queue) (q a : Nat) (l : List Byte) : Bool × State :=
  if k.cqHost then
    (match k.port with | some p => (true, s.emit (.dmaWrite p.val a l false k.cls)) | none => (true, s))
  else
    let (wait, s1) := s.engHoldRun ⟨k.actor, k.cls, none, q⟩ a 32 true
    if wait then (false, s1)
    else
      let (host, s2) := s1.hostFor k.actor a (beOf (a % 64) 32)
      let (refused, s2) := s2.engPut k.actor k.cls a l host true
      if refused then (false, (s2.haltQueue q 1).modQueue q (fun k => { k with refusedCpl := true })) else (true, s2)

theorem State.placeEntry_cause (k : Queue) (q a : Nat) (l : List Byte) : (s.placeEntry k q a l).2.kept.told.asked.cause = s.kept.told.asked.cause := by
  unfold State.placeEntry
  split
  · split
    · exact congrArg (fun k : Kept => k.told.asked.cause) (s.emit_kept _)
    · rfl
  have hheld := s.engHoldRun_cause ⟨k.actor, k.cls, none, q⟩ a 32 true
  split
  next wait u hmade =>
  rw [hmade] at hheld
  split
  · exact hheld
  have hhost := congrArg (fun k : Kept => k.told.asked.cause) (u.hostFor_kept k.actor a (beOf (a % 64) 32))
  split
  next host v hhostMade =>
  rw [hhostMade] at hhost
  have hput := congrArg (fun k : Told => k.asked.cause) (v.engPut_told k.actor k.cls a l host true)
  split
  next refused w hputMade =>
  rw [hputMade] at hput
  have hw : w.kept.told.asked.cause = s.kept.told.asked.cause := hput.trans (hhost.trans hheld)
  split
  · simp [hw]
  · exact hw

theorem State.writeCpl_cause (q : Nat) (c : Cpl) : (s.writeCpl q c).2.kept.told.asked.cause = s.kept.told.asked.cause := by
  unfold State.writeCpl
  extract_lets k a bytes wrote
  have hwrote : wrote.2.kept.told.asked.cause = s.kept.told.asked.cause := s.placeEntry_cause k q a bytes
  clear_value wrote
  obtain ⟨written, u⟩ := wrote
  cases written with
  | false => exact hwrote
  | true => simp [hwrote]

@[simp] theorem State.flushHeld_cause (q : Nat) : (s.flushHeld q).kept.told.asked.cause = s.kept.told.asked.cause := by
  refine foldl_cause (fun u c => ?_) _ s
  split
  · rfl
  split
  · have hwritten := u.writeCpl_cause q c
    split
    · next hmade =>
      rw [hmade] at hwritten
      exact hwritten
    · next hmade =>
      rw [hmade] at hwritten
      exact hwritten
  · rfl

@[simp] theorem State.submit_cause (cmd : Option Instr) (q : Nat) (entry : Nat → List Byte) :
    (s.submit cmd q entry).2.kept.told.asked.cause = s.kept.told.asked.cause := by
  unfold State.submit
  simp only []
  split
  · simp
  · split <;> simp

@[simp] theorem State.pickQueue_kept (l : List Nat) : (s.pickQueue l).2.kept = s.kept := by
  unfold State.pickQueue
  simp only []
  split <;> rfl

@[simp] theorem State.cooperEntries_cause : s.cooperEntries.kept.told.asked.cause = s.kept.told.asked.cause := by
  refine foldl_cause (fun u _ => ?_) _ s
  extract_lets l less
  have hless (v : State) : (less v).kept = v.kept := rfl
  split
  next pick v hpicked =>
  have hv : v.kept = u.kept := by
    split at hpicked
    · split at hpicked
      · cases hpicked
        rfl
      · have := u.pickQueue_kept l
        rwa [hpicked] at this
    · have := u.pickQueue_kept l
      rwa [hpicked] at this
  split
  · rw [hless]
  split
  · rw [hv]
  · have hsubmit := v.submit_cause none ‹_› nopEntry
    split
    · next hmade =>
      rw [hmade, hv] at hsubmit
      exact hsubmit
    · next hmade =>
      rw [hmade, hv] at hsubmit
      exact hsubmit

@[simp] theorem State.flushCompletions_cause : s.flushCompletions.kept.told.asked.cause = s.kept.told.asked.cause :=
  (foldl_cause (fun u q => u.flushHeld_cause q) _ _).trans s.cooperEntries_cause

end

end Sys2Proof.Machine
end

section
/-! PROOFS. Signals (R245, R252, R294 to R296, R403) send after what has been sent before. -/

namespace Sys2Proof.Machine

section
variable {s : State} {l : List Out}

@[simp] theorem State.count_out (page i n : Nat) : (s.count page i n).out = s.out := by
  unfold State.count
  split <;> rfl

@[simp] theorem State.riseBit_out (page bit : Nat) : (s.riseBit page bit).1.out = s.out := by
  unfold State.riseBit
  simp only []
  split
  · rfl
  · split <;> rfl

@[simp] theorem State.pushRedir_out (e : Redir) : (s.pushRedir e).1.out = s.out := by
  unfold State.pushRedir
  split <;> rfl

theorem State.emit_after (o : Out) (h : l <+: s.out) : l <+: (s.emit o).out := h.trans (List.prefix_append _ _)

theorem foldl_after {α} {f : State → α → State} (hf : ∀ (s : State) (a : α), l <+: s.out → l <+: (f s a).out) (as : List α) (h : l <+: s.out) :
    l <+: (as.foldl f s).out := by
  induction as generalizing s with
  | nil => exact h
  | cons a as ih => exact ih (hf s a h)

theorem State.reach_after (n prio : Nat) (h : l <+: s.out) : l <+: (s.reach n prio).out := by
  unfold State.reach
  simp only []
  split
  · split
    · exact h
    · simpa using h
  split
  · split
    · exact State.emit_after _ (by simpa using h)
    · exact h
  · exact h

theorem State.raiseFuel_relay_after (fuel : Nat) (h : l <+: s.out) : l <+: (State.raiseFuel.relay fuel s).out := by
  cases fuel with
  | zero => exact h
  | succ n =>
    unfold State.raiseFuel.relay
    grind [State.count_out, State.setSrc_out, State.pushRedir_out, foldl_after, State.reach_after]

theorem State.raiseFuel_deliver_after (fuel n : Nat) (h : l <+: s.out) : l <+: (State.raiseFuel.deliverFuel fuel s n).out := by
  unfold State.raiseFuel.deliverFuel
  grind [State.count_out, State.setSrc_out, State.pushRedir_out, State.riseBit_out, foldl_after, State.reach_after, State.raiseFuel_relay_after]

theorem State.raise_after (n : Nat) (h : l <+: s.out) : l <+: (s.raise n).out := by
  unfold State.raise State.raiseFuel
  simp only []
  split
  · simpa using h
  split
  · exact h
  · exact State.raiseFuel_deliver_after _ _ h

theorem State.intxLevel_after (p : Port) (h : l <+: s.out) : l <+: (s.intxLevel p).out := by
  unfold State.intxLevel
  simp only []
  split
  · exact h
  · exact State.emit_after _ h

theorem State.sendMsix_after (p : Port) (v : Nat) (h : l <+: s.out) : l <+: (s.sendMsix p v).out := by
  unfold State.sendMsix
  split
  · split
    · exact h
    · exact State.emit_after _ h
  · exact State.intxLevel_after _ h

theorem State.pageInterrupt_after (page : Nat) (h : l <+: s.out) : l <+: (s.pageInterrupt page).out := by
  unfold State.pageInterrupt
  extract_lets s1
  have hraised : l <+: s1.out := by
    simp only [s1]
    split
    · exact h
    · exact State.raise_after _ h
  split
  · split
    · exact State.sendMsix_after _ _ hraised
    · exact hraised
  · exact hraised

theorem State.err_after (page bit : Nat) (h : l <+: s.out) : l <+: (s.err page bit).out := by
  have hrisen : l <+: (s.riseBit page bit).1.out := by simpa using h
  unfold State.err
  simp only []
  split
  · exact State.pageInterrupt_after _ hrisen
  · exact hrisen

end

end Sys2Proof.Machine
end

section
/-! PROOFS. An answer to a snoop takes effect at once where nothing waits (R117, R426); one that matches no snoop contains its port (R231, R245), whose record stays as it is made. -/

namespace Sys2Proof.Machine

/-! ### Entries -/

section
variable (s : State) (line : Nat) (e : DirEntry)

theorem State.setDir_only : s.setDir line e = { s with dir := (s.setDir line e).dir } := by
  unfold State.setDir
  split
  · rfl
  · split <;> rfl

theorem State.dirEntry_setDir_ne {l : Nat} (hl : l ≠ line) : (s.setDir line e).dirEntry l = s.dirEntry l := by
  unfold State.setDir
  split
  · simp [State.dirEntry, sget_sdel, hl]
  · split <;> simp [State.dirEntry, sget_sput, hl]

/-- The entry just set, up to its stamp; where it has no holder there is none (R116). -/
theorem State.dirEntry_setDir_self :
    (e.holders = [] ∧ (s.setDir line e).dirEntry line = {}) ∨ ∃ stamp, (s.setDir line e).dirEntry line = { e with stamp := stamp } := by
  unfold State.setDir
  split
  next hnone => exact .inl ⟨hnone, by simp [State.dirEntry, sget_sdel]⟩
  · split
    · exact .inr ⟨s.dir.next, by simp [State.dirEntry, sget_sput]⟩
    · exact .inr ⟨(s.dirEntry line).stamp, by simp [State.dirEntry, sget_sput]⟩

theorem State.holders_setDir : ((s.setDir line e).dirEntry line).holders = e.holders := by
  rcases s.dirEntry_setDir_self line e with ⟨hnone, hgone⟩ | ⟨stamp, hset⟩
  · rw [hgone, hnone]
    rfl
  · rw [hset]
    rfl

theorem State.owner_setDir (howner : e.owner = none) : ((s.setDir line e).dirEntry line).owner = none := by
  rcases s.dirEntry_setDir_self line e with ⟨-, hgone⟩ | ⟨stamp, hset⟩
  · rw [hgone]
  · rw [hset]
    exact howner

/-- A port is no longer among the sharers it is taken out of. -/
theorem DirEntry.sharers_without (p : Port) : (e.without p.val).sharers.getLsbD p.val = false := by
  have hbit : (BitVec.ofNat 6 (2 ^ p.val)).getLsbD p.val = true := by
    simp only [BitVec.getLsbD_ofNat, Nat.testBit_two_pow_self, Bool.and_true, decide_eq_true_eq]
    exact p.isLt
  simp only [DirEntry.without, BitVec.getLsbD_and, BitVec.getLsbD_not, hbit, Bool.not_true, Bool.and_false]

theorem DirEntry.owner_without (p : Nat) : (e.without p).owner ≠ some p := by
  unfold DirEntry.without
  simp only []
  split
  · exact nofun
  · assumption

theorem DirEntry.not_mem_holders_without (p : Port) : p.val ∉ (e.without p.val).holders := by
  have howner := e.owner_without p.val
  have hsharers := e.sharers_without p
  unfold DirEntry.holders
  split
  next q hq =>
    rw [hq] at howner
    simpa using fun h => howner (congrArg some h.symm)
  · simp only [List.mem_filter, hsharers, Bool.false_eq_true, and_false, not_false_eq_true]

theorem DirEntry.holders_sharedBy_one (p : Port) : (sharedBy [p.val]).holders = [p.val] := by
  revert p
  decide

end

/-! ### A snoop that is answered -/

/-- A state that differs in the directory alone. -/
theorem State.changesOnly_dir {s t : State} (h : t = { s with dir := t.dir }) : s.changesOnly t [.dir] := by
  intro q hq
  rw [h]
  cases q
  case dir => exact absurd (List.mem_singleton_self _) hq
  all_goals rfl

section
variable {s : State} {n : Snoop} {kind : BIRspKind}

/-- A snoop is the one a port has been sent under a BITag (R426). -/
def Snoop.hits (n x : Snoop) : Bool := decide (x.port = n.port ∧ x.biTag = n.biTag)

/-- The snoop is no longer in flight. -/
def State.snoopEnded (s : State) (n : Snoop) : State := { s with dir := { s.dir with snoops := s.dir.snoops.filter (fun x => !(n.hits x)) } }

/-- An answer ends its snoop, and may set the line's entry. -/
theorem State.snoopAnswer_sets (s : State) (n : Snoop) (kind : BIRspKind) :
    s.snoopAnswer n kind = s.snoopEnded n ∨ ∃ e, s.snoopAnswer n kind = (s.snoopEnded n).setDir n.line e := by
  cases kind with
  | invalid => exact .inr ⟨_, rfl⟩
  | shared =>
    by_cases howner : (s.dirEntry n.line).owner = some n.port
    · exact .inr ⟨_, if_pos howner⟩
    · exact .inl (if_neg howner)
  | exclusive => exact .inl rfl
  | block => exact .inl rfl

theorem State.snoopAnswer_only (s : State) (n : Snoop) (kind : BIRspKind) : s.snoopAnswer n kind = { s with dir := (s.snoopAnswer n kind).dir } := by
  rcases s.snoopAnswer_sets n kind with hends | ⟨e, hsets⟩
  · rw [hends]
    rfl
  · rw [hsets]
    exact (s.snoopEnded n).setDir_only _ _

theorem State.snoopAnswer_asked (s : State) (n : Snoop) (kind : BIRspKind) :
    (s.snoopAnswer n kind).kept.told.asked = ⟨s.dir.waiting, s.dir.snoops.filter (fun x => !(n.hits x)), s.cause⟩ := by
  rcases s.snoopAnswer_sets n kind with hends | ⟨e, hsets⟩
  · rw [hends]
    rfl
  · rw [hsets]
    exact (s.snoopEnded n).setDir_asked _ _

theorem State.snoopAnswer_snoops (s : State) (n : Snoop) (kind : BIRspKind) :
    (s.snoopAnswer n kind).dir.snoops = s.dir.snoops.filter (fun x => !(n.hits x)) := congrArg Asked.snoops (s.snoopAnswer_asked n kind)

theorem State.snoopAnswer_waiting (s : State) (n : Snoop) (kind : BIRspKind) : (s.snoopAnswer n kind).dir.waiting = s.dir.waiting :=
  congrArg Asked.waiting (s.snoopAnswer_asked n kind)

theorem State.snoopAnswer_dirEntry_ne (s : State) (n : Snoop) (kind : BIRspKind) {l : Nat} (hl : l ≠ n.line) :
    (s.snoopAnswer n kind).dirEntry l = s.dirEntry l := by
  rcases s.snoopAnswer_sets n kind with hends | ⟨e, hsets⟩
  · rw [hends]
    rfl
  · rw [hsets]
    exact (s.snoopEnded n).dirEntry_setDir_ne _ _ hl

/-- An answer BIRspI takes the port out of the line's entry (R117). -/
theorem State.snoopAnswer_invalid (s : State) (n : Snoop) (p : Port) (hport : n.port = p.val) :
    p.val ∉ ((s.snoopAnswer n .invalid).dirEntry n.line).holders := by
  rw [State.snoopAnswer, State.holders_setDir, hport]
  exact DirEntry.not_mem_holders_without _ p

/-- An answer BIRspS of the owner leaves it the one sharer (R117). -/
theorem State.snoopAnswer_shared_owner (s : State) (n : Snoop) (p : Port) (hport : n.port = p.val) (howner : (s.dirEntry n.line).owner = some p.val) :
    ((s.snoopAnswer n .shared).dirEntry n.line).holders = [p.val] ∧ ((s.snoopAnswer n .shared).dirEntry n.line).owner = none := by
  have hset : s.snoopAnswer n .shared = (s.snoopEnded n).setDir n.line (sharedBy [n.port]) := if_pos (howner.trans (congrArg some hport.symm))
  rw [hset, State.holders_setDir, hport]
  exact ⟨DirEntry.holders_sharedBy_one p, State.owner_setDir _ _ _ rfl⟩

/-- An answer BIRspS of a sharer, or BIRspE, leaves the line's entry (R117). -/
theorem State.snoopAnswer_stays (s : State) (n : Snoop) (hkind : (kind = .shared ∧ (s.dirEntry n.line).owner ≠ some n.port) ∨ kind = .exclusive) :
    (s.snoopAnswer n kind).dirEntry n.line = s.dirEntry n.line := by
  have hends : s.snoopAnswer n kind = s.snoopEnded n := by
    rcases hkind with ⟨rfl, howner⟩ | rfl
    · exact if_neg howner
    · rfl
  rw [hends]
  rfl

/-- A snoop as it is once the answer to n has arrived. -/
def Snoop.heard (n : Snoop) (kind : BIRspKind) (x : Snoop) : Snoop := if n.hits x then { x with answer := some kind } else x

theorem Snoop.hits_heard (n x : Snoop) (kind : BIRspKind) : n.hits (n.heard kind x) = n.hits x := by
  unfold Snoop.heard
  split <;> rfl

/-- With no request waiting, the answered snoop is due, and no other. -/
theorem State.answerSnoop_due (hwaiting : s.dir.waiting = []) (hnone : ∀ x ∈ s.dir.snoops, x.answer = none)
    (hone : s.dir.snoops.filter n.hits = [n]) :
    (s.answerSnoop n kind).dir.snoops.filter (s.answerSnoop n kind).answerDue = [{ n with answer := some kind }] := by
  have hdue : ∀ x ∈ s.dir.snoops, (s.answerSnoop n kind).answerDue (n.heard kind x) = n.hits x := by
    intro x hx
    have hstill : (s.answerSnoop n kind).dir.waiting = [] := by simp [State.answerSnoop, hwaiting]
    by_cases hhit : n.hits x = true
    · simp [State.answerDue, hstill, Snoop.heard, hhit]
    · simp [State.answerDue, Snoop.heard, hnone x hx, hhit]
  have hself : n.heard kind n = { n with answer := some kind } := if_pos (by simp [Snoop.hits])
  calc (s.answerSnoop n kind).dir.snoops.filter (s.answerSnoop n kind).answerDue
      = (s.dir.snoops.filter ((s.answerSnoop n kind).answerDue ∘ n.heard kind)).map (n.heard kind) := List.filter_map
    _ = (s.dir.snoops.filter n.hits).map (n.heard kind) := congrArg _ (List.filter_congr hdue)
    _ = [{ n with answer := some kind }] := by rw [hone, List.map_singleton, hself]

/-- With no request waiting, nothing stays of a snoop that ends, nor of its answer's arrival. -/
theorem State.answerSnoop_ended (hwaiting : s.dir.waiting = []) :
    (s.answerSnoop n kind).snoopEnded n = s.snoopEnded n := by
  have hsnoops : (s.dir.snoops.map (n.heard kind)).filter (fun x => !(n.hits x)) = s.dir.snoops.filter (fun x => !(n.hits x)) := by
    rw [List.filter_map, show (fun x => !(n.hits x)) ∘ n.heard kind = fun x => !(n.hits x) from funext (fun x => congrArg _ (n.hits_heard x kind))]
    refine (List.map_congr_left (fun x hx => ?_)).trans (List.map_id _)
    have hmiss : n.hits x = false := by simpa using (List.mem_filter.1 hx).2
    simp [Snoop.heard, hmiss]
  have hends : (s.answerSnoop n kind).snoopEnded n
      = { s with dir := { s.dir with snoops := (s.dir.snoops.map (n.heard kind)).filter (fun x => !(n.hits x)), waiting := [] } } := by
    simp only [State.snoopEnded, State.answerSnoop, hwaiting, List.map_nil]
    rfl
  rw [hends, hsnoops, ← hwaiting]
  rfl

theorem State.takeAnswers_answerSnoop (hwaiting : s.dir.waiting = []) (hnone : ∀ x ∈ s.dir.snoops, x.answer = none)
    (hone : s.dir.snoops.filter n.hits = [n]) : (s.answerSnoop n kind).takeAnswers.2 = s.snoopAnswer n kind := by
  have hended : (s.answerSnoop n kind).snoopEnded n = s.snoopEnded n := State.answerSnoop_ended hwaiting
  have hanswer : (s.answerSnoop n kind).snoopAnswer { n with answer := some kind } kind = s.snoopAnswer n kind := by
    cases kind with
    | invalid => exact congrArg (fun u => u.setDir n.line ((s.dirEntry n.line).without n.port)) hended
    | shared =>
      exact congrArg (fun u => if (s.dirEntry n.line).owner = some n.port then u.setDir n.line (sharedBy [n.port]) else u) hended
    | exclusive => exact hended
    | block => exact hended
  rw [State.takeAnswers, State.answerSnoop_due hwaiting hnone hone]
  exact hanswer

/-- With nothing waiting, an answer takes effect at once, and nothing else does. -/
theorem State.answerSnoop_settles (h : s.atRest) (hone : s.dir.snoops.filter n.hits = [n]) :
    (s.answerSnoop n kind).settleSnoops = s.snoopAnswer n kind := by
  obtain ⟨⟨hwaiting, hnone, hdraft⟩, hheld, hcopies⟩ := h
  have hstill : (s.snoopAnswer n kind).dir.waiting = [] := (s.snoopAnswer_waiting n kind).trans hwaiting
  have hleft : ∀ x ∈ (s.snoopAnswer n kind).dir.snoops, x.answer = none := by
    rw [State.snoopAnswer_snoops]
    exact fun x hx => hnone x (List.mem_of_mem_filter hx)
  have hrest : (s.snoopAnswer n kind).atRest := by
    have honly := s.snoopAnswer_only n kind
    refine ⟨⟨hstill, hleft, fun p => ?_⟩, ?_, ?_⟩
    · rw [honly]
      exact hdraft p
    · rw [honly]
      exact hheld
    · rw [honly]
      exact hcopies
  have hsame : ({ s.snoopAnswer n kind with dir := { (s.snoopAnswer n kind).dir with waiting := [] } } : State) = s.snoopAnswer n kind := by
    rw [← hstill]
  have hdone : (s.snoopAnswer n kind).dir.snoops.any (s.snoopAnswer n kind).answerDue = false := by
    simp only [List.any_eq_false]
    exact fun x hx => by simp [State.answerDue, hleft x hx]
  have hsettle : (s.answerSnoop n kind).settle = s.snoopAnswer n kind := by
    simp only [State.settle, State.settleFuel, State.takeAnswers_answerSnoop hwaiting hnone hone, hstill, settleFrom, hsame, hdone,
      Bool.false_eq_true, if_false]
  have hflush := State.settleSnoops_atRest hrest
  rw [State.settleSnoops, State.settle_calm hrest.1] at hflush
  rw [State.settleSnoops, hsettle, hflush]

end

end Sys2Proof.Machine
end

section
/-! PROOFS. A port that gives an answer of no snoop, or one that the snoop does not permit, is contained (R231, R245, R426): its record of containment stays as it is made. A request that is not supported is refused at once (R231). -/

namespace Sys2Proof.Machine

/-! ### Containment with nothing waiting -/

/-- No request waits and no answer is held back, and the records of containment are those given. -/
structure Asked.Idle (a : Asked) (cause : Port → Nat) : Prop where
  waiting : a.waiting = []
  snoops : ∀ n ∈ a.snoops, n.answer = none
  cause : a.cause = cause

section
variable {s : State} {c : Port → Nat}

theorem State.cause_asked (s : State) (p : Port) : s.kept.told.asked.cause p = s.word (prtPage p) 0x108 := rfl

/-- With no request waiting and no answer held back there is nothing to look at again. -/
theorem State.settle_of_idle (h : s.kept.told.asked.Idle c) : s.settle = s := by
  have hdue : ∀ n ∈ s.dir.snoops, s.answerDue n = false := fun n hn => by simp [State.answerDue, h.snoops n hn]
  have hfilter : s.dir.snoops.filter s.answerDue = [] := List.filter_eq_nil_iff.2 (fun n hn => by simp [hdue n hn])
  have hany : s.dir.snoops.any s.answerDue = false := List.any_eq_false.2 (fun n hn => by simp [hdue n hn])
  have hwaiting : s.dir.waiting = [] := h.waiting
  have hsame : ({ s with dir := { s.dir with waiting := [] } } : State) = s := by rw [← hwaiting]
  simp only [State.settle, State.settleFuel, State.takeAnswers, hfilter, List.foldl_nil, hwaiting, settleFrom, hsame, hany, Bool.false_eq_true,
    if_false]

theorem State.dropRequests_idle (p : Port) (h : s.kept.told.asked.Idle c) : (s.dropRequests p false).kept.told.asked.Idle c := by
  have hwaiting : s.dir.waiting = [] := h.waiting
  exact ⟨by simp [State.kept, Told.asked, State.dropRequests, hwaiting], h.snoops, h.cause⟩

theorem State.lostOwner_idle (p cause : Nat) (h : s.kept.told.asked.Idle c) : (s.lostOwner p cause).kept.told.asked.Idle c := by
  unfold State.lostOwner
  split
  · exact h
  · rw [foldl_asked (fun u _ => u.settleHolder_asked _ _ _ _)]
    exact ⟨h.waiting, fun n hn => h.snoops n (List.mem_of_mem_filter hn), h.cause⟩

theorem State.losePort_idle (p : Port) (cause : Nat) (h : s.kept.told.asked.Idle c) : (s.losePort p cause false).kept.told.asked.Idle c := by
  have hlost := State.lostOwner_idle p.val cause (State.dropRequests_idle p h)
  simpa [State.losePort] using hlost

theorem State.queuesContained_told (s : State) (p : Port) : (s.queuesContained p).kept.told = s.kept.told :=
  foldl_told (fun u q => u.containQueue_told q) _ s

/-- The record of a containment (R245). -/
theorem State.containRecorded_cause (s : State) (p : Port) (cause : Nat) : (s.containRecorded p cause).cause p = (1 + cause * 2) % 2 ^ 32 := by
  let recorded := (s.aer p (fatalEvent cause)).setWord (prtPage p) 0x108 (1 + cause * 2)
  have hkept : (s.containRecorded p cause).kept = recorded.kept := by simp [State.containRecorded, recorded]
  calc (s.containRecorded p cause).cause p = recorded.cause p := congrFun (congrArg (fun k : Kept => k.told.cause) hkept) p
    _ = (1 + cause * 2) % 2 ^ 32 := State.word_setWord_self _ _ _ _

theorem State.containRecorded_dir (s : State) (p : Port) (cause : Nat) : (s.containRecorded p cause).dir = s.dir := by
  let recorded := (s.aer p (fatalEvent cause)).setWord (prtPage p) 0x108 (1 + cause * 2)
  have hkept : (s.containRecorded p cause).kept = recorded.kept := by simp [State.containRecorded, recorded]
  exact congrArg (fun k : Kept => k.told.dir) hkept

/-- A port's containment with nothing waiting leaves the record of its cause (R121, R245, R426). -/
theorem State.containHolder_cause {p : Port} {cause : Nat} (hfirst : s.contained p = false) (hcause : cause ≤ 5) (hwaiting : s.dir.waiting = [])
    (hnone : ∀ n ∈ s.dir.snoops, n.answer = none) : (s.containHolder p cause).word (prtPage p) 0x108 = (1 + cause * 2) % 2 ^ 32 := by
  have hrecorded : (s.containRecorded p cause).kept.told.asked.Idle (s.containRecorded p cause).cause :=
    ⟨(congrArg DirState.waiting (s.containRecorded_dir p cause)).trans hwaiting,
      fun n hn => hnone n (congrArg DirState.snoops (s.containRecorded_dir p cause) ▸ hn), rfl⟩
  let u := s.contain p cause
  have hu : u.kept.told.asked.Idle (s.containRecorded p cause).cause := by
    rw [show u = _ from s.contain_first hfirst hcause, State.queuesContained_told]
    exact State.losePort_idle p _ hrecorded
  let v := u.settlePort p.val (sget 0 u.dir.walkCause p.val)
  have hv : v.kept.told.asked.Idle (s.containRecorded p cause).cause := by rwa [State.settlePort_asked]
  have hend : (s.containHolder p cause).kept.told.asked.cause = (s.containRecorded p cause).cause := by
    rw [show s.containHolder p cause = v.settle.flushCompletions from rfl, State.settle_of_idle hv, State.flushCompletions_cause]
    exact hv.cause
  rw [← State.cause_asked, hend]
  exact s.containRecorded_cause p cause

/-! ### Answers -/

theorem State.contained_of_portTakes {p : Port} (h : s.portTakes p = true) : s.contained p = false := by
  simp only [State.portTakes, Bool.and_eq_true, Bool.not_eq_true'] at h
  obtain ⟨⟨⟨-, hcontained⟩, -⟩, -⟩ := h
  exact hcontained

variable {p : Port} {biId biTag : Nat} {kind : BIRspKind} {n : Snoop}

theorem snoop_matches (hone : s.dir.snoops.filter (fun n => decide (n.port = p.val ∧ n.biTag = biTag)) = [n]) :
    n.port = p.val ∧ n.biTag = biTag := by
  have hn : n ∈ s.dir.snoops.filter (fun n => decide (n.port = p.val ∧ n.biTag = biTag)) := hone ▸ List.mem_singleton_self n
  simpa using (List.mem_filter.1 hn).2

/-- The one snoop of the port under the BITag, with the BI-ID, is the one that is found. -/
theorem find_snoop (hnone : ∀ x ∈ s.dir.snoops, x.answer = none)
    (hone : s.dir.snoops.filter (fun n => decide (n.port = p.val ∧ n.biTag = biTag)) = [n]) :
    s.dir.snoops.find? (fun x => decide (x.port = p.val ∧ x.biId = n.biId ∧ x.biTag = biTag) && x.answer.isNone) = some n := by
  have hsplit : ∀ x ∈ s.dir.snoops, (decide (x.port = p.val ∧ x.biId = n.biId ∧ x.biTag = biTag) && x.answer.isNone)
      = (decide (x.biId = n.biId) && decide (x.port = p.val ∧ x.biTag = biTag)) := by
    intro x hx
    simp [hnone x hx, Bool.and_left_comm]
  rw [← List.head?_filter, List.filter_congr hsplit, ← List.filter_filter, hone]
  simp

theorem exec_birsp (htakes : s.portTakes p = true) : exec (.birsp p biId biTag kind) s =
    (s.dir.snoops.find? (fun n => decide (n.port = p.val ∧ n.biId = biId ∧ n.biTag = biTag) && n.answer.isNone)).elim (.next (s.containHolder p 2))
      (fun n => if rspPermitted n.kind kind then .next (s.answerSnoop n kind).settleSnoops else .next (s.containHolder p 2)) := by
  have hexec : exec (.birsp p biId biTag kind) s = execBirsp p biId biTag kind s := rfl
  rw [hexec, execBirsp, htakes]
  simp only [Bool.not_true, Bool.false_eq_true, if_false]
  cases s.dir.snoops.find? (fun n => decide (n.port = p.val ∧ n.biId = biId ∧ n.biTag = biTag) && n.answer.isNone) <;> rfl

theorem exec_birsp_permitted (htakes : s.portTakes p = true) (hrest : s.atRest)
    (hone : s.dir.snoops.filter (fun n => decide (n.port = p.val ∧ n.biTag = biTag)) = [n])
    (hkind : rspPermitted n.kind kind = true) : exec (.birsp p n.biId biTag kind) s = .next (s.snoopAnswer n kind) := by
  obtain ⟨hport, htag⟩ := snoop_matches hone
  have hhits : s.dir.snoops.filter n.hits = [n] := by
    rw [show n.hits = fun x => decide (x.port = p.val ∧ x.biTag = biTag) from funext (fun x => by rw [Snoop.hits, hport, htag])]
    exact hone
  rw [exec_birsp htakes, find_snoop hrest.1.2.1 hone, Option.elim_some, if_pos hkind, State.answerSnoop_settles hrest hhits]

/-- A port that is contained for its answer, with nothing waiting. -/
theorem containHolder_records (htakes : s.portTakes p = true) (hrest : s.atRest) : (s.containHolder p 2).word (prtPage p) 0x108 = 1 + 2 * 2 := by
  obtain ⟨hwaiting, hnone, -⟩ := hrest.1
  exact State.containHolder_cause (State.contained_of_portTakes htakes) (by decide) hwaiting hnone

theorem exec_birsp_forbidden (htakes : s.portTakes p = true) (hrest : s.atRest)
    (hone : s.dir.snoops.filter (fun n => decide (n.port = p.val ∧ n.biTag = biTag)) = [n])
    (hkind : rspPermitted n.kind kind = false) : exec (.birsp p n.biId biTag kind) s = .next (s.containHolder p 2) := by
  rw [exec_birsp htakes, find_snoop hrest.1.2.1 hone, Option.elim_some, hkind, if_neg Bool.false_ne_true]

theorem exec_birsp_unmatched (htakes : s.portTakes p = true)
    (hmiss : ∀ n ∈ s.dir.snoops, ¬(n.port = p.val ∧ n.biId = biId ∧ n.biTag = biTag)) :
    exec (.birsp p biId biTag kind) s = .next (s.containHolder p 2) := by
  have hfind : s.dir.snoops.find? (fun n => decide (n.port = p.val ∧ n.biId = biId ∧ n.biTag = biTag) && n.answer.isNone) = none :=
    List.find?_eq_none.2 (fun n hn => by simp only [hmiss n hn, decide_false, Bool.false_and, Bool.false_eq_true, not_false_eq_true])
  rw [exec_birsp htakes, hfind, Option.elim_none]

/-! ### Requests that are not supported -/

/-- With nothing of its port waiting, a request over CXL.mem or CXL.io takes effect at once (R242). -/
theorem State.io_clear (h : s.clearOf p) (cmd : Instr) (f : State → State) : s.io p cmd f = f s := by
  obtain ⟨hwaiting, hdraft⟩ := h
  have hmine : s.dir.waiting.any (fun w => decide (w.1 = .turn cmd ∧ w.2.port = p.val)) = false :=
    List.any_eq_false.2 (fun w hw => by simp [hwaiting w hw])
  have hport : s.dir.waiting.any (fun w => decide (w.2.port = p.val)) = false := List.any_eq_false.2 (fun w hw => by simp [hwaiting w hw])
  simp only [State.io, hmine, hport, hdraft, Bool.or_self, Bool.false_eq_true, if_false]

/-- An unsupported request is recorded, and counted where it reads like a read (R231, R403). -/
def State.unsupported (s : State) (p : Port) (readLike : Bool) : State :=
  if readLike then (s.err (prtPage p) 14).count (prtPage p) 5 else s.err (prtPage p) 14

theorem State.unsupported_quiet (s : State) (p : Port) (readLike : Bool) : (s.unsupported p readLike).quiet = s.quiet := by
  unfold State.unsupported
  split <;> simp

theorem State.unsupported_status (s : State) (p : Port) (readLike : Bool) : ((s.unsupported p readLike).word (prtPage p) 0x018).testBit 14 = true := by
  have hpage : prtPage p ≠ 0x0C1 := by revert p; decide
  have herr : ((s.err (prtPage p) 14).word (prtPage p) 0x018).testBit 14 = true := by
    rw [State.err_status _ _ _ (by decide) hpage, Nat.testBit_or, Nat.testBit_two_pow_self, Bool.or_true]
  unfold State.unsupported
  split
  · rwa [State.word_count _ _ _ _ _ _ (by omega)]
  · exact herr

theorem State.unsupported_out (s : State) (p : Port) (readLike : Bool) : s.out <+: (s.unsupported p readLike).out := by
  have herr : s.out <+: (s.err (prtPage p) 14).out := State.err_after _ _ (List.prefix_refl _)
  unfold State.unsupported
  split
  · rwa [State.count_out]
  · exact herr

/-- The answer to an unsupported request (R231). -/
def unsupportedAnswer (p : Port) (tag : Nat) (readLike : Bool) : List Out :=
  if readLike then [.memData p.val tag zeroLine true, .cmp p.val tag .I] else [.cmp p.val tag .I]

theorem exec_unsupported (tag : Nat) (readLike : Bool) (htakes : s.portTakes p = true) (hide : s.ideRefuses p true = false)
    (hgo : sget none (s.port p).ideGo 1 = none) (hclear : s.clearOf p) : exec (.unsupportedM2sRequest p tag readLike) s
      = .next { s.unsupported p readLike with out := (s.unsupported p readLike).out ++ unsupportedAnswer p tag readLike } := by
  have hexec : exec (.unsupportedM2sRequest p tag readLike) s = execUnsupportedM2sRequest p tag readLike s := rfl
  rw [hexec, execUnsupportedM2sRequest, htakes, hide, State.io_clear hclear, State.ideArrive_mem hgo]
  cases readLike with
  | false => rfl
  | true =>
    simp only [State.emit, State.unsupported, unsupportedAnswer, if_true, List.append_assoc]
    rfl

end

/-- Settles O18, by the two ends of an answer: it takes effect at once, or its port is contained, whose record nothing that follows writes again. -/
theorem snoopAnswersAndUnsupportedRequests : Obligations.SnoopAnswersAndUnsupportedRequests := by
  refine ⟨fun s p biId biTag kind htakes hrest => ⟨fun n hone hid => ?_, fun hmiss => ?_⟩, fun s p tag readLike htakes hide hgo hclear => ?_⟩
  · subst hid
    obtain ⟨hport, htag⟩ := snoop_matches hone
    refine ⟨fun hkind => ⟨_, exec_birsp_permitted htakes hrest hone hkind, State.changesOnly_dir (s.snoopAnswer_only n kind), ?_,
      fun l hl => s.snoopAnswer_dirEntry_ne n kind hl, ?_, ?_, ?_⟩,
      fun hkind => ⟨_, exec_birsp_forbidden htakes hrest hone hkind, containHolder_records htakes hrest⟩⟩
    · rw [State.snoopAnswer_snoops, ← hport, ← htag]
      rfl
    · rintro rfl
      exact s.snoopAnswer_invalid n p hport
    · rintro rfl howner
      exact s.snoopAnswer_shared_owner n p hport howner
    · intro hstays
      exact s.snoopAnswer_stays n (by rwa [hport])
  · exact ⟨_, exec_birsp_unmatched htakes hmiss, containHolder_records htakes hrest⟩
  · obtain ⟨sent, hsent⟩ := s.unsupported_out p readLike
    refine ⟨_, exec_unsupported tag readLike htakes hide hgo hclear, s.unsupported_status p readLike,
      State.changesOnly_of_quiet (s.unsupported_quiet p readLike), sent, ?_⟩
    simp only [hsent]
    rfl

end Sys2Proof.Machine
end

section
/-! PROOFS. The chain of a layer's data engines (R196, R260): a job that names an entry for its layer's chain before the layer has ended leaves that chain due after its last chunk, where the streamer has no queue and the chain should have been started. -/

namespace Sys2Proof.Machine

/-! ### A chain that an entry stands for -/

/-- The record of a layer (R173): E4M3 weights and activations, FP32 results, M = K = N = 1, split by columns over rows 0 and 1, of which row 0 has no column, and a data-engine chain of one descriptor. -/
def chainedLayer : List Byte :=
  padTo 128 (leBytes 4 0x10009441 ++ leBytes 12 0 ++ leBytes 4 1 ++ leBytes 4 1 ++ leBytes 4 1 ++ leBytes 4 0x100
    ++ leBytes 8 (2 * 16384) ++ leBytes 8 (3 * 16384) ++ leBytes 16 0 ++ leBytes 8 (4 * 16384) ++ leBytes 8 (5 * 16384))

/-- A job that runs this layer, whose only chunk row 1 has finished, and that names entry 0 of queue 0 as that of the layer's chain. -/
def enteredJob : Job :=
  { id := 0, queue := 0, cid := 0, actor := 0, cls := 1, hdrAddr := 0, state := 2, chain := Memory.store [] 128 chainedLayer,
    recNo := 1, layer := 1, phase := .running, running := 3#16, chunks := [(1, 1)], chainEntry := some (0, 0) }

/-- The machine after reset, with that job alone: no queue is assigned to the streamer. (The streamer names an entry when it has submitted the chain, in phase chain. The statement ranges over every state, so over this one, where the name is there while the layer runs.) -/
def enteredState : State := { State.reset with lst := { jobs := [enteredJob], nextJob := 1 } }

theorem enteredState_unheld : enteredState.unheld := by
  refine ⟨rfl, rfl, fun w hw => ?_, rfl, rfl⟩
  exact absurd hw List.not_mem_nil

theorem enteredState_calm : enteredState.calm := by
  have hundemanded : enteredState.ports.toList.all (fun q => q.tags.all (fun g => !g.demanded)) = true := by decide +kernel
  refine ⟨rfl, fun n hn => ?_, enteredState.draftPending_of_undemanded hundemanded⟩
  exact absurd hn List.not_mem_nil

/-- With its last chunk the layer's results are held and its chain is due; the entry that the job names stands for the chain, and so none is started. -/
theorem exec_chunkBoundary_entered :
    ∃ t x, exec (.chunkBoundary 0 0 []) enteredState = .next t ∧ t.job 0 = some x ∧ x.phase = .chain ∧ x.chainDue = true := by
  have hafter : (match exec (.chunkBoundary 0 0 []) enteredState with
      | .next t => (t.job 0).map (fun x : Job => (x.phase, x.chainDue))
      | _ => none) = some (.chain, true) := by decide +kernel
  split at hafter
  next t hexec =>
    obtain ⟨x, hjob, hx⟩ := Option.map_eq_some_iff.mp hafter
    obtain ⟨hphase, hdue⟩ := Prod.mk.inj hx
    exact ⟨t, x, hexec, hjob, hphase, hdue⟩
  · cases hafter

/-- Refutes O35, in what it says of the data-engine chain after the last chunk: where no queue is assigned to the streamer the chain is to have been started, but the job of enteredState names an entry for its chain, so its chain stays due. The clause on a chain yet to start asks that no entry be named; this one does not. -/
theorem not_chunksPassesAndLayersFollow : ¬ Obligations.ChunksPassesAndLayersFollow := by
  unfold Obligations.ChunksPassesAndLayersFollow
  intro h
  obtain ⟨hchunk, -⟩ := h enteredState 0 enteredJob enteredState_unheld enteredState_calm rfl
  have hleft : sget 0 enteredJob.chunks (0 : Fin 16).val < (enteredJob.record enteredJob.recNo).chunks := by decide +kernel
  have hbooks : enteredState.codebookFault enteredJob (0 : Fin 16).val = none := by decide +kernel
  have hmembers : ∀ x ∈ (enteredJob.record enteredJob.recNo).members,
      enteredState.rowHeld x = false ∧ sget 0 enteredJob.chunks (0 : Fin 16).val ≤ sget 0 enteredJob.chunks x := by decide +kernel
  obtain ⟨-, -, hends⟩ := hchunk 0 rfl (by decide) hleft hbooks
  obtain ⟨t, x, hexec, hjob, -, -, -, -, -, -, hstarted, -⟩ := hends hmembers
  obtain ⟨t', x', hexec', hjob', hphase, hdue⟩ := exec_chunkBoundary_entered
  obtain rfl : t' = t := Host.Outcome.next.inj (hexec'.symm.trans hexec)
  obtain rfl : x' = x := Option.some.inj (hjob'.symm.trans hjob)
  obtain ⟨hnotDue, -⟩ := hstarted hphase rfl
  exact absurd (hdue.symm.trans hnotDue) (by decide)

end Sys2Proof.Machine
end

section
/-! PROOFS. A rejected job and the surrogate handle that its end frees (R176, R225): an unload that waits for the handle under the entry of the JOB_SUBMIT ends that entry before the job's report does, with no outcome and no cause. -/

namespace Sys2Proof.Machine

/-! ### An unload waits under the entry of a JOB_SUBMIT -/

/-- A started JOB_SUBMIT of queue 0, of the header at address 0. -/
def submitEntry : Entry := { queue := 0, seq := 0, opcode := 0x20, stage := 1 }

/-- A region of 2 MiB at address 0 that every port may read. -/
def readableRegion : Region := { valid := true, kind := 3, readMask := 63, size := 2 ^ 21 }

/-- The call of sequence number 1 of queue 0 runs on a surrogate handle, as the job that the streamer accepts next, and an unload waits for the handle under sequence number 0. -/
def unloadingModel : Model := { loaded := true, running := some (0, 1, 0, 0), unload := some (0, 0) }

/-- The machine after reset, with that entry, whose header lies in zero lines of a vat tile, and that handle. (In a run of the block a MODEL_UNLOAD and a JOB_SUBMIT have entries of their own. The statement ranges over every state, so over this one: what it asks of surrogate calls speaks of the call that runs, not of an unload that waits.) -/
def unloadingState : State :=
  { State.reset with
    rgn := { State.reset.rgn with entries := [(0, readableRegion)] }
    mem := { State.reset.mem with tierMap := [(0, BitVec.ofNat 64 (1000000 * 2 ^ 24 + 1))], slotUse := [(1000000, .tile)] }
    qmg := { State.reset.qmg with queues := [(0, { ownKind := 1, state := 1 })], entries := [submitEntry] }
    svc := { State.reset.svc with models := [(0, unloadingModel)] } }

theorem unloadingState_unheld : unloadingState.unheld := by
  refine ⟨rfl, rfl, fun w hw => ?_, rfl, rfl⟩
  exact absurd hw List.not_mem_nil

theorem unloadingState_calm : unloadingState.calm := by
  have hundemanded : unloadingState.ports.toList.all (fun q => q.tags.all (fun g => !g.demanded)) = true := by decide +kernel
  refine ⟨rfl, fun n hn => ?_, unloadingState.draftPending_of_undemanded hundemanded⟩
  exact absurd hn List.not_mem_nil

/-- The call that runs is another entry's. -/
theorem unloadingState_servesNot : unloadingState.servesNot 0 0 := by
  intro m hm r hr
  obtain rfl : m = (0, unloadingModel) := List.mem_singleton.1 hm
  obtain rfl : (0, 1, 0, 0) = r := Option.some.inj hr
  decide

theorem unloadingState_readable {a : Nat} (ha : a = 0 ∨ a = 64) : unloadingState.readable 0 a := by
  have hfind : unloadingState.findRegion a = some (0, readableRegion) := by
    rcases ha with rfl | rfl <;> decide +kernel
  refine ⟨by omega, ?_, fun g r hr => ?_, ?_, ?_, ?_, fun _ => ?_⟩
  · rcases ha with rfl | rfl <;> decide +kernel
  · obtain ⟨-, rfl⟩ := Prod.mk.inj (Option.some.inj (hfind.symm.trans hr))
    decide
  all_goals rcases ha with rfl | rfl <;> decide +kernel

/-- The header is rejected; the call ends, and with it the unload, whose entry this is. -/
theorem exec_jobSubmit_unloading : ∃ t x, exec (.jobSubmit 0 0 []) unloadingState = .next t ∧ t.entry 0 0 = some x ∧ x.v0 = 0 := by
  have hafter : (match exec (.jobSubmit 0 0 []) unloadingState with
      | .next t => (t.entry 0 0).map (fun x : Entry => x.v0)
      | _ => none) = some 0 := by decide +kernel
  split at hafter
  next t hexec =>
    obtain ⟨x, hentry, hv0⟩ := Option.map_eq_some_iff.mp hafter
    exact ⟨t, x, hexec, hentry, hv0⟩
  · cases hafter

/-- Refutes O33, in what it says of a header that does not obey the table: the entry is to end with OUTCOME 3 and CAUSE 1, but in unloadingState it has ended before, as that of the unload that waited for the call which the rejected job ends. -/
theorem not_jobsAreSubmittedGrantedAndEnded : ¬ Obligations.JobsAreSubmittedGrantedAndEnded := by
  unfold Obligations.JobsAreSubmittedGrantedAndEnded
  intro h
  obtain ⟨hentries, -⟩ := h unloadingState unloadingState_unheld unloadingState_calm
  obtain ⟨-, hsubmit, -⟩ := hentries 0 0 submitEntry (by decide) rfl rfl
  have hfull : unloadingState.submitsFull = false := by decide +kernel
  have hjobs : ∀ j ∈ unloadingState.lst.jobs, j.id < unloadingState.lst.nextJob := fun j hj => absurd hj List.not_mem_nil
  have hfirst : (unloadingState.lineAt 0).2 = false := by decide +kernel
  have hsecond : (unloadingState.lineAt 64).2 = false := by decide +kernel
  have hbad : (headOf (Memory.store [] 0 ((unloadingState.lineAt 0).1 ++ (unloadingState.lineAt 64).1))).ok = false := by decide +kernel
  obtain ⟨-, hrejected⟩ := hsubmit rfl hfull hjobs unloadingState_servesNot (unloadingState_readable (.inl rfl)) (unloadingState_readable (.inr rfl)) hfirst hsecond
  obtain ⟨t, x, hexec, hentry, -, -, hv0, -⟩ := hrejected hbad
  obtain ⟨t', x', hexec', hentry', hv0'⟩ := exec_jobSubmit_unloading
  obtain rfl : t' = t := Host.Outcome.next.inj (hexec'.symm.trans hexec)
  obtain rfl : x' = x := Option.some.inj (hentry'.symm.trans hentry)
  exact absurd (hv0'.symm.trans hv0) (by decide)

end Sys2Proof.Machine
end

section
/-! PROOFS. A lock group starts while the activations of its first chunk lie in a host-tier window whose partner does not answer (R74, R182, R194, R278): the step ends with the read's time limit, later than the group's tick. -/

namespace Sys2Proof.Machine

/-! ### Activations in a host-tier window -/

/-- The record of a layer (R173): E4M3 weights and activations, FP32 results, M = K = N = 1, on row 0, with its activations at address 0. -/
def hostedLayer : List Byte :=
  padTo 128 (leBytes 4 0x9441 ++ leBytes 12 0 ++ leBytes 4 1 ++ leBytes 4 1 ++ leBytes 4 1 ++ leBytes 4 0
    ++ leBytes 8 0 ++ leBytes 8 (3 * 16384) ++ leBytes 16 0 ++ leBytes 8 (4 * 16384))

/-- A job whose layer waits for row 0. -/
def hostedJob : Job :=
  { id := 0, queue := 0, cid := 0, actor := 0, cls := 1, hdrAddr := 0, state := 2, chain := Memory.store [] 128 hostedLayer,
    recNo := 1, layer := 1, phase := .waitRows }

/-- The machine after reset, with that job; port 0 is ready and may send, its window is online and holds tile 0, and every port may read the first 2 MiB. -/
def hostedState : State :=
  let s := (State.reset.setWord 0x008 0x100 0x81).setWord 0x018 0x14C 2
  { s with
    ports := s.ports.set 0 { s.ports[0] with bme := true }
    rgn := { s.rgn with entries := [(0, { valid := true, kind := 3, readMask := 63, size := 2 ^ 21 })] }
    mem := { s.mem with tierMap := [(0, 3#64)] }
    lst := { jobs := [hostedJob], nextJob := 1 } }

theorem hostedState_unheld : hostedState.unheld := by
  refine ⟨rfl, rfl, fun w hw => ?_, rfl, rfl⟩
  exact absurd hw List.not_mem_nil

theorem hostedState_groupTick : hostedState.groupTick hostedJob = 256 := by decide +kernel

/-- The row loads its one activation line: the read goes out at the tick and times out after the reset value of QMG_RD_TIMEOUT, one millisecond. -/
theorem exec_lockGroupStart_hosted : ∃ t, exec (.lockGroupStart 0 []) hostedState = .next t ∧ t.now = 256 + ms := by
  have hafter : (match exec (.lockGroupStart 0 []) hostedState with
      | .next t => t.now
      | _ => 0) = 256 + ms := by decide +kernel
  split at hafter
  next t hexec => exact ⟨t, hexec, hafter⟩
  · exact absurd hafter (by decide)

/-- Refutes O34, in what it says of the moment at which a lock group starts: the time base is to be at the group's tick, but in hostedState the start waits for a line of the host tier, and the time base is past the tick by that read's limit. -/
theorem not_layersAreFilledAndBegun : ¬ Obligations.LayersAreFilledAndBegun := by
  unfold Obligations.LayersAreFilledAndBegun
  intro h
  obtain ⟨-, -, -, -, -, hgroup⟩ := h hostedState 0 hostedJob hostedState_unheld rfl
  obtain ⟨hstarts, -⟩ := hgroup (by decide +kernel)
  have hactive : ∀ r ∈ (hostedJob.record hostedJob.recNo).members, hostedState.activeCount r ≠ 0 := by decide +kernel
  obtain ⟨t, x, hexec, hnow, -⟩ := hstarts hactive
  obtain ⟨t', hexec', hnow'⟩ := exec_lockGroupStart_hosted
  obtain rfl : t' = t := Host.Outcome.next.inj (hexec'.symm.trans hexec)
  exact absurd (hnow'.symm.trans (hnow.trans hostedState_groupTick)) (by decide)

end Sys2Proof.Machine
end

section
/-! PROOFS. The end that a late layer, an overrun or a row fault gives a job (R187 to R191, R199, R203): what an abort leaves of the job, of the other jobs and of the register words. -/

namespace Sys2Proof.Machine

/-! ### Jobs and the time base -/

/-- The jobs and the time base. -/
def State.jobsAt (s : State) : LstState × Nat := (s.lst, s.now)

theorem State.lst_of_jobsAt {s t : State} (h : t.jobsAt = s.jobsAt) : t.lst = s.lst := congrArg Prod.fst h

theorem State.now_of_jobsAt {s t : State} (h : t.jobsAt = s.jobsAt) : t.now = s.now := congrArg Prod.snd h

theorem State.job_of_lst {s t : State} (h : t.lst = s.lst) (id : Nat) : t.job id = s.job id := by
  unfold State.job
  rw [h]

theorem State.jobsAt_of_quiet {s t : State} (h : t.quiet = s.quiet) : t.jobsAt = s.jobsAt := by
  have hlst : t.quiet.lst = s.quiet.lst := congrArg State.lst h
  have hnow : t.quiet.now = s.quiet.now := congrArg State.now h
  exact Prod.ext hlst hnow

theorem State.id_of_job {s : State} {id : Nat} {j : Job} (h : s.job id = some j) : j.id = id := by
  have hfound := List.find?_some h
  rw [Bool.and_eq_true, decide_eq_true_eq] at hfound
  exact hfound.1

/-- A change of jobs that leaves each its identity and whether it has ended. -/
def keepsIdentity (f : Job → Job) : Prop := ∀ j, (f j).id = j.id ∧ (f j).ending = j.ending

section
variable (s : State)

@[simp] theorem State.jobsAt_count (page i n : Nat) : (s.count page i n).jobsAt = s.jobsAt := State.jobsAt_of_quiet (s.count_quiet page i n)
@[simp] theorem State.jobsAt_err (page bit : Nat) : (s.err page bit).jobsAt = s.jobsAt := State.jobsAt_of_quiet (s.err_quiet page bit)
@[simp] theorem State.jobsAt_setWord (page off v : Nat) : (s.setWord page off v).jobsAt = s.jobsAt := rfl
@[simp] theorem State.jobsAt_setWord64 (page off v : Nat) : (s.setWord64 page off v).jobsAt = s.jobsAt := rfl
@[simp] theorem State.jobsAt_setField (page off lo w v : Nat) : (s.setField page off lo w v).jobsAt = s.jobsAt := rfl
@[simp] theorem State.now_modJob (id : Nat) (f : Job → Job) : (s.modJob id f).now = s.now := rfl

theorem State.job_modJob {f : Job → Job} (hf : keepsIdentity f) (id i : Nat) :
    (s.modJob id f).job i = (s.job i).map (fun j => if j.id = id then f j else j) := by
  let g : Job → Job := fun j => if j.id = id then f j else j
  have hsame : (fun j : Job => decide (j.id = i) && j.ending.isNone) ∘ g = fun j : Job => decide (j.id = i) && j.ending.isNone := by
    funext j
    obtain ⟨hid, hending⟩ := hf j
    simp only [Function.comp, g]
    split
    · rw [hid, hending]
    · rfl
  calc (s.modJob id f).job i = (s.lst.jobs.map g).find? (fun j => decide (j.id = i) && j.ending.isNone) := rfl
    _ = (s.lst.jobs.find? ((fun j => decide (j.id = i) && j.ending.isNone) ∘ g)).map g := List.find?_map
    _ = (s.job i).map g := by rw [hsame]; rfl

theorem State.job_modJob_self {f : Job → Job} (hf : keepsIdentity f) (id : Nat) : (s.modJob id f).job id = (s.job id).map f := by
  rw [s.job_modJob hf]
  cases hjob : s.job id with
  | none => rfl
  | some j => rw [Option.map_some, Option.map_some, if_pos (State.id_of_job hjob)]

theorem State.jobsBut_modJob {f : Job → Job} (hf : keepsIdentity f) (id : Nat) : s.jobsBut (s.modJob id f) id := by
  intro i hi
  rw [s.job_modJob hf]
  cases hjob : s.job i with
  | none => rfl
  | some j => rw [Option.map_some, if_neg (by rw [State.id_of_job hjob]; exact hi)]

end

theorem State.jobsBut_of_lst {s t : State} (h : t.lst = s.lst) (id : Nat) : s.jobsBut t id := fun i _ => State.job_of_lst h i

theorem State.jobsBut_trans {s t u : State} {id : Nat} (h : s.jobsBut t id) (k : t.jobsBut u id) : s.jobsBut u id :=
  fun i hi => (k i hi).trans (h i hi)

/-! ### Rows -/

/-- The register words that waking a row, taking it or giving it back leaves: every word but page 1's, which has the dormant islands, and, from the rows' pages on, TNS_STATUS and the count of clock steps (R362, R364, R367). -/
def apartFromRows (p o : Nat) : Prop := o < 4096 ∧ p ≠ 1 ∧ (p < 0x100 ∨ (o ≠ 0x104 ∧ o ≠ 0x030))

/-- Rows, engines and entries change at most: the jobs, the time base and the register words apart from the rows' stay. -/
structure State.RowsOnly (s t : State) : Prop where
  jobsAt : t.jobsAt = s.jobsAt
  word : ∀ p o, apartFromRows p o → t.word p o = s.word p o

theorem State.RowsOnly.refl (s : State) : s.RowsOnly s := ⟨rfl, fun _ _ _ => rfl⟩

theorem State.RowsOnly.trans {s t u : State} (h : s.RowsOnly t) (k : t.RowsOnly u) : s.RowsOnly u :=
  ⟨k.jobsAt.trans h.jobsAt, fun p o hpo => (k.word p o hpo).trans (h.word p o hpo)⟩

theorem State.RowsOnly.job {s t : State} (h : s.RowsOnly t) (id : Nat) : t.job id = s.job id := State.job_of_lst (State.lst_of_jobsAt h.jobsAt) id

theorem State.RowsOnly.jobsBut {s t : State} (h : s.RowsOnly t) (id : Nat) : s.jobsBut t id := State.jobsBut_of_lst (State.lst_of_jobsAt h.jobsAt) id

theorem State.RowsOnly.now {s t : State} (h : s.RowsOnly t) : t.now = s.now := State.now_of_jobsAt h.jobsAt

theorem foldl_rowsOnly {α} {f : State → α → State} (hf : ∀ (u : State) (a : α), u.RowsOnly (f u a)) (l : List α) (s : State) : s.RowsOnly (l.foldl f s) := by
  induction l generalizing s with
  | nil => exact .refl s
  | cons a l ih => exact (hf s a).trans (ih _)

section
variable (s : State)

theorem State.setField_status_rowsOnly (r lo w v : Nat) : s.RowsOnly (s.setField (tnsPage r) 0x104 lo w v) := by
  refine ⟨rfl, fun p o hpo => ?_⟩
  obtain ⟨ho, -, hp⟩ := hpo
  exact s.word_setWord_ne _ _ _ _ _ (by unfold tnsPage; omega)

theorem State.setLevel_rowsOnly (r l : Nat) : s.RowsOnly (s.setLevel r l) := by
  unfold State.setLevel
  split
  · exact .refl s
  extract_lets tns u
  have hu : s.RowsOnly u := ⟨rfl, fun _ _ _ => rfl⟩
  refine (hu.trans (u.setField_status_rowsOnly r 22 10 _)).trans ⟨State.jobsAt_count _ _ _ _, fun p o hpo => ?_⟩
  obtain ⟨ho, -, hp⟩ := hpo
  exact State.word_count _ _ _ _ _ _ (by unfold tnsPage; omega)

theorem State.settleLevels_rowsOnly : s.RowsOnly s.settleLevels := by
  refine foldl_rowsOnly (fun u r => ?_) _ s
  split
  · exact .refl u
  · exact u.setLevel_rowsOnly r _

theorem State.dozeLater_rowsOnly (i : Nat) : s.RowsOnly (s.dozeLater i) := ⟨rfl, fun _ _ _ => rfl⟩

theorem State.wakeRow_rowsOnly (r : Nat) : s.RowsOnly (s.wakeRow r) := by
  unfold State.wakeRow
  split
  · refine ⟨(State.jobsAt_count _ _ _ _).trans (s.jobsAt_setField 1 0x11C r 1 0), fun p o hpo => ?_⟩
    obtain ⟨ho, hp, -⟩ := hpo
    have hcount : ((s.setField 1 0x11C r 1 0).count 1 5).word p o = (s.setField 1 0x11C r 1 0).word p o := State.word_count _ _ _ _ _ _ (by omega)
    exact hcount.trans (s.word_setWord_ne _ _ _ _ _ (by omega))
  · exact .refl s

end

/-! ### A change of a job -/

/-- The state t is s with the job id changed by f, and rows, engines and entries at most besides. -/
structure State.Edits (s t : State) (id : Nat) (f : Job → Job) : Prop where
  now : t.now = s.now
  others : s.jobsBut t id
  job : t.job id = (s.job id).map f
  word : ∀ p o, apartFromRows p o → t.word p o = s.word p o

section
variable {s t u : State} {id : Nat} {f g : Job → Job}

theorem State.modJob_edits (s : State) (id : Nat) (f : Job → Job) (hf : keepsIdentity f := by exact fun _ => ⟨rfl, rfl⟩) :
    s.Edits (s.modJob id f) id f :=
  ⟨rfl, s.jobsBut_modJob hf id, s.job_modJob_self hf id, fun _ _ _ => rfl⟩

theorem State.Edits.trans (h : s.Edits t id f) (k : t.Edits u id g) : s.Edits u id (fun j => g (f j)) :=
  ⟨k.now.trans h.now, State.jobsBut_trans h.others k.others, by rw [k.job, h.job, Option.map_map]; rfl,
    fun p o hpo => (k.word p o hpo).trans (h.word p o hpo)⟩

theorem State.Edits.rows (h : s.Edits t id f) (k : t.RowsOnly u) : s.Edits u id f :=
  ⟨k.now.trans h.now, State.jobsBut_trans h.others (k.jobsBut id), (k.job id).trans h.job, fun p o hpo => (k.word p o hpo).trans (h.word p o hpo)⟩

theorem State.RowsOnly.edits (h : s.RowsOnly t) (k : t.Edits u id f) : s.Edits u id f :=
  ⟨k.now.trans h.now, State.jobsBut_trans (h.jobsBut id) k.others, by rw [k.job, h.job], fun p o hpo => (k.word p o hpo).trans (h.word p o hpo)⟩

/-- Rows given back change, and their job runs on none. -/
theorem State.freeRows_edits (s : State) (id : Nat) : s.Edits (s.freeRows id) id (fun j => { j with running := 0#16 }) := by
  unfold State.freeRows
  extract_lets mine s1
  have hs1 : s.RowsOnly s1 := by
    refine foldl_rowsOnly (fun u r => ?_) mine s
    extract_lets tns pwr v
    have hv : u.RowsOnly v := ⟨rfl, fun _ _ _ => rfl⟩
    have htaken := hv.trans (v.setField_status_rowsOnly r 6 1 0)
    have hbase := htaken.trans (State.setField_status_rowsOnly _ r 12 4 r)
    have hsize := hbase.trans (State.setField_status_rowsOnly _ r 16 5 1)
    exact hsize.trans (State.setField_status_rowsOnly _ r 21 1 0)
  exact (hs1.edits (s1.modJob_edits id _)).rows (State.settleLevels_rowsOnly _)

/-- A job's chains end with it, and mark it where something was refused them. -/
theorem State.dropChains_edits (s : State) (id : Nat) : ∃ b, s.Edits (s.dropChains id) id (fun j => { j with refused := j.refused || b }) := by
  unfold State.dropChains
  extract_lets mine l refused s1 den s2
  have hs2 : s.RowsOnly s2 := ⟨rfl, fun _ _ _ => rfl⟩
  refine ⟨refused, (hs2.edits (s2.modJob_edits id _)).rows (foldl_rowsOnly (fun u c => ?_) l _)⟩
  split
  · exact ⟨rfl, fun _ _ _ => rfl⟩
  · exact .refl u

/-- A record that asks for its rows wakes them. -/
theorem State.askRows_edits {j : Job} (hjob : s.job id = some j) :
    s.Edits (s.askRows id) id (fun j => { j with phase := .waitRows, askedAt := s.now }) := by
  unfold State.askRows
  rw [hjob]
  exact (s.modJob_edits id _).rows (foldl_rowsOnly (fun u r => u.wakeRow_rowsOnly r) _ _)

end

/-! ### Aborts -/

/-- What an abort makes of a job that has been admitted (R199): whether it waited for weights counts its waiting, and whether its chains had something refused marks it. -/
def Job.stopped (j : Job) (waits : Bool) (now cause : Nat) (refused : Bool) : Job :=
  { j with
    state := 3, phase := .none, outcome := 2, cause := cause, endTime := now, fills := [], keep := 0, spillHeld := 0, spillAt := [],
    chainDue := false, chainEntry := none, waitNs := if waits then j.waitNs + (now - j.endedAt) else j.waitNs,
    refused := j.refused || refused, running := 0#16 }

theorem State.abortJob_edits {s : State} {id cause : Nat} {j : Job} (hjob : s.job id = some j) (hstate : j.state = 1 ∨ j.state = 2) :
    ∃ b, (s.err lstPage 8).Edits (s.abortJob id cause) id (fun x => x.stopped (decide (j.phase = .waitWeights ∨ j.phase = .late)) s.now cause b) := by
  unfold State.abortJob
  rw [hjob]
  simp -zeta only [if_neg (show j.state ≠ 3 by omega), if_neg (show j.state ≠ 0 by omega)]
  extract_lets s0 waits s1 s2
  have hs1 := s0.modJob_edits id (fun x => { x with
    state := 3, phase := .none, outcome := 2, cause := cause, endTime := s.now, fills := [], keep := 0, spillHeld := 0, spillAt := [],
    chainDue := false, chainEntry := none, waitNs := if waits then x.waitNs + (s.now - x.endedAt) else x.waitNs })
  have hs2 : s1.RowsOnly s2 := by
    simp only [s2]
    split
    · exact foldl_rowsOnly (fun u r => u.dozeLater_rowsOnly r) _ s1
    · exact .refl s1
  obtain ⟨b, hdropped⟩ := s2.dropChains_edits id
  have hstopped := ((hs1.rows hs2).trans hdropped).trans (State.freeRows_edits _ id)
  exact ⟨b, hstopped⟩

/-- A job is ABORTING for a cause, runs on no row and has no fill. -/
def State.stoppedFor (t : State) (id cause : Nat) : Prop :=
  ∃ x, t.job id = some x ∧ x.state = 3 ∧ x.outcome = 2 ∧ x.cause = cause ∧ x.running = 0#16 ∧ x.fills = []

section
variable {s : State} {id : Nat} {j : Job} (hjob : s.job id = some j) (hstate : j.state = 1 ∨ j.state = 2) (cause : Nat)
include hjob hstate

theorem State.abortJob_now : (s.abortJob id cause).now = s.now := by
  obtain ⟨b, hedits⟩ := State.abortJob_edits (cause := cause) hjob hstate
  exact hedits.now.trans (State.now_of_jobsAt (s.jobsAt_err _ _))

theorem State.abortJob_jobsBut : s.jobsBut (s.abortJob id cause) id := by
  obtain ⟨b, hedits⟩ := State.abortJob_edits (cause := cause) hjob hstate
  exact State.jobsBut_trans (State.jobsBut_of_lst (State.lst_of_jobsAt (s.jobsAt_err _ _)) id) hedits.others

theorem State.abortJob_job : ∃ waits b, (s.abortJob id cause).job id = some (j.stopped waits s.now cause b) := by
  obtain ⟨b, hedits⟩ := State.abortJob_edits (cause := cause) hjob hstate
  refine ⟨decide (j.phase = .waitWeights ∨ j.phase = .late), b, ?_⟩
  rw [hedits.job, State.job_of_lst (State.lst_of_jobsAt (s.jobsAt_err _ _)), hjob]
  rfl

theorem State.abortJob_stoppedFor : (s.abortJob id cause).stoppedFor id cause := by
  obtain ⟨waits, b, hstopped⟩ := State.abortJob_job hjob hstate cause
  exact ⟨_, hstopped, rfl, rfl, rfl, rfl, rfl⟩

theorem State.abortJob_word {p o : Nat} (hpo : apartFromRows p o) : (s.abortJob id cause).word p o = (s.err lstPage 8).word p o := by
  obtain ⟨b, hedits⟩ := State.abortJob_edits (cause := cause) hjob hstate
  exact hedits.word p o hpo

/-- An abort sets bit 8 of the layer streamer's ERR_STATUS, and clears none. -/
theorem State.abortJob_status : (s.abortJob id cause).word lstPage 0x018 = s.word lstPage 0x018 ||| 2 ^ 8 := by
  rw [State.abortJob_word hjob hstate cause ⟨by decide, by decide, .inl (by decide)⟩, State.err_status _ _ _ (by decide) (by decide)]

theorem State.abortJob_word_apart {p o : Nat} (hpo : apartFromRows p o) (hp : p ≠ 0x0C1) (hlst : p ≠ lstPage) (ho : o < 0x180) :
    (s.abortJob id cause).word p o = s.word p o := by
  rw [State.abortJob_word hjob hstate cause hpo, State.word_err]
  all_goals unfold lstPage at *
  all_goals omega

end

/-! ### Late layers -/

/-- A layer that is late is counted, and bit 11 of the page is set (R188, R403). -/
def State.lateMarked (s : State) : State := (s.count lstPage 4).err lstPage 11

section
variable {s : State} {id : Nat} {j : Job}

theorem State.jobsAt_lateMarked (s : State) : s.lateMarked.jobsAt = s.jobsAt := by
  rw [State.lateMarked, State.jobsAt_err, State.jobsAt_count]

theorem State.job_lateMarked (s : State) (id : Nat) : s.lateMarked.job id = s.job id :=
  State.job_of_lst (State.lst_of_jobsAt s.jobsAt_lateMarked) id

theorem State.now_lateMarked (s : State) : s.lateMarked.now = s.now := State.now_of_jobsAt s.jobsAt_lateMarked

theorem State.jobsBut_lateMarked (s : State) (id : Nat) : s.jobsBut s.lateMarked id := fun i _ => s.job_lateMarked i

theorem State.lateMarked_status (s : State) : (s.lateMarked.word lstPage 0x018).testBit 11 = true := by
  rw [State.lateMarked, State.err_status _ _ _ (by decide) (by decide), Nat.testBit_or, Nat.testBit_two_pow_self, Bool.or_true]

/-- Under policy 0 a late layer waits on. -/
theorem State.makeLate_waits (hjob : s.job id = some j) (hpolicy : (j.record j.layer).policy = 0) :
    s.makeLate id = s.lateMarked.modJob id (fun j => { j with phase := .late, lateAt := s.now }) := by
  unfold State.makeLate
  rw [hjob]
  simp only [hpolicy]
  rfl

/-- What a late layer leaves of its job under policy 1: the first of its record's fallbacks, and no fill of it (R189). -/
def Job.fallsBack (j : Job) (r : LayerRec) (now : Nat) : Job :=
  { j with recNo := r.fbFirst, fbLeft := r.fbCount - 1, waitNs := j.waitNs + (now - j.endedAt), fills := j.fills.filter (fun f => decide (f.recNo ≠ j.layer)) }

theorem Job.fallsBack_fillOf (j : Job) (r : LayerRec) (now : Nat) : (j.fallsBack r now).fillOf j.layer = none := by
  refine List.find?_eq_none.2 (fun f hf => ?_)
  have hkept := (List.mem_filter.1 hf).2
  simpa using hkept

theorem State.makeLate_fallsBack (hjob : s.job id = some j) (hpolicy : (j.record j.layer).policy = 1) :
    s.makeLate id = (s.lateMarked.modJob id (fun x => x.fallsBack (j.record j.layer) s.now)).askRows id := by
  unfold State.makeLate
  rw [hjob]
  simp only [hpolicy]
  rfl

theorem State.makeLate_aborts (hjob : s.job id = some j) (hpolicy : 2 ≤ (j.record j.layer).policy) : s.makeLate id = s.lateMarked.abortJob id 6 := by
  obtain ⟨n, hn⟩ := Nat.exists_eq_add_of_le' hpolicy
  unfold State.makeLate
  rw [hjob]
  simp only [hn]
  rfl

theorem State.makeLate_waits_edits (hjob : s.job id = some j) (hpolicy : (j.record j.layer).policy = 0) :
    s.lateMarked.Edits (s.makeLate id) id (fun j => { j with phase := .late, lateAt := s.now }) := by
  rw [State.makeLate_waits hjob hpolicy]
  exact s.lateMarked.modJob_edits id _

theorem State.makeLate_fallsBack_edits (hjob : s.job id = some j) (hpolicy : (j.record j.layer).policy = 1) :
    s.lateMarked.Edits (s.makeLate id) id (fun x => { x.fallsBack (j.record j.layer) s.now with phase := .waitRows, askedAt := s.now }) := by
  have hfalls := s.lateMarked.modJob_edits id (fun x => x.fallsBack (j.record j.layer) s.now)
  have hjob' := hfalls.job.trans (congrArg _ ((s.job_lateMarked id).trans hjob))
  have hasks := hfalls.trans (State.askRows_edits hjob')
  rwa [← State.makeLate_fallsBack hjob hpolicy, State.now_modJob, s.now_lateMarked] at hasks

/-- Under each policy, a late layer sets its bit and leaves the time base and the other jobs. -/
theorem State.makeLate_frame (hjob : s.job id = some j) (hstate : j.state = 2) :
    (s.makeLate id).now = s.now ∧ s.jobsBut (s.makeLate id) id ∧ ((s.makeLate id).word lstPage 0x018).testBit 11 = true := by
  have hmarked := State.jobsBut_lateMarked s id
  have hstatus : apartFromRows lstPage 0x018 := ⟨by decide, by decide, .inl (by decide)⟩
  have hedits {f : Job → Job} (h : s.lateMarked.Edits (s.makeLate id) id f) :
      (s.makeLate id).now = s.now ∧ s.jobsBut (s.makeLate id) id ∧ ((s.makeLate id).word lstPage 0x018).testBit 11 = true :=
    ⟨h.now.trans s.now_lateMarked, State.jobsBut_trans hmarked h.others, by rw [h.word _ _ hstatus]; exact s.lateMarked_status⟩
  rcases (by omega : (j.record j.layer).policy = 0 ∨ (j.record j.layer).policy = 1 ∨ 2 ≤ (j.record j.layer).policy) with h0 | h1 | h2
  · exact hedits (State.makeLate_waits_edits hjob h0)
  · exact hedits (State.makeLate_fallsBack_edits hjob h1)
  · have hjob' := (s.job_lateMarked id).trans hjob
    rw [State.makeLate_aborts hjob h2]
    refine ⟨(State.abortJob_now hjob' (.inr hstate) 6).trans s.now_lateMarked, State.jobsBut_trans hmarked (State.abortJob_jobsBut hjob' (.inr hstate) 6), ?_⟩
    rw [State.abortJob_status hjob' (.inr hstate) 6, Nat.testBit_or, s.lateMarked_status, Bool.true_or]

end

/-! ### Deadlines, waits and overruns -/

section
variable {s : State} {id : Nat} {j : Job} (hjob : s.job id = some j) (hstate : j.state = 2)
include hjob hstate

theorem exec_layerDeadline (hphase : j.phase = .waitWeights) :
    exec (.layerDeadline id) s = .next ((s.until ((j.layerAt / 1000 + (j.record j.layer).deadline) * 1000)).makeLate id) := by
  have hexec : exec (.layerDeadline id) s = execLayerDeadline id s := rfl
  rw [hexec, execLayerDeadline, hjob]
  simp [hphase, hstate, done]

omit hstate in
theorem exec_layerDeadline_idle (hphase : j.phase ≠ .waitWeights) : exec (.layerDeadline id) s = .next s := by
  have hexec : exec (.layerDeadline id) s = execLayerDeadline id s := rfl
  rw [hexec, execLayerDeadline, hjob]
  simp [hphase, done]

/-- The deadline of a layer that waits for its weights (R187, R188). -/
theorem layerDeadline_effect (hphase : j.phase = .waitWeights) :
    ∃ t, exec (.layerDeadline id) s = .next t ∧ t.now = max s.now ((j.layerAt / 1000 + (j.record j.layer).deadline) * 1000) ∧ s.jobsBut t id
      ∧ (t.word lstPage 0x018).testBit 11 = true
      ∧ ((j.record j.layer).policy = 0 → ∃ x, t.job id = some x ∧ x.state = 2 ∧ x.phase = .late ∧ x.lateAt = t.now)
      ∧ ((j.record j.layer).policy = 1 → ∃ x, t.job id = some x ∧ x.state = 2 ∧ x.phase = .waitRows ∧ x.recNo = (j.record j.layer).fbFirst
          ∧ x.fbLeft = (j.record j.layer).fbCount - 1 ∧ x.layer = j.layer ∧ x.fillOf j.layer = none ∧ x.askedAt = t.now)
      ∧ (2 ≤ (j.record j.layer).policy → t.stoppedFor id 6) := by
  let u := s.until ((j.layerAt / 1000 + (j.record j.layer).deadline) * 1000)
  have hu : u.job id = some j := hjob
  have hmarked : u.lateMarked.job id = some j := (u.job_lateMarked id).trans hu
  obtain ⟨hnow, hothers, hbit⟩ := State.makeLate_frame hu hstate
  refine ⟨_, exec_layerDeadline hjob hstate hphase, hnow, hothers, hbit, fun h0 => ?_, fun h1 => ?_, fun h2 => ?_⟩
  · have hjob' := (State.makeLate_waits_edits hu h0).job
    rw [hmarked] at hjob'
    exact ⟨_, hjob', hstate, rfl, hnow.symm⟩
  · have hjob' := (State.makeLate_fallsBack_edits hu h1).job
    rw [hmarked] at hjob'
    exact ⟨_, hjob', hstate, rfl, rfl, rfl, rfl, j.fallsBack_fillOf (j.record j.layer) u.now, hnow.symm⟩
  · rw [State.makeLate_aborts hu h2]
    exact State.abortJob_stoppedFor hmarked (.inr hstate) 6

/-- A moment falls due at which a job is aborted. -/
theorem State.until_abortJob (due cause : Nat) : ((s.until due).abortJob id cause).now = max s.now due
    ∧ s.jobsBut ((s.until due).abortJob id cause) id ∧ ((s.until due).abortJob id cause).stoppedFor id cause := by
  have hu : (s.until due).job id = some j := hjob
  exact ⟨State.abortJob_now hu (.inr hstate) cause, State.abortJob_jobsBut hu (.inr hstate) cause, State.abortJob_stoppedFor hu (.inr hstate) cause⟩

omit hstate in
theorem exec_lateWaitExpiry : exec (.lateWaitExpiry id) s
    = .next (if j.phase = .late then (s.until (j.lateAt + us * (j.record j.layer).maxWait)).abortJob id 5 else s) := by
  have hexec : exec (.lateWaitExpiry id) s = execLateWaitExpiry id s := rfl
  rw [hexec, execLateWaitExpiry, hjob]
  by_cases hphase : j.phase = .late <;> simp [hphase, done]

omit hstate in
theorem exec_overrun : exec (.overrun id) s
    = .next (if j.phase = .running ∨ j.phase = .waitPass ∨ j.phase = .chain then (s.until (j.layerAt + us * (2 ^ 31 - 1))).abortJob id 12 else s) := by
  have hexec : exec (.overrun id) s = execOverrun id s := rfl
  rw [hexec, execOverrun, hjob]
  by_cases hphase : j.phase = .running ∨ j.phase = .waitPass ∨ j.phase = .chain <;> simp [hphase, done]

end

/-! ### Row faults -/

/-- A fault that concerns the row alone, and not a cluster, names cluster 0 (R169). -/
def faultCluster (phys cause : Nat) : Nat := if cause = 3 ∨ cause = 5 then 0 else phys

/-- A row's page shows the cluster and the cause of its fault, and the time (R169). -/
def State.showsFault (t : State) (row p cause now : Nat) : Prop :=
  t.word (tnsPage row) 0x130 = p + cause * 2 ^ 6 ∧ t.word64 (tnsPage row) 0x138 = now % 2 ^ 64

section
variable (s : State)

theorem State.jobsAt_recordUe (place foundBy a : Nat) : (s.recordUe place foundBy a).jobsAt = s.jobsAt := by
  have hreported (u : State) (x : RepairUnit) : (u.reported x).jobsAt = u.jobsAt := by
    unfold State.reported
    split <;> rfl
  unfold State.recordUe
  extract_lets s1
  have hs1 : s1.jobsAt = s.jobsAt := by simp [s1]
  split
  · rw [hreported, hs1]
  · exact hs1

theorem State.jobsAt_collide (x : Spot) (loser : BankUser) (core : Nat) : (s.collide x loser core).jobsAt = s.jobsAt := by
  unfold State.collide State.errCount
  exact (State.jobsAt_err _ _ _).trans ((State.jobsAt_count _ _ _ _).trans ((State.jobsAt_setWord64 _ _ _ _).trans (State.jobsAt_setWord64 _ _ _ _)))

/-- A collision sets bit 8 of the stores' ERR_STATUS (R311). -/
theorem State.collide_status (x : Spot) (loser : BankUser) (core : Nat) : ((s.collide x loser core).word 0x0D0 0x018).testBit 8 = true := by
  unfold State.collide
  simp only []
  rw [State.errCount_status _ _ _ _ (by decide) (by decide) (by decide), Nat.testBit_or, Nat.testBit_two_pow_self, Bool.or_true]

theorem State.rowCollision_collides (row phys : Nat) : ∃ (u : State) (x : Spot) (loser : BankUser), u.jobsAt = s.jobsAt ∧ s.rowCollision row phys = u.collide x loser 0 := by
  unfold State.rowCollision
  simp only []
  split
  · exact ⟨s.draw.2, _, _, rfl, rfl⟩
  · exact ⟨s.draw.2, _, _, rfl, rfl⟩

theorem State.jobsAt_faultPages (row phys cause : Nat) (collision : Bool) : (s.faultPages row phys cause collision).jobsAt = s.jobsAt := by
  unfold State.faultPages
  simp only []
  split
  · simp
  · rw [State.jobsAt_err, State.jobsAt_count, State.jobsAt_recordUe]
    rfl
  · split
    · obtain ⟨u, x, loser, hu, hcollides⟩ := s.rowCollision_collides row phys
      rw [hcollides, State.jobsAt_collide, hu]
    · rw [State.jobsAt_recordUe]
      rfl
  · rfl

theorem State.faultPages_status (row phys : Nat) : ((s.faultPages row phys 3 true).word 0x0D0 0x018).testBit 8 = true := by
  obtain ⟨u, x, loser, -, hcollides⟩ := s.rowCollision_collides row phys
  rw [show s.faultPages row phys 3 true = s.rowCollision row phys from rfl, hcollides]
  exact u.collide_status x loser 0

theorem State.jobsAt_recordFault (row phys cause : Nat) : (s.recordFault row phys cause).jobsAt = s.jobsAt := by
  simp [State.recordFault]

theorem State.word_recordFault {row phys cause p o : Nat} (hp : p < 0x100) (hicu : p ≠ 0x0C1) (ho : o < 0x180) :
    (s.recordFault row phys cause).word p o = s.word p o := by
  have htns : tnsPage row = 0x100 + row := rfl
  unfold State.recordFault State.setWord64
  rw [State.word_err _ _ _ _ _ hicu ho (by omega) (by omega), State.word_count _ _ _ _ _ _ (by omega), State.word_setWord_ne _ _ _ _ _ _ (by omega),
    State.word_setWord_ne _ _ _ _ _ _ (by omega), State.word_setWord_ne _ _ _ _ _ _ (by omega)]

theorem State.recordFault_shows {row phys cause : Nat} (hphys : phys < 34) (hcause : cause ≤ 5) :
    (s.recordFault row phys cause).showsFault row (faultCluster phys cause) cause s.now := by
  have hicu : tnsPage row ≠ 0x0C1 := by unfold tnsPage; omega
  have hkept (u : State) (o : Nat) (ho : 0x130 ≤ o) (ho' : o < 0x180) : ((u.count (tnsPage row) 1).err (tnsPage row) 8).word (tnsPage row) o = u.word (tnsPage row) o := by
    rw [State.word_err _ _ _ _ _ hicu ho' (by omega) (by omega), State.word_count _ _ _ _ _ _ (by omega)]
  have hcluster : faultCluster phys cause < 34 := by unfold faultCluster; split <;> omega
  unfold State.recordFault State.setWord64
  refine ⟨?_, ?_⟩
  · rw [hkept _ _ (by omega) (by omega), State.word_setWord_ne _ _ _ _ _ _ (by omega), State.word_setWord_ne _ _ _ _ _ _ (by omega), State.word_setWord_self]
    exact Nat.mod_eq_of_lt (by unfold faultCluster at hcluster; omega)
  · unfold State.word64
    rw [hkept _ _ (by omega) (by omega), hkept _ _ (by omega) (by omega), State.word_setWord_ne _ _ _ _ _ _ (by omega), State.word_setWord_self, State.word_setWord_self]
    omega

end

section
variable {s : State} {row phys cause : Nat} {j : Job}

/-- What a row fault has left of its row's page, its job and the other jobs. -/
structure State.Faulted (s t : State) (row p cause : Nat) (j : Job) : Prop where
  others : s.jobsBut t j.id
  job : ∃ x, t.job j.id = some x ∧ x.state = 3 ∧ x.cause = 7 ∧ x.faultPhys = p ∧ x.faultCause = cause ∧ x.faultRow = row
    ∧ (j.state = 2 → x.running = 0#16 ∧ x.fills = [])
  shows : t.showsFault row p cause s.now

theorem State.rowFaults_faulted (hjob : s.job j.id = some j) (hstate : j.state = 2) (hphys : phys < 34) (hcause : cause ≤ 5) :
    s.Faulted (s.rowFaults j row phys cause) row (faultCluster phys cause) cause j
      ∧ ∀ p o, p < 0x100 → p ≠ 1 → p ≠ 0x0C1 → p ≠ lstPage → o < 0x180 → (s.rowFaults j row phys cause).word p o = s.word p o := by
  let u := s.recordFault row phys cause
  let v := u.modJob j.id (fun x => { x with faultPhys := faultCluster phys cause, faultCause := cause, faultRow := row })
  have hu : u.jobsAt = s.jobsAt := s.jobsAt_recordFault row phys cause
  have hedits : u.Edits v j.id _ := u.modJob_edits j.id _
  have hv := hedits.job
  rw [State.job_of_lst (State.lst_of_jobsAt hu), hjob] at hv
  have hend : s.rowFaults j row phys cause = v.abortJob j.id 7 := rfl
  have hword {p o : Nat} (hpo : apartFromRows p o) (hicu : p ≠ 0x0C1) (hlst : p ≠ lstPage) (ho : o < 0x180) : (v.abortJob j.id 7).word p o = u.word p o :=
    State.abortJob_word_apart hv (.inr hstate) 7 hpo hicu hlst ho
  rw [hend]
  refine ⟨⟨?_, ?_, ?_⟩, fun p o hp hone hicu hlst ho => ?_⟩
  · exact State.jobsBut_trans (State.jobsBut_of_lst (State.lst_of_jobsAt hu) j.id) (State.jobsBut_trans hedits.others (State.abortJob_jobsBut hv (.inr hstate) 7))
  · obtain ⟨waits, b, hstopped⟩ := State.abortJob_job hv (.inr hstate) 7
    exact ⟨_, hstopped, rfl, rfl, rfl, rfl, rfl, fun _ => ⟨rfl, rfl⟩⟩
  · obtain ⟨hcluster, htime⟩ := s.recordFault_shows (row := row) hphys hcause
    have hpage : tnsPage row = 0x100 + row ∧ lstPage = 0x090 := ⟨rfl, rfl⟩
    have htns {o : Nat} (ho : 0x130 ≤ o) (ho' : o < 0x180) : (v.abortJob j.id 7).word (tnsPage row) o = u.word (tnsPage row) o :=
      hword ⟨by omega, by omega, .inr ⟨by omega, by omega⟩⟩ (by omega) (by omega) ho'
    refine ⟨(htns (by omega) (by omega)).trans hcluster, ?_⟩
    rw [State.word64, htns (by omega) (by omega), htns (by omega) (by omega)]
    exact htime
  · rw [hword ⟨by omega, hone, .inl hp⟩ hicu hlst ho]
    exact s.word_recordFault hp hicu ho

/-- A fault that governs a late decision aborts its job, or names itself as the cause of the abort (R203). -/
theorem State.faultGoverns_faulted (hjob : s.job j.id = some j) (hstate : j.state = 2 ∨ j.state = 3) (hphys : phys < 34) (hcause : cause ≤ 5) :
    s.Faulted (s.faultGoverns j row phys cause) row (faultCluster phys cause) cause j := by
  unfold State.faultGoverns
  split
  next haborted =>
    let u := s.recordFault row phys cause
    have hu : u.jobsAt = s.jobsAt := s.jobsAt_recordFault row phys cause
    have hedits := u.modJob_edits j.id (fun x => { x with cause := 7, faultPhys := faultCluster phys cause, faultCause := cause, faultRow := row })
    have hjob' := hedits.job
    rw [State.job_of_lst (State.lst_of_jobsAt hu), hjob] at hjob'
    exact ⟨State.jobsBut_trans (State.jobsBut_of_lst (State.lst_of_jobsAt hu) j.id) hedits.others,
      ⟨_, hjob', haborted, rfl, rfl, rfl, rfl, fun hrunning => absurd hrunning (by omega)⟩, s.recordFault_shows hphys hcause⟩
  next hrunning => exact (State.rowFaults_faulted hjob (by omega) hphys hcause).1

theorem State.Faulted.of_jobsAt {t u : State} {p : Nat} (h : t.Faulted u row p cause j) (ht : t.jobsAt = s.jobsAt) : s.Faulted u row p cause j :=
  ⟨State.jobsBut_trans (State.jobsBut_of_lst (State.lst_of_jobsAt ht) j.id) h.others, h.job, State.now_of_jobsAt ht ▸ h.shows⟩

end

/-- A row's job has been aborted in this nanosecond by another row's fault (R170). -/
def State.abortedNow (s : State) (row : Nat) (j : Job) : Prop := j.state = 3 ∧ j.cause = 7 ∧ j.endTime = s.now ∧ j.rows.getLsbD row = true

/-- A row's fault of a cause meets such an abort: a codebook number beyond the set only where the layer has a codebook (R170). -/
def State.secondFault (s : State) (row cause : Nat) (j : Job) : Bool :=
  decide (j.state = 3 ∧ j.cause = 7 ∧ j.endTime = s.now) && j.rows.getLsbD row && (decide (cause ≠ 4) || decide ((j.record j.recNo).wf = 0))

theorem State.secondFault_iff {s : State} {row cause : Nat} {j : Job} :
    s.secondFault row cause j = true ↔ s.abortedNow row j ∧ (cause = 4 → (j.record j.recNo).wf = 0) := by
  simp only [State.secondFault, State.abortedNow, Bool.and_eq_true, Bool.or_eq_true, decide_eq_true_eq, and_assoc, ne_eq, ← Decidable.imp_iff_not_or]

section
variable {s : State} {row : Fin 16} {phys cause : Nat} {collision : Bool}

theorem exec_rowFault_unknown (hcause : cause = 0 ∨ 5 < cause) : exec (.rowFault row phys cause collision) s = .next s := by
  have hexec : exec (.rowFault row phys cause collision) s = execRowFault row phys cause s collision := rfl
  have hnamed : ¬(cause = 1 ∨ cause = 2 ∨ cause = 3 ∨ cause = 5) ∧ cause ≠ 4 := by omega
  obtain ⟨hrow, hbook⟩ := hnamed
  have hany : ¬(cause = 1 ∨ cause = 2 ∨ cause = 3 ∨ cause = 4 ∨ cause = 5) := by omega
  rw [hexec, execRowFault]
  simp only [if_neg hrow, if_neg hbook]
  split
  · rfl
  split
  · exact if_neg (by omega)
  · exact if_neg (fun h => hany h.1)

section
variable {j : Job} (hrow : s.lst.jobs.find? (fun j => decide (nth16 s.tns.runBy row.val = j.id + 1)) = some j)
include hrow

theorem exec_rowFault_running (hcause : cause = 1 ∨ cause = 2 ∨ cause = 3 ∨ cause = 5) :
    exec (.rowFault row phys cause collision) s
      = .next ((s.faultPages row.val (phys % 34) cause collision).rowFaults j row.val (phys % 34) cause) := by
  have hexec : exec (.rowFault row phys cause collision) s = execRowFault row phys cause s collision := rfl
  rw [hexec, execRowFault, hrow]
  exact if_pos hcause

theorem exec_rowFault_book : exec (.rowFault row phys 4 collision) s
    = .next ((s.codebookFault j row.val).elim s (fun c => s.rowFaults j row.val c 4)) := by
  have hexec : exec (.rowFault row phys 4 collision) s = execRowFault row phys 4 s collision := rfl
  rw [hexec, execRowFault, hrow]
  cases hfault : s.codebookFault j row.val <;> simp [hfault, done]

/-- A fault of a row that runs a job (R168, R169). -/
theorem rowFault_running (hjob : s.job j.id = some j) (hstate : j.state = 2) {p : Nat}
    (hp : ((cause = 1 ∨ cause = 2 ∨ cause = 3 ∨ cause = 5) ∧ p = faultCluster (phys % 34) cause) ∨ (cause = 4 ∧ s.codebookFault j row.val = some p ∧ p < 34)) :
    ∃ t, exec (.rowFault row phys cause collision) s = .next t ∧ s.Faulted t row.val p cause j
      ∧ (cause = 3 → collision = true → (t.word 0x0D0 0x018).testBit 8 = true) := by
  rcases hp with ⟨hcause, rfl⟩ | ⟨rfl, hbook, hlt⟩
  · let u := s.faultPages row.val (phys % 34) cause collision
    have hu : u.jobsAt = s.jobsAt := s.jobsAt_faultPages _ _ _ _
    have hjob' : u.job j.id = some j := (State.job_of_lst (State.lst_of_jobsAt hu) j.id).trans hjob
    obtain ⟨hfaulted, hword⟩ := State.rowFaults_faulted (row := row.val) hjob' hstate (Nat.mod_lt phys (by decide)) (show cause ≤ 5 by omega)
    refine ⟨_, exec_rowFault_running hrow hcause, hfaulted.of_jobsAt hu, ?_⟩
    rintro rfl rfl
    rw [hword 0x0D0 0x018 (by decide) (by decide) (by decide) (by decide) (by decide)]
    exact s.faultPages_status _ _
  · obtain ⟨hfaulted, -⟩ := State.rowFaults_faulted (row := row.val) hjob hstate hlt (show 4 ≤ 5 by decide)
    refine ⟨_, ?_, hfaulted, fun h => absurd h (by decide)⟩
    rw [exec_rowFault_book hrow, hbook, Option.elim_some]

end

section
variable (hrow : s.lst.jobs.find? (fun j => decide (nth16 s.tns.runBy row.val = j.id + 1)) = none)
include hrow

/-- A fault of a row whose layer ended in this nanosecond with a late decision (R203). -/
theorem rowFault_governs {j : Job} (hlate : s.lst.jobs.find? (s.lateNow row.val) = some j) (hjob : s.job j.id = some j) (hstate : j.state = 2 ∨ j.state = 3)
    (hcause : cause = 1 ∨ cause = 2 ∨ cause = 3 ∨ cause = 5 ∨ (cause = 4 ∧ (j.record j.lastRecord).wf = 0)) :
    ∃ t, exec (.rowFault row phys cause collision) s = .next t ∧ s.Faulted t row.val (faultCluster (phys % 34) cause) cause j := by
  have hexec : exec (.rowFault row phys cause collision) s
      = .next ((s.faultPages row.val (phys % 34) cause collision).faultGoverns j row.val (phys % 34) cause) := by
    have hexec : exec (.rowFault row phys cause collision) s = execRowFault row phys cause s collision := rfl
    rw [hexec, execRowFault, hrow]
    simp only [hlate]
    exact if_pos hcause
  have hu := s.jobsAt_faultPages row.val (phys % 34) cause collision
  have hjob' := (State.job_of_lst (State.lst_of_jobsAt hu) j.id).trans hjob
  exact ⟨_, hexec, (State.faultGoverns_faulted hjob' hstate (Nat.mod_lt phys (by decide)) (by omega)).of_jobsAt hu⟩

variable (hlate : ∀ j ∈ s.lst.jobs, s.lateNow row.val j = false)
include hlate

theorem exec_rowFault_after : exec (.rowFault row phys cause collision) s
    = .next (if (cause = 1 ∨ cause = 2 ∨ cause = 3 ∨ cause = 4 ∨ cause = 5) ∧ s.lst.jobs.any (s.secondFault row.val cause)
      then (s.faultPages row.val (phys % 34) cause collision).recordFault row.val (phys % 34) cause else s) := by
  have hexec : exec (.rowFault row phys cause collision) s = execRowFault row phys cause s collision := rfl
  have hnone : s.lst.jobs.find? (s.lateNow row.val) = none := List.find?_eq_none.2 (fun j hj => by simp [hlate j hj])
  rw [hexec, execRowFault, hrow]
  simp only [hnone]
  exact (apply_ite done _ _ _).symm

/-- A fault of a row that no job runs on, and whose job no fault has aborted in this nanosecond. -/
theorem exec_rowFault_idle (habort : ∀ j ∈ s.lst.jobs, ¬s.abortedNow row.val j) : exec (.rowFault row phys cause collision) s = .next s := by
  rw [exec_rowFault_after hrow hlate, if_neg]
  rintro ⟨-, hany⟩
  obtain ⟨j, hj, hsecond⟩ := List.any_eq_true.1 hany
  exact habort j hj (State.secondFault_iff.1 hsecond).1

/-- A second row's fault is recorded in its own row (R170). -/
theorem rowFault_second (hone : 1 ≤ cause) (hfive : cause ≤ 5) (habort : ∃ j ∈ s.lst.jobs, s.abortedNow row.val j ∧ (cause = 4 → (j.record j.recNo).wf = 0)) :
    ∃ t, exec (.rowFault row phys cause collision) s = .next t ∧ t.showsFault row.val (faultCluster (phys % 34) cause) cause s.now ∧ t.lst = s.lst := by
  obtain ⟨j, hj, hsecond⟩ := habort
  have hany : s.lst.jobs.any (s.secondFault row.val cause) = true := List.any_eq_true.2 ⟨j, hj, State.secondFault_iff.2 hsecond⟩
  let u := s.faultPages row.val (phys % 34) cause collision
  have hu : u.jobsAt = s.jobsAt := s.jobsAt_faultPages _ _ _ _
  refine ⟨u.recordFault row.val (phys % 34) cause, ?_, ?_, State.lst_of_jobsAt ((u.jobsAt_recordFault _ _ _).trans hu)⟩
  · rw [exec_rowFault_after hrow hlate, if_pos ⟨by omega, hany⟩]
  · rw [← State.now_of_jobsAt hu]
    exact u.recordFault_shows (Nat.mod_lt phys (by decide)) hfive

end

end

/-- Settles O36, by what an abort makes of its job and leaves besides: a late layer follows its policy, a late wait, an overrun and a row fault abort, and a row fault is shown in its row. -/
theorem lateLayersAndFaultsFollowTheirPolicy : Obligations.LateLayersAndFaultsFollowTheirPolicy := by
  refine ⟨fun s id j hjob hstate => ⟨layerDeadline_effect hjob hstate, exec_layerDeadline_idle hjob, fun hphase => ?_, fun hphase => ?_, fun hphase => ?_,
    fun hrunning hpass hchain => ?_⟩, fun s row phys cause collision => ⟨fun j hrow hjob hstate => ⟨fun p hp => ?_, ?_⟩, fun hrow => ⟨?_, ?_, ?_⟩,
    exec_rowFault_unknown⟩⟩
  · exact ⟨_, (exec_lateWaitExpiry hjob).trans (by rw [if_pos hphase]), State.until_abortJob hjob hstate _ _⟩
  · rw [exec_lateWaitExpiry hjob, if_neg hphase]
  · exact ⟨_, (exec_overrun hjob).trans (by rw [if_pos hphase]), State.until_abortJob hjob hstate _ _⟩
  · rw [exec_overrun hjob, if_neg (by simp [hrunning, hpass, hchain])]
  · obtain ⟨t, hexec, ⟨hothers, ⟨x, hx, hstate', hcause, hphys, hfault, hat, hstopped⟩, hshows⟩, hcollision⟩ := rowFault_running hrow hjob hstate hp
    obtain ⟨hrunning, hfills⟩ := hstopped hstate
    exact ⟨t, x, hexec, hx, hothers, hstate', hcause, hrunning, hfills, hphys, hfault, hat, hshows, hcollision⟩
  · rintro rfl hnone
    rw [exec_rowFault_book hrow, hnone, Option.elim_none]
  · intro hidle
    exact exec_rowFault_idle hrow (fun j hj => (hidle j hj).2) (fun j hj => (hidle j hj).1)
  · intro j hlate hjob hstate hcause
    obtain ⟨t, hexec, hothers, ⟨x, hx, hstate', hseven, hphys, hfault, hat, -⟩, hshows⟩ := rowFault_governs hrow hlate hjob hstate hcause
    exact ⟨t, x, hexec, hx, hothers, hstate', hseven, hphys, hfault, hat, hshows⟩
  · exact fun hone hfive hlate habort => rowFault_second hrow hlate hone hfive habort

end Sys2Proof.Machine
end

section
/-! PROOFS. A COPY whose source lies at 2^44 or beyond (R26, R51, R209): in a range of more than 2^44 bytes such an address is one of the unified range too, but the copy takes it for one of the map reserve. -/

namespace Sys2Proof.Machine

/-! ### A source beyond 2^44 -/

/-- A region of the whole range at address 0 that every port may read and write. -/
def wideRegion : Region := { valid := true, kind := 3, readMask := 63, writeMask := 63, size := 2 ^ 44 + 2 ^ 30 }

/-- A COPY of the line at address 2^44 to address 0, which runs. -/
def reserveCopy : Desc := { op := 1, length := 64, dst := 0, srcs := [2 ^ 44], stage := 1 }

/-- A chain of that descriptor, with port 0's rights. -/
def reserveChain : Chain := { id := 0, actor := 0, cls := 1, descs := [reserveCopy] }

/-- The machine after reset, with a range of 16,385 GiB, that region, zero vat tiles at addresses 0 and 2^44, and that chain, whose unit waits at engine 0. (RANGE_GIB has 15 bits; R26 lets a requester set 16,384 at most. The statement ranges over every state, so over this one.) -/
def reserveState : State :=
  let s := State.reset.setWord 0x012 0x100 16385
  { s with
    rgn := { s.rgn with entries := [(0, wideRegion)] }
    mem := { s.mem with
      tierMap := [(0, BitVec.ofNat 64 (10000000 * 2 ^ 24 + 1)), (2 ^ 30, BitVec.ofNat 64 (10000001 * 2 ^ 24 + 1))]
      slotUse := [(10000000, .tile), (10000001, .tile)] }
    den := { chains := [reserveChain], units := [⟨0, 0, 0, some 0⟩] } }

theorem reserveState_unheld : reserveState.unheld := by
  refine ⟨rfl, rfl, fun w hw => ?_, rfl, rfl⟩
  exact absurd hw List.not_mem_nil

theorem reserveState_calm : reserveState.calm := by
  have hundemanded : reserveState.ports.toList.all (fun q => q.tags.all (fun g => !g.demanded)) = true := by decide +kernel
  refine ⟨rfl, fun n hn => ?_, reserveState.draftPending_of_undemanded hundemanded⟩
  exact absurd hn List.not_mem_nil

theorem reserveState_findRegion {a : Nat} (ha : a = 0 ∨ a = 2 ^ 44) : reserveState.findRegion a = some (0, wideRegion) := by
  rcases ha with rfl | rfl <;> decide +kernel

theorem reserveState_unpublished {a : Nat} (ha : a = 0 ∨ a = 2 ^ 44) : ∀ g r, reserveState.findRegion a = some (g, r) → r.kind ≠ 2 := by
  intro g r hr
  obtain ⟨-, rfl⟩ := Prod.mk.inj (Option.some.inj ((reserveState_findRegion ha).symm.trans hr))
  decide

theorem reserveState_inService (a : Nat) : reserveState.inService a := ⟨rfl, rfl, fun _ => rfl⟩

theorem reserveState_writable : reserveState.writable 0 0 :=
  ⟨by decide, by decide +kernel, reserveState_unpublished (.inl rfl), by decide +kernel, reserveState_inService 0⟩

theorem reserveState_readable : reserveState.readable 0 (2 ^ 44) :=
  ⟨by decide, by decide +kernel, reserveState_unpublished (.inr rfl), by decide +kernel, reserveState_inService (2 ^ 44)⟩

/-- The first byte of the line copied is that of the tier-map entry of tile 0, whose HOME is 1, where the line at 2^44 is zero. -/
theorem exec_copy_reserve : ∃ t, exec (.copy 0 0 0 [] none) reserveState = .next t ∧ (t.lineAt 0).1.getD 0 0#8 = 1#8 := by
  have hafter : (match exec (.copy 0 0 0 [] none) reserveState with
      | .next t => (t.lineAt 0).1.getD 0 0#8
      | _ => 0#8) = 1#8 := by decide +kernel
  split at hafter
  next t hexec => exact ⟨t, hexec, hafter⟩
  · cases hafter

/-- Refutes O38, in what it says of COPY: the destination is to hold the source's line, but in reserveState the source's address, which a region covers, is taken for one of the map reserve. -/
theorem not_engineUnitsHaveTheirEffect : ¬ Obligations.EngineUnitsHaveTheirEffect := by
  unfold Obligations.EngineUnitsHaveTheirEffect
  intro h
  obtain ⟨-, -, -, -, -, hunit⟩ := h reserveState 0 0 0 reserveState_unheld reserveState_calm
  have hready : reserveState.unitReady 0 0 0 1 = some (reserveChain, reserveCopy, 0) := by decide +kernel
  have hlines : reserveCopy.unitLines 0 = [(0, 0, 64)] := by decide +kernel
  obtain ⟨hwrites, -⟩ := hunit 1 reserveChain reserveCopy 0 hready rfl
  simp only [hlines, List.forall_mem_singleton] at hwrites
  obtain ⟨-, hwhole⟩ := hwrites reserveState_writable
  obtain ⟨hcopy, -⟩ := hwhole trivial
  obtain ⟨t, hexec, -, -, hline⟩ := hcopy trivial ⟨reserveState_readable, .inl rfl⟩
  obtain ⟨t', hexec', hbyte⟩ := exec_copy_reserve
  obtain rfl : t' = t := Host.Outcome.next.inj (hexec'.symm.trans hexec)
  have hzero : (reserveState.lineAt (2 ^ 44)).1.getD 0 0#8 = 0#8 := by decide +kernel
  have hsame : (t'.lineAt 0).1.getD 0 0#8 = (reserveState.lineAt (2 ^ 44)).1.getD 0 0#8 := congrArg (fun v : List Byte × Bool => v.1.getD 0 0#8) hline
  exact absurd (hbyte.symm.trans (hsame.trans hzero)) (by decide)

end Sys2Proof.Machine
end

section
/-! PROOFS. The publication of a gradient round wakes the waits for its edition (R138, R223): one that has the queue and the sequence number of a contributor's entry ends that entry before the round does, with the edition and not with the round's result. -/

namespace Sys2Proof.Machine

/-! ### A wait under the number of a contributor's entry -/

/-- The entry of a service call that runs. -/
def contributingEntry : Entry := { queue := 0, seq := 0, opcode := 0x50, stage := 2 }

/-- An EDITION_WAIT for edition 1 of region 0, of the same queue and under the same sequence number. -/
def waitingEntry : Entry := { queue := 0, seq := 0, opcode := 0x43, stage := 2, dw1 := 1 }

/-- An open group of port 0 alone: eight FP64 elements at the start of region 0. -/
def loneGroup : Group := { isOpen := true, mask := 1, fmt := 1, count := 8, timeoutUs := 10 }

/-- A published region of 2 MiB at address 0. -/
def roundRegion : Region := { valid := true, kind := 2, readMask := 63, writeMask := 63, size := 2 ^ 21 }

/-- The call of port 0 that contributes. -/
def roundCall : SvcCall := ⟨0, 0, 3, 1, 0, 0, 1⟩

/-- The machine after reset, with these entries, that call, group and region, of which the internal writer's draft holds the first tile. (In a run of the block the entries of a queue have sequence numbers of their own. The statement ranges over every state, so over this one.) -/
def wakingState : State :=
  { State.reset with
    rgn := { State.reset.rgn with entries := [(0, roundRegion)] }
    edn := { drafts := [{ region := 0, writer := internal, tiles := [{ tile := 0, slot := 10000000 }] }] }
    qmg := { State.reset.qmg with entries := [contributingEntry, waitingEntry] }
    svc := { State.reset.svc with calls := [roundCall], groups := [(0, loneGroup)] } }

theorem wakingState_unheld : wakingState.unheld := by
  refine ⟨rfl, rfl, fun w hw => ?_, rfl, rfl⟩
  exact absurd hw List.not_mem_nil

theorem wakingState_calm : wakingState.calm := by
  have hundemanded : wakingState.ports.toList.all (fun q => q.tags.all (fun g => !g.demanded)) = true := by decide +kernel
  refine ⟨rfl, fun n hn => ?_, wakingState.draftPending_of_undemanded hundemanded⟩
  exact absurd hn List.not_mem_nil

/-- Port 0's contribution of the eight elements at 1 MiB. -/
def loneContribution : Contribution := ⟨0, 0, 0, 1, 2 ^ 20, 1⟩

/-- The contribution fills the round, which is reduced and published: the call's entry ends with the port of the edition as its second value. -/
theorem exec_contribute_waking :
    ∃ t x, exec (.contribute 0 0 0 1 (2 ^ 20) [] none) wakingState = .next t ∧ t.entry 0 0 = some x ∧ x.v1 = internal := by
  have hafter : (match exec (.contribute 0 0 0 1 (2 ^ 20) [] none) wakingState with
      | .next t => (t.entry 0 0).map (fun x : Entry => x.v1)
      | _ => none) = some internal := by decide +kernel
  split at hafter
  next t hexec =>
    obtain ⟨x, hentry, hv1⟩ := Option.map_eq_some_iff.mp hafter
    exact ⟨t, x, hexec, hentry, hv1⟩
  · cases hafter

/-- Refutes O41, in what it says of the contribution that fills a round: every contributor's entry is to end with the round's result and the value 0, but in wakingState it has ended before, with the edition and its port, by the wait that the publication wakes under the same sequence number. -/
theorem not_gradientRoundsAreHeldByEdition : ¬ Obligations.GradientRoundsAreHeldByEdition := by
  unfold Obligations.GradientRoundsAreHeldByEdition
  intro h
  obtain ⟨-, hcontribute, -⟩ := h wakingState 0 0 0 (by decide)
  have hfit : roundCall.actor < 6 ∧ (wakingState.group 0).mask.getLsbD roundCall.actor = true ∧ 2 ^ 20 % groupElem (wakingState.group 0).fmt = 0 := by
    decide +kernel
  have hfirst : ∀ p ∈ (wakingState.group 0).parts ++ (wakingState.group 0).later, ¬(p.queue = 0 ∧ p.seq = 0) :=
    fun p hp => absurd hp List.not_mem_nil
  have hwaits : wakingState.publishWaits (wakingState.group 0).region = false := by decide +kernel
  have hready : wakingState.enginesReady
      (Group.desc { wakingState.group 0 with round := some 1, openedAt := wakingState.now, parts := [loneContribution] }
        ((wakingState.region (wakingState.group 0).region).base + (wakingState.group 0).offset)) = true := by decide +kernel
  obtain ⟨-, -, -, hfills⟩ := hcontribute roundCall 1 (2 ^ 20) rfl wakingState_calm (by decide) hfirst
  obtain ⟨-, hfull⟩ := hfills _ rfl hfit (.inl ⟨rfl, rfl⟩)
  obtain ⟨-, hcloses⟩ := hfull (by decide +kernel) wakingState_unheld
  obtain ⟨⟨t, res, hexec, hends, -⟩, -⟩ := hcloses hwaits hready rfl
  obtain ⟨-, hentries⟩ := hends loneContribution (List.mem_singleton.2 rfl)
  obtain ⟨x, hentry, -, -, -, hv1⟩ := hentries contributingEntry rfl rfl (by decide)
  obtain ⟨t', x', hexec', hentry', hv1'⟩ := exec_contribute_waking
  obtain rfl : t' = t := Host.Outcome.next.inj (hexec'.symm.trans hexec)
  obtain rfl : x' = x := Option.some.inj (hentry'.symm.trans hentry)
  exact absurd (hv1'.symm.trans hv1) (by decide)

end Sys2Proof.Machine
end

section
/-! PROOFS. Lines of the vat that the work of queues, engines and services reads and writes (R19, R30, R42, R44, R62): a read answers the line as its slot holds it and counts its heat, a write changes that line alone. -/

namespace Sys2Proof.Machine

/-! ### Bytes of numbers -/

@[simp] theorem leBytes_length (n v : Nat) : (leBytes n v).length = n := by
  induction n generalizing v with
  | zero => rfl
  | succ n ih => simp [leBytes, ih]

theorem leNat_leBytes (n v : Nat) : leNat (leBytes n v) = v % 256 ^ n := by
  induction n generalizing v with
  | zero => simp [leBytes, leNat, Nat.mod_one]
  | succ n ih =>
    rw [leBytes, leNat, ih, BitVec.toNat_ofNat, show (256 : Nat) ^ (n + 1) = 256 * 256 ^ n from Nat.pow_succ', Nat.mod_mul]

/-! ### What accesses to vat lines leave -/

/-- The state with everything set aside that an access to a vat line may touch: what a counted access may, and the bytes and the poison of the vat. -/
def State.besideVat (s : State) : State := { s.unheated with mem := { s.unheated.mem with vat := [], vatPoison := [] } }

/-- From s to t lines of vat tiles were read and written: every tile keeps its place, and every register word outside the racking engine's second page its value. -/
structure State.Accesses (s t : State) : Prop where
  frame : t.besideVat = s.besideVat
  home : ∀ x, t.home x = s.home x
  loc : ∀ x, t.loc x = s.loc x
  word : ∀ p o, p ≠ 0x019 → o < 4096 → t.word p o = s.word p o

section
variable {s t u : State}

theorem State.Accesses.refl (s : State) : s.Accesses s := ⟨rfl, fun _ => rfl, fun _ => rfl, fun _ _ _ _ => rfl⟩

theorem State.Accesses.trans (h : s.Accesses t) (k : t.Accesses u) : s.Accesses u where
  frame := k.frame.trans h.frame
  home x := (k.home x).trans (h.home x)
  loc x := (k.loc x).trans (h.loc x)
  word p o hp ho := (k.word p o hp ho).trans (h.word p o hp ho)

theorem State.Heats.accesses (h : s.Heats t) : s.Accesses t where
  frame := congrArg (fun v => { v with mem := { v.mem with vat := [], vatPoison := [] } }) h.frame
  home := h.home
  loc := h.loc
  word := h.word

theorem State.putVatLine_accesses (s : State) (slot line : Nat) (v : List Byte × Bool) : s.Accesses (s.putVatLine slot line v) :=
  ⟨rfl, fun _ => rfl, fun _ => rfl, fun _ _ _ _ => rfl⟩

theorem State.markMove_heats (s : State) (t i : Nat) : s.Heats (s.markMove t i) :=
  ⟨rfl, s.sendsNoData_refl, fun _ => rfl, fun _ => rfl, fun _ _ _ _ => rfl⟩

theorem State.Accesses.rgn (h : s.Accesses t) : t.rgn = s.rgn := (congrArg State.rgn h.frame :)
theorem State.Accesses.dir (h : s.Accesses t) : t.dir = s.dir := (congrArg State.dir h.frame :)
theorem State.Accesses.qmg (h : s.Accesses t) : t.qmg = s.qmg := (congrArg State.qmg h.frame :)
theorem State.Accesses.svc (h : s.Accesses t) : t.svc = s.svc := (congrArg State.svc h.frame :)
theorem State.Accesses.lst (h : s.Accesses t) : t.lst = s.lst := (congrArg State.lst h.frame :)
theorem State.Accesses.den (h : s.Accesses t) : t.den = s.den := (congrArg State.den h.frame :)
theorem State.Accesses.pwr (h : s.Accesses t) : t.pwr = s.pwr := (congrArg State.pwr h.frame :)
theorem State.Accesses.ports (h : s.Accesses t) : t.ports = s.ports := (congrArg State.ports h.frame :)
theorem State.Accesses.channelOut (h : s.Accesses t) : t.mem.channelOut = s.mem.channelOut := congrArg (fun v => v.mem.channelOut) h.frame

theorem State.Accesses.field (h : s.Accesses t) (p o lo w : Nat) (hp : p ≠ 0x019) (ho : o < 4096) : t.field p o lo w = s.field p o lo w := by
  rw [State.field, h.word p o hp ho, State.field]

theorem State.Accesses.rangeGib (h : s.Accesses t) : t.rangeGib = s.rangeGib := h.field _ _ _ _ (by decide) (by decide)

theorem State.Accesses.findRegion (h : s.Accesses t) (a : Nat) : t.findRegion a = s.findRegion a := by
  rw [State.findRegion, h.rgn, State.findRegion]

theorem State.Accesses.refusal (h : s.Accesses t) (actor : Nat) (write hdmH : Bool) (a : Nat) : t.refusal actor write hdmH a = s.refusal actor write hdmH a := by
  rw [State.refusal, State.rangeBytes, h.rangeGib, h.findRegion]
  rfl

theorem State.Accesses.lineOut (h : s.Accesses t) (slot line : Nat) : t.lineOut slot line = s.lineOut slot line := by
  simp only [State.lineOut, h.channelOut]

theorem State.Accesses.inService (h : s.Accesses t) {a : Nat} (hs : s.inService a) : t.inService a := by
  simpa only [State.inService, h.lineOut, State.cmapPlace, h.rangeGib, h.home, h.loc, State.tmapPlace] using hs

theorem State.Accesses.readable (h : s.Accesses t) {actor a : Nat} (hs : s.readable actor a) : t.readable actor a := by
  obtain ⟨hline, hright, hkind, hhome, hin⟩ := hs
  exact ⟨hline, by rwa [h.refusal], by simpa only [h.findRegion] using hkind, by rwa [h.home], h.inService hin⟩

theorem State.Accesses.writable (h : s.Accesses t) {actor a : Nat} (hs : s.writable actor a) : t.writable actor a := by
  obtain ⟨hline, hright, hkind, hhome, hin⟩ := hs
  exact ⟨hline, by rwa [h.refusal], by simpa only [h.findRegion] using hkind, by rwa [h.home], h.inService hin⟩

theorem State.Accesses.unheld (h : s.Accesses t) (hs : s.unheld) : t.unheld := by rwa [State.unheld, h.dir]

theorem State.Accesses.calm (h : s.Accesses t) (hs : s.calm) : t.calm :=
  State.calm_of_kept h.dir (by funext p; rw [State.draftPending, h.ports, State.draftPending]) hs

theorem State.Accesses.entry (h : s.Accesses t) (q seq : Nat) : t.entry q seq = s.entry q seq := State.entry_of_qmg h.qmg q seq

theorem State.Accesses.lineAt_eq (h : s.Accesses t) (a : Nat) : t.lineAt a = t.vatLine (s.loc (tileOf a)) (lineOf a) := by rw [State.lineAt, h.loc]

theorem State.Heats.lineAt (h : s.Heats t) (a : Nat) : t.lineAt a = s.lineAt a := by rw [h.accesses.lineAt_eq, h.vatLine, State.lineAt]

end

/-! ### A line is read -/

theorem lineOf_lt (a : Nat) : lineOf a < 256 := by unfold lineOf; omega

section
variable {s : State} {actor a : Nat}

/-- An access that nothing refuses lies in a region (R42). -/
theorem State.findRegion_of_refusal {write hdmH : Bool} (h : s.refusal actor write hdmH a = none) : ∃ g r, s.findRegion a = some (g, r) := by
  cases hfind : s.findRegion a with
  | some e => exact ⟨e.1, e.2, rfl⟩
  | none =>
    unfold State.refusal at h
    split at h
    · cases h
    · simp [hfind] at h

theorem State.meshPoisons_none (h : s.dir.meshData = []) (actor : Nat) : s.meshPoisons actor = (false, s) := by simp [State.meshPoisons, h]

theorem State.workRefusal_unpassed (h : s.dir.passed = []) (actor : Nat) (write : Bool) (a : Nat) :
    s.workRefusal actor write a = s.refusal actor write false a := by simp [State.workRefusal, State.passedAs, h]

theorem State.writeEnded_unpassed (h : s.dir.passed = []) (actor line : Nat) : s.writeEnded actor line = false := by simp [State.writeEnded, h]

/-- A line of a vat tile in service is read from its slot (R19, R44). -/
theorem State.readTileEcc_vat {t i : Nat} (w : Traffic) (hhome : s.home t = 1) (hmap : s.lineOut (s.tmapPlace t).1 (s.tmapPlace t).2 = false)
    (hline : s.lineOut (s.loc t) i = false) :
    ∃ u, s.readTileEcc t i [] w = ((s.vatLine (s.loc t) i).1, (s.vatLine (s.loc t) i).2, false, u) ∧ s.Heats u := by
  have hlook := (s.lookTile_looks t w).heats
  have hfind : s.findTile t w (upsetAt [] (16384 * t + 64 * i) isTileMap) = s.lookTile t w := s.findTile_inService t w hmap
  have hupset : upsetAt [] (16384 * t + 64 * i) isHit = .none := rfl
  refine ⟨(s.lookTile t w).dramVat (s.loc t) i false w, ?_, hlook.trans (State.dramVat_looks _ _ _ _ _).heats⟩
  simp [State.readTileEcc, hfind, hhome, State.readVatEcc, hupset, hlook.home, hlook.loc, hlook.lineOut, hline, hlook.vatLine]

/-- Nothing refuses a read of a readable line (R30), and it answers what the slot holds. -/
theorem State.engRead_readable (hs : s.unheld) (h : s.readable actor a) (cls at' : Nat) :
    ∃ u, s.engRead actor cls a at' [] true = ({ data := (s.lineAt a).1, poison := (s.lineAt a).2 }, u) ∧ s.Heats u := by
  obtain ⟨-, hright, hkind, hhome, hmap, -, hline⟩ := h
  obtain ⟨-, -, -, hpassed, hmesh⟩ := hs
  obtain ⟨g, r, hregion⟩ := State.findRegion_of_refusal hright
  have hlook := (s.lookTile_looks (tileOf a) (workTraffic actor cls)).heats
  have hfind : s.findTile (tileOf a) (workTraffic actor cls) (upsetAt [] a isTileMap) = s.lookTile (tileOf a) (workTraffic actor cls) :=
    s.findTile_inService _ _ hmap
  obtain ⟨x, hx⟩ : ∃ x, x = s.lookTile (tileOf a) (workTraffic actor cls) := ⟨_, rfl⟩
  rw [← hx] at hlook hfind
  have hheat := hlook.trans (x.heatAccess_heats (t := tileOf a) x.engineInc (by rw [hlook.lineOut]; exact hmap))
  obtain ⟨u, hread, hu⟩ := State.readTileEcc_vat (s := x.heatAccess (tileOf a) x.engineInc) (t := tileOf a) (i := lineOf a) (workTraffic actor cls)
    (by rw [hheat.home, hhome]) (by rw [hheat.lineOut]; exact hmap) (by rw [hheat.lineOut, hheat.loc, hline hhome])
  refine ⟨u, ?_, hheat.trans hu⟩
  rw [hheat.vatLine, hheat.loc] at hread
  simp [State.engRead, s.meshPoisons_none hmesh, s.workRefusal_unpassed hpassed, hright, hfind, hlook.findRegion, hregion, hkind g r hregion, hread, State.lineAt]

/-- A read without the right to it is recorded and answers a poisoned line (R42). -/
theorem State.engRead_refused {reason : Nat} (hs : s.unheld) (h : s.refusal actor false false a = some reason) (cls at' : Nat) :
    s.engRead actor cls a at' [] true = (LineIn.bad true, s.recordRefusal actor false at' reason) := by
  obtain ⟨-, -, -, hpassed, hmesh⟩ := hs
  simp [State.engRead, s.meshPoisons_none hmesh, s.workRefusal_unpassed hpassed, h]

/-! ### Bytes are read -/

/-- The lines read in a row join their data and their marks. -/
theorem State.engRead_foldl (hs : s.unheld) {n : Nat} (cls first : Nat) (at' : Nat → Nat) (h : ∀ k, k < n → s.readable actor (64 * (first + k))) (init : LineIn) :
    ∃ u, (List.range n).foldl (fun (x : LineIn × State) k =>
        let (l, v) := x.2.engRead actor cls (64 * (first + k)) (at' k) [] true
        ({ data := x.1.data ++ l.data, poison := x.1.poison || l.poison, refused := x.1.refused || l.refused, ue := x.1.ue <|> l.ue }, v)) (init, s)
      = ({ init with data := init.data ++ (List.range n).flatMap (fun k => (s.lineAt (64 * (first + k))).1),
                     poison := init.poison || (List.range n).any (fun k => (s.lineAt (64 * (first + k))).2) }, u) ∧ s.Heats u := by
  induction n with
  | zero => exact ⟨s, by simp, .refl s⟩
  | succ n ih =>
    obtain ⟨u, hu, hheat⟩ := ih (fun k hk => h k (by omega))
    obtain ⟨v, hv, hheat'⟩ := State.engRead_readable (hheat.accesses.unheld hs) (hheat.accesses.readable (h n (by omega))) cls (at' n)
    refine ⟨v, ?_, hheat.trans hheat'⟩
    rw [List.range_succ, List.foldl_append, hu]
    simp [hv, hheat.lineAt, Bool.or_assoc]

/-- Bytes from readable lines: n of them, from the lines that they lie in. -/
theorem State.engBytes_readable (hs : s.unheld) (cls : Nat) {n m : Nat} (hm : (if n = 0 then 0 else (a + n - 1) / 64 - a / 64 + 1) = m)
    (h : ∀ k, k < m → s.readable actor (64 * (a / 64 + k))) :
    ∃ u, s.engBytes actor cls a n [] true
      = ({ data := (((List.range m).flatMap (fun k => (s.lineAt (64 * (a / 64 + k))).1)).drop (a % 64)).take n,
           poison := (List.range m).any (fun k => (s.lineAt (64 * (a / 64 + k))).2) }, u) ∧ s.Heats u := by
  obtain ⟨u, hu, hheat⟩ := State.engRead_foldl hs cls (a / 64) (fun k => max a (64 * (a / 64 + k))) h { data := [], poison := false }
  refine ⟨u, ?_, hheat⟩
  rw [State.engBytes, hm]
  simp only [hu]
  simp

/-- Bytes that lie in one readable line. -/
theorem State.engBytes_within (hs : s.unheld) (cls : Nat) {n : Nat} (hn : 0 < n) (hin : a % 64 + n ≤ 64) (h : s.readable actor (a / 64 * 64)) :
    ∃ u, s.engBytes actor cls a n [] true
      = ({ data := ((s.lineAt (a / 64 * 64)).1.drop (a % 64)).take n, poison := (s.lineAt (a / 64 * 64)).2 }, u) ∧ s.Heats u := by
  have hline : 64 * (a / 64 + 0) = a / 64 * 64 := by omega
  obtain ⟨u, hu, hheat⟩ := State.engBytes_readable (a := a) (n := n) (m := 1) hs cls (by rw [if_neg (by omega)]; omega)
    (fun k hk => by rw [show k = 0 by omega, hline]; exact h)
  refine ⟨u, hu.trans ?_, hheat⟩
  simp [Nat.mul_comm]

end

/-! ### A line is written -/

theorem mergeLine_length (old new : List Byte) (be : BitVec 64) : (mergeLine old new be).length = 64 := by simp [mergeLine]

theorem writeOver_kept {old : List Byte × Bool} (h : keptLine old) (new : List Byte) (be : BitVec 64) (poison : Bool) :
    keptLine (writeOver old new be poison) := by
  unfold writeOver
  split
  · exact ⟨by simp, fun _ => rfl⟩
  split
  · exact ⟨mergeLine_length _ _ _, by simp⟩
  split
  · exact h
  · exact ⟨mergeLine_length _ _ _, by simp⟩

/-- From s to t vat lines were read, and lines at the given addresses written. -/
structure State.Writes (s t : State) (as : List Nat) : Prop where
  accesses : s.Accesses t
  others : ∀ x j, j < 256 → (∀ a ∈ as, x ≠ s.loc (tileOf a) ∨ j ≠ lineOf a) → t.vatLine x j = s.vatLine x j

section
variable {s t u : State} {as bs : List Nat}

theorem State.Heats.writes (h : s.Heats t) : s.Writes t [] := ⟨h.accesses, fun x j _ _ => h.vatLine x j⟩

theorem State.Writes.trans (h : s.Writes t as) (k : t.Writes u bs) : s.Writes u (as ++ bs) where
  accesses := h.accesses.trans k.accesses
  others x j hj hx := by
    rw [k.others x j hj (fun a ha => by rw [h.accesses.loc]; exact hx a (List.mem_append_right _ ha)),
      h.others x j hj (fun a ha => hx a (List.mem_append_left _ ha))]

theorem State.Writes.mono (h : s.Writes t as) (hsub : ∀ a ∈ as, a ∈ bs) : s.Writes t bs :=
  ⟨h.accesses, fun x j hj hx => h.others x j hj (fun a ha => hx a (hsub a ha))⟩

theorem State.Writes.vatBut {a : Nat} (h : s.Writes t as) (hone : ∀ b ∈ as, b = a) : s.vatBut t (s.loc (tileOf a)) (lineOf a) :=
  fun x j hj hx => h.others x j hj (fun b hb => by rwa [hone b hb])

/-- Two lines lie apart where they are not the same line of the same slot. -/
def State.apart (s : State) (a b : Nat) : Prop := s.loc (tileOf a) ≠ s.loc (tileOf b) ∨ lineOf a ≠ lineOf b

theorem State.Writes.lineAt {a : Nat} (h : s.Writes t as) (ha : ∀ b ∈ as, s.apart a b) : t.lineAt a = s.lineAt a := by
  rw [h.accesses.lineAt_eq, h.others _ _ (lineOf_lt a) ha, State.lineAt]

/-- A line of a vat tile in service is written in its slot, whole or in part (R19, R68, R79). -/
theorem State.writeTile_inService {t : Nat} {i : Nat} (new : List Byte) (be : BitVec 64) (poison : Bool) (w : Traffic) (hhome : s.home t = 1)
    (hmap : s.lineOut (s.tmapPlace t).1 (s.tmapPlace t).2 = false) (hline : s.lineOut (s.loc t) i = false) :
    s.writeTile t i new be poison w
      = (((s.lookTile t w).putVatLine (s.loc t) i (writeOver (s.vatLine (s.loc t) i) new be poison)).dramVat (s.loc t) i true w).markMove t i := by
  have hlook := (s.lookTile_looks t w).heats
  have hfind : s.findTile t w (upsetAt [] (16384 * t + 64 * i) isTileMap) = s.lookTile t w := s.findTile_inService t w hmap
  have hupset : upsetAt [] (16384 * t + 64 * i) isHit = .none := rfl
  simp [State.writeTile, hfind, hupset, hlook.home, hhome, State.mergeVat, hlook.loc, hlook.lineOut, hline, State.writeVat, hlook.vatLine]

/-- Nothing refuses a write of a writable line (R30), which leaves it written and keeps the others. -/
theorem State.engWrite_writable {actor a : Nat} (hs : s.unheld) (h : s.writable actor a) (cls at' : Nat) (new : List Byte) (be : BitVec 64) (poison : Bool) :
    ∃ u, s.engWrite actor cls a at' new be poison [] true = (false, u) ∧ s.Writes u [a] ∧ u.lineAt a = writeOver (s.lineAt a) new be poison := by
  obtain ⟨-, hright, hkind, hhome, hmap, -, hline⟩ := h
  obtain ⟨-, -, -, hpassed, -⟩ := hs
  obtain ⟨g, r, hregion⟩ := State.findRegion_of_refusal hright
  obtain ⟨x, hx⟩ : ∃ x, x = s.lookTile (tileOf a) (workTraffic actor cls) := ⟨_, rfl⟩
  have hlook := (s.lookTile_looks (tileOf a) (workTraffic actor cls)).heats
  have hwrite := s.writeTile_inService (t := tileOf a) (i := lineOf a) new be poison (workTraffic actor cls) hhome hmap (hline hhome)
  rw [← hx] at hlook hwrite
  obtain ⟨y, hy⟩ : ∃ y, y = x.putVatLine (s.loc (tileOf a)) (lineOf a) (writeOver (s.vatLine (s.loc (tileOf a)) (lineOf a)) new be poison) := ⟨_, rfl⟩
  obtain ⟨z, hz⟩ : ∃ z, z = s.writeTile (tileOf a) (lineOf a) new be poison (workTraffic actor cls) := ⟨_, rfl⟩
  have hdone : y.Heats z := by
    rw [hz, hwrite, ← hy]
    exact (State.dramVat_looks _ _ _ _ _).heats.trans (State.markMove_heats _ _ _)
  have hput : s.Accesses y := hlook.accesses.trans (hy ▸ State.putVatLine_accesses _ _ _ _)
  have hheat : y.Heats (z.heatAccess (tileOf a) z.engineInc) :=
    hdone.trans (z.heatAccess_heats _ (by rw [hdone.lineOut, hput.lineOut]; exact hmap))
  refine ⟨z.heatAccess (tileOf a) z.engineInc, ?_, ⟨hput.trans hheat.accesses, fun v j hj hv => ?_⟩, ?_⟩
  · simp [State.engWrite, s.writeEnded_unpassed hpassed, s.workRefusal_unpassed hpassed, hright, hregion, hkind g r hregion, hhome, ← hz]
  · rw [hheat.vatLine, hy, x.vatLine_putVatLine_apart _ (lineOf_lt a) hj (hv a (by simp)), hlook.vatLine]
  · rw [hheat.lineAt, hput.lineAt_eq, hy, x.vatLine_putVatLine_self _ _ (writeOver_kept (s.vatLine_kept _ _) _ _ _), State.lineAt]

end

end Sys2Proof.Machine
end

section
/-! PROOFS. Service calls are received (R215 to R217, R221): SVC_CALL reads its request block and hands the call to Shombe, or ends it; a service command without its call has no effect. -/

namespace Sys2Proof.Machine

/-! ### A call ends -/

section
variable {s t u : State} {q seq result value : Nat}

theorem State.endCall_changes (s : State) (q seq result value : Nat) : s.changesOnly (s.endCall q seq result value) [.qmg, .svc] := by
  intro p hp
  cases p <;> simp_all [Part.same, State.endCall, State.endEntry, State.modEntry]

theorem State.endCall_calls (s : State) (q seq result value : Nat) : ∀ c ∈ (s.endCall q seq result value).svc.calls, ¬(c.queue = q ∧ c.seq = seq) := by
  intro c hc
  simpa only [Bool.not_eq_true', decide_eq_false_iff_not] using (List.mem_filter.1 hc).2

theorem State.entry_endCall {e : Entry} (h : s.entry q seq = some e) (hstage : e.stage ≠ 3) :
    (s.endCall q seq result value).entry q seq = some { e with
      stage := 3, status := 0, v0 := result % 2 ^ 32, v1 := value % 2 ^ 32, v2 := 0, endedAt := s.now } := by
  have h' : ({ s with svc := { s.svc with calls := s.svc.calls.filter (fun c => !(decide (c.queue = q ∧ c.seq = seq))) } } : State).entry q seq = some e := h
  exact State.entry_endEntry 0 result value 0 h' hstage

/-- A call ends in a state whose entry of it is the one that it began with, or that entry started (R215, R217). -/
theorem State.endCall_callEnds (h : ∀ e, s.entry q seq = some e → e.stage ≠ 3 → ∃ x, u.entry q seq = some x ∧ x.stage ≠ 3) (result value : Nat) :
    s.callEnds (u.endCall q seq result value) q seq result value := by
  refine ⟨u.endCall_calls q seq result value, fun e he _ hstage => ?_⟩
  obtain ⟨x, hx, hstage'⟩ := h e he hstage
  exact ⟨_, State.entry_endCall hx hstage', rfl, rfl, rfl, rfl⟩

theorem State.endCall_callEnds_of_qmg (h : u.qmg = s.qmg) (result value : Nat) : s.callEnds (u.endCall q seq result value) q seq result value :=
  State.endCall_callEnds (fun e he hstage => ⟨e, by rwa [State.entry_of_qmg h], hstage⟩) result value

end

/-! ### SVC_CALL -/

/-- The call that an entry makes (R215, R216). -/
def Entry.call (e : Entry) (k : Queue) : SvcCall := ⟨e.queue, e.seq, bits e.dw1 0 8, bits e.dw1 8 8, e.a0, k.actor, k.cls⟩

/-- What SVC_CALL makes of its request block: the call is received, or ends. -/
def State.takeCall (s : State) (e : Entry) (k : Queue) (poison : Bool) : State :=
  let s1 := s.modEntry e.queue e.seq (fun x => { x with stage := 2 })
  if serviceKnown (e.call k).service (e.call k).func = false then s1.endCall e.queue e.seq 2 0
  else if poison then s1.endCall e.queue e.seq 15 0
  else { s1 with svc := { s1.svc with calls := s1.svc.calls ++ [e.call k] } }

section
variable {s u : State} {q seq : Nat} {e : Entry} {k : Queue}

theorem State.recordRefusal_changes (s : State) (actor : Nat) (write : Bool) (a reason : Nat) : s.changesOnly (s.recordRefusal actor write a reason) signals := by
  refine State.changesOnly_of_quiet ?_
  unfold State.recordRefusal
  extract_lets s1 s2
  split <;> simp [s1, s2]

theorem exec_svcCall {l : LineIn} (hs : s.unheld) (hentry : s.entry q seq = some e) (hstage : e.stage = 1) (hopcode : e.opcode = 0x50)
    (hread : s.engRead (s.queue q).actor (s.queue q).cls (e.a0 / 64 * 64) e.a0 [] true = (l, u)) :
    exec (.svcCall q seq []) s = .next (u.takeCall e (s.queue q) l.poison) := by
  obtain ⟨rfl, rfl⟩ := State.entry_key hentry
  change execSvcCall e.queue e.seq [] s = _
  simp only [execSvcCall, State.runEntry_started _ hentry hstage hopcode, State.engHoldRun,
    State.engHoldAll_unheld (k := ⟨(s.queue e.queue).actor, (s.queue e.queue).cls, some (.svcCall e.queue e.seq []), 0⟩) rfl _ hs, hread]
  cases hknown : serviceKnown (bits e.dw1 0 8) (bits e.dw1 8 8) <;> simp [State.takeCall, Entry.call, hknown, done]

theorem State.takeCall_ends (hu : u.qmg = s.qmg) (hentry : s.entry q seq = some e) {result : Nat} {poison : Bool}
    (hresult : (serviceKnown (e.call k).service (e.call k).func = false ∧ result = 2)
      ∨ (serviceKnown (e.call k).service (e.call k).func = true ∧ poison = true ∧ result = 15)) :
    s.callEnds (u.takeCall e k poison) q seq result 0 := by
  obtain ⟨rfl, rfl⟩ := State.entry_key hentry
  have hends (result : Nat) : s.callEnds ((u.modEntry e.queue e.seq (fun x => { x with stage := 2 })).endCall e.queue e.seq result 0) e.queue e.seq result 0 := by
    refine State.endCall_callEnds (fun x hx _ => ?_) _ _
    exact ⟨{ x with stage := 2 }, State.entry_modEntry (fun _ => ⟨rfl, rfl⟩) (by rwa [State.entry_of_qmg hu]), by simp⟩
  obtain ⟨hknown, rfl⟩ | ⟨hknown, rfl, rfl⟩ := hresult
  · simpa [State.takeCall, hknown] using hends 2
  · simpa [State.takeCall, hknown] using hends 15

theorem State.takeCall_changes (s : State) (e : Entry) (k : Queue) (poison : Bool) : s.changesOnly (s.takeCall e k poison) [.qmg, .svc] := by
  unfold State.takeCall
  extract_lets s1
  have hs1 : s.changesOnly s1 [.qmg] := s.modEntry_changes _ _ _
  split
  · exact State.changesOnly_trans hs1 (s1.endCall_changes _ _ _ _) (by decide) (by decide)
  split
  · exact State.changesOnly_trans hs1 (s1.endCall_changes _ _ _ _) (by decide) (by decide)
  · intro p hp
    cases p <;> simp_all [Part.same, s1, State.modEntry]

theorem State.takeCall_received (hknown : serviceKnown (e.call k).service (e.call k).func = true) :
    s.takeCall e k false = { s.modEntry e.queue e.seq (fun x => { x with stage := 2 }) with svc := { s.svc with calls := s.svc.calls ++ [e.call k] } } := by
  simp [State.takeCall, hknown, State.modEntry]

end

/-! ### Commands without a call -/

section
variable {s : State} {q seq : Nat}

/-- A key-value command for a call whose turn it is not (R221). -/
theorem exec_kv_none {func : Nat} (h : s.kvTurn q seq func = none) (a b c d e f : Nat) :
    ∀ x ∈ [(0, Instr.kvOpen q seq a b c d e f []), (1, .kvAppend q seq a b c d e [] none), (2, .kvAttend q seq a b c d e f [] none),
      (3, .kvTruncate q seq a b c []), (4, .kvClose q seq a [])], x.1 = func → exec x.2 s = .next s := by
  simp only [List.forall_mem_cons, List.not_mem_nil, IsEmpty.forall_iff, implies_true, and_true]
  refine ⟨?_, ?_, ?_, ?_, ?_⟩ <;> rintro rfl
  · change execKvOpen q seq a b c d e f [] s = _
    simp [execKvOpen, h, done]
  · change execKvAppend q seq a b c d e [] none s = _
    simp [execKvAppend, h, done]
  · change execKvAttend q seq a b c d e f [] none s = _
    simp [execKvAttend, h, done]
  · change execKvTruncate q seq a b c [] s = _
    simp [execKvTruncate, h, done]
  · change execKvClose q seq a [] s = _
    simp [execKvClose, h, done]

/-- Another service command for a call that has not been received (R215). -/
theorem exec_service_none (a b c d e f g h : Nat) :
    ∀ x ∈ [((2, 0), Instr.gather q seq a b c d e f g h a [] none), ((3, 0), .groupOpen q seq a b c d e f g h), ((3, 1), .contribute q seq a b c [] none),
      ((3, 2), .groupClose q seq a), ((4, 0), .modelLoad q seq a b), ((4, 1), .call q seq a b c []), ((4, 2), .modelUnload q seq a)],
      s.callOf q seq x.1.1 x.1.2 = none → exec x.2 s = .next s := by
  simp only [List.forall_mem_cons, List.not_mem_nil, IsEmpty.forall_iff, implies_true, and_true]
  refine ⟨fun hnone => ?_, fun hnone => ?_, fun hnone => ?_, fun hnone => ?_, fun hnone => ?_, fun hnone => ?_, fun hnone => ?_⟩
  · change execGather q seq a b c d e f g h a [] none s = _
    simp [execGather, hnone, done]
  · change execGroupOpen q seq a b c d e f g h s = _
    simp [execGroupOpen, hnone, done]
  · change execContribute q seq a b c [] none s = _
    simp [execContribute, hnone, done]
  · change execGroupClose q seq a s = _
    simp [execGroupClose, hnone, done]
  · change execModelLoad q seq a b s = _
    simp [execModelLoad, hnone, done]
  · change execCall q seq a b c [] s = _
    simp [execCall, hnone, done]
  · change execModelUnload q seq a s = _
    simp [execModelUnload, hnone, done]

end

/-! ### The statement -/

/-- Settles O39: SVC_CALL reads one line of its block, which a readable line answers and a refused one answers as poisoned, and then the call is received or ends; without a call a service command leaves the state as it is. -/
theorem serviceCallsAreReceived : Obligations.ServiceCallsAreReceived := by
  unfold Obligations.ServiceCallsAreReceived
  refine ⟨fun s q seq e hs hentry hstage hopcode => ?_, fun s q seq a b c d e f g h i => ⟨fun hnone => exec_kv_none hnone a b c d e f, exec_service_none a b c d e f g h⟩⟩
  intro k known a
  refine ⟨fun hread => ?_, fun hknown hrefused => ?_⟩
  · obtain ⟨u, hu, hheat⟩ := State.engRead_readable hs hread k.cls e.a0
    have hexec := exec_svcCall hs hentry hstage hopcode hu
    refine ⟨fun hknown hgood => ?_, fun hknown hbad => ?_, fun hknown => ?_⟩
    · obtain ⟨rfl, rfl⟩ := State.entry_key hentry
      refine ⟨_, hexec, ?_⟩
      rw [hgood, State.takeCall_received hknown]
      have hstarted : (u.modEntry e.queue e.seq (fun x => { x with stage := 2 })).entry e.queue e.seq = some { e with stage := 2 } :=
        State.entry_modEntry (fun _ => ⟨rfl, rfl⟩) (by rwa [hheat.accesses.entry])
      refine ⟨hstarted, by rw [hheat.accesses.svc]; rfl, fun p hp => ?_, hheat.keepsBytes⟩
      have hkept := hheat.changesOnly p (fun h => hp (List.mem_append_left _ h))
      cases p <;> simp_all [Part.same, State.modEntry]
    · rw [hbad] at hexec
      exact ⟨_, hexec, State.takeCall_ends hheat.accesses.qmg hentry (.inr ⟨hknown, rfl, rfl⟩)⟩
    · exact ⟨_, hexec, State.takeCall_ends hheat.accesses.qmg hentry (.inl ⟨hknown, rfl⟩)⟩
  · obtain ⟨reason, hreason⟩ := Option.isSome_iff_exists.1 hrefused
    have hexec := exec_svcCall hs hentry hstage hopcode (State.engRead_refused hs hreason k.cls e.a0)
    have hrecord := State.recordRefusal_changes s k.actor false e.a0 reason
    refine ⟨_, hexec, State.takeCall_ends (hrecord .qmg (by decide)) hentry (.inr ⟨hknown, rfl, rfl⟩), ?_⟩
    exact State.changesOnly_trans hrecord (State.takeCall_changes _ _ _ _) (by decide) (by decide)

end Sys2Proof.Machine
end

section
/-! PROOFS. Chains of the data engines (R204 to R208, R214): how a chain is read and begun, what the start of a descriptor leaves, and what the end of a chain leaves of its entry and of its job. -/

namespace Sys2Proof.Machine

/-! ### Frames -/

theorem foldl_changesOnly {α} {f : State → α → State} {ps : List Part} (hf : ∀ (u : State) (a : α), u.changesOnly (f u a) ps) (l : List α) (s : State) :
    s.changesOnly (l.foldl f s) ps := by
  induction l generalizing s with
  | nil => exact s.changesOnly_refl ps
  | cons a l ih => exact State.changesOnly_trans (hf s a) (ih _) (fun _ => id) (fun _ => id)

section
variable (s : State)

theorem State.modJob_changes (id : Nat) (f : Job → Job) : s.changesOnly (s.modJob id f) [.lst] := by
  intro p hp
  cases p <;> simp_all [Part.same, State.modJob]

theorem State.setField_changes (page off lo w v : Nat) : s.changesOnly (s.setField page off lo w v) [.reg] := by
  intro p hp
  cases p <;> simp_all [Part.same]

theorem State.setLevel_changes (r l : Nat) : s.changesOnly (s.setLevel r l) [.reg, .tns] := by
  unfold State.setLevel
  split
  · exact s.changesOnly_refl _
  extract_lets tns u
  have hu : s.changesOnly u [.tns] := by
    intro p hp
    cases p <;> simp_all [Part.same, u]
  have hset := State.changesOnly_trans (rs := [.reg, .tns]) hu (u.setField_changes (tnsPage r) 0x104 22 10 (levelMhz l)) (by decide) (by decide)
  exact State.changesOnly_trans hset (State.count_changes _ _ _ _) (by decide) (by decide)

theorem State.settleLevels_changes : s.changesOnly s.settleLevels [.reg, .tns] := by
  refine foldl_changesOnly (fun u r => ?_) _ s
  split
  · exact u.changesOnly_refl _
  · exact u.setLevel_changes r _

theorem State.freeRows_changes (id : Nat) : s.changesOnly (s.freeRows id) [.reg, .tns, .pwr, .lst] := by
  unfold State.freeRows
  extract_lets mine s1
  have hs1 : s.changesOnly s1 [.reg, .tns, .pwr] := by
    refine foldl_changesOnly (fun u r => ?_) mine s
    extract_lets tns pwr v
    have hv : u.changesOnly v [.reg, .tns, .pwr] := by
      intro p hp
      cases p <;> simp_all [Part.same, v]
    have hset (x : State) (lo w n : Nat) : x.changesOnly (x.setField (tnsPage r) 0x104 lo w n) [.reg, .tns, .pwr] :=
      State.changesOnly_mono (x.setField_changes _ _ _ _ _) (by decide)
    have hnext {x y z : State} (h : x.changesOnly y [.reg, .tns, .pwr]) (k : y.changesOnly z [.reg, .tns, .pwr]) : x.changesOnly z [.reg, .tns, .pwr] :=
      State.changesOnly_trans h k (fun _ hp => hp) (fun _ hp => hp)
    exact hnext (hnext (hnext (hnext hv (hset _ _ _ _)) (hset _ _ _ _)) (hset _ _ _ _)) (hset _ _ _ _)
  have hjob := State.changesOnly_trans (rs := [.reg, .tns, .pwr, .lst]) hs1 (s1.modJob_changes id (fun j => { j with running := 0#16 })) (by decide) (by decide)
  exact State.changesOnly_trans hjob (State.settleLevels_changes _) (by decide) (by decide)

/-! ### An entry that has ended -/

theorem State.entry_modEntry_any {f : Entry → Entry} (hf : ∀ x, (f x).queue = x.queue ∧ (f x).seq = x.seq) (q' seq' q seq : Nat) :
    (s.modEntry q' seq' f).entry q seq = (s.entry q seq).map (fun e => if e.queue = q' ∧ e.seq = seq' then f e else e) := by
  unfold State.entry State.modEntry
  exact find?_map_of_kept (fun x => by split <;> simp [hf]) _

theorem State.entry_endEntry_ended {q seq : Nat} {x : Entry} (h : s.entry q seq = some x) (hstage : x.stage = 3) (q' seq' status v0 v1 v2 : Nat) :
    (s.endEntry q' seq' status v0 v1 v2).entry q seq = some x := by
  rw [State.endEntry, s.entry_modEntry_any (fun x => by split <;> exact ⟨rfl, rfl⟩), h, Option.map_some]
  simp [hstage]

/-- The end of a job's chains leaves an entry that has ended, and the chains left are among those before. -/
theorem State.dropChains_ended (id : Nat) : (∀ c ∈ (s.dropChains id).den.chains, c ∈ s.den.chains)
    ∧ ∀ q seq x, s.entry q seq = some x → x.stage = 3 → (s.dropChains id).entry q seq = some x := by
  have hfold (l : List Chain) : ∀ u : State, (∀ c ∈ u.den.chains, c ∈ s.den.chains) →
      (∀ q seq x, s.entry q seq = some x → x.stage = 3 → u.entry q seq = some x) →
      let t := l.foldl (fun (u : State) c => match c.entry with
        | some (q, seq) =>
          let (d, v) := u.draw
          v.endEntry q seq (2 + Config.freePlace d % 24) ((c.descs.filter (fun d => decide (d.stage = 2 ∧ d.status ≤ 1))).length) 0 0
        | none => u) u
      (∀ c ∈ t.den.chains, c ∈ s.den.chains) ∧ ∀ q seq x, s.entry q seq = some x → x.stage = 3 → t.entry q seq = some x := by
    induction l with
    | nil => exact fun u hchains hentry => ⟨hchains, hentry⟩
    | cons c l ih =>
      intro u hchains hentry
      rw [List.foldl_cons]
      split
      · exact ih _ hchains (fun q seq x hx hstage => State.entry_endEntry_ended _ (hentry q seq x hx hstage) hstage _ _ _ _ _ _)
      · exact ih u hchains hentry
  unfold State.dropChains
  exact hfold _ _ (fun c hc => List.mem_of_mem_filter hc) (fun _ _ _ hx _ => hx)

/-- An abort leaves the entries that have ended, and the chains left are among those before. -/
theorem State.abortJob_ended {id cause : Nat} {j : Job} (hjob : s.job id = some j) (hstate : j.state = 2) :
    (∀ c ∈ (s.abortJob id cause).den.chains, c ∈ s.den.chains)
    ∧ ∀ q seq x, s.entry q seq = some x → x.stage = 3 → (s.abortJob id cause).entry q seq = some x := by
  unfold State.abortJob
  rw [hjob]
  simp -zeta only [if_neg (show j.state ≠ 3 by omega), if_neg (show j.state ≠ 0 by omega)]
  extract_lets s0 waits s1 s2
  have hs0 : s.changesOnly s0 signals := s.err_changes lstPage 8
  have hs2 : s1.changesOnly s2 [.pwr] := by
    simp only [s2]
    split
    · refine foldl_changesOnly (fun u r p hp => ?_) _ s1
      cases p <;> simp_all [Part.same, State.dozeLater]
    · exact s1.changesOnly_refl _
  have hden : s2.den = s.den := (hs2 .den (by decide)).trans (hs0 .den (by decide))
  have hqmg : s2.qmg = s.qmg := (hs2 .qmg (by decide)).trans (hs0 .qmg (by decide))
  obtain ⟨hchains, hentry⟩ := s2.dropChains_ended id
  have hrows := (s2.dropChains id).freeRows_changes id
  refine ⟨fun c hc => ?_, fun q seq x hx hstage => ?_⟩
  · rw [show ((s2.dropChains id).freeRows id).den = (s2.dropChains id).den from hrows .den (by decide)] at hc
    rw [← hden]
    exact hchains c hc
  · rw [State.entry_of_qmg (hrows .qmg (by decide))]
    exact hentry q seq x (by rwa [State.entry_of_qmg hqmg]) hstage

end

/-! ### Chains and their descriptors -/

section
variable {s t : State} {id : Nat} {c : Chain}

theorem State.chain_of_den (h : t.den = s.den) (id : Nat) : t.chain id = s.chain id := by rw [State.chain, h, State.chain]

theorem State.id_of_chain (h : s.chain id = some c) : c.id = id := by simpa using List.find?_some h

theorem State.chain_modDesc {d : Desc} (f : Desc → Desc) (h : s.chain id = some c) (hdescs : c.descs = [d]) :
    (s.modDesc id 0 f).chain id = some { c with descs := [f d] } := by
  have hid := State.id_of_chain h
  unfold State.chain at h
  unfold State.chain State.modDesc State.modChain
  rw [find?_map_of_kept (fun x => by split <;> rfl), h, Option.map_some, if_pos hid]
  simp [hdescs]

theorem State.modDesc_changes (s : State) (id n : Nat) (f : Desc → Desc) : s.changesOnly (s.modDesc id n f) [.den] := by
  intro p hp
  cases p <;> simp_all [Part.same, State.modDesc, State.modChain]

/-- The entry of a chain, where one began it, has not ended; its job, where it is a layer's, runs. -/
structure State.runs (s : State) (c : Chain) : Prop where
  entry : ∀ q seq, c.entry = some (q, seq) → ∃ e, s.entry q seq = some e ∧ e.stage ≠ 3
  job : ∀ k, c.job = some k → ∃ j, s.job k = some j ∧ j.state = 2

theorem State.runs.of_same (h : s.runs c) (hqmg : t.qmg = s.qmg) (hlst : t.lst = s.lst) : t.runs c where
  entry q seq hq := by rw [State.entry_of_qmg hqmg]; exact h.entry q seq hq
  job k hk := by rw [State.job_of_lst hlst]; exact h.job k hk

/-! ### A chain ends -/

/-- The state in which a chain is gone with its units. -/
def State.withoutChain (s : State) (id : Nat) : State :=
  let s0 := s.dropUnits (fun u => decide (u.chain = id))
  { s0 with den := { s0.den with chains := s0.den.chains.filter (fun x => decide (x.id ≠ id)) } }

theorem State.withoutChain_changes (s : State) (id : Nat) : s.changesOnly (s.withoutChain id) [.den, .pwr] := by
  intro p hp
  cases p <;> simp_all [Part.same, State.withoutChain, State.dropUnits]

theorem State.withoutChain_chains (s : State) (id : Nat) : ∀ x ∈ (s.withoutChain id).den.chains, x.id ≠ id := by
  intro x hx
  simpa using (List.mem_filter.1 hx).2

theorem State.chain_none (h : ∀ x ∈ s.den.chains, x.id ≠ id) : s.chain id = none := by
  rw [State.chain, List.find?_eq_none]
  intro x hx
  simpa using h x hx

/-- Descriptors that ended well, and whether one was refused something. -/
def Chain.ended' (c : Chain) : Nat := (c.descs.filter (fun d => decide (d.stage = 2 ∧ d.status ≤ 1))).length
def Chain.refused (c : Chain) : Bool := c.descs.any (fun d => d.refused)

/-- The end of a chain's entry, where it has one (R208, R273). -/
def State.endChainEntry (s : State) (c : Chain) (status v1 : Nat) : State :=
  match c.entry with
  | some (q, seq) => s.endEntry q seq status c.ended' v1 0
  | none => s

theorem State.endChainEntry_changes (s : State) (c : Chain) (status v1 : Nat) : s.changesOnly (s.endChainEntry c status v1) [.qmg] := by
  unfold State.endChainEntry
  split
  · exact s.endEntry_changes _ _ _ _ _ _
  · exact s.changesOnly_refl _

theorem State.endChainEntry_entry {q seq : Nat} (h : s.runs c) (status v1 : Nat) (hq : c.entry = some (q, seq)) :
    ∃ x, (s.endChainEntry c status v1).entry q seq = some x ∧ x.stage = 3 ∧ x.status = status ∧ x.v0 = c.ended' % 2 ^ 32 ∧ x.v1 = v1 % 2 ^ 32 := by
  obtain ⟨e, he, hstage⟩ := h.entry q seq hq
  simp only [State.endChainEntry, hq]
  exact ⟨_, State.entry_endEntry _ _ _ _ he hstage, rfl, rfl, rfl, rfl⟩

theorem State.endChain_entry (h : s.chain id = some c) (hjob : c.job = none) (status tag : Nat) :
    s.endChain id status tag
      = (s.withoutChain id).endChainEntry c (if 2 ≤ status then status else if c.refused then 1 else 0) (if 2 ≤ status then tag else 0) := by
  unfold State.endChain
  simp only [h, hjob]
  rfl

theorem State.endChain_job (h : s.chain id = some c) {k : Nat} (hjob : c.job = some k) (status tag : Nat) :
    s.endChain id status tag
      = (let u := ((s.withoutChain id).endChainEntry c (if 2 ≤ status then status else if c.refused then 1 else 0) (if 2 ≤ status then tag else 0)).modJob k
            (fun x => { x with refused := x.refused || c.refused })
         if 2 ≤ status then u.abortJob k 8 else u) := by
  unfold State.endChain
  simp only [h, hjob]
  rfl

/-- The chain has failed: it is gone, its entry has ended with a status, the number of descriptors that ended well and the tag of the one that failed, and its job is aborted with ENGINE_FAULT (R196, R208). -/
structure State.chainFailed (t : State) (id : Nat) (c : Chain) (status n tag : Nat) : Prop where
  chain : t.chain id = none
  entry : ∀ q seq, c.entry = some (q, seq) → ∃ x, t.entry q seq = some x ∧ x.stage = 3 ∧ x.status = status ∧ x.v0 = n % 2 ^ 32 ∧ x.v1 = tag % 2 ^ 32
  job : ∀ k, c.job = some k → ∃ x, t.job k = some x ∧ x.state = 3 ∧ x.cause = 8

/-- The pages of the data engines, and their words that the end of a chain leaves. -/
def enginesOwn (p o : Nat) : Prop := 0x0A0 ≤ p ∧ p < 0x0B0 ∧ o < 0x180

theorem State.endChain_failed (h : s.chain id = some c) (hs : s.runs c) {status : Nat} (hstatus : 2 ≤ status) (tag : Nat) :
    (s.endChain id status tag).chainFailed id c status c.ended' tag
      ∧ (∀ p o, enginesOwn p o → (s.endChain id status tag).word p o = s.word p o) ∧ (c.job = none → (s.endChain id status tag).mem = s.mem) := by
  obtain ⟨u, hu⟩ : ∃ u, u = (s.withoutChain id).endChainEntry c status tag := ⟨_, rfl⟩
  have hgone : s.changesOnly (s.withoutChain id) [.den, .pwr] := s.withoutChain_changes id
  have hentry : (s.withoutChain id).changesOnly u [.qmg] := by rw [hu]; exact State.endChainEntry_changes _ _ _ _
  have hchanges : s.changesOnly u [.den, .pwr, .qmg] := State.changesOnly_trans hgone hentry (by decide) (by decide)
  have hruns : (s.withoutChain id).runs c := hs.of_same (hgone .qmg (by decide)) (hgone .lst (by decide))
  have hchains : ∀ x ∈ u.den.chains, x.id ≠ id := by
    rw [show u.den = (s.withoutChain id).den from hentry .den (by decide)]
    exact s.withoutChain_chains id
  have hended (q seq : Nat) (hq : c.entry = some (q, seq)) := State.endChainEntry_entry hruns status tag hq
  rw [← hu] at hended
  cases hjob : c.job with
  | none =>
    have hend := State.endChain_entry h hjob status tag
    simp only [if_pos hstatus, ← hu] at hend
    rw [hend]
    have hword (p o : Nat) : u.word p o = s.word p o := by
      rw [State.word, show u.reg = s.reg from hchanges .reg (by decide), show u.order = s.order from hchanges .order (by decide), State.word]
    exact ⟨⟨State.chain_none hchains, hended, fun k hk => by cases hjob.symm.trans hk⟩, fun p o _ => hword p o, fun _ => hchanges .mem (by decide)⟩
  | some k =>
    have hend := State.endChain_job h hjob status tag
    simp only [if_pos hstatus, ← hu] at hend
    rw [hend]
    obtain ⟨v, hv⟩ : ∃ v, v = u.modJob k (fun x => { x with refused := x.refused || c.refused }) := ⟨_, rfl⟩
    rw [← hv]
    have hvu : u.changesOnly v [.lst] := by rw [hv]; exact u.modJob_changes _ _
    have hall : s.changesOnly v [.den, .pwr, .qmg, .lst] := State.changesOnly_trans hchanges hvu (by decide) (by decide)
    obtain ⟨j, hj, hstate⟩ := hs.job k hjob
    have hvj : v.job k = some { j with refused := j.refused || c.refused } := by
      have hf : keepsIdentity (fun x : Job => { x with refused := x.refused || c.refused }) := fun _ => ⟨rfl, rfl⟩
      rw [hv, u.job_modJob_self hf, State.job_of_lst (hchanges .lst (by decide)), hj, Option.map_some]
    obtain ⟨hsub, hstays⟩ := v.abortJob_ended (cause := 8) hvj hstate
    refine ⟨⟨State.chain_none (fun x hx => ?_), fun q seq hq => ?_, fun k' hk' => ?_⟩, fun p o hpo => ?_, fun hnone => by cases hnone⟩
    · have hx' := hsub x hx
      rw [show v.den = u.den from hvu .den (by decide)] at hx'
      exact hchains x hx'
    · obtain ⟨x, hx, hstage, hrest⟩ := hended q seq hq
      refine ⟨x, hstays q seq x ?_ hstage, hstage, hrest⟩
      rwa [State.entry_of_qmg (hvu .qmg (by decide))]
    · obtain rfl : k = k' := Option.some.inj (hjob.symm.trans hk')
      obtain ⟨waits, b, hstopped⟩ := State.abortJob_job hvj (.inr hstate) 8
      exact ⟨_, hstopped, rfl, rfl⟩
    · obtain ⟨hlo, hhi, ho⟩ := hpo
      rw [State.abortJob_word_apart hvj (.inr hstate) 8 ⟨by omega, by omega, .inl (by omega)⟩ (by omega) (by unfold lstPage; omega) ho, State.word,
        show v.reg = s.reg from hall .reg (by decide), show v.order = s.order from hall .order (by decide), State.word]

/-- A chain that ends well is gone, its entry ends, and its job keeps for its report what was refused (R196, R197, R208). -/
theorem State.endChain_ended (h : s.chain id = some c) (hs : s.runs c) :
    (s.endChain id 0 0).chain id = none ∧ (s.endChain id 0 0).mem = s.mem
      ∧ (∀ q seq, c.entry = some (q, seq) →
          ∃ x, (s.endChain id 0 0).entry q seq = some x ∧ x.stage = 3 ∧ x.status = (if c.refused then 1 else 0) ∧ x.v0 = c.ended' % 2 ^ 32)
      ∧ ∀ k j, c.job = some k → s.job k = some j → (s.endChain id 0 0).job k = some { j with refused := j.refused || c.refused } := by
  obtain ⟨u, hu⟩ : ∃ u, u = (s.withoutChain id).endChainEntry c (if c.refused then 1 else 0) 0 := ⟨_, rfl⟩
  have hgone : s.changesOnly (s.withoutChain id) [.den, .pwr] := s.withoutChain_changes id
  have hentry : (s.withoutChain id).changesOnly u [.qmg] := by rw [hu]; exact State.endChainEntry_changes _ _ _ _
  have hchanges : s.changesOnly u [.den, .pwr, .qmg] := State.changesOnly_trans hgone hentry (by decide) (by decide)
  have hruns : (s.withoutChain id).runs c := hs.of_same (hgone .qmg (by decide)) (hgone .lst (by decide))
  have hchain : u.chain id = none := State.chain_none (by
    rw [show u.den = (s.withoutChain id).den from hentry .den (by decide)]
    exact s.withoutChain_chains id)
  have hended (q seq : Nat) (hq : c.entry = some (q, seq)) :
      ∃ x, u.entry q seq = some x ∧ x.stage = 3 ∧ x.status = (if c.refused then 1 else 0) ∧ x.v0 = c.ended' % 2 ^ 32 := by
    obtain ⟨x, hx, hstage, hstatus, hv0, -⟩ := State.endChainEntry_entry hruns (if c.refused then 1 else 0) 0 hq
    exact ⟨x, by rwa [hu], hstage, hstatus, hv0⟩
  cases hjob : c.job with
  | none =>
    have hend := State.endChain_entry h hjob 0 0
    simp only [if_neg (show ¬2 ≤ 0 by omega), ← hu] at hend
    rw [hend]
    exact ⟨hchain, hchanges .mem (by decide), hended, fun k j hk => by cases hk⟩
  | some k =>
    have hend := State.endChain_job h hjob 0 0
    simp only [if_neg (show ¬2 ≤ 0 by omega), ← hu] at hend
    rw [hend]
    have hmod := u.modJob_changes k (fun x => { x with refused := x.refused || c.refused })
    refine ⟨(State.chain_of_den (hmod .den (by decide)) id).trans hchain, (hmod .mem (by decide)).trans (hchanges .mem (by decide)), fun q seq hq => ?_, fun k' j hk' hj => ?_⟩
    · rw [State.entry_of_qmg (hmod .qmg (by decide))]
      exact hended q seq hq
    · obtain rfl : k = k' := Option.some.inj hk'
      have hf : keepsIdentity (fun x : Job => { x with refused := x.refused || c.refused }) := fun _ => ⟨rfl, rfl⟩
      rw [u.job_modJob_self hf, State.job_of_lst (hchanges .lst (by decide)), hj, Option.map_some]

/-- A descriptor that fails takes its chain with it (R208). -/
theorem State.failDesc_failed {d : Desc} (h : s.chain id = some c) (hdescs : c.descs = [d]) (hs : s.runs c) {status : Nat} (hstatus : 2 ≤ status) :
    (s.failDesc id 0 status).chainFailed id c status 0 d.tag
      ∧ (∀ p o, enginesOwn p o → o ≠ 0x02C → (s.failDesc id 0 status).word p o = s.word p o) ∧ (c.job = none → (s.failDesc id 0 status).mem = s.mem) := by
  obtain ⟨u, hu⟩ : ∃ u, u = (s.modDesc id 0 (fun d => { d with stage := 2, status := status })).count (denPage (s.descEngine d)) 1 := ⟨_, rfl⟩
  have hchanges : s.changesOnly u [.den, .reg] := by
    rw [hu]
    exact State.changesOnly_trans (s.modDesc_changes _ _ _) (State.count_changes _ _ _ _) (by decide) (by decide)
  have hden : u.den = (s.modDesc id 0 (fun d => { d with stage := 2, status := status })).den := by rw [hu]; exact State.count_changes _ _ _ _ .den (by decide)
  have hchain : u.chain id = some { c with descs := [{ d with stage := 2, status := status }] } := by
    rw [State.chain_of_den hden, State.chain_modDesc _ h hdescs]
  have hfail : s.failDesc id 0 status = u.endChain id status d.tag := by
    simp [State.failDesc, h, Chain.desc, hdescs, hu]
  have hruns : u.runs { c with descs := [{ d with stage := 2, status := status }] } := by
    have := hs.of_same (hchanges .qmg (by decide)) (hchanges .lst (by decide))
    exact ⟨this.entry, this.job⟩
  obtain ⟨hfailed, hword, hmem⟩ := State.endChain_failed hchain hruns hstatus d.tag
  rw [hfail]
  have hnone : Chain.ended' { c with descs := [{ d with stage := 2, status := status }] } = 0 := by
    simp [Chain.ended', show ¬status ≤ 1 by omega]
  rw [hnone] at hfailed
  refine ⟨⟨hfailed.chain, hfailed.entry, hfailed.job⟩, fun p o hpo ho => ?_, fun hjob => (hmem hjob).trans (hchanges .mem (by decide))⟩
  obtain ⟨hlo, hhi, hoff⟩ := hpo
  rw [hword p o ⟨hlo, hhi, hoff⟩, hu, State.word_count _ _ _ _ _ _ (by unfold denPage; omega)]
  rfl

end

end Sys2Proof.Machine
end

section
/-! PROOFS. DEN_CHAIN, DESCRIPTOR_START and DESCRIPTOR_END (R204 to R208, R214) of a chain of one descriptor. -/

namespace Sys2Proof.Machine

/-! ### DEN_CHAIN -/

section
variable {s t u : State}

/-- The descriptors of a chain, read from readable lines without poison (R208). -/
theorem State.engRead_descs (hs : s.unheld) {actor a n : Nat} (cls : Nat)
    (h : ∀ i, i < n → s.readable actor (a + 64 * i) ∧ (s.lineAt (a + 64 * i)).2 = false) :
    ∃ u, (List.range n).foldl (fun (acc : List Desc × State) i =>
        let (l, v) := acc.2.engRead actor cls (a + 64 * i) (a + 64 * i) [] true
        let d := descOf l.data
        (acc.1 ++ [if l.poison then { d with bad := true, refused := l.refused, ueAt := l.ue } else d], v)) ([], s)
      = ((List.range n).map (fun i => descOf (s.lineAt (a + 64 * i)).1), u) ∧ s.Heats u := by
  induction n with
  | zero => exact ⟨s, rfl, .refl s⟩
  | succ n ih =>
    obtain ⟨u, hu, hheat⟩ := ih (fun i hi => h i (by omega))
    obtain ⟨hread, hclean⟩ := h n (by omega)
    obtain ⟨v, hv, hheat'⟩ := State.engRead_readable (hheat.accesses.unheld hs) (hheat.accesses.readable hread) cls (a + 64 * n)
    refine ⟨v, ?_, hheat.trans hheat'⟩
    rw [List.range_succ, List.foldl_append, hu]
    simp [hv, hheat.lineAt, hclean]

/-- A chain that joins those running. -/
def State.joinChain (s : State) (c : Chain) : State := { s with den := { s.den with chains := s.den.chains ++ [c], nextChain := s.den.nextChain + 1 } }

/-- A chain as DEN_CHAIN begins it, under the next identity (R208). -/
def State.newChain (s : State) (entry : Option (Nat × Nat)) (job : Option Nat) (actor cls : Nat) (descs : List Desc) : Chain :=
  { id := s.den.nextChain, entry := entry, job := job, actor := actor, cls := cls, descs := descs }

theorem State.startChain_readable (hs : s.unheld) {actor a n : Nat} (entry : Option (Nat × Nat)) (job : Option Nat) (cls : Nat)
    (h : ∀ i, i < n → s.readable actor (a + 64 * i) ∧ (s.lineAt (a + 64 * i)).2 = false) :
    ∃ u, s.startChain entry job actor cls a n [] = u.joinChain (s.newChain entry job actor cls ((List.range n).map (fun i => descOf (s.lineAt (a + 64 * i)).1)))
      ∧ s.Heats u := by
  obtain ⟨u, hu, hheat⟩ := State.engRead_descs hs cls h
  refine ⟨u, ?_, hheat⟩
  simp only [State.startChain, hu, State.joinChain, State.newChain, hheat.accesses.den]

/-- The entry of a DEN_CHAIN that goes on, and the job whose layer's chain it is, where it is one (R196, R260). -/
def State.chainBegun (s : State) (q seq : Nat) (job : Option Job) : State :=
  let s1 := s.modEntry q seq (fun x => { x with stage := 2 })
  match job with
  | some j => s1.modJob j.id (fun j => { j with chainDue := false, chainEntry := none })
  | none => s1

theorem State.chainBegun_changes (s : State) (q seq : Nat) (job : Option Job) : s.changesOnly (s.chainBegun q seq job) [.qmg, .lst] := by
  unfold State.chainBegun
  extract_lets s1
  have hs1 : s.changesOnly s1 [.qmg] := s.modEntry_changes _ _ _
  split
  · exact State.changesOnly_trans hs1 (s1.modJob_changes _ _) (by decide) (by decide)
  · exact State.changesOnly_mono hs1 (by decide)

theorem State.entry_chainBegun {q seq : Nat} {e : Entry} (h : s.entry q seq = some e) (job : Option Job) :
    (s.chainBegun q seq job).entry q seq = some { e with stage := 2 } := by
  have hstarted := State.entry_modEntry (f := fun x => { x with stage := 2 }) (fun _ => ⟨rfl, rfl⟩) h
  unfold State.chainBegun
  cases job <;> exact hstarted

/-- Neither an entry nor a job bears on how a line is read. -/
theorem State.readable_of_changes {ps : List Part} (h : s.changesOnly t ps) (hps : Part.order ∉ ps ∧ Part.reg ∉ ps ∧ Part.rgn ∉ ps ∧ Part.mem ∉ ps) {actor a : Nat} :
    (s.readable actor a → t.readable actor a) ∧ t.lineAt a = s.lineAt a := by
  obtain ⟨horder, hreg, hrgn, hmem⟩ := hps
  have horder := h .order horder
  have hreg := h .reg hreg
  have hrgn := h .rgn hrgn
  have hmem := h .mem hmem
  obtain ⟨o, n, r, g, m, rest⟩ := s
  obtain ⟨o', n', r', g', m', rest'⟩ := t
  simp only [Part.same] at horder hreg hrgn hmem
  subst horder hreg hrgn hmem
  exact ⟨id, rfl⟩

/-- Whose rights and class a chain has: its job's, or its queue's (R260). -/
def chainActor (k : Queue) (job : Option Job) : Nat := match job with | some j => j.actor | none => k.actor
def chainClass (k : Queue) (job : Option Job) : Nat := match job with | some j => j.cls | none => k.cls

theorem exec_denChain_held (h : s.enginesHeld = true) (q seq : Nat) : exec (.denChain q seq []) s = .next s := by
  change execDenChain q seq [] s = _
  simp [execDenChain, h, done]

theorem exec_denChain {q seq : Nat} {e : Entry} {job : Option Job} (hs : s.unheld) (hentry : s.entry q seq = some e) (hstage : e.stage = 1)
    (hopcode : e.opcode = 0x10) (hfree : s.enginesHeld = false) (hjob : job = if (s.queue q).ownKind = 3 then s.chainJob q e else none)
    (hone : (s.queue q).ownKind = 3 → job ≠ none) :
    exec (.denChain q seq []) s = .next ((s.chainBegun q seq job).startChain (some (q, seq)) (job.map (fun j => j.id))
      (chainActor (s.queue q) job) (chainClass (s.queue q) job) e.a0 e.dw1 []) := by
  change execDenChain q seq [] s = _
  rw [execDenChain, if_neg (by simp [hfree]), State.runEntry_started _ hentry hstage hopcode]
  simp only [← hjob]
  rw [if_neg (fun h => hone h.1 h.2), State.engHoldRun, State.engHoldAll_unheld (c := .denChain q seq []) rfl _ hs]
  cases job <;> simp [State.chainBegun, chainActor, chainClass, done]

end

/-! ### DESCRIPTOR_START -/

section
variable {s t u : State} {id : Nat} {c : Chain} {d : Desc}

/-- The sources of a descriptor that lists none (R206). -/
def Desc.strided (d : Desc) : List Nat := if d.op = 0 then [] else (List.range (d.srcLess1 + 1)).map (fun i => (d.src + i * d.stride) % 2 ^ 64)

/-- A descriptor with its sources, running. -/
def Desc.started (d : Desc) : Desc := { d with srcs := d.strided, stage := 1 }

/-- What DESCRIPTOR_START does with the next descriptor of a chain (R207, R208, R214). -/
def State.startDesc (s : State) (id : Nat) (d : Desc) (ue : Option Nat) : State :=
  match ue with
  | some a => (s.denFault (s.descEngine d) a).failDesc id 0 4
  | none =>
    match d.ueAt with
    | some a => (s.denNote (s.descEngine d) a 1).failDesc id 0 4
    | none =>
      if d.bad then s.failDesc id 0 3
      else
        let s1 := s.modDesc id 0 (fun _ => d.started)
        if d.started.badSources then s1.failDesc id 0 3
        else
          let us := (List.range d.units).map (fun u => ({ chain := id, desc := 0, unit := u, engine := none } : UnitRef))
          ({ s1 with den := { s1.den with units := s1.den.units ++ us } }).placeUnits

theorem exec_descriptorStart (hchain : s.chain id = some c) (hdescs : c.descs = [d]) (hstage : d.stage = 0) (hlist : d.list = false)
    (hheld : s.rowHeld (s.descEngine d) = false) (ue : Option Nat) : exec (.descriptorStart id [] ue) s = .next (s.startDesc id d ue) := by
  have hsources : s.descSources c d [] = (d.strided, { data := [], poison := false }, s) := by
    simp only [State.descSources, hlist, Desc.strided]
    by_cases hop : d.op = 0 <;> simp [hop]
  change execDescriptorStart id [] ue s = _
  simp only [execDescriptorStart, hchain, hdescs]
  cases ue with
  | some a => simp [hstage, hlist, hheld, State.startDesc, done]
  | none =>
    cases hat : d.ueAt with
    | some a => simp [hstage, hlist, hheld, State.startDesc, hat, done]
    | none =>
      simp only [State.startDesc, Desc.started, hat]
      cases hbad : d.bad <;> simp [hstage, hlist, hheld, hat, hbad, hsources, done]
      split <;> rfl

theorem exec_descriptorStart_held (hchain : s.chain id = some c) (hdescs : c.descs = [d]) (hheld : s.rowHeld (s.descEngine d) = true) (ue : Option Nat) :
    exec (.descriptorStart id [] ue) s = .next s := by
  change execDescriptorStart id [] ue s = _
  by_cases hstage : d.stage = 0 <;> simp [execDescriptorStart, hchain, hdescs, hstage, hheld, done]

/-- Where the units of a descriptor wait once it has started (R205). -/
def State.unitPlaced (s : State) (u : UnitRef) : UnitRef :=
  match u.engine with
  | some e => if s.denAdmits e || decide (s.runningUnit e = some u) then u else { u with engine := s.engineFor (s.unitTile u) }
  | none => { u with engine := s.engineFor (s.unitTile u) }

theorem State.wakeDen_changes (s : State) (e : Nat) : s.changesOnly (s.wakeDen e) [.reg, .pwr] := by
  unfold State.wakeDen
  split
  · extract_lets s1
    have hs1 : s.changesOnly s1 [.reg] := State.changesOnly_trans (s.setField_changes _ _ _ _ _) (State.count_changes _ _ _ _) (by decide) (by decide)
    intro p hp
    have hp1 := hs1 p (by simp_all)
    cases p <;> simp_all [Part.same]
  · exact s.changesOnly_refl _

theorem State.placeUnits_changes (s : State) : s.changesOnly s.placeUnits [.reg, .pwr, .den]
    ∧ s.placeUnits.den = { s.den with units := s.den.units.map s.unitPlaced } := by
  have hwake (l : List Nat) (u : State) := foldl_changesOnly (fun v e => State.wakeDen_changes v e) l u
  obtain ⟨l, hl⟩ : ∃ l : List Nat, s.placeUnits = l.foldl State.wakeDen { s with den := { s.den with units := s.den.units.map s.unitPlaced } } := ⟨_, rfl⟩
  have hplaced : s.changesOnly { s with den := { s.den with units := s.den.units.map s.unitPlaced } } [.den] := by
    intro p hp
    cases p <;> simp_all [Part.same]
  rw [hl]
  exact ⟨State.changesOnly_trans hplaced (hwake l _) (by decide) (by decide), hwake l _ .den (by decide)⟩

/-- A descriptor starts: it runs, and its units wait at the engines that R205 gives. -/
theorem State.startDesc_good (hchain : s.chain id = some c) (hdescs : c.descs = [d]) (hbad : d.bad = false) (hat : d.ueAt = none)
    (hsrcs : d.started.badSources = false) :
    (s.startDesc id d none).chain id = some { c with descs := [d.started] }
      ∧ (s.startDesc id d none).den.units.length = s.den.units.length + d.units
      ∧ (∀ u, u < d.units → (⟨id, 0, u, s.engineFor (d.dst / 16384 + u)⟩ : UnitRef) ∈ (s.startDesc id d none).den.units)
      ∧ s.changesOnly (s.startDesc id d none) [.reg, .pwr, .den] := by
  have hmod := State.chain_modDesc (fun _ => d.started) hchain hdescs
  simp only [State.startDesc, hat, hbad, hsrcs]
  simp only [Bool.false_eq_true, if_false]
  generalize hus : (List.range d.units).map (fun u => ({ chain := id, desc := 0, unit := u, engine := none } : UnitRef)) = us
  obtain ⟨s1, hs1⟩ : ∃ s1, s1 = s.modDesc id 0 (fun _ => d.started) := ⟨_, rfl⟩
  rw [← hs1] at hmod ⊢
  have hden1 : s1.den.units = s.den.units := by rw [hs1]; rfl
  have hchanges1 : s.changesOnly s1 [.den] := by rw [hs1]; exact s.modDesc_changes _ _ _
  have hengine (x : Nat) : s1.engineFor x = s.engineFor x := by rw [hs1]; rfl
  obtain ⟨v, hv⟩ : ∃ v, v = { s1 with den := { s1.den with units := s1.den.units ++ us } } := ⟨_, rfl⟩
  rw [← hv]
  obtain ⟨hchanges, hden⟩ := v.placeUnits_changes
  have hvchain : v.chain id = some { c with descs := [d.started] } := by rw [hv]; exact hmod
  have hvengine (x : Nat) : v.engineFor x = s.engineFor x := by rw [← hengine x, hv]; rfl
  have hsv : s.changesOnly v [.den] := by
    refine State.changesOnly_trans hchanges1 (qs := [.den]) (fun p hp => ?_) (by decide) (by decide)
    subst hv
    cases p <;> simp_all [Part.same]
  have hunits : v.den.units = s.den.units ++ us := by rw [hv, ← hden1]
  refine ⟨?_, ?_, fun n hn => ?_, State.changesOnly_trans hsv hchanges (by decide) (by decide)⟩
  · rw [State.chain, hden]
    exact hvchain
  · rw [hden]
    simp [hunits, ← hus]
  · rw [hden]
    refine List.mem_map.2 ⟨⟨id, 0, n, none⟩, ?_, ?_⟩
    · simp [hunits, ← hus, hn]
    · have htile : v.unitTile ⟨id, 0, n, none⟩ = d.dst / 16384 + n := by simp [State.unitTile, hvchain, Chain.desc, Desc.started]
      simp only [State.unitPlaced, htile, hvengine]

/-! ### A descriptor fails -/

/-- The engine of a descriptor is one of the sixteen. -/
theorem State.descEngine_lt (s : State) (d : Desc) : s.descEngine d < 16 := by
  unfold State.descEngine
  cases hfind : s.engineFor (d.dst / 16384) with
  | none => exact Nat.mod_lt _ (by omega)
  | some e =>
    unfold State.engineFor at hfind
    obtain ⟨k, -, rfl⟩ := List.mem_map.1 (List.mem_of_find?_eq_some hfind)
    exact Nat.mod_lt _ (by omega)

theorem State.Tends.den (h : s.Tends t) : t.den = s.den := (congrArg State.den h.frame :)
theorem State.Tends.lst (h : s.Tends t) : t.lst = s.lst := (congrArg State.lst h.frame :)

theorem State.denNote_tends (s : State) {e : Nat} (a kind : Nat) : s.Tends (s.denNote e a kind) := by
  have haddr := s.setWord64_tends (denPage e) 0x110 a (by unfold denPage; omega) (by unfold denPage; omega)
  have hinfo := haddr.trans (State.setWord_tends _ (denPage e) 0x118 kind (by unfold denPage; omega))
  exact hinfo.trans (State.err_tends _ _ _)

/-- What a recorded read shows on its engine's page (R214). -/
structure State.noted (t : State) (e a kind : Nat) : Prop where
  status : (t.word (denPage e) 0x018).testBit 8 = true
  addr : t.word64 (denPage e) 0x110 = a % 2 ^ 64
  info : t.word (denPage e) 0x118 = kind % 2 ^ 32

theorem State.denNote_noted (s : State) {e : Nat} (he : e < 16) (a kind : Nat) : (s.denNote e a kind).noted e a kind := by
  have hpage : denPage e ≠ 0x0C1 := by unfold denPage; omega
  refine ⟨?_, ?_, ?_⟩
  · rw [State.denNote, State.err_status _ _ _ (by decide) hpage, Nat.testBit_or, Nat.testBit_two_pow_self, Bool.or_true]
  · rw [State.denNote, State.word64, State.word_err _ _ _ _ _ hpage (by decide) (by omega) (by omega), State.word_err _ _ _ _ _ hpage (by decide) (by omega) (by omega),
      State.word_setWord_ne _ _ _ _ _ _ (by omega), State.word_setWord_ne _ _ _ _ _ _ (by omega), State.setWord64, State.word_setWord_ne _ _ _ _ _ _ (by omega),
      State.word_setWord, State.word_setWord, if_pos rfl, if_pos rfl]
    omega
  · rw [State.denNote, State.word_err _ _ _ _ _ hpage (by decide) (by omega) (by omega), State.word_setWord, if_pos rfl]

/-- A descriptor fails in a state in which its read has been recorded (R208, R214). -/
theorem State.noted.failDesc {e a kind : Nat} (hn : s.noted e a kind) (he : e < 16) (h : s.chain id = some c) (hdescs : c.descs = [d]) (hs : s.runs c)
    {status : Nat} (hstatus : 2 ≤ status) : (s.failDesc id 0 status).noted e a kind := by
  obtain ⟨-, hword, -⟩ := State.failDesc_failed h hdescs hs hstatus
  have hown (o : Nat) (ho : o < 0x180) : enginesOwn (denPage e) o := ⟨by unfold denPage; omega, by unfold denPage; omega, ho⟩
  refine ⟨?_, ?_, ?_⟩
  · rw [hword _ _ (hown _ (by decide)) (by decide)]
    exact hn.status
  · rw [State.word64, hword _ _ (hown _ (by decide)) (by decide), hword _ _ (hown _ (by decide)) (by decide)]
    exact hn.addr
  · rw [hword _ _ (hown _ (by decide)) (by decide)]
    exact hn.info

theorem State.runs.of_tends (h : s.runs c) (ht : s.Tends t) : t.runs c := h.of_same ht.qmg ht.lst

theorem State.denFault_tends (s : State) (e a : Nat) : s.Tends (s.denFault e a) := by
  unfold State.denFault
  simp only []
  split
  · exact ((s.recordUe_tends _ _ _).trans (State.putVatLine_tends _ _ _ _)).trans (State.denNote_tends _ _ _)
  · exact s.denNote_tends _ _

theorem State.denFault_noted (s : State) {e : Nat} (he : e < 16) (a : Nat) : (s.denFault e a).noted e a (if s.home (a / 16384) = 1 then 1 else 2) :=
  State.denNote_noted _ he a _

/-- A vat line found uncorrectable is rewritten as poisoned (R338). -/
theorem State.denFault_poisons (s : State) (e : Nat) {a : Nat} (h : s.home (a / 16384) = 1) :
    ((s.denFault e a).vatLine (s.loc (a / 16384)) (a % 16384 / 64)).2 = true := by
  obtain ⟨u, hu⟩ : ∃ u : State, u = (s.recordUe 1 0 (16384 * s.loc (a / 16384) + a % 16384)).putVatLine (s.loc (a / 16384)) (a % 16384 / 64) (List.replicate 64 0#8, true) := ⟨_, rfl⟩
  have hfault : s.denFault e a = u.denNote e a 1 := by simp [State.denFault, h, hu]
  have hmem : (u.denNote e a 1).mem = u.mem := State.err_mem _ _ _
  rw [hfault, State.vatLine, hmem, ← State.vatLine, hu, State.vatLine_putVatLine_self _ _ _ ⟨by simp, fun _ => rfl⟩]

/-- A descriptor that may not start fails its chain with BAD_DESCRIPTOR (R207, R208). -/
theorem State.startDesc_bad (hchain : s.chain id = some c) (hdescs : c.descs = [d]) (hs : s.runs c) (hat : d.ueAt = none)
    (hbad : d.bad = true ∨ d.started.badSources = true) : (s.startDesc id d none).chainFailed id c 3 0 d.tag := by
  cases hd : d.bad with
  | true =>
    have hstart : s.startDesc id d none = s.failDesc id 0 3 := by simp [State.startDesc, hat, hd]
    rw [hstart]
    exact (State.failDesc_failed hchain hdescs hs (by omega)).1
  | false =>
    have hsrcs : d.started.badSources = true := by simpa [hd] using hbad
    have hstart : s.startDesc id d none = (s.modDesc id 0 (fun _ => d.started)).failDesc id 0 3 := by simp [State.startDesc, hat, hd, hsrcs]
    have hmod := State.chain_modDesc (fun _ => d.started) hchain hdescs
    have hchanges := s.modDesc_changes id 0 (fun _ => d.started)
    have hruns := hs.of_same (hchanges .qmg (by decide)) (hchanges .lst (by decide))
    obtain ⟨hfailed, -, -⟩ := State.failDesc_failed hmod rfl ⟨hruns.entry, hruns.job⟩ (status := 3) (by omega)
    rw [hstart]
    exact ⟨hfailed.chain, hfailed.entry, hfailed.job⟩

/-- A line of a descriptor that was found uncorrectable as its chain was read fails it as UNCORRECTABLE (R208, R214). -/
theorem State.startDesc_read (hchain : s.chain id = some c) (hdescs : c.descs = [d]) (hs : s.runs c) {a : Nat} (hat : d.ueAt = some a) :
    (s.startDesc id d none).chainFailed id c 4 0 d.tag ∧ (s.startDesc id d none).noted (s.descEngine d) a 1 := by
  have hstart : s.startDesc id d none = (s.denNote (s.descEngine d) a 1).failDesc id 0 4 := by simp [State.startDesc, hat]
  have htends := s.denNote_tends (e := s.descEngine d) a 1
  have hchain' : (s.denNote (s.descEngine d) a 1).chain id = some c := by rw [State.chain_of_den htends.den, hchain]
  rw [hstart]
  exact ⟨(State.failDesc_failed hchain' hdescs (hs.of_tends htends) (by omega)).1,
    (s.denNote_noted (s.descEngine_lt d) a 1).failDesc (s.descEngine_lt d) hchain' hdescs (hs.of_tends htends) (by omega)⟩

/-- One found so as the descriptor starts does the same, and a vat line there is poisoned (R214, R338). -/
theorem State.startDesc_fault (hchain : s.chain id = some c) (hdescs : c.descs = [d]) (hs : s.runs c) (a : Nat) :
    (s.startDesc id d (some a)).chainFailed id c 4 0 d.tag
      ∧ (s.startDesc id d (some a)).noted (s.descEngine d) a (if s.home (a / 16384) = 1 then 1 else 2)
      ∧ (s.home (a / 16384) = 1 → c.job = none → ((s.startDesc id d (some a)).vatLine (s.loc (a / 16384)) (a % 16384 / 64)).2 = true) := by
  have hstart : s.startDesc id d (some a) = (s.denFault (s.descEngine d) a).failDesc id 0 4 := rfl
  have htends := s.denFault_tends (s.descEngine d) a
  have hchain' : (s.denFault (s.descEngine d) a).chain id = some c := by rw [State.chain_of_den htends.den, hchain]
  obtain ⟨hfailed, -, hmem⟩ := State.failDesc_failed hchain' hdescs (hs.of_tends htends) (status := 4) (by omega)
  rw [hstart]
  refine ⟨hfailed, (s.denFault_noted (s.descEngine_lt d) a).failDesc (s.descEngine_lt d) hchain' hdescs (hs.of_tends htends) (by omega), fun hhome hjob => ?_⟩
  rw [State.vatLine, hmem hjob, ← State.vatLine]
  exact s.denFault_poisons _ hhome

/-! ### DESCRIPTOR_END -/

theorem exec_descriptorEnd_idle (hchain : s.chain id = some c) (hdescs : c.descs = [d])
    (h : d.stage ≠ 1 ∨ d.done.length < d.units ∨ s.rowHeld (s.descEngine d) = true) : exec (.descriptorEnd id 0) s = .next s := by
  change execDescriptorEnd id 0 s = _
  simp only [execDescriptorEnd, hchain, Chain.desc, hdescs, List.getElem?_cons_zero]
  rw [if_pos h]
  rfl

theorem compareResult_length (d : Desc) : (compareResult d).length = 64 := by simp [compareResult, padTo]

/-- The state in which a descriptor has ended well. -/
def State.descEnded (s : State) (id e : Nat) : State :=
  (s.modDesc id 0 (fun d => { d with stage := 2, status := if d.refused then 1 else 0 })).count (denPage e) 0

theorem State.descEnded_changes (s : State) (id e : Nat) : s.changesOnly (s.descEnded id e) [.den, .reg] :=
  State.changesOnly_trans (s.modDesc_changes _ _ _) (State.count_changes _ _ _ _) (by decide) (by decide)

theorem State.chain_descEnded (hchain : s.chain id = some c) (hdescs : c.descs = [d]) (e : Nat) :
    (s.descEnded id e).chain id = some { c with descs := [{ d with stage := 2, status := if d.refused then 1 else 0 }] } := by
  have hcount : (s.descEnded id e).den = (s.modDesc id 0 (fun d => { d with stage := 2, status := if d.refused then 1 else 0 })).den :=
    State.count_changes _ _ _ _ .den (by decide)
  rw [State.chain_of_den hcount, State.chain_modDesc _ hchain hdescs]

theorem exec_descriptorEnd (hs : s.unheld) (hchain : s.chain id = some c) (hdescs : c.descs = [d]) (hstage : d.stage = 1) (hdone : d.units ≤ d.done.length)
    (hheld : s.rowHeld (s.descEngine d) = false) (hresult : d.op ≠ 2 ∨ s.writable c.actor d.result) :
    ∃ u, exec (.descriptorEnd id 0) s = .next ((u.descEnded id (s.descEngine d)).endChain id 0 0) ∧ s.Accesses u
      ∧ (d.op = 2 → u.lineAt d.result = (compareResult d, false)) := by
  have hgoes : ¬(d.stage ≠ 1 ∨ d.done.length < d.units ∨ s.rowHeld (s.descEngine d) = true) := by simp [hstage, hheld, hdone]
  have hends (u : State) (hu : s.Accesses u) :
      (match (u.descEnded id (s.descEngine d)).chain id with
        | some c2 => if c2.descs.all (fun x => decide (x.stage = 2)) then done ((u.descEnded id (s.descEngine d)).endChain id 0 0) else done (u.descEnded id (s.descEngine d))
        | none => done (u.descEnded id (s.descEngine d))) = .next ((u.descEnded id (s.descEngine d)).endChain id 0 0) := by
    rw [State.chain_descEnded ((State.chain_of_den hu.den id).trans hchain) hdescs]
    simp [done]
  change ∃ u, execDescriptorEnd id 0 s = _ ∧ _
  simp only [execDescriptorEnd, hchain, Chain.desc, hdescs, List.getElem?_cons_zero]
  rw [if_neg hgoes]
  by_cases hop : d.op = 2
  · obtain ⟨u, hwrite, hwrites, hline⟩ := State.engWrite_writable hs (hresult.resolve_left (fun h => h hop)) c.cls d.result (compareResult d) fullBe false
    refine ⟨u, ?_, hwrites.accesses, fun _ => ?_⟩
    · rw [← hends u hwrites.accesses, if_pos hop, State.engHoldRun, State.engHoldAll_unheld (c := .descriptorEnd id 0) rfl _ hs]
      simp only [Bool.false_eq_true, if_false, if_pos hop, hwrite, State.markRefused]
      rfl
    · rw [hline, writeOver_full _ (v := (compareResult d, false)) ⟨compareResult_length d, by simp⟩]
  · refine ⟨s, ?_, .refl s, fun h => absurd h hop⟩
    rw [← hends s (.refl s), if_neg hop]
    simp only [Bool.false_eq_true, if_false, if_neg hop]
    rfl

end

/-! ### The statement -/

/-- Settles O37: a chain's descriptors are read from lines that answer as their slots hold them; the start of one places its units or fails its chain, and its end ends the chain, with what each leaves of the entry and of the job. -/
theorem chainsAreStartedAndEnded : Obligations.ChainsAreStartedAndEnded := by
  unfold Obligations.ChainsAreStartedAndEnded
  refine ⟨fun s q seq e hs hentry hstage hopcode => ?_, fun s id c d hs hchain hdescs hentry hjob => ?_⟩
  · intro k job actor cls
    refine ⟨fun hheld => exec_denChain_held hheld q seq, fun hfree hone hlines => ?_⟩
    have hactor : actor = chainActor k job := rfl
    have hcls : cls = chainClass k job := rfl
    have hexec := exec_denChain (job := job) hs hentry hstage hopcode hfree rfl hone
    have hbegun := s.chainBegun_changes q seq job
    have hread (a : Nat) := State.readable_of_changes hbegun (by decide) (actor := actor) (a := a)
    obtain ⟨u, hu, hheat⟩ := State.startChain_readable (s := s.chainBegun q seq job) (actor := actor) (a := e.a0) (n := e.dw1)
      (by rw [State.unheld, show (s.chainBegun q seq job).dir = s.dir from hbegun .dir (by decide)]; exact hs) (some (q, seq)) (job.map (fun j => j.id)) cls
      (fun i hi => ⟨(hread _).1 (hlines i hi).1, by rw [(hread _).2]; exact (hlines i hi).2⟩)
    simp only [hread] at hu
    have hden : (s.chainBegun q seq job).den = s.den := hbegun .den (by decide)
    refine ⟨_, hexec, ?_⟩
    rw [← hactor, ← hcls, hu]
    refine ⟨?_, ?_, ?_, ?_, ?_, ?_, ?_⟩
    · exact (hheat.accesses.entry q seq).trans (State.entry_chainBegun hentry job)
    · simp only [State.joinChain, hheat.accesses.den, hden]
    · simp only [State.joinChain, hheat.accesses.den, hden]
    · have hall := State.changesOnly_trans (rs := lineTraffic ++ [.qmg, .lst, .den]) hbegun hheat.changesOnly (by decide) (by decide)
      intro p hp
      have hkept := hall p hp
      cases p <;> simp_all [Part.same, State.joinChain, lineTraffic]
    · have hmem : (s.chainBegun q seq job).mem = s.mem := hbegun .mem (by decide)
      rw [State.keepsBytes, ← hmem]
      exact hheat.keepsBytes
    · intro hnone
      refine hheat.accesses.lst.trans ?_
      rw [hnone]
      rfl
    · simp only [State.joinChain, hheat.accesses.den, hden, State.newChain]
  · have hruns : s.runs c := ⟨hentry, hjob⟩
    intro srcs d1 fails
    have hfails (t : State) (status : Nat) (h : t.chainFailed id c status 0 d.tag) : fails t status :=
      ⟨h.chain, h.entry, h.job⟩
    refine ⟨fun hheld => ⟨exec_descriptorStart_held hchain hdescs hheld none, exec_descriptorEnd_idle hchain hdescs (.inr (.inr hheld))⟩,
      fun hheld hstage hlist => ?_, fun hheld hstage hdone hresult => ?_, fun h => exec_descriptorEnd_idle hchain hdescs (by tauto)⟩
    · have hexec (ue : Option Nat) := exec_descriptorStart hchain hdescs hstage hlist hheld ue
      refine ⟨fun hbad hat hsrcs => ⟨_, hexec none, State.startDesc_good hchain hdescs hbad hat hsrcs⟩,
        fun hat hbad => ⟨_, hexec none, hfails _ _ (State.startDesc_bad hchain hdescs hruns hat hbad)⟩, fun a hat => ?_, fun a => ?_⟩
      · obtain ⟨hfailed, hstatus, haddr, hinfo⟩ := State.startDesc_read hchain hdescs hruns hat
        exact ⟨_, hexec none, hfails _ _ hfailed, hstatus, haddr, hinfo⟩
      · obtain ⟨hfailed, ⟨hstatus, haddr, hinfo⟩, hpoison⟩ := State.startDesc_fault hchain hdescs hruns a
        refine ⟨_, hexec (some a), hfails _ _ hfailed, hstatus, haddr, ?_, hpoison⟩
        rw [hinfo]
        split <;> rfl
    · obtain ⟨u, hexec, hu, hline⟩ := exec_descriptorEnd hs hchain hdescs hstage hdone hheld hresult
      have hchanges := u.descEnded_changes id (s.descEngine d)
      have huchain := State.chain_descEnded ((State.chain_of_den hu.den id).trans hchain) hdescs (s.descEngine d)
      have huruns := hruns.of_same ((hchanges .qmg (by decide)).trans hu.qmg) ((hchanges .lst (by decide)).trans hu.lst)
      obtain ⟨hgone, hmem, hended, hkept⟩ := State.endChain_ended huchain ⟨huruns.entry, huruns.job⟩
      have hmem' := hmem.trans (hchanges .mem (by decide))
      refine ⟨_, hexec, hgone, fun q seq hq => ?_, fun k j hk hj => ?_, fun hop _ => ?_⟩
      · obtain ⟨x, hx, hstage', hstatus, hv0⟩ := hended q seq hq
        refine ⟨x, hx, hstage', ?_, ?_⟩
        · rw [hstatus]
          simp [Chain.refused]
        · rw [hv0]
          cases d.refused <;> simp [Chain.ended']
      · have hj' : (u.descEnded id (s.descEngine d)).job k = some j := by
          rw [State.job_of_lst ((hchanges .lst (by decide)).trans hu.lst), hj]
        rw [hkept k j hk hj']
        simp [Chain.refused]
      · rw [← hline hop, State.lineAt, State.lineAt, State.loc, State.loc, State.tmap, State.tmap, State.vatLine, State.vatLine, hmem']

end Sys2Proof.Machine
end

section
/-! PROOFS. What the reads and writes of a service keep, whatever homes the tiles have or take (R44, R45, R105, R129): the queues, the regions, the services, the jobs and the directory; and no port's write comes to wait for a draft's home. -/

namespace Sys2Proof.Machine

/-! ### What is kept -/

/-- From s to t lines of tiles were read and written, of whatever homes. -/
structure State.Serves (s t : State) : Prop where
  qmg : t.qmg = s.qmg
  rgn : t.rgn = s.rgn
  svc : t.svc = s.svc
  lst : t.lst = s.lst
  dir : t.dir = s.dir
  pending : ∀ p, t.draftPending p = true → s.draftPending p = true

section
variable {s t u : State}

theorem State.Serves.refl (s : State) : s.Serves s := ⟨rfl, rfl, rfl, rfl, rfl, fun _ h => h⟩

theorem State.Serves.trans (h : s.Serves t) (k : t.Serves u) : s.Serves u where
  qmg := k.qmg.trans h.qmg
  rgn := k.rgn.trans h.rgn
  svc := k.svc.trans h.svc
  lst := k.lst.trans h.lst
  dir := k.dir.trans h.dir
  pending p hp := h.pending p (k.pending p hp)

theorem foldl_serves {α} {f : State → α → State} (hf : ∀ (s : State) (a : α), s.Serves (f s a)) (l : List α) (s : State) : s.Serves (l.foldl f s) := by
  induction l generalizing s with
  | nil => exact .refl s
  | cons a l ih => exact (hf s a).trans (ih _)

theorem foldl_snd_serves {α β} {f : α × State → β → α × State} (hf : ∀ (a : α × State) (b : β), a.2.Serves (f a b).2) (l : List β) (a : α × State) :
    a.2.Serves (l.foldl f a).2 := by
  induction l generalizing a with
  | nil => exact .refl _
  | cons b l ih => exact (hf a b).trans (ih _)

theorem State.Tends.serves (h : s.Tends t) : s.Serves t where
  qmg := h.qmg
  rgn := h.rgn
  svc := (congrArg State.svc h.frame :)
  lst := h.lst
  dir := h.dir
  pending p hp := by rwa [← s.besideTiles_draftPending, ← h.frame, t.besideTiles_draftPending]

theorem State.Looks.serves (h : s.Looks t) : s.Serves t := h.tends.serves

theorem State.Accesses.serves (h : s.Accesses t) : s.Serves t :=
  ⟨h.qmg, h.rgn, h.svc, h.lst, h.dir, fun p hp => by rwa [State.draftPending, ← h.ports, ← State.draftPending]⟩

theorem State.Serves.calm (h : s.Serves t) (hs : s.calm) : t.calm := by
  obtain ⟨hwaiting, hsnoops, hpending⟩ := hs
  refine ⟨by rw [h.dir, hwaiting], by rwa [h.dir], fun p => ?_⟩
  have hp := h.pending p
  rw [hpending p] at hp
  simpa using hp

theorem State.Serves.unheld (h : s.Serves t) (hs : s.unheld) : t.unheld := by rwa [State.unheld, h.dir]

end

section
variable (s : State)

theorem State.mem_serves (x : MemState) : s.Serves { s with mem := x } := ⟨rfl, rfl, rfl, rfl, rfl, fun _ h => h⟩
theorem State.prs_serves (x : PrsState) : s.Serves { s with prs := x } := ⟨rfl, rfl, rfl, rfl, rfl, fun _ h => h⟩
theorem State.rck_serves (x : RckState) : s.Serves { s with rck := x } := ⟨rfl, rfl, rfl, rfl, rfl, fun _ h => h⟩
theorem State.igr_serves (x : IgrState) : s.Serves { s with igr := x } := ⟨rfl, rfl, rfl, rfl, rfl, fun _ h => h⟩
theorem State.edn_serves (x : EdnState) : s.Serves { s with edn := x } := ⟨rfl, rfl, rfl, rfl, rfl, fun _ h => h⟩

/-! ### What the cooper does for a cask that has been settled -/

theorem State.repaired_serves : s.Serves s.repaired := ((s.count_tends 0x0E0 1 (i := 4) (by omega)).trans (State.err_tends _ _ _)).serves

theorem State.retirePackage_serves (p : Nat) : s.Serves (s.retirePackage p) := by
  unfold State.retirePackage
  extract_lets holds b
  split
  · exact ((s.mem_serves _).trans (State.repaired_serves _)).trans (State.settleUsage_tends _).serves
  · exact .refl s

theorem State.copySectors_serves (p x q y n : Nat) : s.Serves (s.copySectors p x q y n) := by
  unfold State.copySectors
  extract_lets s1 bad s2
  have hs1 : s.Serves s1 := (s.dramCellar_looks _ _ _ _ _).serves.trans (State.putSectors_tends _ _ _ _).serves
  exact (hs1.trans (State.dramCellar_looks _ _ _ _ _ _).serves).trans (s2.mem_serves _)

theorem State.moveCask_serves (k q y : Nat) : s.Serves (s.moveCask k q y) := by
  unfold State.moveCask
  extract_lets e s1 igr s2
  have hs1 : s.Serves s1 := (s.copySectors_serves _ _ _ _ _).trans (State.markSectors_tends _ _ _ _ _).serves
  have hs2 : s1.Serves s2 := s1.igr_serves _
  exact (hs1.trans hs2).trans (((s2.markSectors_tends _ _ _ _).trans (State.setCask_tends _ _ _)).trans (State.cacheDrop_tends _ _)).serves

theorem State.copyFinds_serves (k : Nat) : s.Serves (s.copyFinds k []) := by
  unfold State.copyFinds
  simp only [State.readSectors, if_pos]
  split
  · exact .refl s
  split
  · exact .refl s
  · exact (State.quarantine_tends _ _ _ _ _).serves

theorem State.findRelocation_serves (t c g n : Nat) : s.Serves (s.findRelocation t c g n).2 := by
  refine foldl_snd_serves (fun a p => ?_) _ (none, s)
  split
  · exact .refl _
  split
  · exact (State.findRun_tends _ _ _ _ _).serves
  · exact .refl _

theorem State.evacuateCask_serves (k : Nat) : s.Serves (s.evacuateCask k []) := by
  unfold State.evacuateCask
  simp only []
  split
  · exact .refl s
  next g _ _ =>
  split
  · split
    · exact ((s.setCask_tends _ _).trans (State.cacheDrop_tends _ _)).serves
    · exact .refl s
  have hcopied := (s.copyFinds_serves k).trans ((s.copyFinds k []).findColumn_tends (k / 4) (k % 4) g (s.cask k).length).serves
  split
  · next hfind =>
    rw [hfind] at hcopied
    exact hcopied.trans (State.moveCask_serves _ _ _ _)
  · next u hfind =>
    rw [hfind] at hcopied
    have hfound := hcopied.trans (u.findRelocation_serves (k / 4) (k % 4) g (s.cask k).length)
    split
    · next hreloc =>
      rw [hreloc] at hfound
      exact hfound.trans (State.moveCask_serves _ _ _ _)
    · next hreloc =>
      rw [hreloc] at hfound
      exact hfound

theorem State.withholdRow_serves (p c rank bank row : Nat) (on : Bool) : s.Serves (s.withholdRow p c rank bank row on) := s.mem_serves _

theorem State.rowsEmptied_serves : s.Serves s.rowsEmptied := by
  refine foldl_serves (fun v u => ?_) _ s
  split
  · split
    · exact ((v.withholdRow_serves _ _ _ _ _ _).trans (State.igr_serves _ _)).trans (State.repaired_serves _)
    · exact .refl v
  · exact .refl v

theorem State.findReloc_serves (p n : Nat) : s.Serves (s.findReloc p n).2 := by
  unfold State.findReloc
  extract_lets kept out
  have hout : s.Serves out := by
    refine foldl_serves (fun v u => ?_) _ s
    split
    · exact v.withholdRow_serves _ _ _ _ _ _
    · exact .refl v
  exact (hout.trans (out.findRun_tends _ _ _ _).serves).trans (State.mem_serves _ _)

theorem State.settleCask_serves (k : Nat) : s.Serves (s.settleCask k) := by
  have hlook : s.Serves (s.findCask k background .none) := (s.findCask_tends k background).serves
  unfold State.settleCask
  simp only [show upsetAt [] (4096 * k) isCaskMap = Upset.none from rfl]
  generalize s.findCask k background .none = u at hlook
  split
  · split
    · exact (hlook.trans (u.evacuateCask_serves k)).trans (State.retirePackage_serves _ _)
    · exact hlook
  split
  · exact hlook
  split
  · have hreloc := hlook.trans (u.findReloc_serves (u.cask k).package (u.cask k).length)
    split
    · next hfind =>
      rw [hfind] at hreloc
      exact (hreloc.trans (State.moveCask_serves _ _ _ _)).trans (State.rowsEmptied_serves _)
    · next hfind =>
      rw [hfind] at hreloc
      exact hreloc
  · exact hlook.trans (State.rowsEmptied_serves _)

/-! ### A seal ends within a step -/

theorem State.sealClosed_serves (k : Nat) : s.Serves (s.sealClosed k) :=
  (((s.dropBuf_tends k).trans (State.zeroTest_tends _ _)).serves.trans (State.settleCask_serves _ _)).trans (State.settleUsage_tends _).serves

theorem State.sealMerged_serves (k g : Nat) (r : Region) (b : AsmBuf) : s.Serves (s.sealMerged k g r b) := by
  have hcontent := s.caskContent_tends k ⟨r.cls, 6⟩
  have hend {u : State} (h : s.Tends u) (p : Nat) (enc : StoredCask) (raw : List Byte) (poison : BitVec 64) :
      s.Serves ((u.sealCounted k g p b enc raw poison).sealClosed k) :=
    (h.trans (u.sealCounted_tends k g p b enc raw poison)).serves.trans (State.sealClosed_serves _ k)
  unfold State.sealMerged
  dsimp only
  split
  · exact hend (hcontent.trans (State.sealedInPlace_tends _ _ _ _ _)) _ _ _ _
  split
  · exact hend ((hcontent.trans (State.freeCask_tends _ _)).trans (State.setCask_tends _ _ _)) _ _ _ _
  split
  · next htake =>
    have hroom := hcontent.trans (State.takeSectors_tends _ htake)
    exact hend ((((hroom.trans (State.addRef_tends _ _)).trans (State.dramCellar_looks _ _ _ _ _ _).tends).trans
      (State.freeCask_tends _ _)).trans (State.storeCask_tends _ _ _ _ _)) _ _ _ _
  · exact (((hcontent.trans (State.count_tends _ _ _ (by omega))).trans (State.sealToVat_tends _ _ _)).trans (State.dropBuf_tends _ _)).serves

theorem State.sealCask_serves (k : Nat) : s.Serves (s.sealCask k) := by
  cases hbuf : s.bufOf k with
  | none =>
    have hseal : s.sealCask k = s.dropBuf k := by simp [State.sealCask, hbuf]
    rw [hseal]
    exact (s.dropBuf_tends k).serves
  | some b =>
    cases hregion : s.tileRegion (k / 4) with
    | none =>
      rw [State.sealCask_free hbuf hregion]
      exact (s.dropBuf_tends k).serves
    | some e =>
      have hlooked := ((s.findTile_tends (k / 4) ⟨e.2.cls, 6⟩).trans (State.findCask_tends _ k ⟨e.2.cls, 6⟩)).serves
      rw [State.sealCask_eq hbuf hregion]
      split
      · exact hlooked.trans (State.dropBuf_tends _ k).serves
      · exact hlooked.trans (State.sealMerged_serves _ k e.1 e.2 b)

theorem State.takeFor_serves {s : State} {k g n p x : Nat} {u : State} (h : s.takeFor k g n = some (p, x, u)) : s.Serves u := by
  unfold State.takeFor at h
  split at h
  · have hrun := s.findRun_tends (s.cask k).package 0 caskSectors n
    dsimp only at h
    split at h
    · next hfind =>
      rw [hfind] at hrun
      simp only [Option.some.injEq, Prod.mk.injEq] at h
      obtain ⟨-, -, rfl⟩ := h
      exact (hrun.trans (State.markSectors_tends _ _ _ _ _)).serves
    · cases h
  · exact (State.takeSectors_tends _ h).serves

theorem State.reencodeDone_serves (k : Nat) : s.Serves (s.reencodeDone k) := by
  unfold State.reencodeDone
  split
  swap
  · exact .refl s
  extract_lets _ s1
  have hs1 : s.Serves s1 := s.rck_serves _
  split
  · exact hs1
  split
  · exact hs1
  have hstored := hs1.trans (s1.storedCask_tends k background).serves
  split
  next raw poison s2 hread =>
  rw [hread] at hstored
  split
  · exact hstored
  extract_lets enc u
  split
  · have hu : s2.Tends u := (s2.freeCask_tends k).trans (State.setCask_tends _ _ _)
    exact hstored.trans ((((hu.trans (State.cacheDrop_tends _ _)).trans (State.count_tends _ _ _ (by omega))).trans (State.zeroTest_tends _ _)).trans
      (State.settleUsage_tends _)).serves
  split
  · exact hstored
  · next p x v htake =>
    have hroom := hstored.trans (State.takeFor_serves htake)
    have hput := ((v.addRef_tends enc.table).trans (State.freeCask_tends _ k)).trans (State.storeCask_tends _ k p x enc)
    exact hroom.trans ((((hput.trans (State.dramCellar_looks _ _ _ _ _ _).tends).trans (State.cacheDrop_tends _ _)).trans
      (State.count_tends _ _ _ (by omega))).trans (State.settleUsage_tends _)).serves

theorem State.finishSeal_serves (k : Nat) : s.Serves (s.finishSeal k) := (s.reencodeDone_serves k).trans (State.sealCask_serves _ k)

theorem State.freeBuffer_serves (p fuel : Nat) : s.Serves (s.freeBuffer p fuel) := by
  induction fuel generalizing s with
  | zero => exact .refl s
  | succ fuel ih =>
    unfold State.freeBuffer
    split
    · exact .refl s
    split
    · exact (s.finishSeal_serves _).trans (ih _)
    split
    · exact ((s.prs_serves _).trans (State.finishSeal_serves _ _)).trans (ih _)
    · exact .refl s

/-! ### A line of a tile is written -/

theorem State.writeBuf_serves (k i : Nat) (new : List Byte) (be : BitVec 64) (poison : Bool) (w : Traffic) :
    s.Serves (s.writeBuf k i new be poison w) := by
  unfold State.writeBuf
  extract_lets b0 whole
  split
  next old s1 hread =>
  have hs1 : s.Serves s1 := by
    split at hread
    · cases hread
      exact .refl s
    split at hread
    · cases hread
      exact .refl s
    · cases hread
      split
      · exact ((s.storedCask_tends k w).trans (State.count_tends _ _ _ (by omega))).serves
      · exact (s.storedCask_tends k w).serves
  exact hs1.trans (s1.prs_serves _)

theorem State.mergeVat_serves (slot line a : Nat) (new : List Byte) (be : BitVec 64) (poison : Bool) : s.Serves (s.mergeVat slot line a new be poison .none) := by
  unfold State.mergeVat
  split
  · exact (s.putVatLine_tends _ _ _).serves
  · have hread : (s.readVatEcc slot line a .none 0).2.2 = s := by
      unfold State.readVatEcc
      dsimp only
      split <;> rfl
    dsimp only
    rw [hread]
    exact (s.putVatLine_tends _ _ _).serves

theorem State.writeCask_serves (k i : Nat) (new : List Byte) (be : BitVec 64) (poison : Bool) (w : Traffic) :
    s.Serves (s.writeCask k i new be poison w) := by
  unfold State.writeCask
  extract_lets s1
  have hs1 : s.Serves s1 := by
    simp only [s1]
    split
    · exact .refl s
    · exact s.freeBuffer_serves _ _
    · exact s.finishSeal_serves _
  split
  · exact hs1.trans (s1.writeBuf_serves _ _ _ _ _ _)
  split
  · exact (hs1.trans (s1.mergeVat_serves _ _ _ _ _ _)).trans (State.dramVat_looks _ _ _ _ _).serves
  · exact hs1

theorem State.vatHome_serves (t slot : Nat) (poisoned : Bool) (w : Traffic) : s.Serves (s.vatHome t slot poisoned w) := by
  have hslot (u : State) : u.Serves (u.poisonSlot slot w) :=
    foldl_serves (fun v i => ((v.putVatLine_tends _ _ _).trans (State.dramVat_looks _ _ _ _ _).tends).serves) _ u
  unfold State.vatHome
  dsimp only
  split
  · exact (s.setHome_tends _ _ _).serves.trans (hslot _)
  · exact (s.setHome_tends _ _ _).serves

theorem State.cellarHome_serves (t g : Nat) (poisoned : Bool) (w : Traffic) : s.Serves (s.cellarHome t g poisoned w) := by
  unfold State.cellarHome
  extract_lets s1
  have hs1 : s.Serves s1 := (s.setHome_tends _ _ _).serves.trans
    (foldl_serves (fun u c => ((u.lookCask_looks _ _).tends.trans (State.setCask_tends _ _ _)).serves) _ _)
  split
  · exact hs1.trans (foldl_serves (fun u i => u.writeCask_serves _ _ _ _ _ _) _ _)
  · exact hs1

theorem State.firstHome_serves (t : Nat) (w : Traffic) : s.Serves (s.firstHome t w) := by
  unfold State.firstHome
  split
  · exact .refl s
  extract_lets poisoned spare cellar
  have hspare (u : State) : u.Serves (spare u) := by
    simp only [spare]
    split
    · next htake => exact ((State.takePool_tends htake).serves.trans (State.vatHome_serves _ _ _ _ _)).trans (State.settleUsage_tends _).serves
    · split
      · next htake =>
        exact ((u.exhausted_tends.trans (State.takeEmergency_tends htake)).serves.trans (State.vatHome_serves _ _ _ _ _)).trans (State.settleUsage_tends _).serves
      · exact (u.exhausted_tends.trans (State.capDrop_tends _ _ _)).serves
  have hcellar (u : State) : u.Serves (cellar u) := by
    simp only [cellar]
    split
    · exact u.cellarHome_serves _ _ _ _
    · exact hspare u
  have hlow (u : State) : u.Serves u.demoteIfLow := u.demoteIfLow_settles.tends.serves
  split
  · split
    · next htake => exact (State.takeSlot_tends htake).serves.trans (State.vatHome_serves _ _ _ _ _)
    · exact hcellar s
  split
  · exact hcellar s
  split
  · split
    · next htake =>
      exact (((State.takePool_tends htake).serves.trans (State.vatHome_serves _ _ _ _ _)).trans (State.settleUsage_tends _).serves).trans (hlow _)
    · exact hcellar s
  · exact (hcellar s).trans (hlow _)

/-- A change of a port that adds no read that is not quarantined and that a request waits for. -/
theorem State.modPort_serves (p : Port) (f : PortState → PortState)
    (h : ∀ g ∈ (f (s.port p)).tags, g.quarantined = true ∨ g.demanded = false ∨ g ∈ (s.port p).tags) : s.Serves (s.modPort p f) := by
  refine ⟨rfl, rfl, rfl, rfl, rfl, fun n hn => ?_⟩
  simp only [State.draftPending, List.any_eq_true, Bool.and_eq_true, Bool.not_eq_true'] at hn ⊢
  obtain ⟨q, hq, g, hg, hfree, hwaits⟩ := hn
  obtain ⟨i, hi, rfl⟩ := Vector.mem_iff_getElem.1 (Vector.mem_toList_iff.1 hq)
  have hport (x : PortState) (j : Nat) (hj : j < 6) (hx : s.ports[j] = x) : x ∈ s.ports.toList := by
    rw [Vector.mem_toList_iff, ← hx]
    exact Vector.getElem_mem _
  by_cases hip : p.val = i
  · have hmod : (s.modPort p f).ports[i] = f (s.port p) := by simp [State.modPort, State.port, hip]
    rw [hmod] at hg
    obtain hquar | hgone | hold := h g hg
    · rw [hquar] at hfree
      cases hfree
    · unfold Tag.demanded at hgone
      split at hgone
      · cases hgone
      · next hnot =>
        split at hwaits
        · next r hr => exact absurd hr (hnot r)
        · cases hwaits
    · exact ⟨s.port p, hport _ p.val p.isLt rfl, g, hold, hfree, hwaits⟩
  · have hmod : (s.modPort p f).ports[i] = s.ports[i] := by simp [State.modPort, hip]
    rw [hmod] at hg
    exact ⟨s.ports[i], hport _ i hi rfl, g, hg, hfree, hwaits⟩

theorem State.emit_serves (o : Out) : s.Serves (s.emit o) := ⟨rfl, rfl, rfl, rfl, rfl, fun _ h => h⟩
theorem State.until_serves (due : Nat) : s.Serves (s.until due) := ⟨rfl, rfl, rfl, rfl, rfl, fun _ h => h⟩

theorem State.dmaOut_serves (p haddr : Nat) (data : List Byte) (cls : Nat) : s.Serves (s.dmaOut p haddr data cls) := by
  unfold State.dmaOut
  split
  · split
    · exact s.modPort_serves _ _ (fun g hg => .inr (.inr hg))
    · exact s.emit_serves _
  · exact .refl s

theorem State.dmaLine_serves (p haddr : Nat) (data : List Byte) (be : BitVec 64) (cls : Nat) : s.Serves (s.dmaLine p haddr data be cls) :=
  foldl_serves (fun u _ => u.dmaOut_serves _ _ _ _) _ s

theorem State.writeHost_serves (t i : Nat) (new : List Byte) (be : BitVec 64) (poison : Bool) (cls : Nat) : s.Serves (s.writeHost t i new be poison cls) := by
  have hmark (b : Bool) : s.Serves (s.setHostPoison t i b) := (s.setCmap_tends _ _).serves
  unfold State.writeHost
  dsimp only
  split
  · exact hmark true
  split
  · exact (hmark true).trans (State.dmaLine_serves _ _ _ _ _ _)
  split
  · exact (hmark false).trans (State.dmaLine_serves _ _ _ _ _ _)
  split
  · exact .refl s
  · exact s.dmaLine_serves _ _ _ _ _

/-- A line of a tile is written, whatever home it has and takes (R19, R45, R68, R79). -/
theorem State.writeTile_serves (t i : Nat) (new : List Byte) (be : BitVec 64) (poison : Bool) (w : Traffic) : s.Serves (s.writeTile t i new be poison w) := by
  have hfound : s.Serves (s.findTile t w .none) := (s.findTile_tends t w).serves
  unfold State.writeTile
  simp -zeta only [show ∀ a k, upsetAt [] a k = Upset.none from fun _ _ => rfl]
  extract_lets a s' u s1 s2
  have hu : s.Serves u := by
    simp only [u]
    split
    · exact hfound.trans (State.findCask_tends _ _ _).serves
    · exact hfound
  have hs1 : s.Serves s1 := by
    simp only [s1]
    split
    · exact hu.trans (u.firstHome_serves _ _)
    · exact hu
  have hs2 : s.Serves s2 := by
    simp only [s2]
    split
    · exact (hs1.trans (s1.mergeVat_serves _ _ _ _ _ _)).trans (State.dramVat_looks _ _ _ _ _).serves
    · exact hs1.trans (s1.writeCask_serves _ _ _ _ _ _)
    · exact hs1.trans (s1.writeHost_serves _ _ _ _ _ _)
    · exact hs1
  exact hs2.trans (s2.markMove_heats t i).accesses.serves

end

end Sys2Proof.Machine
end

section
/-! PROOFS. What the reads and writes of a service keep, continued: reads of host memory, of casks, of drafts, and the accesses of a service themselves (R30, R42, R203). -/

namespace Sys2Proof.Machine

section
variable (s : State)

/-! ### Host memory and casks are read -/

theorem upsetAt_nil (a : Nat) (k : Upset → Bool) : upsetAt [] a k = Upset.none := rfl

theorem State.freeTag_serves (p : Port) (tag : Nat) : s.Serves (s.freeTag p tag) :=
  s.modPort_serves _ _ (fun _ hg => .inr (.inr (List.mem_of_mem_filter hg)))

theorem State.aer_serves (p : Port) (bit : Nat) : s.Serves (s.aer p bit) := s.modPort_serves _ _ (fun _ hg => .inr (.inr hg))

theorem State.quarantineTag_serves (p : Port) (tag : Nat) : s.Serves (s.quarantineTag p tag) := by
  unfold State.quarantineTag State.modTag
  refine s.modPort_serves _ _ (fun g hg => ?_)
  obtain ⟨h, hmem, rfl⟩ := List.mem_map.1 hg
  split
  · exact .inl rfl
  · exact .inr (.inr hmem)

theorem State.readTimedOut_serves (p : Port) (tag : Nat) : s.Serves (s.readTimedOut p tag) :=
  ((s.aer_serves p 2).trans ((State.count_tends _ _ _ (by omega)).trans (State.err_tends _ _ _)).serves).trans (State.quarantineTag_serves _ _ _)

theorem State.tagWithin_serves (p : Port) : s.Serves (s.tagWithin p) := by
  unfold State.tagWithin
  split
  · exact .refl s
  · split
    · exact .refl s
    · exact (s.until_serves _).trans (State.freeTag_serves _ _ _)

theorem nextTagOf_tags {q r : PortState} {tag : Nat} (h : nextTagOf q = some (tag, r)) : r.tags = q.tags := by
  unfold nextTagOf at h
  split at h
  · cases h
    rfl
  · split at h
    · cases h
    · cases h
      rfl

theorem State.issueRead_serves {s : State} {p : Port} {haddr bytes cls : Nat} {timer : Port} {u : State}
    (h : s.issueRead p haddr bytes cls .gone timer = some u) : s.Serves u := by
  unfold State.issueRead at h
  split at h
  · cases h
  next tag q htag =>
  cases h
  refine .trans (s.modPort_serves p _ (fun g hg => ?_)) (State.emit_serves _ _)
  rw [nextTagOf_tags htag] at hg
  obtain hold | hnew := List.mem_append.1 hg
  · exact .inr (.inr hold)
  · rw [List.mem_singleton.1 hnew]
    exact .inr (.inl rfl)

theorem State.readWithin_serves (p : Port) (haddr bytes cls : Nat) (answered : Bool) (timer : Port) :
    s.Serves (s.readWithin p haddr bytes cls answered timer).2 := by
  unfold State.readWithin
  split
  · exact .refl s
  next u hissue =>
  have hu : s.Serves u := (s.tagWithin_serves p).trans (State.issueRead_serves hissue)
  split
  · exact hu
  split
  · exact hu.trans (State.freeTag_serves _ _ _)
  · exact (hu.trans (State.until_serves _ _)).trans (State.readTimedOut_serves _ _ _)

theorem State.readHost_serves (t i : Nat) (w : Traffic) : s.Serves (s.readHost t i [] w).2.2 := by
  unfold State.readHost
  extract_lets zero
  split
  · exact .refl s
  next p _ =>
  extract_lets ask
  split
  · exact .refl s
  have hask : s.Serves (ask false).2 := by
    simp only [ask]
    split
    · exact s.readWithin_serves _ _ _ _ _ _
    · exact .refl s
  exact hask.trans (State.err_tends _ _ _).serves

theorem State.caskLine_serves (k i : Nat) (w : Traffic) : s.Serves (s.caskLine k i w []).2.2 := by
  unfold State.caskLine
  split
  · split
    · exact .refl s
    · exact (s.storedCask_tends k w).serves
  · exact (s.storedCask_tends k w).serves

/-! ### A line of a tile is read -/

theorem State.readVatEcc_none (slot line a by' : Nat) : (s.readVatEcc slot line a .none by').2.2 = s := by
  unfold State.readVatEcc
  dsimp only
  split <;> rfl

/-- A line of a tile is read, whatever home it has (R19, R44). -/
theorem State.readTileEcc_serves (t i : Nat) (w : Traffic) : s.Serves (s.readTileEcc t i [] w).2.2.2 := by
  unfold State.readTileEcc
  extract_lets a u v
  have hu : s.Serves u := (s.findTile_tends t w).serves
  have hv : s.Serves v := hu.trans (State.findCask_tends _ _ _).serves
  split
  · exact hu
  · simp only [upsetAt_nil, State.readVatEcc_none]
    exact hu.trans (State.dramVat_looks _ _ _ _ _).serves
  · split
    · exact hv.trans (State.caskLine_serves _ _ _ _)
    · exact hv
  · split
    · exact hv.trans (State.readHost_serves _ _ _ _)
    · exact hv
  · exact hu

theorem State.readDraft_serves (slot i a : Nat) (w : Traffic) : s.Serves (s.readDraft slot i a [] w).2 := by
  unfold State.readDraft
  simp only [upsetAt_nil, State.readVatEcc_none]
  exact (State.dramVat_looks _ _ _ _ _).serves

theorem State.recordRefusal_serves (actor : Actor) (write : Bool) (a reason : Nat) : s.Serves (s.recordRefusal actor write a reason) := by
  unfold State.recordRefusal
  extract_lets s1 s2
  have hs2 : s.Tends s2 := (s.setWord64_tends _ _ _ (by decide) (by decide)).trans (State.setWord_tends _ _ _ _ (by decide))
  split
  · exact ((hs2.trans (State.count_tends _ _ _ (by omega))).trans (State.err_tends _ _ _)).serves
  · exact ((hs2.trans (State.count_tends _ _ _ (by omega))).trans (State.err_tends _ _ _)).serves

theorem State.heatAccess_serves (t inc : Nat) : s.Serves (s.heatAccess t inc) := (s.heatAccess_settles t inc).tends.serves

/-! ### The accesses of a service -/

/-- A line is read for a service, of whatever home and rights. -/
theorem State.engRead_serves (hmesh : s.dir.meshData = []) (actor cls a at' : Nat) : s.Serves (s.engRead actor cls a at' [] true).2 := by
  have hcounted (u : State) (h : s.Serves u) : s.Serves (u.heatAccess (tileOf a) u.engineInc) := h.trans (u.heatAccess_serves _ _)
  have hread (u : State) (h : s.Serves u) : s.Serves (u.readTileEcc (tileOf a) (lineOf a) [] (workTraffic actor cls)).2.2.2 :=
    h.trans (u.readTileEcc_serves _ _ _)
  have hfound : s.Serves (s.findTile (tileOf a) (workTraffic actor cls) .none) := (s.findTile_tends _ _).serves
  unfold State.engRead
  simp only [s.meshPoisons_none hmesh, upsetAt_nil, if_true, Bool.false_eq_true, if_false]
  split
  · exact s.recordRefusal_serves _ _ _ _
  split
  · split
    · exact hread _ (hcounted _ hfound)
    split
    · exact hfound.trans (State.readDraft_serves _ _ _ _ _)
    split
    · exact (hcounted _ hfound).trans (State.readDraft_serves _ _ _ _ _)
    · exact hread _ (hcounted _ hfound)
  · exact hread _ hfound

theorem State.engBytes_serves (hmesh : s.dir.meshData = []) (actor cls a n : Nat) : s.Serves (s.engBytes actor cls a n [] true).2 := by
  have hfold : ∀ (l : List Nat) (x : LineIn × State), s.Serves x.2 → s.Serves (l.foldl (fun (x : LineIn × State) k =>
      let (l, v) := x.2.engRead actor cls (64 * (a / 64 + k)) (max a (64 * (a / 64 + k))) [] true
      ({ data := x.1.data ++ l.data, poison := x.1.poison || l.poison, refused := x.1.refused || l.refused, ue := x.1.ue <|> l.ue }, v)) x).2 := by
    intro l
    induction l with
    | nil => exact fun x hx => hx
    | cons k l ih => exact fun x hx => ih _ (hx.trans (x.2.engRead_serves (by rw [hx.dir, hmesh]) _ _ _ _))
  exact hfold _ _ (.refl s)

theorem State.viewMerged_serves (g w t i : Nat) (be : BitVec 64) (poison : Bool) : s.Serves (s.viewMerged g w t i be poison .none).2 := by
  unfold State.viewMerged
  split
  · exact .refl s
  · rw [if_pos (.inr (.inr rfl))]
    exact .refl s

theorem State.breakDraft_serves (d : Draft) : s.Serves (s.breakDraft d) :=
  (s.edn_serves _).trans ((State.count_tends _ _ _ (by omega)).trans (State.err_tends _ _ _)).serves

theorem State.writeDraft_serves (g w t i : Nat) (old : List Byte × Bool) (new : List Byte) (be : BitVec 64) (poison : Bool) (by' : Traffic) :
    s.Serves (s.writeDraft g w t i old new be poison by').2 := by
  unfold State.writeDraft
  extract_lets d put
  have hput (u : State) (e : DraftTile) : u.Serves (put u e) :=
    (((u.viewMerged_serves g w t i be poison).trans (State.edn_serves _ _)).trans (State.putVatLine_tends _ _ _ _).serves).trans
      (State.dramVat_looks _ _ _ _ _).serves
  split
  · exact .refl s
  split
  · exact hput _ _
  split
  · exact s.breakDraft_serves _
  split
  · next htake => exact ((State.takePool_tends htake).serves.trans (hput _ _)).trans (State.settleUsage_tends _).serves
  · exact s.breakDraft_serves _

/-- A line is written for a service, of whatever home and rights. -/
theorem State.engWrite_serves (actor cls a at' : Nat) (new : List Byte) (be : BitVec 64) (poison : Bool) :
    s.Serves (s.engWrite actor cls a at' new be poison [] true).2 := by
  unfold State.engWrite
  simp only [upsetAt_nil]
  split
  · exact .refl s
  split
  · exact s.recordRefusal_serves _ _ _ _
  split
  · exact .refl s
  split
  · split
    · exact (s.readTileEcc_serves _ _ _).trans (State.writeDraft_serves _ _ _ _ _ _ _ _ _ _)
    · exact s.writeDraft_serves _ _ _ _ _ _ _ _ _
  · split
    · exact (s.writeTile_serves _ _ _ _ _ _).trans (State.heatAccess_serves _ _ _)
    · exact s.writeTile_serves _ _ _ _ _ _

theorem State.svcStore_serves (actor cls : Nat) (bad : Bool) (fuel a : Nat) (l : List Byte) : s.Serves (s.svcStore actor cls [] bad fuel a l).2 := by
  induction fuel generalizing s a l with
  | zero => exact .refl s
  | succ fuel ih =>
    unfold State.svcStore
    split
    · exact .refl s
    · exact (s.engWrite_serves _ _ _ _ _ _ _).trans (ih _ _ _)

theorem State.svcPut_serves (c : SvcCall) (a : Nat) (l : List Byte) (bad : Bool) : s.Serves (s.svcPut c a l bad []).2 := s.svcStore_serves _ _ _ _ _ _

theorem State.kvCopy_serves (hmesh : s.dir.meshData = []) (c : SvcCall) (src a n : Nat) : s.Serves (s.kvCopy c src a n []).2 := by
  have hfold : ∀ (l : List Nat) (x : Bool × State), s.Serves x.2 → s.Serves (l.foldl (fun (acc : Bool × State) i =>
      let m := min 64 (n - 64 * i)
      let (l, u) := acc.2.engBytes c.actor c.cls (src + 64 * i) m [] true
      let (w, v) := u.svcPut c (a + 64 * i) l.data l.poison []
      (acc.1 || l.refused || w, v)) x).2 := by
    intro l
    induction l with
    | nil => exact fun x hx => hx
    | cons k l ih => exact fun x hx => ih _ (hx.trans ((x.2.engBytes_serves (by rw [hx.dir, hmesh]) _ _ _ _).trans (State.svcPut_serves _ _ _ _ _)))
  exact hfold _ _ (.refl s)

end

end Sys2Proof.Machine
end

section
/-! PROOFS. What a service reads and writes in lines of the vat (R30, R203): bytes put into whole lines and into a part of one line, and a line copied. -/

namespace Sys2Proof.Machine

/-! ### Bytes in rows -/

theorem chunks_map {β} (f : List Byte → β) (w m : Nat) (l : List Byte) : (chunks w m l).map f = (List.range m).map (fun n => f ((l.drop (w * n)).take w)) := by
  induction m generalizing l with
  | zero => rfl
  | succ m ih =>
    rw [chunks, List.map_cons, ih, List.range_succ_eq_map, List.map_cons, List.map_map]
    simp [Function.comp_def, Nat.mul_add, Nat.add_comm]

theorem drop_take_within {α} (l : List α) {i w n : Nat} (h : i + w ≤ n) : ((l.take n).drop i).take w = (l.drop i).take w := by
  rw [List.drop_take, List.take_take, Nat.min_eq_left (by omega)]

/-- A line with a mark: a poisoned line shows zeros. -/
def markedLine (l : List Byte) (bad : Bool) : List Byte × Bool := if bad then (List.replicate 64 0#8, true) else (l, false)

theorem writeOver_marked (old : List Byte × Bool) {l : List Byte} (hl : l.length = 64) (bad : Bool) : writeOver old l fullBe bad = markedLine l bad := by
  cases bad
  · exact writeOver_full old (v := (l, false)) ⟨hl, by simp⟩
  · simp [writeOver, markedLine]

theorem markedLine_lineAt (s : State) (a : Nat) : markedLine (s.lineAt a).1 (s.lineAt a).2 = s.lineAt a := by
  obtain ⟨-, hzero⟩ := s.vatLine_kept (s.loc (tileOf a)) (lineOf a)
  unfold markedLine
  split
  · next h => exact Prod.ext (hzero h).symm h.symm
  · next h => exact Prod.ext rfl (Bool.eq_false_iff.2 h).symm

theorem State.lineAt_length (s : State) (a : Nat) : (s.lineAt a).1.length = 64 := (s.vatLine_kept _ _).1

/-! ### Lines are read whole -/

section
variable {s : State} {actor a : Nat}

theorem State.flatMap_lineAt_length (s : State) (f : Nat → Nat) (m : Nat) : ((List.range m).flatMap (fun k => (s.lineAt (f k)).1)).length = 64 * m := by
  simp [State.lineAt_length, Nat.mul_comm]

/-- Readable lines are read whole, one after the other. -/
theorem State.engBytes_lines (hs : s.unheld) (ha : a % 64 = 0) (cls : Nat) {m : Nat} (h : ∀ k, k < m → s.readable actor (a + 64 * k)) :
    ∃ u, s.engBytes actor cls a (64 * m) [] true
      = ({ data := (List.range m).flatMap (fun k => (s.lineAt (a + 64 * k)).1), poison := (List.range m).any (fun k => (s.lineAt (a + 64 * k)).2) }, u)
      ∧ s.Heats u := by
  have haddr (k : Nat) : 64 * (a / 64 + k) = a + 64 * k := by omega
  obtain ⟨u, hu, hheat⟩ := State.engBytes_readable (a := a) (n := 64 * m) (m := m) hs cls (by split <;> omega) (fun k hk => by rw [haddr]; exact h k hk)
  refine ⟨u, hu.trans ?_, hheat⟩
  simp only [haddr, ha, List.drop_zero]
  rw [List.take_of_length_le (by rw [State.flatMap_lineAt_length])]

/-- A readable line is read whole. -/
theorem State.engBytes_line (hs : s.unheld) (h : s.readable actor a) (cls : Nat) :
    ∃ u, s.engBytes actor cls a 64 [] true = ({ data := (s.lineAt a).1, poison := (s.lineAt a).2 }, u) ∧ s.Heats u := by
  obtain ⟨u, hu, hheat⟩ := State.engBytes_lines (m := 1) hs h.1 cls (fun k hk => by rwa [show a + 64 * k = a by omega])
  exact ⟨u, by simpa using hu, hheat⟩

end

/-! ### Lines apart -/

/-- Lines of which fewer than a tile's number lie between are apart. -/
theorem State.apart_near (s : State) {a j k : Nat} (ha : a % 64 = 0) (hj : j < 256) (hk : k < 256) (h : j ≠ k) : s.apart (a + 64 * j) (a + 64 * k) := by
  right
  unfold lineOf
  omega

theorem State.apart.symm {s : State} {a b : Nat} (h : s.apart a b) : s.apart b a := h.imp Ne.symm Ne.symm

theorem State.Accesses.apart {s t : State} (h : s.Accesses t) {a b : Nat} (hs : s.apart a b) : t.apart a b := by
  simpa only [State.apart, h.loc] using hs

/-! ### Lines are put -/

section
variable {s : State} {actor cls a : Nat}

theorem beOf_full : beOf 0 64 = fullBe := by decide

/-- Bytes from the start of a line on: the first line is written, then the rest. -/
theorem State.svcStore_line (ha : a % 64 = 0) {l : List Byte} (hl : 64 ≤ l.length) (bad : Bool) (fuel : Nat) :
    s.svcStore actor cls [] bad (fuel + 1) a l
      = (let (r, u) := s.engWrite actor cls a a (l.take 64) fullBe bad [] true
         let (r', v) := u.svcStore actor cls [] bad fuel (a + 64) (l.drop 64)
         (r || r', v)) := by
  have hne : l ≠ [] := by
    rintro rfl
    simp at hl
  have hlen : min l.length (64 - 0) = 64 := by omega
  rw [State.svcStore, if_neg hne]
  simp only [ha, hlen, beOf_full, show a / 64 * 64 = a by omega, List.replicate_zero, List.nil_append]

/-- Bytes that fill writable lines, one after the other, are put into them. -/
theorem State.svcStore_lines (hs : s.unheld) (ha : a % 64 = 0) (bad : Bool) {m fuel : Nat} (hfuel : m < fuel) {l : List Byte} (hl : l.length = 64 * m) (hm : m ≤ 256)
    (h : ∀ k, k < m → s.writable actor (a + 64 * k)) :
    ∃ u, s.svcStore actor cls [] bad fuel a l = (false, u) ∧ s.Writes u ((List.range m).map (fun k => a + 64 * k))
      ∧ ∀ k, k < m → u.lineAt (a + 64 * k) = markedLine ((l.drop (64 * k)).take 64) bad := by
  obtain ⟨fuel, rfl⟩ : ∃ n, fuel = n + 1 := ⟨fuel - 1, by omega⟩
  induction m generalizing s a fuel l with
  | zero =>
    obtain rfl : l = [] := List.length_eq_zero_iff.1 (by omega)
    exact ⟨s, by simp [State.svcStore], (State.Heats.refl s).writes, by simp⟩
  | succ m ih =>
    have hfirst := h 0 (by omega)
    rw [Nat.mul_zero, Nat.add_zero] at hfirst
    obtain ⟨u, hwrite, hu, hline⟩ := State.engWrite_writable hs hfirst cls a (l.take 64) fullBe bad
    obtain ⟨n, rfl⟩ : ∃ n, fuel = n + 1 := ⟨fuel - 1, by omega⟩
    obtain ⟨v, hrest, hv, hlines⟩ := ih (s := u) (a := a + 64) (l := l.drop 64) (hu.accesses.unheld hs) (by omega) (by rw [List.length_drop]; omega) (by omega)
      (fun k hk => hu.accesses.writable (by rw [show a + 64 + 64 * k = a + 64 * (k + 1) by omega]; exact h (k + 1) (by omega))) n (by omega)
    refine ⟨v, ?_, (hu.trans hv).mono (fun b hb => ?_), fun k hk => ?_⟩
    · rw [State.svcStore_line ha (by omega)]
      simp only [hwrite, hrest]
      rfl
    · simp only [List.singleton_append, List.mem_cons, List.mem_map, List.mem_range] at hb ⊢
      obtain rfl | ⟨k, hk, rfl⟩ := hb
      · exact ⟨0, by omega, by omega⟩
      · exact ⟨k + 1, by omega, by omega⟩
    · cases k with
      | zero =>
        have hkept : v.lineAt a = u.lineAt a := by
          refine hv.lineAt (fun b hb => ?_)
          obtain ⟨k, hk, rfl⟩ := List.mem_map.1 hb
          rw [List.mem_range] at hk
          have hnear := u.apart_near (a := a) (j := 0) (k := k + 1) ha (by omega) (by omega) (by omega)
          rwa [show a + 64 * 0 = a by omega, show a + 64 * (k + 1) = a + 64 + 64 * k by omega] at hnear
        simp only [Nat.mul_zero, Nat.add_zero, List.drop_zero, hkept, hline]
        exact writeOver_marked _ (by rw [List.length_take]; omega) bad
      | succ k =>
        rw [show a + 64 * (k + 1) = a + 64 + 64 * k by omega, hlines k (by omega), List.drop_drop, show 64 + 64 * k = 64 * (k + 1) by omega]

variable {c : SvcCall}

theorem State.svcPut_lines (hs : s.unheld) (ha : a % 64 = 0) (bad : Bool) {m : Nat} {l : List Byte} (hl : l.length = 64 * m) (hm : m ≤ 256)
    (h : ∀ k, k < m → s.writable c.actor (a + 64 * k)) :
    ∃ u, s.svcPut c a l bad [] = (false, u) ∧ s.Writes u ((List.range m).map (fun k => a + 64 * k))
      ∧ ∀ k, k < m → u.lineAt (a + 64 * k) = markedLine ((l.drop (64 * k)).take 64) bad :=
  State.svcStore_lines hs ha bad (by omega) hl hm h

/-- Bytes that fill a writable line are put into it. -/
theorem State.svcPut_line (hs : s.unheld) (h : s.writable c.actor a) (bad : Bool) {l : List Byte} (hl : l.length = 64) :
    ∃ u, s.svcPut c a l bad [] = (false, u) ∧ s.Writes u [a] ∧ u.lineAt a = markedLine l bad := by
  obtain ⟨u, hput, hu, hline⟩ := State.svcPut_lines (m := 1) hs h.1 bad hl (by omega) (fun k hk => by rwa [show a + 64 * k = a by omega])
  refine ⟨u, hput, by simpa using hu, ?_⟩
  have hzero := hline 0 (by omega)
  rwa [Nat.mul_zero, Nat.add_zero, List.drop_zero, List.take_of_length_le (by omega)] at hzero

/-- Fewer bytes than a line, put into a part of a writable line that is not poisoned. -/
theorem State.svcStore_within (hs : s.unheld) {l : List Byte} (hl : l ≠ []) (hin : a % 64 + l.length ≤ 64) (h : s.writable actor (a / 64 * 64))
    (hclean : (s.lineAt (a / 64 * 64)).2 = false) {fuel : Nat} (hfuel : 0 < fuel) :
    ∃ u, s.svcStore actor cls [] false fuel a l = (false, u) ∧ s.Writes u [a / 64 * 64]
      ∧ u.lineAt (a / 64 * 64) = (mergeLine (s.lineAt (a / 64 * 64)).1 (List.replicate (a % 64) 0#8 ++ l) (beOf (a % 64) l.length), false) := by
  obtain ⟨fuel, rfl⟩ : ∃ n, fuel = n + 1 := ⟨fuel - 1, by omega⟩
  obtain ⟨u, hwrite, hu, hline⟩ := State.engWrite_writable hs h cls a (List.replicate (a % 64) 0#8 ++ l) (beOf (a % 64) l.length) false
  have hnil : u.svcStore actor cls [] false fuel (a + l.length) [] = (false, u) := by
    cases fuel <;> simp [State.svcStore]
  have hlen : min l.length (64 - a % 64) = l.length := by omega
  refine ⟨u, ?_, hu, ?_⟩
  · rw [State.svcStore, if_neg hl]
    simp only [hlen, List.take_length, List.drop_length, hwrite, hnil]
    rfl
  · rw [hline]
    simp [writeOver, hclean]

end

end Sys2Proof.Machine
end

section
/-! PROOFS. A gather of one bag, and the commands on a surrogate model's handle (R222, R225). -/

namespace Sys2Proof.Machine

/-! ### What the end of a call leaves -/

section
variable (s : State) (q seq result value : Nat)

@[simp] theorem State.endCall_lineAt (a : Nat) : (s.endCall q seq result value).lineAt a = s.lineAt a := rfl
@[simp] theorem State.endCall_model (h : Nat) : (s.endCall q seq result value).model h = s.model h := rfl
@[simp] theorem State.endCall_session (g : Nat) : (s.endCall q seq result value).session g = s.session g := rfl

theorem State.endCall_settle (h : s.calm) : (s.endCall q seq result value).settle = s.endCall q seq result value := State.settle_calm h

end

theorem State.of_callOf {s : State} {q seq service func : Nat} {c : SvcCall} (h : s.callOf q seq service func = some c) :
    c.queue = q ∧ c.seq = seq ∧ c.service = service ∧ c.func = func := by simpa using List.find?_some h

/-! ### GATHER -/

/-- The words of the first bytes of a line. -/
theorem words32_take {l : List Byte} (n : Nat) (h : 4 * n ≤ l.length) : words32 (l.take (4 * n)) = (List.range n).map (fun k => leNat ((l.drop (4 * k)).take 4)) := by
  rw [words32, chunks_map, List.length_take, Nat.min_eq_left h, Nat.mul_div_cancel_left n (by omega)]
  refine List.map_congr_left (fun k hk => ?_)
  rw [List.mem_range] at hk
  rw [drop_take_within l (by omega)]

/-- A row of a table of FP32 elements is read for a gather (R222). -/
def State.gatherRow (c : SvcCall) (table : Nat) (a : List (List Nat) × Bool × Bool × State) (i : Nat) : List (List Nat) × Bool × Bool × State :=
  let (l, w) := a.2.2.2.engBytes c.actor c.cls (table + (i * 16 + 16 * 0) * 4) (16 * 4) [] true
  (a.1 ++ [(chunks 4 (l.data.length / 4) l.data).map (fun y => fmtFP32.pattern false ((codeFmt 9).value (leNat y)))], a.2.1 || l.refused, a.2.2.1 || l.poison, w)

/-- The elements of a row that fills a line. -/
def State.rowElems (s : State) (table x : Nat) : List Nat :=
  (chunks 4 16 (s.lineAt (table + 64 * x)).1).map (fun y => fmtFP32.pattern false ((codeFmt 9).value (leNat y)))

section
variable {s u v t : State} {c : SvcCall} {q seq : Nat}

theorem State.gatherRows (hs : s.unheld) (table : Nat) (xs : List Nat)
    (h : ∀ x ∈ xs, s.readable c.actor (table + 64 * x) ∧ (s.lineAt (table + 64 * x)).2 = false) (vals : List (List Nat)) :
    ∃ u, xs.foldl (State.gatherRow c table) (vals, false, false, s) = (vals ++ xs.map (s.rowElems table), false, false, u) ∧ s.Heats u := by
  induction xs generalizing s vals with
  | nil => exact ⟨s, by simp, .refl s⟩
  | cons x xs ih =>
    obtain ⟨hread, hclean⟩ := h x (List.mem_cons_self ..)
    obtain ⟨u, hu, hheat⟩ := State.engBytes_line hs hread c.cls
    obtain ⟨v, hv, hheat'⟩ := ih (hheat.accesses.unheld hs)
      (fun y hy => ⟨hheat.accesses.readable (h y (List.mem_cons_of_mem _ hy)).1, by rw [hheat.lineAt]; exact (h y (List.mem_cons_of_mem _ hy)).2⟩) (vals ++ [s.rowElems table x])
    refine ⟨v, ?_, hheat.trans hheat'⟩
    have hrow : State.gatherRow c table (vals, false, false, s) x = (vals ++ [s.rowElems table x], false, false, u) := by
      rw [State.gatherRow, show table + (x * 16 + 16 * 0) * 4 = table + 64 * x by omega, hu]
      simp [hclean, State.rowElems, State.lineAt_length]
    have hrows : u.rowElems table = s.rowElems table := by
      funext y
      rw [State.rowElems, hheat.lineAt, State.rowElems]
    rw [List.foldl_cons, hrow, hv, hrows]
    simp

variable {table rows indices offsets mode out n : Nat} {o x : LineIn}

theorem exec_gather_falls (hs : s.unheld) (hcall : s.callOf q seq 2 0 = some c) (hmode : mode < 2)
    (ho : s.engBytes c.actor c.cls offsets 8 [] true = (o, u)) (hclean : o.poison = false) {a b : Nat} (hwords : words32 o.data = [a, b]) (hfalls : b < a) :
    exec (.gather q seq table rows 16 9 indices offsets 1 mode out [] none) s = .next (u.endCall q seq 2 0) := by
  change execGather q seq table rows 16 9 indices offsets 1 mode out [] none s = _
  have hunheld := State.engHoldAll_unheld (k := c.worker (.gather q seq table rows 16 9 indices offsets 1 mode out [] none)) rfl [(offsets, 8, false)] hs
  simp [execGather, hcall, show ¬2 ≤ mode by omega, State.engHoldRun, hunheld, ho, hclean, hwords, hfalls, done]

theorem exec_gather_one (hs : s.unheld) (hcall : s.callOf q seq 2 0 = some c) (hmode : mode < 2)
    (ho : s.engBytes c.actor c.cls offsets 8 [] true = (o, u)) (hclean : o.poison = false) (hwords : words32 o.data = [0, n]) (hu : u.unheld)
    (hx : u.engBytes c.actor c.cls indices (4 * n) [] true = (x, v)) (hunpoisoned : x.poison = false) (hv : v.unheld) {vals : List (List Nat)} {w : State}
    (hrows : (((words32 x.data).take n).filter (fun i => decide (i < rows))).foldl (State.gatherRow c table) ([], false, false, v) = (vals, false, false, w))
    (hput : w.svcPut c out ((bagElems (decide (mode = 1)) 16 vals).flatMap (leBytes 4)) false [] = (false, t)) :
    let beyond := ((words32 x.data).take n).filter (fun i => decide (rows ≤ i))
    exec (.gather q seq table rows 16 9 indices offsets 1 mode out [] none) s = .next (t.endCall q seq (if beyond = [] then 0 else 6) beyond.length).settle := by
  intro beyond
  change execGather q seq table rows 16 9 indices offsets 1 mode out [] none s = _
  have hheld {y : State} (hy : y.unheld) (runs : List (Nat × Nat × Bool)) :
      y.engHoldAll (c.worker (.gather q seq table rows 16 9 indices offsets 1 mode out [] none)) runs = (false, y) := State.engHoldAll_unheld rfl runs hy
  have hwidth : List.range (ceilDiv 16 16) = [0] := rfl
  have hfalls : ([0].any fun b => decide ([0, n].getD (b + 1) 0 < [0, n].getD b 0)) = false := rfl
  have hfirst : [0, n].getD 0 0 = 0 := rfl
  have hlast : [0, n].getD 1 0 = n := rfl
  unfold State.gatherRow at hrows
  simp only [Nat.mul_zero, Nat.add_zero, Nat.reduceMul] at hrows
  rw [execGather, hcall]
  simp only [if_false, State.engHoldRun, hheld hs, Bool.false_eq_true, ho, hclean, hwords, List.range_one, hfalls, hlast, hheld hu, hx, hunpoisoned,
    hheld hv, hwidth, List.foldl_cons, List.foldl_nil, hfirst, List.drop_zero, Nat.sub_zero, Nat.mul_zero, Nat.add_zero, Nat.zero_mul, Nat.zero_add, Nat.reduceMul, Nat.reduceEqDiff, Nat.min_self, hrows, hput, done, Bool.or_false]
  rw [if_neg (by simp [hmode])]
  by_cases hbeyond : beyond = []
  · simp [show List.filter (fun i => decide (rows ≤ i)) (List.take n (words32 x.data)) = [] from hbeyond, hbeyond, okOr]
  · rw [if_pos hbeyond, if_pos rfl, if_neg hbeyond]

/-- A word of a line. -/
def State.lineWord (s : State) (a n : Nat) : Nat := leNat (((s.lineAt a).1.drop (4 * n)).take 4)

/-- The first words of a readable line that is not poisoned are read. -/
theorem State.engBytes_words (hs : s.unheld) {actor a n : Nat} (cls : Nat) (hn : n ≤ 16) (h : 0 < n → s.readable actor a ∧ (s.lineAt a).2 = false) :
    ∃ l u, s.engBytes actor cls a (4 * n) [] true = (l, u) ∧ l.poison = false ∧ words32 l.data = (List.range n).map (s.lineWord a) ∧ s.Heats u := by
  obtain rfl | hpos := Nat.eq_zero_or_pos n
  · exact ⟨{ data := [], poison := false }, s, by simp [State.engBytes], rfl, rfl, .refl s⟩
  obtain ⟨hread, hclean⟩ := h hpos
  have hmod := hread.1
  have haddr : a / 64 * 64 = a := by omega
  obtain ⟨u, hu, hheat⟩ := State.engBytes_within (a := a) (n := 4 * n) hs cls (by omega) (by omega) (by rwa [haddr])
  rw [haddr, hmod, List.drop_zero] at hu
  exact ⟨_, u, hu, hclean, words32_take n (by rw [State.lineAt_length]; omega), hheat⟩

theorem gather_falls (hs : s.unheld) (hcall : s.callOf q seq 2 0 = some c) (hmode : mode < 2) (hread : s.readable c.actor offsets)
    (hclean : (s.lineAt offsets).2 = false) (hfalls : s.lineWord offsets 1 < s.lineWord offsets 0) :
    ∃ t, exec (.gather q seq table rows 16 9 indices offsets 1 mode out [] none) s = .next t ∧ s.callEnds t q seq 2 0 := by
  obtain ⟨o, u, ho, hpoison, hwords, hheat⟩ := State.engBytes_words hs c.cls (show 2 ≤ 16 by omega) (fun _ => ⟨hread, hclean⟩)
  exact ⟨_, exec_gather_falls hs hcall hmode ho hpoison hwords hfalls, State.endCall_callEnds_of_qmg hheat.accesses.qmg 2 0⟩

theorem bagElems_bytes (mean : Bool) (vals : List (List Nat)) : ((bagElems mean 16 vals).flatMap (leBytes 4)).length = 64 := by
  simp [bagElems, Function.comp_def]

theorem gather_sums (hs : s.unheld) (hcalm : s.calm) (hcall : s.callOf q seq 2 0 = some c) (hmode : mode < 2) (hread : s.readable c.actor offsets)
    (hclean : (s.lineAt offsets).2 = false) (hzero : s.lineWord offsets 0 = 0) (hlast : s.lineWord offsets 1 = n) (hn : n ≤ 16)
    (hindices : 0 < n → s.readable c.actor indices ∧ (s.lineAt indices).2 = false) {idx mine beyond : List Nat}
    (hidx : idx = (List.range n).map (s.lineWord indices)) (hmine : mine = idx.filter (fun x => decide (x < rows)))
    (hbeyond : beyond = idx.filter (fun x => decide (rows ≤ x)))
    (hrows : ∀ x ∈ mine, s.readable c.actor (table + 64 * x) ∧ (s.lineAt (table + 64 * x)).2 = false) (hout : s.writable c.actor out) :
    ∃ t, exec (.gather q seq table rows 16 9 indices offsets 1 mode out [] none) s = .next t
      ∧ s.callEnds t q seq (if beyond = [] then 0 else 6) beyond.length
      ∧ t.lineAt out = ((bagElems (decide (mode = 1)) 16 (mine.map (s.rowElems table))).flatMap (leBytes 4), false)
      ∧ s.vatBut t (s.loc (tileOf out)) (lineOf out) := by
  obtain ⟨o, u, ho, hpoison, hwords, hu⟩ := State.engBytes_words hs c.cls (show 2 ≤ 16 by omega) (fun _ => ⟨hread, hclean⟩)
  obtain ⟨x, v, hx, hunpoisoned, hlist, hv⟩ := State.engBytes_words (n := n) (hu.accesses.unheld hs) c.cls hn
    (fun h => ⟨hu.accesses.readable (hindices h).1, by rw [hu.lineAt]; exact (hindices h).2⟩)
  have hword : u.lineWord indices = s.lineWord indices := by
    funext k
    rw [State.lineWord, hu.lineAt, State.lineWord]
  have hheat := hu.trans hv
  have hids : (words32 x.data).take n = idx := by
    rw [hlist, hword, hidx, List.take_of_length_le (by simp)]
  have helems : v.rowElems table = s.rowElems table := by
    funext y
    rw [State.rowElems, hheat.lineAt, State.rowElems]
  obtain ⟨w, hfold, hw⟩ := State.gatherRows (c := c) (hheat.accesses.unheld hs) table mine
    (fun y hy => ⟨hheat.accesses.readable (hrows y hy).1, by rw [hheat.lineAt]; exact (hrows y hy).2⟩) []
  have hall := hheat.trans hw
  obtain ⟨t, hput, ht, hline⟩ := State.svcPut_line (c := c) (hall.accesses.unheld hs) (hall.accesses.writable hout) false
    (bagElems_bytes (decide (mode = 1)) (mine.map (s.rowElems table)))
  have haccess := hall.writes.trans ht
  rw [List.nil_append, helems] at hfold
  have hexec := exec_gather_one (mode := mode) (out := out) (table := table) (rows := rows) hs hcall hmode ho hpoison (by rw [hwords, ← hzero, ← hlast]; rfl)
    (hu.accesses.unheld hs) hx hunpoisoned (hheat.accesses.unheld hs) (by rw [hids, ← hmine]; exact hfold) hput
  simp only [hids, ← hbeyond] at hexec
  rw [State.endCall_settle _ _ _ _ _ (haccess.accesses.calm hcalm)] at hexec
  refine ⟨_, hexec, State.endCall_callEnds_of_qmg haccess.accesses.qmg _ _, ?_, ?_⟩
  · rw [State.endCall_lineAt, hline]
    rfl
  · exact fun y j hj hne => haccess.others y j hj (fun b hb => by rwa [show b = out by simpa using hb])

end

/-! ### A handle is loaded and unloaded -/

section
variable {s : State} {q seq h : Nat} {c : SvcCall}

theorem State.model_setModel (s : State) (h : Nat) (m : Model) : (s.setModel h m).model h = m := sget_sset_self _ _ _ _

theorem State.setModel_changes (s : State) (h : Nat) (m : Model) : s.changesOnly (s.setModel h m) [.svc] := by
  intro p hp
  cases p <;> simp_all [Part.same, State.setModel]

theorem State.setModel_endCall_changes (s : State) (h : Nat) (m : Model) (q seq result value : Nat) :
    s.changesOnly ((s.setModel h m).endCall q seq result value) [.svc, .qmg] :=
  State.changesOnly_trans (s.setModel_changes h m) (State.endCall_changes _ q seq result value) (by simp) (by simp)

theorem exec_modelLoad (hh : h < 256) (hcall : s.callOf q seq 4 0 = some c) {header : Nat} (hheader : header % 128 = 0) :
    exec (.modelLoad q seq h header) s = .next (if (s.model h).loaded then s.endCall q seq 14 0
      else (s.setModel h { loaded := true, header := header }).endCall q seq 0 0) := by
  change execModelLoad q seq h header s = _
  rw [execModelLoad, hcall]
  simp only [show ¬(256 ≤ h ∨ header % 128 ≠ 0) by omega, if_false]
  split <;> rfl

theorem modelLoad_loads (hh : h < 256) (hcall : s.callOf q seq 4 0 = some c) {header : Nat} (hheader : header % 128 = 0) (hloaded : (s.model h).loaded = false) :
    ∃ t, exec (.modelLoad q seq h header) s = .next t ∧ s.callEnds t q seq 0 0 ∧ t.model h = { loaded := true, header := header }
      ∧ s.changesOnly t [.svc, .qmg] := by
  rw [exec_modelLoad hh hcall hheader, hloaded, if_neg Bool.false_ne_true]
  refine ⟨_, rfl, State.endCall_callEnds_of_qmg rfl 0 0, ?_, s.setModel_endCall_changes _ _ _ _ _ _⟩
  rw [State.endCall_model, State.model_setModel]

theorem modelLoad_busy (hh : h < 256) (hcall : s.callOf q seq 4 0 = some c) {header : Nat} (hheader : header % 128 = 0) (hloaded : (s.model h).loaded = true) :
    ∃ t, exec (.modelLoad q seq h header) s = .next t ∧ s.callEnds t q seq 14 0 ∧ t.model h = s.model h := by
  rw [exec_modelLoad hh hcall hheader, hloaded]
  exact ⟨_, rfl, State.endCall_callEnds_of_qmg rfl 14 0, rfl⟩

theorem modelUnload_unloaded (hcall : s.callOf q seq 4 2 = some c) (hloaded : (s.model h).loaded = false) :
    ∃ t, exec (.modelUnload q seq h) s = .next t ∧ s.callEnds t q seq 3 0 := by
  refine ⟨s.endCall q seq 3 0, ?_, State.endCall_callEnds_of_qmg rfl 3 0⟩
  change execModelUnload q seq h s = _
  simp [execModelUnload, hcall, hloaded, done]

theorem modelUnload_unloads (hh : h < 256) (hcall : s.callOf q seq 4 2 = some c) (hloaded : (s.model h).loaded = true) (hidle : (s.model h).running = none) :
    ∃ t, exec (.modelUnload q seq h) s = .next t ∧ s.callEnds t q seq 0 0 ∧ t.model h = {} := by
  refine ⟨(s.setModel h {}).endCall q seq 0 0, ?_, State.endCall_callEnds_of_qmg rfl 0 0, by rw [State.endCall_model, State.model_setModel]⟩
  change execModelUnload q seq h s = _
  simp [execModelUnload, hcall, hloaded, hidle, hh, done]

theorem modelUnload_waits (hh : h < 256) (hcall : s.callOf q seq 4 2 = some c) (hloaded : (s.model h).loaded = true) (hruns : (s.model h).running.isSome = true)
    (hfree : (s.model h).unload = none) :
    ∃ t, exec (.modelUnload q seq h) s = .next t ∧ t.model h = { s.model h with unload := some (q, seq) } ∧ s.changesOnly t [.svc] := by
  obtain ⟨r, hr⟩ := Option.isSome_iff_exists.1 hruns
  refine ⟨s.setModel h { s.model h with unload := some (q, seq) }, ?_, s.model_setModel h _, s.setModel_changes h _⟩
  change execModelUnload q seq h s = _
  simp [execModelUnload, hcall, hloaded, hr, hfree, hh, done]

end

end Sys2Proof.Machine
end

section
/-! PROOFS. A surrogate call starts, waits for its handle and ends (R225). -/

namespace Sys2Proof.Machine

section
variable {s t u : State} {c : SvcCall} {q seq h input output : Nat}

/-! ### Calls that do not start -/

theorem exec_call_before (hcall : s.callOf q seq 4 1 = some c) (hbefore : s.callsBefore c = false) : exec (.call q seq h input output []) s = .next s := by
  change execCall q seq h input output [] s = _
  simp [execCall, hcall, hbefore, done]

theorem exec_call_unloaded (hcall : s.callOf q seq 4 1 = some c) (hbefore : s.callsBefore c = true) (hloaded : (s.model h).loaded = false) :
    exec (.call q seq h input output []) s = .next (s.endCall q seq 3 0) := by
  change execCall q seq h input output [] s = _
  simp [execCall, hcall, hbefore, hloaded, done]

/-- While another call runs on the handle, one that does not wait yet waits behind those that do. -/
theorem exec_call_waits (hh : h < 256) (hcall : s.callOf q seq 4 1 = some c) (hbefore : s.callsBefore c = true) (hloaded : (s.model h).loaded = true)
    {q' seq' output' j : Nat} (hruns : (s.model h).running = some (q', seq', output', j)) (hother : ¬(q' = q ∧ seq' = seq))
    (hnew : ∀ w ∈ (s.model h).waiting, ¬(w.1 = q ∧ w.2.1 = seq)) :
    exec (.call q seq h input output []) s = .next (s.setModel h { s.model h with waiting := (s.model h).waiting ++ [(q, seq, input, output)] }) := by
  change execCall q seq h input output [] s = _
  have hknown : ((s.model h).waiting.any fun w => decide (w.1 = q ∧ w.2.1 = seq)) = false := by
    simpa only [List.any_eq_false, decide_eq_true_eq] using hnew
  rw [execCall, hcall]
  simp only [hbefore, hknown, hloaded, hruns, Bool.not_true, Bool.false_eq_true, if_false]
  rw [if_neg (by simp [hh])]
  cases (s.model h).ended <;> exact if_neg hother

/-! ### A call whose job has completed ends -/

theorem State.nextCall_idle (hidle : (s.model h).unload = none) : s.nextCall h = s := by
  unfold State.nextCall
  simp only [hidle]
  split
  · next heq => cases heq
  · rfl

/-- The result and the number with which a call ends that copied its output (R217, R225). -/
def Job.callResult (j : Job) (refused : Bool) : Nat := if j.outcome = 1 then 1 else okOr refused
def Job.callValue (j : Job) : Nat := if j.outcome = 1 then j.degraded else 0

/-- The last layer of a job's chain (R225). -/
def Job.lastLayer (j : Job) : LayerRec := (j.records.filter (fun e => decide (e.2.kind = 1))).foldl (fun _ e => e.2) (j.record 1)

theorem State.finishCall_copies (hs : s.unheld) {cmd : Instr} (m : Model) (j : Job) :
    ∃ u bad, s.Serves u ∧ s.finishCall c cmd h m j output []
      = ((u.setModel h { m with running := none, ended := none, inputRefused := false }).endCall c.queue c.seq
          (j.callResult (bad || j.refused || m.inputRefused)) j.callValue).nextCall h := by
  refine ⟨(s.kvCopy c j.lastLayer.out output (16384 * j.lastLayer.outTiles) []).2, (s.kvCopy c j.lastLayer.out output (16384 * j.lastLayer.outTiles) []).1,
    s.kvCopy_serves hs.2.2.2.2 _ _ _ _, ?_⟩
  unfold State.finishCall
  simp only [State.engHoldAll_unheld (c := cmd) (k := c.worker cmd) rfl _ hs]
  rfl

theorem exec_call_ends (hs : s.unheld) (hcalm : s.calm) (hh : h < 256) (hcall : s.callOf q seq 4 1 = some c) (hbefore : s.callsBefore c = true)
    (hloaded : (s.model h).loaded = true) {output' j' : Nat} {j : Job} (hruns : (s.model h).running = some (q, seq, output', j'))
    (hended : (s.model h).ended = some j) (hidle : (s.model h).unload = none) :
    ∃ u bad, s.Serves u ∧ exec (.call q seq h input output []) s
      = .next ((u.setModel h { s.model h with running := none, ended := none, inputRefused := false }).endCall q seq
          (j.callResult (bad || j.refused || (s.model h).inputRefused)) j.callValue) := by
  obtain ⟨rfl, rfl, -⟩ := State.of_callOf hcall
  obtain ⟨u, bad, hu, hfinish⟩ := State.finishCall_copies (c := c) (h := h) (output := output') (cmd := .call c.queue c.seq h input output []) hs (s.model h) j
  refine ⟨u, bad, hu, ?_⟩
  rw [State.nextCall_idle (by rw [State.endCall_model, State.model_setModel]; exact hidle)] at hfinish
  change execCall c.queue c.seq h input output [] s = _
  rw [execCall, hcall]
  simp only [hbefore, hloaded, hruns, hended, Bool.not_true, Bool.false_eq_true, if_false, and_self, if_true, hfinish]
  rw [if_neg (by simp [hh])]
  exact congrArg Host.Outcome.next (State.endCall_settle _ _ _ _ _ (hu.calm hcalm))

theorem call_ends (hs : s.unheld) (hcalm : s.calm) (hh : h < 256) (hcall : s.callOf q seq 4 1 = some c) (hbefore : s.callsBefore c = true)
    (hloaded : (s.model h).loaded = true) {output' j' : Nat} {j : Job} (hruns : (s.model h).running = some (q, seq, output', j'))
    (hended : (s.model h).ended = some j) (hidle : (s.model h).unload = none) :
    ∃ t res, exec (.call q seq h input output []) s = .next t ∧ s.callEnds t q seq res (if j.outcome = 1 then j.degraded else 0)
      ∧ t.model h = { s.model h with running := none, ended := none, inputRefused := false }
      ∧ (if j.outcome = 1 then res = 1 else res = 0 ∨ res = 5) ∧ (j.outcome ≠ 1 → (s.model h).inputRefused = true → res = 5) := by
  obtain ⟨u, bad, hu, hexec⟩ := exec_call_ends hs hcalm hh hcall hbefore hloaded hruns hended hidle
  refine ⟨_, _, hexec, State.endCall_callEnds_of_qmg hu.qmg _ _, by rw [State.endCall_model, State.model_setModel], ?_, fun houtcome hrefused => ?_⟩
  · unfold Job.callResult okOr
    split
    · rfl
    · split
      · exact .inr rfl
      · exact .inl rfl
  · simp [Job.callResult, houtcome, hrefused, okOr]

/-! ### A call starts -/

/-- A row of lines, taken from where it begins. -/
theorem flatMap_lines {f : Nat → List Byte} {lines : List (List Byte)} (h : ∀ j (hj : j < lines.length), f j = lines[j]) {i m : Nat} (hm : i + m ≤ lines.length) :
    (List.range m).flatMap (fun k => f (i + k)) = ((lines.drop i).take m).flatten := by
  rw [List.flatMap_def]
  congr 1
  refine List.ext_getElem (by simp; omega) (fun k hk _ => ?_)
  simp only [List.length_map, List.length_range] at hk
  simp [h (i + k) (by omega)]

/-- A chain in readable lines that are not poisoned is read: its header's two lines, then two of each record (R178). -/
theorem State.readChain_lines (hs : s.unheld) {header : Nat} (hheader : header % 64 = 0) {lines : List (List Byte)}
    (hlines : ∀ j (hj : j < lines.length), s.readable c.actor (header + 64 * j) ∧ s.lineAt (header + 64 * j) = (lines[j], false))
    (hlength : lines.length = 2 * ((headOf (Memory.store [] 0 (lines.take 2).flatten)).count + 1)) :
    ∃ u, s.readChain c header [] = ({ data := lines.flatten, poison := false }, u) ∧ s.Heats u := by
  have hdata (j : Nat) (hj : j < lines.length) : (s.lineAt (header + 64 * j)).1 = lines[j] := by rw [(hlines j hj).2]
  have hclean (i m : Nat) (hm : i + m ≤ lines.length) : ((List.range m).any fun k => (s.lineAt (header + 64 * (i + k))).2) = false := by
    simp only [List.any_eq_false, List.mem_range, Bool.not_eq_true]
    exact fun k hk => by rw [(hlines (i + k) (by omega)).2]
  obtain ⟨u, hu, hheat⟩ := State.engBytes_lines (m := 2) hs hheader c.cls (fun k hk => (hlines k (by omega)).1)
  have hhead := flatMap_lines (f := fun j => (s.lineAt (header + 64 * j)).1) hdata (i := 0) (m := 2) (by omega)
  have hheadClean := hclean 0 2 (by omega)
  simp only [Nat.zero_add, List.drop_zero] at hhead hheadClean
  rw [hhead, hheadClean, show 64 * 2 = 128 from rfl] at hu
  obtain ⟨v, hv, hheat'⟩ := State.engBytes_lines (a := header + 128) (m := 2 * (headOf (Memory.store [] 0 (lines.take 2).flatten)).count) (hheat.accesses.unheld hs)
    (by omega) c.cls (fun k hk => hheat.accesses.readable (by rw [show header + 128 + 64 * k = header + 64 * (2 + k) by omega]; exact (hlines (2 + k) (by omega)).1))
  have haddr (k : Nat) : header + 128 + 64 * k = header + 64 * (2 + k) := by omega
  have hrest := flatMap_lines (f := fun j => (s.lineAt (header + 64 * j)).1) hdata (i := 2) (m := 2 * (headOf (Memory.store [] 0 (lines.take 2).flatten)).count) (by omega)
  simp only [haddr, hheat.lineAt] at hv
  rw [hrest, hclean 2 _ (by omega), List.take_of_length_le (l := lines.drop 2) (by rw [List.length_drop]; omega), ← Nat.mul_assoc] at hv
  refine ⟨v, ?_, hheat.trans hheat'⟩
  simp only [State.readChain, hu, hv, Bool.or_self]
  rw [← List.flatten_append, List.take_append_drop]

theorem State.copyInput_serves (hmesh : s.dir.meshData = []) (chain : LineIn) (input : Nat) : s.Serves (s.copyInput c chain input []).2 := by
  unfold State.copyInput
  split
  · exact .refl s
  · exact s.kvCopy_serves hmesh _ _ _ _

theorem State.Serves.shombeQueues (h : s.Serves t) : t.shombeQueues = s.shombeQueues := by
  unfold State.shombeQueues State.ownQueues
  rw [h.qmg]

theorem State.holdCall_unheld (hs : s.unheld) (cmd : Instr) (header input : Nat) : s.holdCall c cmd header input [] = (false, s) := by
  have hheld (runs : List (Nat × Nat × Bool)) : s.engHoldAll (c.worker cmd) runs = (false, s) := State.engHoldAll_unheld rfl runs hs
  unfold State.holdCall
  simp only [State.engHoldRun, hheld, Bool.false_eq_true, if_false]
  split <;> rfl

/-- The job of a call that starts, while no queue is owned by a control core (R225, log entry 165). -/
def SvcCall.job (c : SvcCall) (id header : Nat) (chain : Memory) : Job :=
  { id := id, queue := shombeQueue, seq := c.seq, cid := 0, actor := c.actor, cls := c.cls, ownKind := 2, ownId := 0, hdrAddr := header, chain := chain }

theorem State.startCall_queues {cmd : Instr} (hs : s.unheld) {m : Model} (hheader : m.header % 64 = 0) (hqueues : s.shombeQueues = []) {lines : List (List Byte)}
    (hlines : ∀ j (hj : j < lines.length), s.readable c.actor (m.header + 64 * j) ∧ s.lineAt (m.header + 64 * j) = (lines[j], false))
    (hlength : lines.length = 2 * ((headOf (Memory.store [] 0 (lines.take 2).flatten)).count + 1))
    (hok : (headOf (Memory.store [] 0 (lines.take 2).flatten)).ok = true) :
    ∃ u bad, s.Serves u ∧ s.startCall c h m cmd input output []
      = (u.setModel h { m with waiting := m.waiting.drop 1, running := some (c.queue, c.seq, output, s.lst.nextJob), inputRefused := bad }).acceptJob
          (c.job s.lst.nextJob m.header (Memory.store [] 0 (lines.take 2).flatten)) := by
  obtain ⟨u, hread, hheat⟩ := State.readChain_lines hs hheader hlines hlength
  have hu := hheat.accesses.serves.trans (u.copyInput_serves (c := c) (hheat.accesses.unheld hs).2.2.2.2 { data := lines.flatten, poison := false } input)
  obtain ⟨x, hx⟩ : ∃ x, x = u.copyInput c { data := lines.flatten, poison := false } input [] := ⟨_, rfl⟩
  rw [← hx] at hu
  have hwhole : (lines.take 2).flatten.length = 128 := by
    have hlines2 := flatMap_lines (f := fun j => (s.lineAt (m.header + 64 * j)).1) (lines := lines) (i := 0) (m := 2) (fun j hj => by rw [(hlines j hj).2]) (by omega)
    rw [List.drop_zero] at hlines2
    rw [← hlines2]
    exact s.flatMap_lineAt_length _ 2
  have hhead : lines.flatten.take 128 = (lines.take 2).flatten := by
    conv_lhs => rw [← List.take_append_drop 2 lines, List.flatten_append]
    rw [List.take_append_of_le_length (by omega), List.take_of_length_le (by omega)]
  refine ⟨x.2, x.1, hu, ?_⟩
  unfold State.startCall
  simp only [hread, ← hx, hu.shombeQueues, hqueues, if_true, hhead, hu.lst, Bool.or_false, Bool.false_eq_true, if_false, Job.head, hok]
  rfl

theorem State.acceptJob_jobs (hlst : u.lst = s.lst) (header : Nat) (chain : Memory) :
    (u.acceptJob (c.job s.lst.nextJob header chain)).lst.jobs = s.lst.jobs ++ [c.job s.lst.nextJob header chain] := by
  rw [State.acceptJob, hlst]
  rfl

/-- A call whose handle is loaded and idle starts at once. -/
theorem exec_call_starts (hs : s.unheld) (hh : h < 256) (hcall : s.callOf q seq 4 1 = some c) (hbefore : s.callsBefore c = true)
    (hloaded : (s.model h).loaded = true) (hruns : (s.model h).running = none) (hwaiting : (s.model h).waiting = []) (hidle : (s.model h).unload = none)
    (hroom : s.queued.length < 1024) :
    exec (.call q seq h input output []) s = .next (s.startCall c h { s.model h with waiting := [(q, seq, input, output)] }
      (.call q seq h input output []) input output []).settle := by
  change execCall q seq h input output [] s = _
  rw [execCall, hcall]
  simp only [hbefore, hloaded, hruns, hwaiting, hidle, Bool.not_true, Bool.false_eq_true, if_false, List.any_nil, List.nil_append, and_self, decide_true,
    false_or, Option.isSome_none, or_false, State.holdCall_unheld hs]
  rw [if_neg (by omega), if_neg (by omega)]
  rfl

theorem call_starts (hs : s.unheld) (hcalm : s.calm) (hh : h < 256) (hcall : s.callOf q seq 4 1 = some c) (hbefore : s.callsBefore c = true)
    (hloaded : (s.model h).loaded = true) (hruns : (s.model h).running = none) (hwaiting : (s.model h).waiting = []) (hidle : (s.model h).unload = none)
    (hqueues : s.shombeQueues = []) (hroom : s.queued.length < 1024) (hheader : (s.model h).header % 64 = 0) {lines : List (List Byte)}
    (hlines : ∀ j (hj : j < lines.length), s.readable c.actor ((s.model h).header + 64 * j) ∧ s.lineAt ((s.model h).header + 64 * j) = (lines[j], false))
    (hlength : lines.length = 2 * ((headOf (Memory.store [] 0 (lines.take 2).flatten)).count + 1))
    (hok : (headOf (Memory.store [] 0 (lines.take 2).flatten)).ok = true) :
    ∃ t x b, exec (.call q seq h input output []) s = .next t
      ∧ t.model h = { s.model h with running := some (q, seq, output, s.lst.nextJob), inputRefused := b } ∧ t.lst.jobs = s.lst.jobs ++ [x]
      ∧ x.id = s.lst.nextJob ∧ x.queue = shombeQueue ∧ x.state = 0 ∧ x.actor = c.actor ∧ x.cls = c.cls ∧ x.hdrAddr = (s.model h).header
      ∧ x.chain = Memory.store [] 0 (lines.take 2).flatten := by
  obtain ⟨rfl, rfl, -⟩ := State.of_callOf hcall
  obtain ⟨u, bad, hu, hstart⟩ := State.startCall_queues (c := c) (h := h) (input := input) (output := output)
    (cmd := .call c.queue c.seq h input output []) (m := { s.model h with waiting := [(c.queue, c.seq, input, output)] }) hs hheader hqueues hlines hlength hok
  have hexec := exec_call_starts (input := input) (output := output) hs hh hcall hbefore hloaded hruns hwaiting hidle hroom
  rw [hstart, State.settle_calm (show State.calm (State.acceptJob (u.setModel h _) _) from hu.calm hcalm)] at hexec
  refine ⟨_, c.job s.lst.nextJob (s.model h).header (Memory.store [] 0 (lines.take 2).flatten), bad, hexec, ?_,
    State.acceptJob_jobs (u := u.setModel h _) hu.lst _ _, rfl, rfl, rfl, rfl, rfl, rfl, rfl⟩
  refine (State.model_setModel u h _).trans ?_
  simp [hwaiting]

end

/-- Settles O42: a gather of one bag by its three reads and one write, each the rule of a readable or writable line; the commands on a handle by the branches of their definitions; a call's start by the lines of its chain, and its start and end by what a copy between lines of any homes keeps. -/
theorem gathersAndSurrogateCallsComplete : Obligations.GathersAndSurrogateCallsComplete := by
  unfold Obligations.GathersAndSurrogateCallsComplete
  refine fun s q seq c hs hcalm => ⟨fun hcall table rows indices offsets mode out n hmode => ?_, fun h hh => ⟨fun hcall header hheader => ?_, fun hcall => ?_, fun hcall input output => ?_⟩⟩
  · exact fun hread hclean => ⟨fun hzero hlast hn hindices hrows hout => gather_sums hs hcalm hcall hmode hread hclean hzero hlast hn hindices rfl rfl rfl hrows hout,
      gather_falls hs hcall hmode hread hclean⟩
  · exact ⟨modelLoad_loads hh hcall hheader, modelLoad_busy hh hcall hheader⟩
  · exact ⟨modelUnload_unloaded hcall, modelUnload_unloads hh hcall, modelUnload_waits hh hcall⟩
  · refine ⟨exec_call_before hcall, fun hbefore => ⟨fun hloaded => ?_, fun hloaded hruns hwaiting hidle hqueues hroom hheader lines hlines _ hok hlength => ?_,
      fun hloaded q' seq' output' j hruns hother hnew => ?_, fun hloaded output' j' j hruns hended hidle => ?_⟩⟩
    · exact ⟨_, exec_call_unloaded hcall hbefore hloaded, State.endCall_callEnds_of_qmg rfl 3 0⟩
    · exact call_starts hs hcalm hh hcall hbefore hloaded hruns hwaiting hidle hqueues hroom hheader hlines hlength hok
    · exact ⟨_, exec_call_waits hh hcall hbefore hloaded hruns hother hnew, s.model_setModel h _, s.setModel_changes h _⟩
    · exact call_ends hs hcalm hh hcall hbefore hloaded hruns hended hidle

end Sys2Proof.Machine
end

section
/-! PROOFS. Bytes within a line, and vectors copied from lines to lines (R219). -/

namespace Sys2Proof.Machine

/-! ### Bytes within a line -/

theorem beOf_getLsbD (o n : Nat) {i : Nat} (h : i < 64) : (beOf o n).getLsbD i = decide (o ≤ i ∧ i < o + n) := by
  rw [beOf, BitVec.getLsbD_ofNat, Nat.mul_comm, Nat.testBit_two_pow_mul, Nat.testBit_two_pow_sub_one, Bool.eq_iff_iff]
  simp only [Bool.and_eq_true, decide_eq_true_eq]
  omega

theorem mergeLine_getD (old new : List Byte) (be : BitVec 64) {i : Nat} (h : i < 64) :
    (mergeLine old new be).getD i 0#8 = if be.getLsbD i then new.getD i 0#8 else old.getD i 0#8 := by
  rw [mergeLine, List.getD_eq_getElem?_getD, List.getElem?_map, List.getElem?_range h]
  rfl

/-- Bytes written within a line are what it then holds there. -/
theorem mergeLine_within (old : List Byte) {l : List Byte} {o : Nat} (h : o + l.length ≤ 64) :
    ((mergeLine old (List.replicate o 0#8 ++ l) (beOf o l.length)).drop o).take l.length = l := by
  refine List.ext_getElem (by simp [mergeLine]; omega) (fun i hi hi' => ?_)
  have hget := mergeLine_getD old (List.replicate o 0#8 ++ l) (beOf o l.length) (i := o + i) (by omega)
  rw [beOf_getLsbD _ _ (by omega), if_pos (by simp [hi']), List.getD_append_right _ _ _ _ (by simp), List.length_replicate, Nat.add_sub_cancel_left,
    List.getD_eq_getElem _ _ hi', List.getD_eq_getElem _ _ (by rw [mergeLine_length]; omega)] at hget
  simpa using hget

/-! ### A vector is copied -/

theorem State.apart_iff {s : State} {a b : Nat} : s.apart a b ↔ (s.loc (tileOf a) = s.loc (tileOf b) → lineOf a ≠ lineOf b) := by
  unfold State.apart
  tauto

theorem ceilDiv_lines (m : Nat) : ceilDiv (64 * m) 64 = m := by
  unfold ceilDiv
  omega

section
variable {s : State} {c : SvcCall} {src dst : Nat}

/-- A vector that fills lines is copied with their marks, from readable lines to writable ones apart from them. -/
theorem State.kvCopy_lines (hs : s.unheld) {m : Nat}
    (hsrc : ∀ j, j < m → s.readable c.actor (src + 64 * j)) (hdst : ∀ j, j < m → s.writable c.actor (dst + 64 * j))
    (hapart : ∀ j l, j < m → l < m → s.apart (dst + 64 * j) (src + 64 * l)) (hdistinct : ∀ j l, j < m → l < m → j ≠ l → s.apart (dst + 64 * j) (dst + 64 * l)) :
    ∃ u, s.kvCopy c src dst (64 * m) [] = (false, u) ∧ s.Writes u ((List.range m).map (fun j => dst + 64 * j))
      ∧ ∀ j, j < m → u.lineAt (dst + 64 * j) = s.lineAt (src + 64 * j) := by
  suffices hfold : ∀ n, n ≤ m → ∃ u, (List.range n).foldl (fun (acc : Bool × State) i =>
      let k := min 64 (64 * m - 64 * i)
      let (l, u) := acc.2.engBytes c.actor c.cls (src + 64 * i) k [] true
      let (w, v) := u.svcPut c (dst + 64 * i) l.data l.poison []
      (acc.1 || l.refused || w, v)) (false, s) = (false, u) ∧ s.Writes u ((List.range n).map (fun j => dst + 64 * j))
      ∧ ∀ j, j < n → u.lineAt (dst + 64 * j) = s.lineAt (src + 64 * j) by
    rw [State.kvCopy, ceilDiv_lines]
    exact hfold m (Nat.le_refl m)
  intro n
  induction n with
  | zero => exact fun _ => ⟨s, rfl, (State.Heats.refl s).writes, by simp⟩
  | succ n ih =>
    intro hn
    obtain ⟨u, hu, hwrites, hlines⟩ := ih (by omega)
    obtain ⟨v, hread, hheat⟩ := State.engBytes_line (hwrites.accesses.unheld hs) (hwrites.accesses.readable (hsrc n (by omega))) c.cls
    have hsource : u.lineAt (src + 64 * n) = s.lineAt (src + 64 * n) := by
      refine hwrites.lineAt (fun b hb => ?_)
      obtain ⟨j, hj, rfl⟩ := List.mem_map.1 hb
      exact (hapart j n (by rw [List.mem_range] at hj; omega) (by omega)).symm
    have haccess := hwrites.trans hheat.writes
    obtain ⟨w, hput, hwrite, hline⟩ := State.svcPut_line (c := c) (haccess.accesses.unheld hs) (haccess.accesses.writable (hdst n (by omega)))
      (s.lineAt (src + 64 * n)).2 (s.lineAt_length (src + 64 * n))
    rw [markedLine_lineAt] at hline
    refine ⟨w, ?_, (haccess.trans hwrite).mono (by simp [List.range_succ]), fun j hj => ?_⟩
    · rw [List.range_succ, List.foldl_append, hu]
      simp [show min 64 (64 * m - 64 * n) = 64 by omega, hread, hsource, hput]
    · obtain rfl | hlt : j = n ∨ j < n := by omega
      · exact hline
      · rw [hwrite.lineAt (fun b hb => ?_), hheat.lineAt, hlines j hlt]
        rw [List.mem_singleton.1 hb]
        exact haccess.accesses.apart (hdistinct j n (by omega) (by omega) (by omega))

end

end Sys2Proof.Machine
end

section
/-! PROOFS. Key-value sessions (R218 to R221): what opens and closes one, and how a call on a layer reads the layer's count. -/

namespace Sys2Proof.Machine

section
variable {s t u : State} {c : SvcCall} {q seq g : Nat} {k : KvSession}

theorem State.of_kvTurn {func : Nat} (h : s.kvTurn q seq func = some c) : c.queue = q ∧ c.seq = seq := by
  unfold State.kvTurn at h
  split at h
  · split at h
    · next hcall =>
      cases h
      exact ⟨hcall.1, hcall.2.1⟩
    · cases h
  · cases h

/-! ### The session of a region -/

/-- The session of a region is begun or ended. -/
def State.setSession (s : State) (g : Nat) (k : Option KvSession) : State := { s with svc := { s.svc with kv := sset none s.svc.kv g k } }

theorem State.session_setSession (s : State) (g : Nat) (k : Option KvSession) :
    (s.setSession g k).session g = if (s.region g).valid then k.map (fun k => (s.region g, k)) else none := by
  change (if (s.region g).valid then (sget none (sset none s.svc.kv g k) g).map (fun k => (s.region g, k)) else none) = _
  rw [sget_sset_self]

theorem State.Serves.region (h : s.Serves t) (g : Nat) : t.region g = s.region g := by rw [State.region, h.rgn, State.region]

/-! ### KV_OPEN -/

theorem exec_kvOpen_bad (hturn : s.kvTurn q seq 0 = some c) (hbad : (s.region g).valid = false ∨ (s.region g).leaseEnd = 0 ∨ k.ok = false) :
    exec (.kvOpen q seq g k.layers k.heads k.headSize k.fmt k.capacity []) s = .next (s.endCall q seq 2 0) := by
  obtain ⟨layers, heads, size, fmt, cap⟩ := k
  change execKvOpen q seq g layers heads size fmt cap [] s = _
  rw [execKvOpen, hturn]
  exact if_pos (by simpa using .inr hbad)

theorem exec_kvOpen_full (hturn : s.kvTurn q seq 0 = some c) (hg : g < 4096) (hvalid : (s.region g).valid = true) (hlease : (s.region g).leaseEnd ≠ 0)
    (hok : k.ok = true) (hsmall : (s.region g).size < k.size) :
    exec (.kvOpen q seq g k.layers k.heads k.headSize k.fmt k.capacity []) s = .next (s.endCall q seq 4 0) := by
  obtain ⟨layers, heads, size, fmt, cap⟩ := k
  change execKvOpen q seq g layers heads size fmt cap [] s = _
  rw [execKvOpen, hturn]
  exact (if_neg (by simp [hg, hvalid, hlease, hok])).trans (if_pos hsmall)

/-- The parameters of a session and its counts of zero. -/
def KvSession.opening (k : KvSession) : List Byte := k.bytes ++ List.replicate (4 * k.layers) 0#8

theorem exec_kvOpen (hs : s.unheld) (hcalm : s.calm) (hturn : s.kvTurn q seq 0 = some c) (hg : g < 4096) (hvalid : (s.region g).valid = true)
    (hlease : (s.region g).leaseEnd ≠ 0) (hok : k.ok = true) (hfits : k.size ≤ (s.region g).size) {lost : Bool}
    (hput : s.svcPut c (s.region g).base k.opening false [] = (lost, u)) :
    exec (.kvOpen q seq g k.layers k.heads k.headSize k.fmt k.capacity []) s = .next ((u.setSession g (some k)).endCall q seq (okOr lost) 0) := by
  have hu : s.Serves u := by
    have hserves := s.svcPut_serves c (s.region g).base k.opening false
    rwa [hput] at hserves
  obtain ⟨layers, heads, size, fmt, cap⟩ := k
  rw [KvSession.opening] at hput
  change execKvOpen q seq g layers heads size fmt cap [] s = _
  rw [execKvOpen, hturn]
  refine (if_neg (by simp [hg, hvalid, hlease, hok])).trans ((if_neg (Nat.not_lt.2 hfits)).trans ?_)
  rw [State.engHoldRun, State.engHoldAll_unheld (c := .kvOpen q seq g layers heads size fmt cap []) rfl _ hs]
  simp only [Bool.false_eq_true, if_false, hput]
  exact congrArg Host.Outcome.next (State.endCall_settle (u.setSession g _) q seq (okOr lost) 0 (hu.calm hcalm))

theorem KvSession.bytes_length (k : KvSession) : k.bytes.length = 64 := by simp [KvSession.bytes]

/-- A line's bytes and then fewer, put into two writable lines of which the second is not poisoned. -/
theorem State.svcPut_line_then (hs : s.unheld) {a : Nat} {l l' : List Byte} (hl : l.length = 64) (hl' : l' ≠ []) (hfew : l'.length ≤ 64)
    (h : s.writable c.actor a) (h' : s.writable c.actor (a + 64)) (hclean : (s.lineAt (a + 64)).2 = false) :
    ∃ u, s.svcPut c a (l ++ l') false [] = (false, u) ∧ u.lineAt (a + 64) = (mergeLine (s.lineAt (a + 64)).1 l' (beOf 0 l'.length), false) := by
  have hmod := h.1
  have hmod' : (a + 64) % 64 = 0 := by omega
  have haddr : (a + 64) / 64 * 64 = a + 64 := by omega
  obtain ⟨u, hfirst, hu, -⟩ := State.engWrite_writable hs h c.cls a l fullBe false
  have hkept : u.lineAt (a + 64) = s.lineAt (a + 64) := by
    refine hu.lineAt (fun b hb => ?_)
    rw [List.mem_singleton.1 hb]
    have hnear := s.apart_near (j := 1) (k := 0) hmod (by omega) (by omega) (by omega)
    rwa [Nat.mul_one, Nat.mul_zero, Nat.add_zero] at hnear
  obtain ⟨v, hrest, -, hline⟩ := State.svcStore_within (a := a + 64) (actor := c.actor) (cls := c.cls) (fuel := (l ++ l').length) (l := l')
    (hu.accesses.unheld hs) hl' (by omega) (by rw [haddr]; exact hu.accesses.writable h') (by rw [haddr, hkept, hclean]) (by simp [hl])
  rw [haddr, hmod', hkept, List.replicate_zero, List.nil_append] at hline
  refine ⟨v, ?_, hline⟩
  rw [State.svcPut, State.svcStore_line hmod (by simp [hl]), List.take_left' hl, List.drop_left' hl]
  simp only [hfirst, hrest]
  rfl

/-- The counts of up to sixteen layers are zero, where the session tile's first lines are writable. -/
theorem State.svcPut_opening (hs : s.unheld) {base : Nat} (hpos : 1 ≤ k.layers) (hfew : k.layers ≤ 16) (h0 : s.writable c.actor base)
    (h1 : s.writable c.actor (base + 64)) (hclean : (s.lineAt (base + 64)).2 = false) :
    ∃ u, s.svcPut c base k.opening false [] = (false, u) ∧ ∀ j, j < 4 * k.layers → (u.lineAt (base + 64)).1.getD j 0#8 = 0#8 := by
  have hlength : (List.replicate (4 * k.layers) 0#8).length = 4 * k.layers := List.length_replicate
  obtain ⟨u, hput, hline⟩ := State.svcPut_line_then (c := c) hs k.bytes_length (l' := List.replicate (4 * k.layers) 0#8)
    (List.ne_nil_of_length_pos (by omega)) (by omega) h0 h1 hclean
  refine ⟨u, hput, fun j hj => ?_⟩
  rw [hline, hlength, mergeLine_getD _ _ _ (by omega), beOf_getLsbD _ _ (by omega), if_pos (by simp [hj])]
  simp

theorem KvSession.layers_pos (h : k.ok = true) : 1 ≤ k.layers := by
  unfold KvSession.ok at h
  simp only [Bool.and_eq_true, decide_eq_true_eq] at h
  exact h.1.1.1.1.1

theorem okOr_cases (refused : Bool) : okOr refused = 0 ∨ okOr refused = 5 := by cases refused <;> simp [okOr]

theorem kvOpen_opens (hs : s.unheld) (hcalm : s.calm) (hturn : s.kvTurn q seq 0 = some c) (hg : g < 4096) (hvalid : (s.region g).valid = true)
    (hlease : (s.region g).leaseEnd ≠ 0) (hok : k.ok = true) (hfits : k.size ≤ (s.region g).size) :
    ∃ t res, exec (.kvOpen q seq g k.layers k.heads k.headSize k.fmt k.capacity []) s = .next t ∧ s.callEnds t q seq res 0 ∧ (res = 0 ∨ res = 5)
      ∧ t.session g = some (s.region g, k)
      ∧ (k.layers ≤ 16 → s.writable c.actor (s.region g).base → s.writable c.actor ((s.region g).base + 64) → (s.lineAt ((s.region g).base + 64)).2 = false →
          res = 0 ∧ ∀ j, j < 4 * k.layers → (t.lineAt ((s.region g).base + 64)).1.getD j 0#8 = 0#8) := by
  have hserves := s.svcPut_serves c (s.region g).base k.opening false
  rcases hput : s.svcPut c (s.region g).base k.opening false [] with ⟨lost, u⟩
  rw [hput] at hserves
  refine ⟨_, _, exec_kvOpen hs hcalm hturn hg hvalid hlease hok hfits hput, State.endCall_callEnds_of_qmg (u := u.setSession g (some k)) hserves.qmg _ _,
    okOr_cases lost, ?_, fun hfew h0 h1 hclean => ?_⟩
  · rw [State.endCall_session, State.session_setSession, hserves.region, hvalid]
    rfl
  · obtain ⟨v, hwhole, hzero⟩ := State.svcPut_opening hs (KvSession.layers_pos hok) hfew h0 h1 hclean
    rw [hput] at hwhole
    obtain ⟨rfl, rfl⟩ := Prod.mk.inj hwhole
    exact ⟨rfl, hzero⟩

/-! ### KV_CLOSE -/

theorem exec_kvClose_closed (hturn : s.kvTurn q seq 4 = some c) (hclosed : s.session g = none) :
    exec (.kvClose q seq g []) s = .next (s.endCall q seq 3 0) := by
  change execKvClose q seq g [] s = _
  rw [execKvClose, hturn]
  simp only [hclosed]
  rfl

theorem exec_kvClose (hs : s.unheld) (hcalm : s.calm) (hturn : s.kvTurn q seq 4 = some c) {r : Region} (hsession : s.session g = some (r, k)) {lost : Bool}
    {l : List Byte} (hl : l = List.replicate 16384 0#8) (hput : s.svcPut c r.base l false [] = (lost, u)) (hu : s.Serves u) :
    exec (.kvClose q seq g []) s = .next ((u.setSession g none).endCall q seq (okOr lost) 0) := by
  change execKvClose q seq g [] s = _
  rw [execKvClose, hturn, ← hl]
  simp only [hsession, State.engHoldRun, State.engHoldAll_unheld (k := c.worker (.kvClose q seq g [])) rfl _ hs, Bool.false_eq_true, if_false, hput]
  exact congrArg Host.Outcome.next (State.endCall_settle (u.setSession g none) q seq (okOr lost) 0 (hu.calm hcalm))

theorem kvClose_closes (hs : s.unheld) (hcalm : s.calm) (hturn : s.kvTurn q seq 4 = some c) {r : Region} (hsession : s.session g = some (r, k)) :
    ∃ t res, exec (.kvClose q seq g []) s = .next t ∧ s.callEnds t q seq res 0 ∧ (res = 0 ∨ res = 5) ∧ t.session g = none
      ∧ ((∀ i, i < 256 → s.writable c.actor (r.base + 64 * i)) → res = 0 ∧ ∀ i, i < 256 → t.lineAt (r.base + 64 * i) = (zeroLine, false)) := by
  obtain ⟨l, hl⟩ : ∃ l, l = List.replicate 16384 0#8 := ⟨_, rfl⟩
  have hserves := s.svcPut_serves c r.base l false
  rcases hput : s.svcPut c r.base l false [] with ⟨lost, u⟩
  rw [hput] at hserves
  refine ⟨_, _, exec_kvClose hs hcalm hturn hsession hl hput hserves, State.endCall_callEnds_of_qmg (u := u.setSession g none) hserves.qmg _ _, okOr_cases lost, ?_,
    fun hwritable => ?_⟩
  · rw [State.endCall_session, State.session_setSession]
    split <;> rfl
  · have hmod := (hwritable 0 (by omega)).1
    rw [Nat.mul_zero, Nat.add_zero] at hmod
    obtain ⟨v, hwhole, -, hlines⟩ := State.svcPut_lines (m := 256) hs hmod false (l := l) (by rw [hl, List.length_replicate]) (by omega) hwritable
    rw [hput] at hwhole
    obtain ⟨rfl, rfl⟩ := Prod.mk.inj hwhole
    refine ⟨rfl, fun i hi => ?_⟩
    have hline := hlines i hi
    rw [hl, List.drop_replicate, List.take_replicate, Nat.min_eq_left (by omega)] at hline
    exact hline

end

end Sys2Proof.Machine
end

section
/-! PROOFS. Key-value calls on a layer (R219 to R221): its count is read, then tokens are appended, dropped or attended to. -/

namespace Sys2Proof.Machine

/-! ### The count of a layer -/

/-- The line of a layer's token count. -/
def countLine (base layer : Nat) : Nat := (base + 64 + 4 * layer) / 64 * 64

/-- The token count of a layer. -/
def State.layerCount (s : State) (base layer : Nat) : Nat :=
  leNat (((s.lineAt (countLine base layer)).1.drop ((base + 64 + 4 * layer) % 64)).take 4)

theorem leNat_lt (l : List Byte) : leNat l < 256 ^ l.length := by
  induction l with
  | nil => simp [leNat]
  | cons b l ih =>
    have hb := b.isLt
    rw [leNat, List.length_cons, Nat.pow_succ]
    omega

section
variable {s t u : State} {c : SvcCall} {q seq g layer : Nat} {k : KvSession} {r : Region}

theorem State.layerCount_lt (s : State) (base layer : Nat) : s.layerCount base layer < 2 ^ 32 := by
  calc s.layerCount base layer < 256 ^ _ := leNat_lt _
    _ ≤ 256 ^ 4 := Nat.pow_le_pow_right (by omega) (List.length_take_le _ _)
    _ = 2 ^ 32 := rfl

/-- A layer's count is written within its line (R218). -/
theorem State.kvCount_counts (hs : s.unheld) {base : Nat} (hbase : base % 64 = 0) (hwrite : s.writable c.actor (countLine base layer))
    (hclean : (s.lineAt (countLine base layer)).2 = false) (n : Nat) :
    ∃ u, s.kvCount c base layer n [] = (false, u) ∧ s.Writes u [countLine base layer] ∧ u.layerCount base layer = n % 2 ^ 32 := by
  have hin : (base + 64 + 4 * layer) % 64 + (leBytes 4 n).length ≤ 64 := by
    rw [leBytes_length]
    omega
  obtain ⟨u, hput, hu, hline⟩ := State.svcStore_within (a := base + 64 + 4 * layer) (cls := c.cls) (fuel := (leBytes 4 n).length + 1) hs
    (List.ne_nil_of_length_pos (by rw [leBytes_length]; omega)) hin hwrite hclean (by omega)
  refine ⟨u, hput, hu, ?_⟩
  have hwithin := mergeLine_within (s.lineAt (countLine base layer)).1 hin
  rw [leBytes_length] at hwithin
  rw [State.layerCount, countLine, hline, leBytes_length]
  exact (congrArg leNat hwithin).trans (leNat_leBytes 4 n)

/-! ### Calls on a layer -/

theorem State.kvCall_closed (hsession : s.session g = none) (cmd : Instr) (f : Nat → KvSession → Nat → State → State) :
    s.kvCall c cmd g layer [] f = s.endCall c.queue c.seq 3 0 := by
  rw [State.kvCall, hsession]

theorem State.kvCall_beyond (hsession : s.session g = some (r, k)) (hbeyond : k.layers ≤ layer) (cmd : Instr) (f : Nat → KvSession → Nat → State → State) :
    s.kvCall c cmd g layer [] f = s.endCall c.queue c.seq 2 0 := by
  rw [State.kvCall, hsession]
  exact if_pos hbeyond

/-- The count of a layer is read, where nothing holds its line and it is readable and not poisoned. -/
theorem State.kvCall_counts (hs : s.unheld) (hsession : s.session g = some (r, k)) (hlayer : layer < k.layers) (hbase : r.base % 64 = 0)
    (hread : s.readable c.actor (countLine r.base layer)) (hclean : (s.lineAt (countLine r.base layer)).2 = false) :
    ∃ u, s.Heats u ∧ ∀ cmd f, s.kvCall c cmd g layer [] f = (f r.base k (s.layerCount r.base layer) u).settle := by
  obtain ⟨u, hu, hheat⟩ := State.engBytes_within (a := r.base + 64 + 4 * layer) (n := 4) hs c.cls (by omega) (by omega) hread
  refine ⟨u, hheat, fun cmd f => ?_⟩
  rw [State.kvCall, hsession]
  refine (if_neg (Nat.not_le.2 hlayer)).trans ?_
  rw [State.engHoldRun, State.engHoldAll_unheld (c := cmd) rfl _ hs]
  simp only [Bool.false_eq_true, if_false, hu]
  rw [countLine] at hclean
  simp only [hclean, Bool.false_eq_true, if_false]
  rfl

variable {n ka va gs sc qa oa : Nat}

theorem exec_kvAppend_call (hturn : s.kvTurn q seq 1 = some c) :
    ∃ f, exec (.kvAppend q seq g layer n ka va [] none) s = .next (s.kvCall c (.kvAppend q seq g layer n ka va [] none) g layer [] f) := by
  change ∃ f, execKvAppend q seq g layer n ka va [] none s = _
  rw [execKvAppend, hturn]
  exact ⟨_, rfl⟩

theorem exec_kvAttend_call (hturn : s.kvTurn q seq 2 = some c) :
    ∃ f, exec (.kvAttend q seq g layer gs sc qa oa [] none) s = .next (s.kvCall c (.kvAttend q seq g layer gs sc qa oa [] none) g layer [] f) := by
  change ∃ f, execKvAttend q seq g layer gs sc qa oa [] none s = _
  rw [execKvAttend, hturn]
  exact ⟨_, rfl⟩

theorem exec_kvTruncate_call (hturn : s.kvTurn q seq 3 = some c) :
    ∃ f, exec (.kvTruncate q seq g layer n []) s = .next (s.kvCall c (.kvTruncate q seq g layer n []) g layer [] f) := by
  change ∃ f, execKvTruncate q seq g layer n [] s = _
  rw [execKvTruncate, hturn]
  exact ⟨_, rfl⟩

/-- A call that the session does not take ends at once: without a session with NOT_OPEN, beyond its layers with BAD_REQUEST. -/
theorem kvCall_misses {i : Instr} (hc : c.queue = q ∧ c.seq = seq) (hcall : ∃ f, exec i s = .next (s.kvCall c i g layer [] f)) {result : Nat}
    (h : (s.session g = none ∧ result = 3) ∨ (∃ r k, s.session g = some (r, k) ∧ k.layers ≤ layer) ∧ result = 2) :
    ∃ t, exec i s = .next t ∧ s.callEnds t q seq result 0 := by
  obtain ⟨rfl, rfl⟩ := hc
  obtain ⟨f, hexec⟩ := hcall
  obtain ⟨hsession, rfl⟩ | ⟨⟨r, k, hsession, hbeyond⟩, rfl⟩ := h
  · rw [State.kvCall_closed hsession] at hexec
    exact ⟨_, hexec, State.endCall_callEnds_of_qmg rfl 3 0⟩
  · rw [State.kvCall_beyond hsession hbeyond] at hexec
    exact ⟨_, hexec, State.endCall_callEnds_of_qmg rfl 2 0⟩

end

/-! ### A layer whose count can be read -/

section
variable {s : State} {c : SvcCall} {q seq g layer : Nat} {k : KvSession} {r : Region} {n ka va gs sc qa oa : Nat}

/-- A layer of a session whose count lies in a readable and writable line that is not poisoned. -/
structure State.KvLayer (s : State) (c : SvcCall) (g layer : Nat) (r : Region) (k : KvSession) : Prop where
  unheld : s.unheld
  calm : s.calm
  session : s.session g = some (r, k)
  within : layer < k.layers
  few : layer < 1024
  base : r.base % 64 = 0
  readable : s.readable c.actor (countLine r.base layer)
  writable : s.writable c.actor (countLine r.base layer)
  clean : (s.lineAt (countLine r.base layer)).2 = false

theorem State.KvLayer.counts (h : s.KvLayer c g layer r k) :
    ∃ u, s.Heats u ∧ ∀ cmd f, s.kvCall c cmd g layer [] f = (f r.base k (s.layerCount r.base layer) u).settle :=
  State.kvCall_counts h.unheld h.session h.within h.base h.readable h.clean

/-! ### KV_APPEND and KV_TRUNCATE -/

theorem kvAppend_full (h : s.KvLayer c g layer r k) (hturn : s.kvTurn q seq 1 = some c) (hfull : k.capacity < s.layerCount r.base layer + n) :
    ∃ t, exec (.kvAppend q seq g layer n ka va [] none) s = .next t ∧ s.callEnds t q seq 4 0 ∧ ∀ x j, j < 256 → t.vatLine x j = s.vatLine x j := by
  obtain ⟨u, hu, hcall⟩ := h.counts
  refine ⟨u.endCall q seq 4 0, ?_, State.endCall_callEnds_of_qmg hu.accesses.qmg 4 0, fun x j _ => hu.vatLine x j⟩
  change execKvAppend q seq g layer n ka va [] none s = _
  rw [execKvAppend, hturn]
  simp only [hcall, hfull, if_true]
  exact congrArg Host.Outcome.next (State.endCall_settle u q seq 4 0 (hu.accesses.calm h.calm))

theorem kvTruncate_more (h : s.KvLayer c g layer r k) (hturn : s.kvTurn q seq 3 = some c) (hmore : s.layerCount r.base layer < n) :
    ∃ t, exec (.kvTruncate q seq g layer n []) s = .next t ∧ s.callEnds t q seq 2 0 := by
  obtain ⟨u, hu, hcall⟩ := h.counts
  refine ⟨u.endCall q seq 2 0, ?_, State.endCall_callEnds_of_qmg hu.accesses.qmg 2 0⟩
  change execKvTruncate q seq g layer n [] s = _
  rw [execKvTruncate, hturn]
  simp only [hcall, hmore, if_true]
  exact congrArg Host.Outcome.next (State.endCall_settle u q seq 2 0 (hu.accesses.calm h.calm))

theorem kvTruncate_counts (h : s.KvLayer c g layer r k) (hturn : s.kvTurn q seq 3 = some c) (hless : n ≤ s.layerCount r.base layer) :
    ∃ t, exec (.kvTruncate q seq g layer n []) s = .next t ∧ s.callEnds t q seq 0 0 ∧ t.layerCount r.base layer = n := by
  obtain ⟨u, hu, hcall⟩ := h.counts
  obtain ⟨v, hput, hv, hcount⟩ := State.kvCount_counts (c := c) (hu.accesses.unheld h.unheld) h.base (hu.accesses.writable h.writable) (by rw [hu.lineAt, h.clean]) n
  have haccess := hu.accesses.trans hv.accesses
  have hlt := s.layerCount_lt r.base layer
  refine ⟨v.endCall q seq 0 0, ?_, State.endCall_callEnds_of_qmg haccess.qmg 0 0, hcount.trans (Nat.mod_eq_of_lt (by omega))⟩
  change execKvTruncate q seq g layer n [] s = _
  rw [execKvTruncate, hturn]
  simp only [hcall, Nat.not_lt.2 hless, if_false, State.engHoldRun,
    State.engHoldAll_unheld (k := c.worker (.kvTruncate q seq g layer n [])) rfl _ (hu.accesses.unheld h.unheld), Bool.false_eq_true, hput]
  exact congrArg Host.Outcome.next (State.endCall_settle v q seq 0 0 (haccess.calm h.calm))

theorem KvSession.place_value (k : KvSession) (base l h t : Nat) : k.place base l h t 1 = k.place base l h t 0 + k.capacity * k.vec := by
  unfold KvSession.place
  ring

theorem exec_kvAppend_one (hturn : s.kvTurn q seq 1 = some c) {count : Nat} {u u1 u2 u3 : State} (hs : u.unheld)
    (hcall : ∀ cmd f, s.kvCall c cmd g layer [] f = (f r.base k count u).settle) (hheads : k.heads = 1) (hroom : count + 1 ≤ k.capacity)
    (hkey : u.kvCopy c ka (k.place r.base layer 0 count 0) k.vec [] = (false, u1)) (hvalue : u1.kvCopy c va (k.place r.base layer 0 count 1) k.vec [] = (false, u2))
    (hcount : u2.kvCount c r.base layer (count + 1) [] = (false, u3)) (hcalm' : u3.calm) :
    exec (.kvAppend q seq g layer 1 ka va [] none) s = .next (u3.endCall q seq 0 0) := by
  change execKvAppend q seq g layer 1 ka va [] none s = _
  rw [execKvAppend, hturn]
  simp only [hcall, Nat.not_lt.2 hroom, if_false, State.engHoldAll_unheld (k := c.worker (.kvAppend q seq g layer 1 ka va [] none)) rfl _ hs, Bool.false_eq_true,
    hheads, List.range_one, List.flatMap_cons, List.flatMap_nil, List.map_cons, List.map_nil, List.append_nil, List.foldl_cons, List.foldl_nil, Nat.zero_mul,
    Nat.add_zero, hkey, hvalue, hcount, Bool.or_false]
  exact congrArg Host.Outcome.next (State.endCall_settle u3 q seq 0 0 hcalm')

/-- The vectors that an append reads and writes fill m lines each: readable and writable ones, those written apart from one another, from those read and from the layer's count. -/
structure State.AppendsTo (s : State) (c : SvcCall) (line key value ka va m : Nat) : Prop where
  keyRead : ∀ j, j < m → s.readable c.actor (ka + 64 * j)
  valueRead : ∀ j, j < m → s.readable c.actor (va + 64 * j)
  keyWrite : ∀ j, j < m → s.writable c.actor (key + 64 * j)
  valueWrite : ∀ j, j < m → s.writable c.actor (value + 64 * j)
  keyApart : ∀ j l, j < m → l < m → s.apart (key + 64 * j) (ka + 64 * l) ∧ s.apart (key + 64 * j) (va + 64 * l) ∧ s.apart (key + 64 * j) (value + 64 * l)
  valueApart : ∀ j l, j < m → l < m → s.apart (value + 64 * j) (va + 64 * l)
  distinct : ∀ j l, j < m → l < m → j ≠ l → s.apart (key + 64 * j) (key + 64 * l) ∧ s.apart (value + 64 * j) (value + 64 * l)
  countApart : ∀ j, j < m → s.apart line (key + 64 * j) ∧ s.apart line (value + 64 * j)

theorem kvAppend_one (h : s.KvLayer c g layer r k) (hturn : s.kvTurn q seq 1 = some c) (hheads : k.heads = 1) {m : Nat} (hvec : k.vec = 64 * m)
    (hroom : s.layerCount r.base layer + 1 ≤ k.capacity) {key value : Nat} (hkey : key = k.place r.base layer 0 (s.layerCount r.base layer) 0)
    (hvalue : value = k.place r.base layer 0 (s.layerCount r.base layer) 1) (happends : s.AppendsTo c (countLine r.base layer) key value ka va m) :
    ∃ t, exec (.kvAppend q seq g layer 1 ka va [] none) s = .next t ∧ s.callEnds t q seq 0 0
      ∧ t.layerCount r.base layer = (s.layerCount r.base layer + 1) % 2 ^ 32
      ∧ ∀ j, j < m → t.lineAt (key + 64 * j) = s.lineAt (ka + 64 * j) ∧ t.lineAt (value + 64 * j) = s.lineAt (va + 64 * j) := by
  obtain ⟨u, hu, hcall⟩ := h.counts
  have hlist {b x : Nat} (hb : b ∈ (List.range m).map (fun j => x + 64 * j)) : ∃ l, l < m ∧ b = x + 64 * l := by
    obtain ⟨l, hl, rfl⟩ := List.mem_map.1 hb
    exact ⟨l, List.mem_range.1 hl, rfl⟩
  obtain ⟨u1, hcopy1, hu1, hkeys⟩ := State.kvCopy_lines (c := c) (src := ka) (dst := key) (hu.accesses.unheld h.unheld)
    (fun j hj => hu.accesses.readable (happends.keyRead j hj)) (fun j hj => hu.accesses.writable (happends.keyWrite j hj))
    (fun j l hj hl => hu.accesses.apart (happends.keyApart j l hj hl).1) (fun j l hj hl hne => hu.accesses.apart (happends.distinct j l hj hl hne).1)
  have ha1 := hu.writes.trans hu1
  obtain ⟨u2, hcopy2, hu2, hvalues⟩ := State.kvCopy_lines (c := c) (src := va) (dst := value) (ha1.accesses.unheld h.unheld)
    (fun j hj => ha1.accesses.readable (happends.valueRead j hj)) (fun j hj => ha1.accesses.writable (happends.valueWrite j hj))
    (fun j l hj hl => ha1.accesses.apart (happends.valueApart j l hj hl)) (fun j l hj hl hne => ha1.accesses.apart (happends.distinct j l hj hl hne).2)
  have ha2 := ha1.trans hu2
  have hcountLine : u2.lineAt (countLine r.base layer) = s.lineAt (countLine r.base layer) := by
    refine ha2.lineAt (fun b hb => ?_)
    simp only [List.nil_append, List.mem_append] at hb
    obtain hb | hb := hb
    · obtain ⟨l, hl, rfl⟩ := hlist hb
      exact (happends.countApart l hl).1
    · obtain ⟨l, hl, rfl⟩ := hlist hb
      exact (happends.countApart l hl).2
  obtain ⟨u3, hput, hu3, hcount⟩ := State.kvCount_counts (c := c) (ha2.accesses.unheld h.unheld) h.base (ha2.accesses.writable h.writable)
    (by rw [hcountLine, h.clean]) (s.layerCount r.base layer + 1)
  have ha3 := ha2.trans hu3
  refine ⟨u3.endCall q seq 0 0, exec_kvAppend_one hturn (hu.accesses.unheld h.unheld) hcall hheads hroom (by rw [← hkey, hvec]; exact hcopy1)
    (by rw [← hvalue, hvec]; exact hcopy2) hput (ha3.accesses.calm h.calm), State.endCall_callEnds_of_qmg ha3.accesses.qmg 0 0, hcount, fun j hj => ⟨?_, ?_⟩⟩
  · rw [State.endCall_lineAt, hu3.lineAt (fun b hb => ?_), hu2.lineAt (fun b hb => ?_), hkeys j hj, hu.lineAt]
    · obtain ⟨l, hl, rfl⟩ := hlist hb
      exact ha1.accesses.apart (happends.keyApart j l hj hl).2.2
    · rw [List.mem_singleton.1 hb]
      exact ha2.accesses.apart (happends.countApart j hj).1.symm
  · rw [State.endCall_lineAt, hu3.lineAt (fun b hb => ?_), hvalues j hj, hu1.lineAt (fun b hb => ?_), hu.lineAt]
    · obtain ⟨l, hl, rfl⟩ := hlist hb
      exact hu.accesses.apart (happends.keyApart l j hl hj).2.1.symm
    · rw [List.mem_singleton.1 hb]
      exact ha2.accesses.apart (happends.countApart j hj).2.symm

/-- Lines at different addresses of which no two share a place in a slot, as an append's are, are apart: those of the key lie below those of the value, and both above the session tile. -/
theorem State.appendsTo_of_lines (h : s.KvLayer c g layer r k) {m : Nat} (hvec : k.vec = 64 * m)
    (hroom : s.layerCount r.base layer + 1 ≤ k.capacity) {line key value : Nat} (hline : line = countLine r.base layer)
    (hkey : key = k.place r.base layer 0 (s.layerCount r.base layer) 0) (hvalue : value = k.place r.base layer 0 (s.layerCount r.base layer) 1)
    (hlines : ∀ j, j < m → s.readable c.actor (ka + 64 * j) ∧ s.readable c.actor (va + 64 * j) ∧ s.writable c.actor (key + 64 * j) ∧ s.writable c.actor (value + 64 * j))
    (hslots : ∀ x y j l, x ∈ [line, key + 64 * j, value + 64 * j] → y ∈ [line, key + 64 * l, value + 64 * l, ka + 64 * l, va + 64 * l] →
      j < m → l < m → x ≠ y → s.loc (tileOf x) = s.loc (tileOf y) → lineOf x ≠ lineOf y)
    (hsources : ∀ j l, j < m → l < m → ka + 64 * l ≠ key + 64 * j ∧ ka + 64 * l ≠ value + 64 * j ∧ va + 64 * l ≠ key + 64 * j ∧ va + 64 * l ≠ value + 64 * j) :
    s.AppendsTo c line key value ka va m := by
  have hbelow : key + 64 * m ≤ value := by
    have hcap : 1 * k.vec ≤ k.capacity * k.vec := Nat.mul_le_mul_right _ (by omega)
    rw [hvalue, KvSession.place_value, ← hkey]
    omega
  have habove : line < key := by
    have hfew := h.few
    rw [hline, countLine, hkey, KvSession.place]
    omega
  have hapart {x y j l : Nat} (hj : j < m) (hl : l < m) (hx : x ∈ [line, key + 64 * j, value + 64 * j])
      (hy : y ∈ [line, key + 64 * l, value + 64 * l, ka + 64 * l, va + 64 * l]) (hne : x ≠ y) : s.apart x y :=
    State.apart_iff.2 (hslots x y j l hx hy hj hl hne)
  refine ⟨fun j hj => (hlines j hj).1, fun j hj => (hlines j hj).2.1, fun j hj => (hlines j hj).2.2.1, fun j hj => (hlines j hj).2.2.2,
    fun j l hj hl => ?_, fun j l hj hl => ?_, fun j l hj hl hne => ⟨?_, ?_⟩, fun j hj => ⟨?_, ?_⟩⟩
  · obtain ⟨hkk, -, hvk, -⟩ := hsources j l hj hl
    exact ⟨hapart hj hl (by simp) (by simp) hkk.symm, hapart hj hl (by simp) (by simp) hvk.symm, hapart hj hl (by simp) (by simp) (by omega)⟩
  · exact hapart hj hl (by simp) (by simp) (hsources j l hj hl).2.2.2.symm
  · exact hapart hj hl (by simp) (by simp) (by omega)
  · exact hapart hj hl (by simp) (by simp) (by omega)
  · exact hapart hj hj (by simp) (by simp) (by omega)
  · exact hapart hj hj (by simp) (by simp) (by omega)

end

end Sys2Proof.Machine
end

section
/-! PROOFS. KV_ATTEND of one head (R220), and what the key-value commands settle. -/

namespace Sys2Proof.Machine

/-! ### Vectors of 64 BF16 elements -/

/-- A vector of 64 BF16 elements, in two lines. -/
def State.vectorAt (s : State) (x : Nat) : List Nat := kvElems 7 ((s.lineAt x).1 ++ (s.lineAt (x + 64)).1)

/-- A vector's two lines are readable and not poisoned. -/
def State.vectorReadable (s : State) (actor x : Nat) : Prop :=
  s.readable actor x ∧ s.readable actor (x + 64) ∧ (s.lineAt x).2 = false ∧ (s.lineAt (x + 64)).2 = false

theorem kvElems_length (l : List Byte) : (kvElems 7 l).length = l.length / 2 := by
  rw [kvElems, chunks_map, List.length_map, List.length_range]
  rfl

theorem State.vectorAt_length (s : State) (x : Nat) : (s.vectorAt x).length = 64 := by
  rw [State.vectorAt, kvElems_length, List.length_append, s.lineAt_length, s.lineAt_length]

theorem attend_length (scale : Nat) (q : List Nat) (kv : List (Nat × List Nat × List Nat)) : (attend scale q kv).length = q.length := by
  unfold attend
  split <;> simp

section
variable {s t u : State} {c : SvcCall} {q seq g layer : Nat} {k : KvSession} {r : Region} {gs sc qa oa : Nat}

theorem State.Heats.vectorAt (h : s.Heats t) (x : Nat) : t.vectorAt x = s.vectorAt x := by
  rw [State.vectorAt, h.lineAt, h.lineAt, State.vectorAt]

theorem State.Heats.vectorReadable (h : s.Heats t) {actor x : Nat} (hs : s.vectorReadable actor x) : t.vectorReadable actor x := by
  obtain ⟨hfirst, hsecond, hclean, hclean'⟩ := hs
  exact ⟨h.accesses.readable hfirst, h.accesses.readable hsecond, by rwa [h.lineAt], by rwa [h.lineAt]⟩

theorem State.engBytes_vector (hs : s.unheld) {actor x : Nat} (h : s.vectorReadable actor x) (cls : Nat) :
    ∃ l u, s.engBytes actor cls x 128 [] true = (l, u) ∧ l.poison = false ∧ l.refused = false ∧ kvElems 7 l.data = s.vectorAt x ∧ s.Heats u := by
  obtain ⟨hfirst, hsecond, hclean, hclean'⟩ := h
  obtain ⟨u, hu, hheat⟩ := State.engBytes_lines (m := 2) hs hfirst.1 cls (fun j hj => by
    obtain rfl | rfl : j = 0 ∨ j = 1 := by omega
    · exact hfirst
    · exact hsecond)
  refine ⟨_, u, hu, ?_, rfl, ?_, hheat⟩
  · simp [List.range_succ, hclean, hclean']
  · simp [List.range_succ, State.vectorAt]

/-- A token's key and value are read for the attention of a session of one head (R220); its rank is where its value lay as the call began. -/
def State.attendToken (c : SvcCall) (k : KvSession) (base layer : Nat) (u : State) (b : List (Nat × List Nat × List Nat) × Bool × Bool × State) (n : Nat) :
    List (Nat × List Nat × List Nat) × Bool × Bool × State :=
  let (x, w1) := b.2.2.2.engBytes c.actor c.cls (k.place base layer 0 n 0) 128 [] true
  let (y, w2) := w1.engBytes c.actor c.cls (k.place base layer 0 n 1) 128 [] true
  (b.1 ++ [(u.arrival (k.place base layer 0 n 1), kvElems 7 x.data, kvElems 7 y.data)], b.2.1 || x.refused || y.refused, b.2.2.1 || x.poison || y.poison, w2)

/-- The tokens of a layer of one head: in the vat all have one rank. -/
def State.tokens (s : State) (k : KvSession) (base layer n : Nat) : List (Nat × List Nat × List Nat) :=
  (List.range n).map (fun i => (1, s.vectorAt (k.place base layer 0 i 0), s.vectorAt (k.place base layer 0 i 1)))

theorem State.arrival_readable (h : s.Heats u) {actor x : Nat} (hs : s.vectorReadable actor x) : u.arrival x = 1 := by
  obtain ⟨⟨-, -, -, hhome, -⟩, -⟩ := hs
  have hhome' : u.home (x / 16384) = 1 := (h.home _).trans hhome
  unfold State.arrival
  split <;> simp_all

theorem State.attendTokens (hs : s.unheld) {base : Nat} (n : Nat) (hrank : ∀ i, i < n → u.arrival (k.place base layer 0 i 1) = 1)
    (h : ∀ i, i < n → s.vectorReadable c.actor (k.place base layer 0 i 0) ∧ s.vectorReadable c.actor (k.place base layer 0 i 1)) :
    ∃ v, (List.range n).foldl (State.attendToken c k base layer u) ([], false, false, s) = (s.tokens k base layer n, false, false, v) ∧ s.Heats v := by
  induction n with
  | zero => exact ⟨s, rfl, .refl s⟩
  | succ n ih =>
    obtain ⟨v, hv, hheat⟩ := ih (fun i hi => hrank i (by omega)) (fun i hi => h i (by omega))
    obtain ⟨hkey, hvalue⟩ := h n (by omega)
    obtain ⟨x, w1, hx, hxp, hxr, hxe, hw1⟩ := State.engBytes_vector (hheat.accesses.unheld hs) (hheat.vectorReadable hkey) c.cls
    have hheat1 := hheat.trans hw1
    obtain ⟨y, w2, hy, hyp, hyr, hye, hw2⟩ := State.engBytes_vector (hheat1.accesses.unheld hs) (hheat1.vectorReadable hvalue) c.cls
    refine ⟨w2, ?_, hheat1.trans hw2⟩
    rw [List.range_succ, List.foldl_append, hv]
    simp [State.attendToken, hx, hy, hxp, hxr, hyp, hyr, hxe, hye, hheat.vectorAt, hheat1.vectorAt, hrank n (by omega), State.tokens, List.range_succ]

/-! ### KV_ATTEND -/

theorem kvAttend_uneven (h : s.KvLayer c g layer r k) (hturn : s.kvTurn q seq 2 = some c) (hgroups : gs = 0 ∨ gs % k.heads ≠ 0) :
    ∃ t, exec (.kvAttend q seq g layer gs sc qa oa [] none) s = .next t ∧ s.callEnds t q seq 2 0 := by
  obtain ⟨u, hu, hcall⟩ := h.counts
  refine ⟨u.endCall q seq 2 0, ?_, State.endCall_callEnds_of_qmg hu.accesses.qmg 2 0⟩
  change execKvAttend q seq g layer gs sc qa oa [] none s = _
  rw [execKvAttend, hturn]
  simp only [hcall]
  rw [if_pos hgroups]
  exact congrArg Host.Outcome.next (State.endCall_settle u q seq 2 0 (hu.accesses.calm h.calm))

theorem State.Accesses.enginesHeld (h : s.Accesses t) : t.enginesHeld = s.enginesHeld := by
  have hrow (e : Nat) : t.rowHeld e = s.rowHeld e := by rw [State.rowHeld, h.pwr, State.rowHeld]
  simp only [State.enginesHeld, funext hrow]

/-- While every engine is in hold the call goes on (R365). -/
theorem kvAttend_held (h : s.KvLayer c g layer r k) (hturn : s.kvTurn q seq 2 = some c) (hpos : 0 < gs) (hdivides : gs % k.heads = 0) (hheld : s.enginesHeld = true) :
    ∃ t, exec (.kvAttend q seq g layer gs sc qa oa [] none) s = .next t ∧ t.svc = s.svc ∧ s.keepsBytes t := by
  obtain ⟨u, hu, hcall⟩ := h.counts
  refine ⟨u, ?_, hu.accesses.svc, hu.keepsBytes⟩
  change execKvAttend q seq g layer gs sc qa oa [] none s = _
  rw [execKvAttend, hturn]
  simp only [hcall]
  rw [if_neg (by omega), if_pos (hu.accesses.enginesHeld.trans hheld)]
  exact congrArg Host.Outcome.next (State.settle_calm (hu.accesses.calm h.calm))

theorem exec_kvAttend_one (hturn : s.kvTurn q seq 2 = some c) {count : Nat} {u u1 u2 u3 : State} (hs : u.unheld)
    (hcall : ∀ cmd f, s.kvCall c cmd g layer [] f = (f r.base k count u).settle) (hheads : k.heads = 1) (hvec : k.vec = 128) (hfmt : k.fmt = 7)
    (hfree : u.enginesHeld = false) {l : LineIn} (hquery : u.engBytes c.actor c.cls qa 128 [] true = (l, u1)) (hclean : l.poison = false) (hallowed : l.refused = false)
    {kv : List (Nat × List Nat × List Nat)} (htokens : (List.range count).foldl (State.attendToken c k r.base layer u) ([], false, false, u1) = (kv, false, false, u2))
    (hput : u2.svcPut c oa ((attend sc (kvElems 7 l.data) kv).flatMap (leBytes 4)) false [] = (false, u3)) (hcalm : u3.calm) :
    exec (.kvAttend q seq g layer 1 sc qa oa [] none) s = .next (u3.endCall q seq 0 0) := by
  change execKvAttend q seq g layer 1 sc qa oa [] none s = _
  unfold State.attendToken at htokens
  rw [execKvAttend, hturn]
  simp only [hcall]
  rw [if_neg (by simp [hheads])]
  simp only [hfree, State.engHoldAll_unheld (k := c.worker (.kvAttend q seq g layer 1 sc qa oa [] none)) rfl _ hs, Bool.false_eq_true, if_false,
    List.range_one, List.foldl_cons, List.foldl_nil, hheads, hvec, hfmt, Nat.zero_mul, Nat.mul_zero, Nat.add_zero, Nat.zero_div, hquery, hclean, hallowed,
    Bool.false_and, Bool.or_false, htokens, hput]
  exact congrArg Host.Outcome.next (State.endCall_settle u3 q seq 0 0 hcalm)

/-- One query head over a session of one head of 64 BF16 elements (R220). -/
theorem kvAttend_one (h : s.KvLayer c g layer r k) (hturn : s.kvTurn q seq 2 = some c) (hheads : k.heads = 1) (hsize : k.headSize = 64) (hfmt : k.fmt = 7)
    (hfree : s.enginesHeld = false) (hquery : s.vectorReadable c.actor qa)
    (htokens : ∀ i, i < s.layerCount r.base layer → s.vectorReadable c.actor (k.place r.base layer 0 i 0) ∧ s.vectorReadable c.actor (k.place r.base layer 0 i 1))
    (hout : ∀ j, j < 4 → s.writable c.actor (oa + 64 * j)) :
    ∃ t, exec (.kvAttend q seq g layer 1 sc qa oa [] none) s = .next t ∧ s.callEnds t q seq 0 0
      ∧ ∀ j, j < 4 → t.lineAt (oa + 64 * j) = ((((attend sc (s.vectorAt qa) (s.tokens k r.base layer (s.layerCount r.base layer))).flatMap (leBytes 4)).drop (64 * j)).take 64, false) := by
  have hvec : k.vec = 128 := by simp [KvSession.vec, KvSession.elem, hsize, hfmt]
  obtain ⟨u, hu, hcall⟩ := h.counts
  obtain ⟨l, u1, hread, hclean, hallowed, helems, hu1⟩ := State.engBytes_vector (hu.accesses.unheld h.unheld) (hu.vectorReadable hquery) c.cls
  have hread1 := hu.trans hu1
  obtain ⟨u2, hfold, hu2⟩ := State.attendTokens (u := u) (hread1.accesses.unheld h.unheld) (s.layerCount r.base layer)
    (fun i hi => State.arrival_readable hu (htokens i hi).2)
    (fun i hi => ⟨hread1.vectorReadable (htokens i hi).1, hread1.vectorReadable (htokens i hi).2⟩)
  have hread2 := hread1.trans hu2
  have hsame : u1.tokens k r.base layer (s.layerCount r.base layer) = s.tokens k r.base layer (s.layerCount r.base layer) := by
    simp only [State.tokens, hread1.vectorAt]
  have hlength : ((attend sc (s.vectorAt qa) (s.tokens k r.base layer (s.layerCount r.base layer))).flatMap (leBytes 4)).length = 64 * 4 := by
    simp [attend_length, s.vectorAt_length]
  obtain ⟨u3, hput, hu3, hlines⟩ := State.svcPut_lines (c := c) (a := oa) (m := 4) (hread2.accesses.unheld h.unheld) (hout 0 (by omega)).1 false hlength (by omega)
    (fun j hj => hread2.accesses.writable (hout j hj))
  have haccess := hread2.accesses.trans hu3.accesses
  rw [hsame] at hfold
  refine ⟨u3.endCall q seq 0 0, exec_kvAttend_one hturn (hu.accesses.unheld h.unheld) hcall hheads hvec hfmt (hu.accesses.enginesHeld.trans hfree) hread hclean hallowed hfold
    (by rw [helems, hu.vectorAt]; exact hput) (haccess.calm h.calm), State.endCall_callEnds_of_qmg haccess.qmg 0 0, fun j hj => ?_⟩
  rw [State.endCall_lineAt, hlines j hj]
  rfl

end

/-- Settles O40: the session by what its opening and closing write and keep; a call on a layer by the rule that reads its count, and then by the lines that it copies, counts or attends to. -/
theorem keyValueSessionsKeepTheirTokens : Obligations.KeyValueSessionsKeepTheirTokens := by
  unfold Obligations.KeyValueSessionsKeepTheirTokens
  refine fun s q seq g c hs hcalm => ⟨fun hturn hg layers heads size fmt cap => ⟨fun hbad => ?_, fun hvalid hlease hok hsmall => ?_, fun hvalid hlease hok hfits => ?_⟩,
    fun layer n ka va gs sc qa oa => ⟨fun hclosed => ⟨fun hturn => ?_, fun hturn => ?_, fun hturn => ?_, fun hturn => ?_⟩,
      fun k hsession hbeyond => ⟨fun hturn => ?_, fun hturn => ?_, fun hturn => ?_⟩, fun k hsession hlayer hfew hbase => ?_, fun k hsession hturn => ?_⟩⟩
  · exact ⟨_, exec_kvOpen_bad (k := ⟨layers, heads, size, fmt, cap⟩) hturn hbad, State.endCall_callEnds_of_qmg rfl 2 0⟩
  · exact ⟨_, exec_kvOpen_full (k := ⟨layers, heads, size, fmt, cap⟩) hturn hg hvalid hlease hok hsmall, State.endCall_callEnds_of_qmg rfl 4 0⟩
  · exact kvOpen_opens (k := ⟨layers, heads, size, fmt, cap⟩) hs hcalm hturn hg hvalid hlease hok hfits
  · exact kvCall_misses (State.of_kvTurn hturn) (exec_kvAppend_call hturn) (.inl ⟨hclosed, rfl⟩)
  · exact kvCall_misses (State.of_kvTurn hturn) (exec_kvAttend_call hturn) (.inl ⟨hclosed, rfl⟩)
  · exact kvCall_misses (State.of_kvTurn hturn) (exec_kvTruncate_call hturn) (.inl ⟨hclosed, rfl⟩)
  · exact ⟨_, exec_kvClose_closed hturn hclosed, State.endCall_callEnds_of_qmg rfl 3 0⟩
  · exact kvCall_misses (State.of_kvTurn hturn) (exec_kvAppend_call hturn) (.inr ⟨⟨_, k, hsession, hbeyond⟩, rfl⟩)
  · exact kvCall_misses (State.of_kvTurn hturn) (exec_kvAttend_call hturn) (.inr ⟨⟨_, k, hsession, hbeyond⟩, rfl⟩)
  · exact kvCall_misses (State.of_kvTurn hturn) (exec_kvTruncate_call hturn) (.inr ⟨⟨_, k, hsession, hbeyond⟩, rfl⟩)
  · intro a line count hread hwrite hclean
    have h : s.KvLayer c g layer (s.region g) k := ⟨hs, hcalm, hsession, hlayer, hfew, hbase, hread, hwrite, hclean⟩
    refine ⟨fun hturn => kvAppend_full h hturn, ?_,
      fun hturn => ⟨kvTruncate_counts h hturn, kvTruncate_more h hturn⟩,
      fun hturn => ⟨kvAttend_uneven h hturn, kvAttend_held h hturn, ?_⟩⟩
    · intro hturn hone hheads hvec hroom key value hlines hslots hsources
      subst hone
      have hwhole : k.vec = 64 * (k.vec / 64) := by omega
      exact kvAppend_one h hturn hheads hwhole hroom rfl rfl (State.appendsTo_of_lines h hwhole hroom rfl rfl rfl hlines hslots hsources)
    · intro hone hheads hsize hfmt hfree good vector out hquery htokens hout
      subst hone
      exact kvAttend_one h hturn hheads hsize hfmt hfree hquery htokens hout
  · exact kvClose_closes hs hcalm hturn hsession

end Sys2Proof.Machine
end
